-- ==== Sys2Proof/Word.lean ====
section
/-!
DEFINITION. The word types of the Plynmel: bit vectors of the widths the manual names (R4, R5, R14, R55).
-/

namespace Sys2Proof

/-- A byte of memory. -/
abbrev Byte := BitVec 8
/-- A 64-bit word: a scalar register, an address, a control register (R5, R14, R25). -/
abbrev W64 := BitVec 64
/-- A 32-bit word. -/
abbrev W32 := BitVec 32
/-- The contents of a vector register (R14). -/
abbrev VWord := BitVec 2048
/-- The contents of a predicate register, one bit per byte lane (R14). -/
abbrev PWord := BitVec 256
/-- An s or v register field (R55). -/
abbrev R6 := BitVec 6
/-- A p register field (R55). -/
abbrev R5 := BitVec 5
/-- A b register, g slot or z tile field (R55). -/
abbrev R3 := BitVec 3

end Sys2Proof
end

