-- ==== Sys2Proof/Word/Codes.lean ====
section
/-!
DEFINITION. The operand records of the slot formats (R57 to R63): one field per box of the manual's ladder, at its
width; the reserved boxes are not kept, since they must be zero (R7). Also the small closed sets of names that the rows
of the opcode table are parametrised by.
-/

namespace Sys2Proof

/-- The slot classes of a bundle (R44). -/
inductive SlotClass where
  | scalar | control | vector | matrix | engine | memory
deriving DecidableEq, Repr

/-- The wait/signal block that ends every S5 and S6 instruction (R60). -/
structure WaitSig where
  we : BitVec 1
  ws : BitVec 8
  wt : BitVec 16
  se : BitVec 1
  ss : BitVec 8
  si : BitVec 8
  spt : BitVec 2
deriving DecidableEq, Repr

/-- Format VR, and format VS with the scalar register in `vb` (R59). -/
structure VR where
  vd : BitVec 6
  va : BitVec 6
  qa : BitVec 3
  vb : BitVec 6
  qb : BitVec 3
  vc : BitVec 6
  qc : BitVec 3
  pg : BitVec 5
  t : BitVec 4
  rm : BitVec 3
  zm : BitVec 1
  fr : BitVec 4
  fx : BitVec 6
deriving DecidableEq, Repr

/-- Format VG, the geometry predicates (R59). -/
structure VG where
  vd : BitVec 6
  pd : BitVec 5
  pg : BitVec 5
  ga : BitVec 3
  gb : BitVec 3
  gc : BitVec 3
  ge : BitVec 3
  gh : BitVec 3
  md : BitVec 2
  nf : BitVec 1
deriving DecidableEq, Repr

/-- Format M, the matrix class (R61). -/
structure FM where
  vd : BitVec 6
  va : BitVec 6
  qa : BitVec 3
  sd : BitVec 6
  sa : BitVec 6
  zt : BitVec 3
  imm : BitVec 8
  w : WaitSig
deriving DecidableEq, Repr

/-- Format E, the engine class (R62). -/
structure FE where
  sd : BitVec 6
  sa : BitVec 6
  sb : BitVec 6
  sc : BitVec 6
  fn : BitVec 14
  w : WaitSig
deriving DecidableEq, Repr

/-- Format LS, scalar memory (R63). -/
structure LS where
  sd : BitVec 6
  sa : BitVec 6
  sx : BitVec 6
  sh : BitVec 2
  sco : BitVec 2
  off : BitVec 32
deriving DecidableEq, Repr

/-- Format LV, vector memory (R63). -/
structure LV where
  vd : BitVec 6
  qd : BitVec 3
  sa : BitVec 6
  sx : BitVec 6
  pg : BitVec 5
  t : BitVec 4
  sco : BitVec 2
  off : BitVec 24
deriving DecidableEq, Repr

/-- Format LG, gather and scatter (R63). -/
structure LG where
  vd : BitVec 6
  qd : BitVec 3
  sa : BitVec 6
  vb : BitVec 6
  qb : BitVec 3
  pg : BitVec 5
  t : BitVec 4
  sco : BitVec 2
deriving DecidableEq, Repr

/-- Format LA, atomics (R63). -/
structure LA where
  sd : BitVec 6
  sa : BitVec 6
  sb : BitVec 6
  sc : BitVec 6
  sco : BitVec 2
  w : BitVec 1
deriving DecidableEq, Repr

/-- Format LX, exposed seam (R63). -/
structure LX where
  sd : BitVec 6
  sa : BitVec 6
  sb : BitVec 6
  ch : BitVec 3
  imm : BitVec 35
deriving DecidableEq, Repr

/-- The rows of the matrix class (R67, R226). -/
inductive MOp where
  | mcfg | mfmt | mgoFix | mgoLoop | mldw | mrdz | mrdb | mcal | mzclr | mav | msig
deriving DecidableEq, Repr

/-- The rows of the engine class (R68, R200, R203). -/
inductive EOp where
  | cpy | cpy2 | cpy3 | cpyxScale | cpyxAdd | cpyxCast | cpyxRadd | cpyxRmax | cpyh | fcpy
  | mxredStart | mxredRelay | mxredFinish | rsig | esig | pmap | pmq | launch
deriving DecidableEq, Repr

/-- Names one context: its region id (R295) and its number in the region (R299). -/
structure CtxId where
  rid : BitVec 32
  num : BitVec 16
deriving DecidableEq, Repr

/-- The kinds of pre-emption request (R321), in the order in which R322 ranks them. -/
inductive ReqKind where
  | supplyLoss | stop | trapEntry | management | classWait | migration
deriving DecidableEq, Repr

/-- Why a save met a fault on its area (R315 cause 0x1B, R326). -/
inductive SaveFault where
  | page | permission | uncorrectable
deriving DecidableEq, Repr

/-- What a started engine command met (R195, R249, R337). -/
inductive EngineFault where
  | route | remote | removedBank | uncorrectable
deriving DecidableEq, Repr

/-- The answer that returns for a load, an atomic or another request (R331, R337). `mismatch` says that the record of the
line at its home does not cover the device that asks (R290). -/
inductive Answer where
  | data (value : BitVec 512) (uncorrectable mismatch : Bool)
  | done
  | fault
deriving DecidableEq, Repr

/-- A host access to a line of host memory (R280): the line's key, and the bytes it writes by a mask, which is empty for a
read. -/
structure HostAccess where
  line : Nat
  data : BitVec 512
  mask : BitVec 64
deriving DecidableEq, Repr

/-- What a meter takes, in µJ (R356): the energy charged and the saving credited. -/
structure EnergyBill where
  charge : Nat
  credit : Nat
deriving DecidableEq, Repr

/-- A packet that another device has sent to a third (R330, R332): its lane, and its bytes. -/
structure Forwarded where
  lane : BitVec 2
  bytes : List Byte
deriving DecidableEq, Repr

/-- What the host link brings beside its state (R342, R355): an error through AER, or the two latencies, in nanoseconds, of the
latency tolerance capability. -/
inductive LinkReport where
  | error (uncorrectable : Bool)
  | tolerance (snoop noSnoop : Nat)
deriving DecidableEq, Repr

/-- The host's outcome of a start's tests (R359 to R361): whether the firmware's signature verified, the version of its image,
whether the tests passed, and the seam states found, as pairs of a core number and a state code of R267. -/
structure StartReport where
  sigOk : Bool
  version : Nat
  testsOk : Bool
  seams : List (Nat × BitVec 2)
deriving DecidableEq, Repr

end Sys2Proof
end

