-- ==== Sys2Proof/Config.lean ====
section
/-!
DEFINITION. What an implementation fixes. The free values stand for every value the manual leaves open (R9 and the rules
named where they are used): constants without a body, of which no proof can know a value. They are applied to a counter
of the state that every use advances (log entry 2).
-/

namespace Sys2Proof.Config

/-- A pattern of `w` bits that the manual leaves open; the argument is the state's counter of free values. -/
opaque freeBits (w : Nat) : Nat → BitVec w

/-- A number that the manual leaves open. -/
opaque freeNat : Nat → Nat

/-- A choice between two outcomes that the manual leaves open. -/
opaque freeBool : Nat → Bool

/-- Which translation an access uses that comes after a change of a table entry and before the invalidation (R272): the
counter, and the page. The number picks one of those that are held, or the fresh one. -/
opaque freeStale : Nat → Nat → Nat

/-- What the host's tables say of a page of 4 KiB (R274): how often they have changed, the PASID and the page; the host page it
maps to, and whether it may be read and written; none where it does not translate. -/
opaque freeHostPage : Nat → BitVec 20 → Nat → Option (Nat × Bool × Bool)

/-- Entries of a core's TLB and of a cluster's translation cache (R272). -/
def tlbEntries : Nat := 256
def sharedEntries : Nat := 8192

/-- Bytes that the manual leaves open: capabilities and signatures of the responder (R362). -/
opaque freeBytes : Nat → List Byte

/-- The certificate chain in slot 0 of the responder, and its digest (R361, R362). -/
opaque certChain : List Byte
opaque chainDigest : List Byte

/-- Units of time: 105,000 to the nanosecond, so that a cycle of the 2.1 GHz clock (10/21 ns) and a slew of 200 ppm of it
(R357) are whole numbers. -/
def unitsPerNs : Nat := 105000

/-- One cycle of the arithmetic clock, unstretched (R3). -/
def cycleUnits : Nat := 50000

/-- What a byte of memory outside the pool reads as before anything writes it. DESIGN CHOICE, log entry 5: the manual
gives DRAM and host memory no contents at power-on. A pool byte reads zero, as R240 has it for SCR banks. -/
def memoryDefault : Byte := 0

/-- The generator seed that replaces zero (R31, R299). -/
def rngDefault : W64 := 0x9E3779B97F4A7C15

/-- The lowest space-0x2 address, the program counter of a context before a launch. DESIGN CHOICE, log entry 4. -/
def pcDefault : W64 := 0x2000000000000000

/-- The first region id that acceptance gives. DESIGN CHOICE, log entry 8: R295 says only that an id is given. -/
def firstRid : BitVec 32 := 1

/-- Temperature, in degrees Celsius, of every column and tile bank at reset. DESIGN CHOICE, log entry 6. -/
def startTemp : BitVec 8 := 25

/-- Number of cores of the package, clusters of a die (R2), fabric copy engines of a die and commands of an engine (R339). -/
def cores : Nat := 1152
def clustersPerDie : Nat := 6
def enginesPerDie : Nat := 8
def engineRoom : Nat := 16

end Sys2Proof.Config
end

