-- ==== Sys2Proof/Syntax.lean ====
section
/-!
DEFINITION. One constructor for every row of spec/opcode_table.json: the instructions of every slot class, with the fields
their encodings carry (R57 to R63), and the events of the machine and its surroundings (95_what_each_step_holds.md), with
what the surroundings decide about them. The docstring of a constructor names the row and its rule. The order: scalar and
control, vector, geometry and memory rows; six events; matrix and engine rows; the other events; rows without fields. Lean's
compiler can build values of the first 245 constructors only, which is why the machine never has to build one of the rest
(Decode.lean, Slot).
-/

namespace Sys2Proof

/-- The rows of the opcode table. -/
inductive Instr where
  /-- ADD (R102). -/
  | add (d a b : R6)
  /-- SUB (R102). -/
  | sub (d a b : R6)
  /-- AND (R102). -/
  | and (d a b : R6)
  /-- OR (R102). -/
  | or (d a b : R6)
  /-- XOR (R102). -/
  | xor (d a b : R6)
  /-- ANDN (R102). -/
  | andn (d a b : R6)
  /-- SHL (R102). -/
  | shl (d a b : R6)
  /-- SHR (R102). -/
  | shr (d a b : R6)
  /-- SAR (R102). -/
  | sar (d a b : R6)
  /-- ROL (R102). -/
  | rol (d a b : R6)
  /-- MUL (R102). -/
  | mul (d a b : R6)
  /-- MULH (R102). -/
  | mulh (d a b : R6)
  /-- MULHN (R102). -/
  | mulhn (d a b : R6)
  /-- DIV (R103). -/
  | div (d a b : R6)
  /-- DIVN (R103). -/
  | divn (d a b : R6)
  /-- REM (R103). -/
  | rem (d a b : R6)
  /-- REMN (R103). -/
  | remn (d a b : R6)
  /-- MIN (R102). -/
  | min (d a b : R6)
  /-- MAX (R102). -/
  | max (d a b : R6)
  /-- MINN (R102). -/
  | minn (d a b : R6)
  /-- MAXN (R102). -/
  | maxn (d a b : R6)
  /-- CLZ (R102). -/
  | clz (d a : R6)
  /-- POPC (R102). -/
  | popc (d a : R6)
  /-- ADD_IMM (R102). -/
  | addImm (d a : R6) (imm : BitVec 12)
  /-- SUB_IMM (R102). -/
  | subImm (d a : R6) (imm : BitVec 12)
  /-- AND_IMM (R102). -/
  | andImm (d a : R6) (imm : BitVec 12)
  /-- OR_IMM (R102). -/
  | orImm (d a : R6) (imm : BitVec 12)
  /-- XOR_IMM (R102). -/
  | xorImm (d a : R6) (imm : BitVec 12)
  /-- ANDN_IMM (R102). -/
  | andnImm (d a : R6) (imm : BitVec 12)
  /-- SHL_IMM (R102). -/
  | shlImm (d a k : R6)
  /-- SHR_IMM (R102). -/
  | shrImm (d a k : R6)
  /-- SAR_IMM (R102). -/
  | sarImm (d a k : R6)
  /-- ROL_IMM (R102). -/
  | rolImm (d a k : R6)
  /-- MUL_IMM (R102). -/
  | mulImm (d a : R6) (imm : BitVec 12)
  /-- MULH_IMM (R102). -/
  | mulhImm (d a : R6) (imm : BitVec 12)
  /-- MULHN_IMM (R102). -/
  | mulhnImm (d a : R6) (imm : BitVec 12)
  /-- DIV_IMM (R103). -/
  | divImm (d a : R6) (imm : BitVec 12)
  /-- DIVN_IMM (R103). -/
  | divnImm (d a : R6) (imm : BitVec 12)
  /-- REM_IMM (R103). -/
  | remImm (d a : R6) (imm : BitVec 12)
  /-- REMN_IMM (R103). -/
  | remnImm (d a : R6) (imm : BitVec 12)
  /-- MIN_IMM (R102). -/
  | minImm (d a : R6) (imm : BitVec 12)
  /-- MAX_IMM (R102). -/
  | maxImm (d a : R6) (imm : BitVec 12)
  /-- MINN_IMM (R102). -/
  | minnImm (d a : R6) (imm : BitVec 12)
  /-- MAXN_IMM (R102). -/
  | maxnImm (d a : R6) (imm : BitVec 12)
  /-- CMP_EQ (R104). -/
  | cmpEq (d a b : R6)
  /-- CMP_NE (R104). -/
  | cmpNe (d a b : R6)
  /-- CMP_LT (R104). -/
  | cmpLt (d a b : R6)
  /-- CMP_GE (R104). -/
  | cmpGe (d a b : R6)
  /-- CMP_LTN (R104). -/
  | cmpLtn (d a b : R6)
  /-- CMP_GEN (R104). -/
  | cmpGen (d a b : R6)
  /-- CMP_EQ_IMM (R104). -/
  | cmpEqImm (d a : R6) (imm : BitVec 12)
  /-- CMP_NE_IMM (R104). -/
  | cmpNeImm (d a : R6) (imm : BitVec 12)
  /-- CMP_LT_IMM (R104). -/
  | cmpLtImm (d a : R6) (imm : BitVec 12)
  /-- CMP_GE_IMM (R104). -/
  | cmpGeImm (d a : R6) (imm : BitVec 12)
  /-- CMP_LTN_IMM (R104). -/
  | cmpLtnImm (d a : R6) (imm : BitVec 12)
  /-- CMP_GEN_IMM (R104). -/
  | cmpGenImm (d a : R6) (imm : BitVec 12)
  /-- FADD (R106). -/
  | fadd (d a b : R6) (t m : BitVec 2)
  /-- FSUB (R106). -/
  | fsub (d a b : R6) (t m : BitVec 2)
  /-- FMUL (R106). -/
  | fmul (d a b : R6) (t m : BitVec 2)
  /-- FDIV (R106). -/
  | fdiv (d a b : R6) (t m : BitVec 2)
  /-- FSQRT (R106). -/
  | fsqrt (d a : R6) (t m : BitVec 2)
  /-- FMIN (R107). -/
  | fmin (d a b : R6) (t : BitVec 2)
  /-- FMAX (R107). -/
  | fmax (d a b : R6) (t : BitVec 2)
  /-- FCMP_EQ (R108). -/
  | fcmpEq (d a b : R6) (t : BitVec 2)
  /-- FCMP_LT (R108). -/
  | fcmpLt (d a b : R6) (t : BitVec 2)
  /-- FCMP_LE (R108). -/
  | fcmpLe (d a b : R6) (t : BitVec 2)
  /-- FCMP_UN (R108). -/
  | fcmpUn (d a b : R6) (t : BitVec 2)
  /-- CVTIF (R109). -/
  | cvtif (d a : R6) (t m : BitVec 2) (u : BitVec 1)
  /-- CVTFI (R109). -/
  | cvtfi (d a : R6) (t m : BitVec 2) (u : BitVec 1)
  /-- CVTFF (R109). -/
  | cvtff (d a : R6) (t m u : BitVec 2)
  /-- FMA_F64 (R110). -/
  | fmaF64 (d a b c : R6)
  /-- FMA_F32 (R110). -/
  | fmaF32 (d a b c : R6)
  /-- PAND (R111). -/
  | pand (d a b : R5)
  /-- POR (R111). -/
  | por (d a b : R5)
  /-- PXOR (R111). -/
  | pxor (d a b : R5)
  /-- PANDN (R111). -/
  | pandn (d a b : R5)
  /-- PCMP_EQ (R112). -/
  | pcmpEq (d : R5) (a b : R6)
  /-- PCMP_NE (R112). -/
  | pcmpNe (d : R5) (a b : R6)
  /-- PCMP_LT (R112). -/
  | pcmpLt (d : R5) (a b : R6)
  /-- PCMP_GE (R112). -/
  | pcmpGe (d : R5) (a b : R6)
  /-- PCMP_LTN (R112). -/
  | pcmpLtn (d : R5) (a b : R6)
  /-- PCMP_GEN (R112). -/
  | pcmpGen (d : R5) (a b : R6)
  /-- MOVI (R105). -/
  | movi (d : R6) (imm : BitVec 18)
  /-- MOVK (R105). -/
  | movk (d : R6) (h : BitVec 2) (k : BitVec 16)
  /-- ADDPC (R105). -/
  | addpc (d : R6) (imm : BitVec 18)
  /-- PBR (R115). -/
  | pbr (b : R3) (off : BitVec 21)
  /-- PBRR (R115). -/
  | pbrr (b : R3) (a : R6)
  /-- BR (R116). -/
  | br (b : R3) (pg : R5)
  /-- BRN (R116). -/
  | brn (b : R3) (pg : R5)
  /-- CALL (R117). -/
  | call (b : R3) (pg : R5)
  /-- CHK (R118). -/
  | chk (b : R3) (pg : R5) (a : R6)
  /-- LOOP (R120). -/
  | loop (a : R6) (off : BitVec 18)
  /-- LOOPI (R120). -/
  | loopi (n off : BitVec 12)
  /-- MFC (R124). -/
  | mfc (d : R6) (sel : BitVec 8) (spc : BitVec 2)
  /-- MTC (R125). -/
  | mtc (a : R6) (sel : BitVec 8) (spc : BitVec 2)
  /-- MTC_RNG (R31). -/
  | mtcRng (a : R6)
  /-- MTC_TRPB (R34). -/
  | mtcTrpb (a : R6)
  /-- MTC_TRPC (R34). -/
  | mtcTrpc (a : R6)
  /-- MTC_FPF (R97). -/
  | mtcFpf (a : R6)
  /-- MTC_FEREC (R97). -/
  | mtcFerec (a : R6)
  /-- MTC_STATUS (R27). -/
  | mtcStatus (a : R6)
  /-- TWAIT (R191). -/
  | twait (a : R6) (sco tl : BitVec 2) (all : BitVec 1)
  /-- BAR_ARRIVE (R194). -/
  | barArrive (d : R6) (id : BitVec 8) (sco : BitVec 2)
  /-- BAR_WAIT (R194). -/
  | barWait (a : R6) (id : BitVec 8) (sco : BitVec 2)
  /-- CUT (R126). -/
  | cut (id : BitVec 12)
  /-- PRIO (R127). -/
  | prio (c : BitVec 2)
  /-- TRAP (R130). -/
  | trap (code : BitVec 16)
  /-- TRET (R131). -/
  | tret (rt p : BitVec 1) (tb ra : R3)
  /-- VADD (R141). -/
  | vadd (o : VR)
  /-- VSUB (R141). -/
  | vsub (o : VR)
  /-- VADDS (R141). -/
  | vadds (o : VR)
  /-- VSUBS (R141). -/
  | vsubs (o : VR)
  /-- VMUL (R141). -/
  | vmul (o : VR)
  /-- VMULH (R141). -/
  | vmulh (o : VR)
  /-- VMAD (R141). -/
  | vmad (o : VR)
  /-- VMIN (R141). -/
  | vmin (o : VR)
  /-- VMAX (R141). -/
  | vmax (o : VR)
  /-- VABS (R142). -/
  | vabs (o : VR)
  /-- VNEG (R142). -/
  | vneg (o : VR)
  /-- VAND (R142). -/
  | vand (o : VR)
  /-- VOR (R142). -/
  | vor (o : VR)
  /-- VXOR (R142). -/
  | vxor (o : VR)
  /-- VANDN (R142). -/
  | vandn (o : VR)
  /-- VSHL (R141). -/
  | vshl (o : VR)
  /-- VSHR (R141). -/
  | vshr (o : VR)
  /-- VPOPC (R142). -/
  | vpopc (o : VR)
  /-- VCLZ (R142). -/
  | vclz (o : VR)
  /-- VMOV (R142). -/
  | vmov (o : VR)
  /-- VADD_S (R134). -/
  | vaddS (o : VR)
  /-- VSUB_S (R134). -/
  | vsubS (o : VR)
  /-- VADDS_S (R134). -/
  | vaddsS (o : VR)
  /-- VSUBS_S (R134). -/
  | vsubsS (o : VR)
  /-- VMUL_S (R134). -/
  | vmulS (o : VR)
  /-- VMULH_S (R134). -/
  | vmulhS (o : VR)
  /-- VMAD_S (R134). -/
  | vmadS (o : VR)
  /-- VMIN_S (R134). -/
  | vminS (o : VR)
  /-- VMAX_S (R134). -/
  | vmaxS (o : VR)
  /-- VAND_S (R134). -/
  | vandS (o : VR)
  /-- VOR_S (R134). -/
  | vorS (o : VR)
  /-- VXOR_S (R134). -/
  | vxorS (o : VR)
  /-- VANDN_S (R134). -/
  | vandnS (o : VR)
  /-- VSHL_S (R141). -/
  | vshlS (o : VR)
  /-- VSHR_S (R141). -/
  | vshrS (o : VR)
  /-- VFADD (R143). -/
  | vfadd (o : VR)
  /-- VFSUB (R143). -/
  | vfsub (o : VR)
  /-- VFMUL (R143). -/
  | vfmul (o : VR)
  /-- VFMA (R143). -/
  | vfma (o : VR)
  /-- VFNMA (R143). -/
  | vfnma (o : VR)
  /-- VFDIV (R143). -/
  | vfdiv (o : VR)
  /-- VFSQRT (R143). -/
  | vfsqrt (o : VR)
  /-- VFMIN (R144). -/
  | vfmin (o : VR)
  /-- VFMAX (R144). -/
  | vfmax (o : VR)
  /-- VFADD_S (R134). -/
  | vfaddS (o : VR)
  /-- VFSUB_S (R134). -/
  | vfsubS (o : VR)
  /-- VFMUL_S (R134). -/
  | vfmulS (o : VR)
  /-- VFMA_S (R134). -/
  | vfmaS (o : VR)
  /-- VFNMA_S (R134). -/
  | vfnmaS (o : VR)
  /-- VFDIV_S (R134). -/
  | vfdivS (o : VR)
  /-- VFMIN_S (R134). -/
  | vfminS (o : VR)
  /-- VFMAX_S (R134). -/
  | vfmaxS (o : VR)
  /-- VFRCP (R145). -/
  | vfrcp (o : VR)
  /-- VFRSQ (R145). -/
  | vfrsq (o : VR)
  /-- VFEXP2 (R145). -/
  | vfexp2 (o : VR)
  /-- VFLOG2 (R145). -/
  | vflog2 (o : VR)
  /-- VCMP (R146). -/
  | vcmp (o : VR)
  /-- VFCMP (R146). -/
  | vfcmp (o : VR)
  /-- VCMP_S (R146). -/
  | vcmpS (o : VR)
  /-- VFCMP_S (R146). -/
  | vfcmpS (o : VR)
  /-- VSEL (R147). -/
  | vsel (o : VR)
  /-- VBCST (R148). -/
  | vbcst (o : VR)
  /-- VCVT (R149). -/
  | vcvt (o : VR)
  /-- VQNT (R150). -/
  | vqnt (o : VR)
  /-- VQNT_SCALE (R150). -/
  | vqntScale (o : VR)
  /-- VDQNT (R151). -/
  | vdqnt (o : VR)
  /-- VXCH (R152). -/
  | vxch (o : VR)
  /-- VPERM (R152). -/
  | vperm (o : VR)
  /-- VCOMP (R152). -/
  | vcomp (o : VR)
  /-- VEXP (R152). -/
  | vexp (o : VR)
  /-- VSLD (R152). -/
  | vsld (o : VR)
  /-- VRSUM (R153). -/
  | vrsum (o : VR)
  /-- VRMAX (R153). -/
  | vrmax (o : VR)
  /-- VRMIN (R153). -/
  | vrmin (o : VR)
  /-- VRFSUM (R153). -/
  | vrfsum (o : VR)
  /-- VRFMAX (R153). -/
  | vrfmax (o : VR)
  /-- GSET (R158). -/
  | gset (o : VR)
  /-- GIDX (R159). -/
  | gidx (o : VR)
  /-- GOR2 (R163). -/
  | gor2 (o : VG)
  /-- GOR3 (R163). -/
  | gor3 (o : VG)
  /-- GINC (R163). -/
  | ginc (o : VG)
  /-- GINS (R163). -/
  | gins (o : VG)
  /-- GSEG (R161). -/
  | gseg (o : VG)
  /-- LD_I8 (R181). -/
  | ldI8 (o : LS)
  /-- LD_N8 (R181). -/
  | ldN8 (o : LS)
  /-- LD_I16 (R181). -/
  | ldI16 (o : LS)
  /-- LD_N16 (R181). -/
  | ldN16 (o : LS)
  /-- LD_I32 (R181). -/
  | ldI32 (o : LS)
  /-- LD_N32 (R181). -/
  | ldN32 (o : LS)
  /-- LD_I64 (R181). -/
  | ldI64 (o : LS)
  /-- ST_N8 (R181). -/
  | stN8 (o : LS)
  /-- ST_N16 (R181). -/
  | stN16 (o : LS)
  /-- ST_N32 (R181). -/
  | stN32 (o : LS)
  /-- ST_N64 (R181). -/
  | stN64 (o : LS)
  /-- LDS_I32 (R123). -/
  | ldsI32 (o : LS)
  /-- LDS_N32 (R123). -/
  | ldsN32 (o : LS)
  /-- LDS_I64 (R123). -/
  | ldsI64 (o : LS)
  /-- LDA_N32 (R181). -/
  | ldaN32 (o : LS)
  /-- LDA_I64 (R181). -/
  | ldaI64 (o : LS)
  /-- STL_N32 (R181). -/
  | stlN32 (o : LS)
  /-- STL_N64 (R181). -/
  | stlN64 (o : LS)
  /-- AADD (R185). -/
  | aadd (o : LA)
  /-- AAND (R185). -/
  | aand (o : LA)
  /-- AOR (R185). -/
  | aor (o : LA)
  /-- AXOR (R185). -/
  | axor (o : LA)
  /-- AMIN (R185). -/
  | amin (o : LA)
  /-- AMAX (R185). -/
  | amax (o : LA)
  /-- ASWP (R185). -/
  | aswp (o : LA)
  /-- ACAS (R185). -/
  | acas (o : LA)
  /-- VLD (R182). -/
  | vld (o : LV)
  /-- VST (R182). -/
  | vst (o : LV)
  /-- VLDS (R182). -/
  | vlds (o : LV)
  /-- VSTS (R182). -/
  | vsts (o : LV)
  /-- VGTH (R184). -/
  | vgth (o : LG)
  /-- VSCT (R184). -/
  | vsct (o : LG)
  /-- PLD (R183). -/
  | pld (o : LV)
  /-- PST (R183). -/
  | pst (o : LV)
  /-- DRAIN (R186). -/
  | drain (o : LS)
  /-- CLWB (R187). -/
  | clwb (o : LS)
  /-- CLINV (R187). -/
  | clinv (o : LS)
  /-- CLFL (R187). -/
  | clfl (o : LS)
  /-- WAITA (R188). -/
  | waita (o : LS)
  /-- SOWN (R189). -/
  | sown (o : LX)
  /-- SREL (R189). -/
  | srel (o : LX)
  /-- SACT (R189). -/
  | sact (o : LX)
  /-- SPRE (R189). -/
  | spre (o : LX)
  /-- SPRE_ALL (R189). -/
  | spreAll (o : LX)
  /-- SREF (R189). -/
  | sref (o : LX)
  /-- SLDX (R189). -/
  | sldx (o : LX)
  /-- SSTX (R189). -/
  | sstx (o : LX)
  /-- ISSUE_CYCLE (R312). -/
  | issueCycle (core : BitVec 11)
  /-- WAITA_WAKE (R188). -/
  | waitaWake (c : CtxId)
  /-- ACKNOWLEDGMENT (R331). -/
  | acknowledgment (seq : Nat) (ans : Answer)
  /-- HOST_DOORBELL (R345). -/
  | hostDoorbell (tail : W32)
  /-- LOAD_DATA_RETURN (R180). -/
  | loadDataReturn (c : CtxId) (seq : Nat) (ans : Answer)
  /-- PERFORM_AT_HOME (R284). -/
  | performAtHome (core : BitVec 11) (k : Nat)
  /-- MCFG (R227). -/
  | mcfg (o : FM)
  /-- MFMT (R228). -/
  | mfmt (o : FM)
  /-- MGO_FIX (R229). -/
  | mgoFix (o : FM)
  /-- MGO_LOOP (R229). -/
  | mgoLoop (o : FM)
  /-- MLDW (R230). -/
  | mldw (o : FM)
  /-- MRDZ (R231). -/
  | mrdz (o : FM)
  /-- MRDB (R231). -/
  | mrdb (o : FM)
  /-- MCAL (R233). -/
  | mcal (o : FM)
  /-- MZCLR (R234). -/
  | mzclr (o : FM)
  /-- MAV (R232). -/
  | mav (o : FM)
  /-- MSIG (R235). -/
  | msig (o : FM)
  /-- CPY (R197). -/
  | cpy (o : FE)
  /-- CPY2 (R197). -/
  | cpy2 (o : FE)
  /-- CPY3 (R197). -/
  | cpy3 (o : FE)
  /-- CPYX_SCALE (R200). -/
  | cpyxScale (o : FE)
  /-- CPYX_ADD (R200). -/
  | cpyxAdd (o : FE)
  /-- CPYX_CAST (R200). -/
  | cpyxCast (o : FE)
  /-- CPYX_RADD (R200). -/
  | cpyxRadd (o : FE)
  /-- CPYX_RMAX (R200). -/
  | cpyxRmax (o : FE)
  /-- CPYH (R201). -/
  | cpyh (o : FE)
  /-- FCPY (R202). -/
  | fcpy (o : FE)
  /-- MXRED_START (R203). -/
  | mxredStart (o : FE)
  /-- MXRED_RELAY (R203). -/
  | mxredRelay (o : FE)
  /-- MXRED_FINISH (R203). -/
  | mxredFinish (o : FE)
  /-- RSIG (R204). -/
  | rsig (o : FE)
  /-- ESIG (R192). -/
  | esig (o : FE)
  /-- PMAP (R205). -/
  | pmap (o : FE)
  /-- PMQ (R206). -/
  | pmq (o : FE)
  /-- LAUNCH (R207). -/
  | launch (o : FE)
  /-- EMPTY_BUNDLE (R46). -/
  | emptyBundle (ib mi : Bool)
  /-- VECTOR_RESULT_LAND (R155). -/
  | vectorResultLand (c : CtxId)
  /-- GEOMETRY_COMPLETE (R168). -/
  | geometryComplete (c : CtxId)
  /-- WAITA_TIMEOUT (R188). -/
  | waitaTimeout (c : CtxId)
  /-- SOWN_COMPLETE (R262). -/
  | sownComplete (core : BitVec 11) (ch : BitVec 3)
  /-- SREL_COMPLETE (R262). -/
  | srelComplete (core : BitVec 11) (ch : BitVec 3)
  /-- GUARD_REFRESH (R261). -/
  | guardRefresh (core : BitVec 11) (ch : BitVec 3)
  /-- REMOTE_STORE_FAULT (R176). -/
  | remoteStoreFault (c : CtxId) (ba : W64) (addr : W64)
  /-- MATRIX_ENTRY_START (R236). -/
  | matrixEntryStart (c : CtxId)
  /-- TILE_OPERATION (R217). -/
  | tileOperation (c : CtxId) (num : W64)
  /-- NEST_COMPLETE (R229). -/
  | nestComplete (c : CtxId) (num : W64)
  /-- MLDW_COMPLETE (R222). -/
  | mldwComplete (c : CtxId) (num : W64)
  /-- MCAL_COMPLETE (R233). -/
  | mcalComplete (c : CtxId) (num : W64)
  /-- ENGINE_QUEUE_RELEASE (R195). -/
  | engineQueueRelease (c : CtxId)
  /-- ENGINE_OP_COMPLETE (R195). -/
  | engineOpComplete (c : CtxId) (tl : BitVec 2) (num : W64)
  /-- ENGINE_OP_FAILURE (R195). -/
  | engineOpFailure (c : CtxId) (tl : BitVec 2) (num : W64) (why : EngineFault) (done : Nat)
  /-- PAGE_FAULT_REPLAY (R195). -/
  | pageFaultReplay (c : CtxId) (tl : BitVec 2) (num : W64)
  /-- ARRIVAL_DELIVERY (R311). -/
  | arrivalDelivery (core : BitVec 11) (k : Nat)
  /-- POOL_CHANGE_COMPLETE (R246). -/
  | poolChangeComplete (core : BitVec 11)
  /-- CACHE_EVICTION (R280). -/
  | cacheEviction (core : BitVec 11) (line : Nat)
  /-- HOST_SNOOP (R280). -/
  | hostSnoop (core : BitVec 11) (line : HostAccess)
  /-- PATROL_SCRUB (R256). -/
  | patrolScrub (core : BitVec 11) (ch : BitVec 3) (unit : BitVec 23)
  /-- SEAM_CHANNEL_FAIL_MARK (R267). -/
  | seamChannelFailMark (core : BitVec 11) (ch : BitVec 3)
  /-- TRAP_ENTRY (R314). -/
  | trapEntry (c : CtxId)
  /-- PENDING_RECORD_WRITE (R317). -/
  | pendingRecordWrite (c : CtxId)
  /-- DISP_RETRY (R319). -/
  | dispRetry (c : CtxId)
  /-- DISP_DIVERT (R319). -/
  | dispDivert (c : CtxId)
  /-- DISP_END (R319). -/
  | dispEnd (c : CtxId)
  /-- PREEMPTION_REQUEST (R321). -/
  | preemptionRequest (c : CtxId) (kind : ReqKind)
  /-- PREEMPTION_LAND (R323). -/
  | preemptionLand (c : CtxId)
  /-- SAVE_COMPLETE (R324). -/
  | saveComplete (c : CtxId)
  /-- SAVE_ABANDONED (R326). -/
  | saveAbandoned (c : CtxId) (why : SaveFault)
  /-- PLACEMENT (R306). -/
  | placement (c : CtxId)
  /-- MIGRATION_DECISION (R308). -/
  | migrationDecision (c : CtxId)
  /-- CLASS_PREEMPT_REQUEST (R309). -/
  | classPreemptRequest (c : CtxId)
  /-- TEMPERATURE_REFRESH (R307). -/
  | temperatureRefresh (cluster : BitVec 5) (temps : List (BitVec 8))
  /-- CONTEXT_RETIRE (R129). -/
  | contextRetire (c : CtxId)
  /-- LAUNCH_DECISION (R298). -/
  | launchDecision (c : CtxId)
  /-- REGION_START (R302). -/
  | regionStart (rid : BitVec 32)
  /-- REGION_CONDITION_EVAL (R301). -/
  | regionConditionEval (rid : BitVec 32)
  /-- REGION_COMPLETE (R303). -/
  | regionComplete (rid : BitVec 32)
  /-- REGION_BLOCK_UPDATE (R296). -/
  | regionBlockUpdate (rid : BitVec 32) (energy : EnergyBill)
  /-- REMOTE_STORE_PACKET (R333). -/
  | remoteStorePacket (src : BitVec 12) (seq : Nat) (addr : W64) (data : BitVec 512) (mask : BitVec 64)
  /-- REMOTE_ATOMIC_PACKET (R333). -/
  | remoteAtomicPacket (src : BitVec 12) (seq : Nat) (op : BitVec 3) (w : BitVec 1) (addr : W64) (b c : W64)
  /-- REMOTE_SIGNAL_PACKET (R333). -/
  | remoteSignalPacket (src : BitVec 12) (seq : Nat) (addr : W64) (addend : W64)
  /-- COPY_DATA_PACKET (R333). -/
  | copyDataPacket (src : BitVec 12) (seq : Nat) (write : Bool) (addr : W64) (data : List Byte) (len : Nat)
  /-- MX_REDUCE_PACKET (R331). -/
  | mxReducePacket (src : BitVec 12) (seq : Nat) (addr : W64) (data : List Byte)
  /-- PACKET_FORWARD (R332). -/
  | packetForward (dst : BitVec 12) (body : Forwarded)
  /-- FLIT_REPLAY (R329). -/
  | flitReplay (port : BitVec 5)
  /-- LANE_PAUSE (R330). -/
  | lanePause (port : BitVec 5) (lane : BitVec 2)
  /-- LANE_RESUME (R330). -/
  | laneResume (port : BitVec 5) (lane : BitVec 2)
  /-- LINK_RETRAIN (R336). -/
  | linkRetrain (port : BitVec 5)
  /-- RETRAIN_ATTEMPT_FAIL (R336). -/
  | retrainAttemptFail (port : BitVec 5)
  /-- LINK_UP (R336). -/
  | linkUp (port : BitVec 5)
  /-- LINK_DOWN (R337). -/
  | linkDown (port : BitVec 5)
  /-- ROUTE_FAILURE (R337). -/
  | routeFailure (seq : Nat)
  /-- PORT_ENABLE (R338). -/
  | portEnable (port : BitVec 5)
  /-- PORT_DISABLE (R338). -/
  | portDisable (port : BitVec 5)
  /-- EVENT_QUEUE_DRAIN (R346). -/
  | eventQueueDrain (head : W32)
  /-- HCQB_WRITE (R344). -/
  | hcqbWrite (v : W64)
  /-- EVQB_WRITE (R344). -/
  | evqbWrite (v : W64)
  /-- DEVID_WRITE (R344). -/
  | devidWrite (v : W64)
  /-- THERM_WRITE (R344). -/
  | thermWrite (v : W64)
  /-- PREQ_WRITE (R344). -/
  | preqWrite (v : W64)
  /-- TLB_INVALIDATE_PAGE (R273). -/
  | tlbInvalidatePage (va : W64) (rid : BitVec 32)
  /-- TLB_INVALIDATE_REGION (R273). -/
  | tlbInvalidateRegion (rid : BitVec 32)
  /-- ATS_INVALIDATION (R274). -/
  | atsInvalidation (pasid : BitVec 20) (addr : W64) (size : Nat)
  /-- PGRANT_WRITE (R348). -/
  | pgrantWrite (v : W64)
  /-- TCTL_WRITE (R357). -/
  | tctlWrite (v : W64)
  /-- TSET_WRITE (R357). -/
  | tsetWrite (v : W64)
  /-- PTP_EXCHANGE (R357). -/
  | ptpExchange (offset : Int)
  /-- REGISTER_WRITE (R342). -/
  | registerWrite (off : BitVec 24) (size : Nat) (v : W64)
  /-- WARM_RESUME (R353). -/
  | warmResume (r : StartReport)
  /-- COLD_START (R359). -/
  | coldStart (r : StartReport)
  /-- WARM_START (R359). -/
  | warmStart (r : StartReport)
  /-- SHOCK_LATCH (R360). -/
  | shockLatch (milliG : Nat)
  /-- CHALLENGE (R362). -/
  | challenge (nonce : BitVec 256)
  /-- GET_MEASUREMENTS (R362). -/
  | getMeasurements (idx : Nat)
  /-- SOURCE_READS_FINISHED (R60). -/
  | sourceReadsFinished (c : CtxId) (tl : BitVec 2) (num : W64)
  /-- HOST_LINK_CHANGE (R342). -/
  | hostLinkChange (up : Option Bool) (report : Option LinkReport)
  /-- BLC (R121). -/
  | blc
  /-- LPOP (R122). -/
  | lpop
  /-- DORM (R128). -/
  | dorm
  /-- EXIT (R129). -/
  | exit
  /-- HOST_CMD_LAUNCH (R345). -/
  | hostCmdLaunch
  /-- HOST_CMD_STOP (R345). -/
  | hostCmdStop
  /-- HOST_CMD_NOP (R345). -/
  | hostCmdNop
  /-- TLB_INVALIDATE_ALL (R273). -/
  | tlbInvalidateAll
  /-- INVALIDATION_COMPLETE (R273). -/
  | invalidationComplete
  /-- TRANSPORT_REQUEST (R360). -/
  | transportRequest
  /-- WARM_START_REQUEST (R359). -/
  | warmStartRequest
  /-- DROOP_ONSET (R351). -/
  | droopOnset
  /-- DROOP_END (R351). -/
  | droopEnd
  /-- SUPPLY_LOSS (R352). -/
  | supplyLoss
  /-- POOL_IMAGE_RETENTION (R352). -/
  | poolImageRetention
  /-- IDLE_ENTRY (R355). -/
  | idleEntry
  /-- IDLE_EXIT (R355). -/
  | idleExit
  /-- GET_VERSION (R362). -/
  | getVersion
  /-- GET_CAPABILITIES (R362). -/
  | getCapabilities
  /-- NEGOTIATE_ALGORITHMS (R362). -/
  | negotiateAlgorithms
  /-- GET_DIGESTS (R362). -/
  | getDigests
  /-- GET_CERTIFICATE (R362). -/
  | getCertificate
deriving DecidableEq, Repr

end Sys2Proof
end

