-- ==== Sys2Proof/WellFormed.lean ====
section
/-!
DEFINITION. When a term of `Instr` is one the machine executes: unused fields are zero, and the codes in type, rounding,
scope, timeline, mode and signal-point fields are assigned ones (R52, and the entry of each instruction). What an
instruction traps on for the values of its operands (illegal operand, alignment and so on) is no matter of form.
-/

namespace Sys2Proof

/-- The integer types .i8 to .n64 (R133). -/
def tyI (t : BitVec 4) : Bool := t.toNat < 8
/-- The signed integer types (R133). -/
def tyS (t : BitVec 4) : Bool := t.toNat < 4
/-- The floating types (R133). -/
def tyF (t : BitVec 4) : Bool := 8 ≤ t.toNat && t.toNat < 12
/-- All twelve standard types (R133). -/
def tyA (t : BitVec 4) : Bool := t.toNat < 12

/-- log2 of the width in bytes of a type code (R56, R133). -/
def tyLog (t : BitVec 4) : Nat :=
  if t.toNat < 8 then t.toNat % 4 else if t.toNat < 10 then 1 else if t.toNat = 10 then 2 else 3

/-- The wait/signal block of R60: SPT 2 and 3 are reserved, and a disabled half is zero. -/
def WaitSig.wf (w : WaitSig) : Bool :=
  (w.we = 1 || (w.ws = 0 && w.wt = 0)) && (w.se = 1 || (w.ss = 0 && w.si = 0 && w.spt = 0)) && w.spt.toNat < 2

/-- The B operand is unused. -/
def VR.noB (o : VR) : Bool := o.vb = 0 && o.qb = 0
/-- The C operand is unused. -/
def VR.noC (o : VR) : Bool := o.vc = 0 && o.qc = 0
/-- Rounding and descriptor fields are unused (R138). -/
def VR.noRound (o : VR) : Bool := o.rm = 0 && o.fr = 0
/-- A rounded instruction: rm 0 to 5, and fr zero unless rm is 5 (R138). -/
def VR.rounds (o : VR) : Bool := o.rm.toNat < 6 && (o.rm = 5 || o.fr = 0)

/-- Binary integer or logic form: D A B G T Z (R140). -/
def VR.wfBin (ty : BitVec 4 → Bool) (o : VR) : Bool := ty o.t && o.noC && o.noRound && o.fx = 0
/-- Ternary integer form: D A B C G T Z (R140). -/
def VR.wfTern (ty : BitVec 4 → Bool) (o : VR) : Bool := ty o.t && o.noRound && o.fx = 0
/-- Unary form: D A G T Z (R140). -/
def VR.wfUn (ty : BitVec 4 → Bool) (o : VR) : Bool := ty o.t && o.noB && o.noC && o.noRound && o.fx = 0
/-- Binary floating form: D A B G T M Z F (R140). -/
def VR.wfFBin (o : VR) : Bool := tyF o.t && o.noC && o.rounds && o.fx = 0
/-- Ternary floating form: D A B C G T M Z F (R140). -/
def VR.wfFTern (o : VR) : Bool := tyF o.t && o.rounds && o.fx = 0
/-- In the VS form bits [34:32] are reserved (R59). -/
def VR.vs (o : VR) : Bool := o.qb = 0
/-- Compares write a predicate: vd[55] is reserved (R59), the condition stands in fx[2:0] (R146). -/
def VR.wfCmp (ty : BitVec 4 → Bool) (top : Nat) (o : VR) : Bool :=
  ty o.t && o.vd.toNat < 32 && o.noC && o.noRound && o.fx.toNat ≤ top
/-- A reduction: D A G T, zm zero (R140, R153). -/
def VR.wfRed (ty : BitVec 4 → Bool) (o : VR) : Bool := o.wfUn ty && o.zm = 0
/-- The source type of VCVT in fx[3:0]: 0xC to 0xF and width pairs of ratio 8 are reserved (R149). -/
def VR.wfCvt (o : VR) : Bool :=
  let u := o.fx.setWidth 4
  tyA o.t && tyA u && o.noB && o.noC && o.rounds &&
    (tyLog o.t + 3 ≠ tyLog u) && (tyLog u + 3 ≠ tyLog o.t)
/-- rm of VQNT and VDQNT; fr is always used there (R138). -/
def VR.wfQ (o : VR) : Bool := tyF o.t && o.rm.toNat < 6 && o.noC

/-- The geometry predicates: unused slots zero, md 3 reserved (R59, R162). -/
def VG.wf (o : VG) (useE useH : Bool) (top : Nat) : Bool :=
  (useE || o.ge = 0) && (useH || o.gh = 0) && o.md.toNat ≤ top

/-- Scalar loads and stores without a scope (R69). -/
def LS.wfPlain (o : LS) : Bool := o.sco = 0
/-- The exposed commands that name a unit: imm[34:23] zero (R189). -/
def LX.wfUnit (o : LX) : Bool := o.imm.toNat < 2 ^ 23
/-- The exposed commands that name a channel only (R189). -/
def LX.noUnit (o : LX) : Bool := o.sa = 0 && o.sb = 0 && o.imm = 0

/-- Fields of format M that only some instructions use (R226). -/
def FM.noVec (o : FM) : Bool := o.vd = 0 && o.va = 0 && o.qa = 0

/-- The fields of a CPYX fn (R200). -/
def FE.xOp (o : FE) : Nat := o.fn.toNat / 2 ^ 11
def FE.xT (o : FE) : BitVec 4 := o.fn.extractLsb' 7 4
def FE.xU (o : FE) : BitVec 4 := o.fn.extractLsb' 3 4
def FE.xRm (o : FE) : BitVec 3 := o.fn.extractLsb' 0 3

/-- The copy transforms: op, a standard source type, u only for a cast, sd only for scale and add, rm 0 where the
operation does not round (R200). -/
def FE.wfX (o : FE) (op : Nat) (useSd cast : Bool) : Bool :=
  o.w.wf && o.xOp = op && tyA o.xT && (useSd || o.sd = 0) && (if cast then tyA o.xU else o.xU = 0) &&
    (if op = 4 then o.xRm = 0
     else if cast then (o.xRm.toNat < 5 && (tyF o.xT || tyF o.xU || o.xRm = 0))
     else (o.xRm.toNat < 5 && (tyF o.xT || o.xRm = 0)))

/-- MXRED: mode in fn[13:12], format in fn[11], fn[10:0] zero (R203). -/
def FE.wfMx (o : FE) (mode : Nat) : Bool :=
  o.w.wf && o.fn.toNat / 2 ^ 12 = mode && o.fn.toNat % 2 ^ 11 = 0 && (mode ≠ 0 || o.sc = 0)

/-- PMAP and PMQ: role in fn[13:12], REL in fn[11], fn[10:0] zero (R205). That sc holds zero without REL is a condition on its
value (R243). -/
def FE.wfPool (o : FE) : Bool := o.w.wf && o.fn.toNat % 2 ^ 11 = 0

/-- The assigned control-register selectors (R25). -/
def selAssigned (sel : BitVec 8) : Bool :=
  sel.toNat ≤ 0x16 || sel = 0x18 || (0x20 ≤ sel.toNat && sel.toNat ≤ 0x25)
/-- The control registers with a writable field that have no constructor of their own (R25, R30, R32, R33, R34, R36). -/
def selWritable (sel : BitVec 8) : Bool := [0x03, 0x09, 0x0B, 0x0D, 0x16].contains sel.toNat

/-- MFC's legal selectors by register space (R124). -/
def mfcLegal (sel : BitVec 8) (spc : BitVec 2) : Bool :=
  match spc.toNat with
  | 0 => selAssigned sel
  | 1 | 2 => sel.toNat < 16
  | _ => sel.toNat < 8

/-- MTC's legal selectors by register space, less those of the constructors MTC_STATUS to MTC_TRPC (R25, R124). -/
def mtcLegal (sel : BitVec 8) (spc : BitVec 2) : Bool :=
  match spc.toNat with
  | 0 => selWritable sel
  | 1 | 2 => sel.toNat < 16
  | _ => false

/-- A matrix-class instruction in legal form (R226 to R235). -/
def MOp.wf (m : MOp) (o : FM) : Bool :=
  match m with
  | .mcfg => o.w.wf && o.noVec && o.sd = 0 && o.zt = 0
  | .mfmt => o.w.wf && o.noVec && o.sd = 0 && o.sa = 0 && o.zt = 0 && o.imm.toNat < 128 && o.imm.toNat % 32 ≤ 17
  | .mgoFix => o.w.wf && o.vd = 0 && o.sd = 0 && o.sa = 0 && o.zt = 0 && o.imm.toNat % 16 = 8
  | .mgoLoop => o.w.wf && o.vd = 0 && o.sd = 0 && o.sa = 0 && o.zt = 0 && o.imm.toNat < 6
  | .mldw => o.w.wf && o.noVec && o.zt.toNat < 3 && o.imm.toNat < 128 && (o.imm.getLsbD 6 || o.sd = 0)
  | .mrdz | .mrdb => o.w.wf && o.va = 0 && o.qa = 0 && o.sa = 0 && o.imm.toNat < 64
  | .mcal => o.w.wf && o.noVec && o.sd = 0 && o.zt = 0 && o.imm = 0
  | .mzclr => o.w.wf && o.noVec && o.sd = 0 && o.sa = 0 && o.zt = 0
  | .mav => o.w.wf && o.va = 0 && o.qa = 0 && o.sd = 0 && o.imm.toNat < 16
  | .msig => o.w.wf && o.noVec && o.sd = 0 && o.sa = 0 && o.zt = 0 && o.imm = 0

/-- An engine-class instruction in legal form (R196 to R207). -/
def EOp.wf (e : EOp) (o : FE) : Bool :=
  match e with
  | .cpy | .cpy3 => o.w.wf && o.sd = 0 && o.fn = 0
  | .cpy2 | .cpyh => o.w.wf && o.fn = 0
  | .cpyxScale => o.wfX 0 true false
  | .cpyxAdd => o.wfX 1 true false
  | .cpyxCast => o.wfX 2 false true
  | .cpyxRadd => o.wfX 3 false false
  | .cpyxRmax => o.wfX 4 false false
  | .fcpy => o.w.wf && o.sd = 0 && o.fn = 0
  | .mxredStart => o.wfMx 0
  | .mxredRelay => o.wfMx 1
  | .mxredFinish => o.wfMx 2
  | .rsig => o.w.wf && o.sc = 0 && o.sd = 0 && o.fn = 0
  | .esig => o.w.wf && o.sd = 0 && o.sa = 0 && o.sb = 0 && o.sc = 0 && o.fn = 0
  | .pmap | .pmq => o.wfPool
  | .launch => o.w.wf && o.sb = 0 && o.sc = 0 && o.fn = 0

/-- An instruction in legal form. Events are always in form. -/
def Instr.wf : Instr → Bool
  | .loop _ off => off ≠ 0
  | .loopi _ off => off ≠ 0
  | .mfc _ sel spc => mfcLegal sel spc
  | .mtc _ sel spc => mtcLegal sel spc
  | .twait a _ tl all => tl ≠ 3 && (all = 0 || a = 0)
  | .tret rt p tb _ => (rt = 0 || p = 1) && (p = 1 || tb = 0)
  | .vadd o | .vsub o | .vadds o | .vsubs o | .vmul o | .vmulh o | .vmin o | .vmax o | .vshl o | .vshr o => o.wfBin tyI
  | .vmad o => o.wfTern tyI
  | .vabs o | .vneg o => o.wfUn tyS
  | .vand o | .vor o | .vxor o | .vandn o => o.wfBin tyA
  | .vpopc o | .vclz o => o.wfUn tyI
  | .vmov o => o.wfUn tyA
  | .vaddS o | .vsubS o | .vaddsS o | .vsubsS o | .vmulS o | .vmulhS o | .vminS o | .vmaxS o | .vshlS o | .vshrS o =>
      o.vs && o.wfBin tyI
  | .vmadS o => o.vs && o.wfTern tyI
  | .vandS o | .vorS o | .vxorS o | .vandnS o => o.vs && o.wfBin tyA
  | .vfadd o | .vfsub o | .vfmul o | .vfdiv o => o.wfFBin
  | .vfma o | .vfnma o => o.wfFTern
  | .vfaddS o | .vfsubS o | .vfmulS o | .vfdivS o => o.vs && o.wfFBin
  | .vfmaS o | .vfnmaS o => o.vs && o.wfFTern
  | .vfsqrt o => tyF o.t && o.noB && o.noC && o.rounds && o.fx = 0
  | .vfmin o | .vfmax o => o.wfBin tyF
  | .vfminS o | .vfmaxS o => o.vs && o.wfBin tyF
  | .vfrcp o | .vfrsq o | .vfexp2 o | .vflog2 o => o.wfUn tyF
  | .vcmp o => o.wfCmp tyI 5
  | .vfcmp o => o.wfCmp tyF 7
  | .vcmpS o => o.vs && o.wfCmp tyI 5
  | .vfcmpS o => o.vs && o.wfCmp tyF 7
  | .vsel o => o.wfBin tyA && o.zm = 0
  | .vbcst o => tyA o.t && o.vs && o.va = 0 && o.qa = 0 && o.noC && o.noRound && o.fx = 0
  | .vcvt o => o.wfCvt
  | .vqnt o => o.wfQ && o.fx.toNat < 32
  | .vqntScale o => o.wfQ && o.noB && 32 ≤ o.fx.toNat
  | .vdqnt o => o.wfQ && o.fx.toNat < 32
  | .vxch o => tyA o.t && o.noB && o.noC && o.noRound && o.fx.toNat < 8
  | .vperm o => o.wfBin tyA
  | .vcomp o | .vexp o => o.wfUn tyA
  | .vsld o => tyA o.t && o.noC && o.noRound
  | .vrsum o | .vrmax o | .vrmin o => o.wfRed tyI
  | .vrfsum o | .vrfmax o => o.wfRed tyF
  | .gset o => (o.t = 0xA || o.t = 0xB) && o.vd.toNat < 8 && o.noRound && o.fx.toNat < 4 &&
      (o.fx.getLsbD 0 == false || o.noC)
  | .gidx o => (o.t = 0x6 || o.t = 0x7) && o.vd.toNat < 8 && o.noRound && o.noB && o.noC &&
      (o.fx = 0 || o.fx = 2)
  | .gor2 o => o.wf false false 2
  | .gor3 o | .ginc o => o.wf true false 2
  | .gins o => o.wf true true 2
  | .gseg o => o.wf true false 1
  | .ldI8 o | .ldN8 o | .ldI16 o | .ldN16 o | .ldI32 o | .ldN32 o | .ldI64 o
  | .stN8 o | .stN16 o | .stN32 o | .stN64 o | .ldsI32 o | .ldsN32 o | .ldsI64 o => o.wfPlain
  | .drain o => o.sd = 0 && o.sa = 0 && o.sx = 0 && o.sh = 0 && o.off = 0
  | .clwb o | .clfl o => o.sd = 0
  | .clinv o => o.sd = 0 && o.sco = 0
  | .waita o => o.sh = 0
  | .aadd o | .aand o | .aor o | .axor o | .amin o | .amax o | .aswp o => o.sc = 0
  | .vld o | .vlds o => tyA o.t && o.qd = 0 && o.sco = 0
  | .vst o | .vsts o => tyA o.t && o.sco = 0
  | .pld o | .pst o => o.pg = 0 && o.t = 0 && o.qd = 0 && o.sco = 0 && o.vd.toNat < 32
  | .vgth o => tyA o.t && o.qd = 0 && o.sco = 0
  | .vsct o => tyA o.t && o.sco = 0
  | .sown o => o.noUnit
  | .srel o | .sref o => o.sd = 0 && o.noUnit
  | .sact o | .spre o => o.sd = 0 && o.wfUnit
  | .spreAll o => o.sd = 0 && o.sa = 0 && o.sb = 0 && o.imm.toNat = 2 ^ 34
  | .sldx o | .sstx o => o.wfUnit
  | .mcfg o => MOp.mcfg.wf o
  | .mfmt o => MOp.mfmt.wf o
  | .mgoFix o => MOp.mgoFix.wf o
  | .mgoLoop o => MOp.mgoLoop.wf o
  | .mldw o => MOp.mldw.wf o
  | .mrdz o => MOp.mrdz.wf o
  | .mrdb o => MOp.mrdb.wf o
  | .mcal o => MOp.mcal.wf o
  | .mzclr o => MOp.mzclr.wf o
  | .mav o => MOp.mav.wf o
  | .msig o => MOp.msig.wf o
  | .cpy o => EOp.cpy.wf o
  | .cpy2 o => EOp.cpy2.wf o
  | .cpy3 o => EOp.cpy3.wf o
  | .cpyxScale o => EOp.cpyxScale.wf o
  | .cpyxAdd o => EOp.cpyxAdd.wf o
  | .cpyxCast o => EOp.cpyxCast.wf o
  | .cpyxRadd o => EOp.cpyxRadd.wf o
  | .cpyxRmax o => EOp.cpyxRmax.wf o
  | .cpyh o => EOp.cpyh.wf o
  | .fcpy o => EOp.fcpy.wf o
  | .mxredStart o => EOp.mxredStart.wf o
  | .mxredRelay o => EOp.mxredRelay.wf o
  | .mxredFinish o => EOp.mxredFinish.wf o
  | .rsig o => EOp.rsig.wf o
  | .esig o => EOp.esig.wf o
  | .pmap o => EOp.pmap.wf o
  | .pmq o => EOp.pmq.wf o
  | .launch o => EOp.launch.wf o
  | _ => true

end Sys2Proof
end

