-- ==== Sys2Proof/Decode.lean ====
section
/-!
DEFINITION. From the words of a slot to an instruction, by the field layouts of R57 to R63 and the opcode maps of R64 to
R69, and back. A word is read as a number whose bit 0 is bit 0 of its first byte (R44). Field reading and writing is
plain arithmetic on that number.
-/

namespace Sys2Proof

/-- The `n`-bit field of `w` that starts at bit `lo`. -/
def fld (w lo n : Nat) : BitVec n := BitVec.ofNat n (w / 2 ^ lo)

/-- Why a slot value is no instruction (R52). -/
inductive DecodeError where
  /-- The major opcode, or the code that tells the rows of one opcode apart, is unassigned. -/
  | unassigned
  /-- A reserved field is not zero (R7). -/
  | reserved
  /-- An unused field is not zero, or a code field holds a reserved code. -/
  | form
deriving DecidableEq, Repr

/-- The wait/signal block in bits [49:0] (R60). -/
def readWaitSig (w : Nat) : WaitSig :=
  { we := fld w 49 1, ws := fld w 41 8, wt := fld w 25 16, se := fld w 24 1, ss := fld w 16 8, si := fld w 8 8,
    spt := fld w 6 2 }

/-- Format VR (R59). -/
def readVR (w : Nat) : VR :=
  { vd := fld w 50 6, va := fld w 44 6, qa := fld w 41 3, vb := fld w 35 6, qb := fld w 32 3, vc := fld w 26 6,
    qc := fld w 23 3, pg := fld w 18 5, t := fld w 14 4, rm := fld w 11 3, zm := fld w 10 1, fr := fld w 6 4,
    fx := fld w 0 6 }

/-- Format VG (R59). -/
def readVG (w : Nat) : VG :=
  { vd := fld w 50 6, pd := fld w 45 5, pg := fld w 40 5, ga := fld w 37 3, gb := fld w 34 3, gc := fld w 31 3,
    ge := fld w 28 3, gh := fld w 25 3, md := fld w 23 2, nf := fld w 22 1 }

/-- Format M (R61). -/
def readFM (w : Nat) : FM :=
  { vd := fld w 82 6, va := fld w 76 6, qa := fld w 73 3, sd := fld w 67 6, sa := fld w 61 6, zt := fld w 58 3,
    imm := fld w 50 8, w := readWaitSig w }

/-- Format E (R62). -/
def readFE (w : Nat) : FE :=
  { sd := fld w 82 6, sa := fld w 76 6, sb := fld w 70 6, sc := fld w 64 6, fn := fld w 50 14, w := readWaitSig w }

/-- Format LS (R63). -/
def readLS (w : Nat) : LS :=
  { sd := fld w 50 6, sa := fld w 44 6, sx := fld w 38 6, sh := fld w 36 2, sco := fld w 34 2, off := fld w 0 32 }

/-- Format LV (R63). -/
def readLV (w : Nat) : LV :=
  { vd := fld w 50 6, qd := fld w 47 3, sa := fld w 41 6, sx := fld w 35 6, pg := fld w 30 5, t := fld w 26 4,
    sco := fld w 24 2, off := fld w 0 24 }

/-- Format LG (R63). -/
def readLG (w : Nat) : LG :=
  { vd := fld w 50 6, qd := fld w 47 3, sa := fld w 41 6, vb := fld w 35 6, qb := fld w 32 3, pg := fld w 27 5,
    t := fld w 23 4, sco := fld w 21 2 }

/-- Format LA (R63). -/
def readLA (w : Nat) : LA :=
  { sd := fld w 50 6, sa := fld w 44 6, sb := fld w 38 6, sc := fld w 32 6, sco := fld w 30 2, w := fld w 29 1 }

/-- Format LX (R63). -/
def readLX (w : Nat) : LX :=
  { sd := fld w 50 6, sa := fld w 44 6, sb := fld w 38 6, ch := fld w 35 3, imm := fld w 0 35 }

/-- A row of the opcode maps as read from a word: the instruction, and the reserved fields of its format as pairs of the
lowest bit and the width, which have to be zero (R7). -/
abbrev Reading := Option (Instr × List (Nat × Nat))

/-- What a slot holds: an instruction, or for the matrix and the engine class the row and its fields. The values of
`Instr` for those two classes have constructor numbers beyond what Lean's compiler can build; the machine runs them from
their rows, and `Slot.toInstr` says which instruction each is. -/
inductive Slot where
  | op (i : Instr)
  | mat (m : MOp) (o : FM)
  | eng (e : EOp) (o : FE)
deriving DecidableEq, Repr

/-- The instruction of a slot. No computation of the machine goes through this definition. -/
noncomputable def Slot.toInstr : Slot → Instr
  | .op i => i
  | .mat .mcfg o => .mcfg o
  | .mat .mfmt o => .mfmt o
  | .mat .mgoFix o => .mgoFix o
  | .mat .mgoLoop o => .mgoLoop o
  | .mat .mldw o => .mldw o
  | .mat .mrdz o => .mrdz o
  | .mat .mrdb o => .mrdb o
  | .mat .mcal o => .mcal o
  | .mat .mzclr o => .mzclr o
  | .mat .mav o => .mav o
  | .mat .msig o => .msig o
  | .eng .cpy o => .cpy o
  | .eng .cpy2 o => .cpy2 o
  | .eng .cpy3 o => .cpy3 o
  | .eng .cpyxScale o => .cpyxScale o
  | .eng .cpyxAdd o => .cpyxAdd o
  | .eng .cpyxCast o => .cpyxCast o
  | .eng .cpyxRadd o => .cpyxRadd o
  | .eng .cpyxRmax o => .cpyxRmax o
  | .eng .cpyh o => .cpyh o
  | .eng .fcpy o => .fcpy o
  | .eng .mxredStart o => .mxredStart o
  | .eng .mxredRelay o => .mxredRelay o
  | .eng .mxredFinish o => .mxredFinish o
  | .eng .rsig o => .rsig o
  | .eng .esig o => .esig o
  | .eng .pmap o => .pmap o
  | .eng .pmq o => .pmq o
  | .eng .launch o => .launch o

/-- A slot in legal form. -/
def Slot.wf : Slot → Bool
  | .op i => i.wf
  | .mat m o => m.wf o
  | .eng e o => e.wf o

/-- The scalar class (R57, R64). -/
def readScalar (w : Nat) : Reading :=
  match w / 2 ^ 24 % 256 with
  | 0x00 => some (.add (fld w 18 6) (fld w 12 6) (fld w 6 6), [(0, 6)])
  | 0x01 => some (.sub (fld w 18 6) (fld w 12 6) (fld w 6 6), [(0, 6)])
  | 0x02 => some (.and (fld w 18 6) (fld w 12 6) (fld w 6 6), [(0, 6)])
  | 0x03 => some (.or (fld w 18 6) (fld w 12 6) (fld w 6 6), [(0, 6)])
  | 0x04 => some (.xor (fld w 18 6) (fld w 12 6) (fld w 6 6), [(0, 6)])
  | 0x05 => some (.andn (fld w 18 6) (fld w 12 6) (fld w 6 6), [(0, 6)])
  | 0x06 => some (.shl (fld w 18 6) (fld w 12 6) (fld w 6 6), [(0, 6)])
  | 0x07 => some (.shr (fld w 18 6) (fld w 12 6) (fld w 6 6), [(0, 6)])
  | 0x08 => some (.sar (fld w 18 6) (fld w 12 6) (fld w 6 6), [(0, 6)])
  | 0x09 => some (.rol (fld w 18 6) (fld w 12 6) (fld w 6 6), [(0, 6)])
  | 0x0A => some (.mul (fld w 18 6) (fld w 12 6) (fld w 6 6), [(0, 6)])
  | 0x0B => some (.mulh (fld w 18 6) (fld w 12 6) (fld w 6 6), [(0, 6)])
  | 0x0C => some (.mulhn (fld w 18 6) (fld w 12 6) (fld w 6 6), [(0, 6)])
  | 0x0D => some (.div (fld w 18 6) (fld w 12 6) (fld w 6 6), [(0, 6)])
  | 0x0E => some (.divn (fld w 18 6) (fld w 12 6) (fld w 6 6), [(0, 6)])
  | 0x0F => some (.rem (fld w 18 6) (fld w 12 6) (fld w 6 6), [(0, 6)])
  | 0x10 => some (.remn (fld w 18 6) (fld w 12 6) (fld w 6 6), [(0, 6)])
  | 0x11 => some (.min (fld w 18 6) (fld w 12 6) (fld w 6 6), [(0, 6)])
  | 0x12 => some (.max (fld w 18 6) (fld w 12 6) (fld w 6 6), [(0, 6)])
  | 0x13 => some (.minn (fld w 18 6) (fld w 12 6) (fld w 6 6), [(0, 6)])
  | 0x14 => some (.maxn (fld w 18 6) (fld w 12 6) (fld w 6 6), [(0, 6)])
  | 0x15 => some (.clz (fld w 18 6) (fld w 12 6), [(0, 12)])
  | 0x16 => some (.popc (fld w 18 6) (fld w 12 6), [(0, 12)])
  | 0x18 => some (.cmpEq (fld w 18 6) (fld w 12 6) (fld w 6 6), [(0, 6)])
  | 0x19 => some (.cmpNe (fld w 18 6) (fld w 12 6) (fld w 6 6), [(0, 6)])
  | 0x1A => some (.cmpLt (fld w 18 6) (fld w 12 6) (fld w 6 6), [(0, 6)])
  | 0x1B => some (.cmpGe (fld w 18 6) (fld w 12 6) (fld w 6 6), [(0, 6)])
  | 0x1C => some (.cmpLtn (fld w 18 6) (fld w 12 6) (fld w 6 6), [(0, 6)])
  | 0x1D => some (.cmpGen (fld w 18 6) (fld w 12 6) (fld w 6 6), [(0, 6)])
  | 0x20 => some (.addImm (fld w 18 6) (fld w 12 6) (fld w 0 12), [])
  | 0x21 => some (.subImm (fld w 18 6) (fld w 12 6) (fld w 0 12), [])
  | 0x22 => some (.andImm (fld w 18 6) (fld w 12 6) (fld w 0 12), [])
  | 0x23 => some (.orImm (fld w 18 6) (fld w 12 6) (fld w 0 12), [])
  | 0x24 => some (.xorImm (fld w 18 6) (fld w 12 6) (fld w 0 12), [])
  | 0x25 => some (.andnImm (fld w 18 6) (fld w 12 6) (fld w 0 12), [])
  | 0x26 => some (.shlImm (fld w 18 6) (fld w 12 6) (fld w 0 6), [(6, 6)])
  | 0x27 => some (.shrImm (fld w 18 6) (fld w 12 6) (fld w 0 6), [(6, 6)])
  | 0x28 => some (.sarImm (fld w 18 6) (fld w 12 6) (fld w 0 6), [(6, 6)])
  | 0x29 => some (.rolImm (fld w 18 6) (fld w 12 6) (fld w 0 6), [(6, 6)])
  | 0x2A => some (.mulImm (fld w 18 6) (fld w 12 6) (fld w 0 12), [])
  | 0x2B => some (.mulhImm (fld w 18 6) (fld w 12 6) (fld w 0 12), [])
  | 0x2C => some (.mulhnImm (fld w 18 6) (fld w 12 6) (fld w 0 12), [])
  | 0x2D => some (.divImm (fld w 18 6) (fld w 12 6) (fld w 0 12), [])
  | 0x2E => some (.divnImm (fld w 18 6) (fld w 12 6) (fld w 0 12), [])
  | 0x2F => some (.remImm (fld w 18 6) (fld w 12 6) (fld w 0 12), [])
  | 0x30 => some (.remnImm (fld w 18 6) (fld w 12 6) (fld w 0 12), [])
  | 0x31 => some (.minImm (fld w 18 6) (fld w 12 6) (fld w 0 12), [])
  | 0x32 => some (.maxImm (fld w 18 6) (fld w 12 6) (fld w 0 12), [])
  | 0x33 => some (.minnImm (fld w 18 6) (fld w 12 6) (fld w 0 12), [])
  | 0x34 => some (.maxnImm (fld w 18 6) (fld w 12 6) (fld w 0 12), [])
  | 0x38 => some (.cmpEqImm (fld w 18 6) (fld w 12 6) (fld w 0 12), [])
  | 0x39 => some (.cmpNeImm (fld w 18 6) (fld w 12 6) (fld w 0 12), [])
  | 0x3A => some (.cmpLtImm (fld w 18 6) (fld w 12 6) (fld w 0 12), [])
  | 0x3B => some (.cmpGeImm (fld w 18 6) (fld w 12 6) (fld w 0 12), [])
  | 0x3C => some (.cmpLtnImm (fld w 18 6) (fld w 12 6) (fld w 0 12), [])
  | 0x3D => some (.cmpGenImm (fld w 18 6) (fld w 12 6) (fld w 0 12), [])
  | 0x40 => some (.fadd (fld w 18 6) (fld w 12 6) (fld w 6 6) (fld w 4 2) (fld w 2 2), [(0, 2)])
  | 0x41 => some (.fsub (fld w 18 6) (fld w 12 6) (fld w 6 6) (fld w 4 2) (fld w 2 2), [(0, 2)])
  | 0x42 => some (.fmul (fld w 18 6) (fld w 12 6) (fld w 6 6) (fld w 4 2) (fld w 2 2), [(0, 2)])
  | 0x43 => some (.fdiv (fld w 18 6) (fld w 12 6) (fld w 6 6) (fld w 4 2) (fld w 2 2), [(0, 2)])
  | 0x44 => some (.fsqrt (fld w 18 6) (fld w 12 6) (fld w 4 2) (fld w 2 2), [(6, 6), (0, 2)])
  | 0x45 => some (.fmin (fld w 18 6) (fld w 12 6) (fld w 6 6) (fld w 4 2), [(0, 4)])
  | 0x46 => some (.fmax (fld w 18 6) (fld w 12 6) (fld w 6 6) (fld w 4 2), [(0, 4)])
  | 0x48 => some (.fcmpEq (fld w 18 6) (fld w 12 6) (fld w 6 6) (fld w 4 2), [(0, 4)])
  | 0x49 => some (.fcmpLt (fld w 18 6) (fld w 12 6) (fld w 6 6) (fld w 4 2), [(0, 4)])
  | 0x4A => some (.fcmpLe (fld w 18 6) (fld w 12 6) (fld w 6 6) (fld w 4 2), [(0, 4)])
  | 0x4B => some (.fcmpUn (fld w 18 6) (fld w 12 6) (fld w 6 6) (fld w 4 2), [(0, 4)])
  | 0x4C => some (.cvtif (fld w 18 6) (fld w 12 6) (fld w 4 2) (fld w 2 2) (fld w 1 1), [(6, 6), (0, 1)])
  | 0x4D => some (.cvtfi (fld w 18 6) (fld w 12 6) (fld w 4 2) (fld w 2 2) (fld w 1 1), [(6, 6), (0, 1)])
  | 0x4E => some (.cvtff (fld w 18 6) (fld w 12 6) (fld w 4 2) (fld w 2 2) (fld w 0 2), [(6, 6)])
  | 0x50 => some (.fmaF64 (fld w 18 6) (fld w 12 6) (fld w 6 6) (fld w 0 6), [])
  | 0x51 => some (.fmaF32 (fld w 18 6) (fld w 12 6) (fld w 6 6) (fld w 0 6), [])
  | 0x58 => some (.pand (fld w 19 5) (fld w 14 5) (fld w 9 5), [(0, 9)])
  | 0x59 => some (.por (fld w 19 5) (fld w 14 5) (fld w 9 5), [(0, 9)])
  | 0x5A => some (.pxor (fld w 19 5) (fld w 14 5) (fld w 9 5), [(0, 9)])
  | 0x5B => some (.pandn (fld w 19 5) (fld w 14 5) (fld w 9 5), [(0, 9)])
  | 0x60 => some (.pcmpEq (fld w 19 5) (fld w 12 6) (fld w 6 6), [(18, 1), (0, 6)])
  | 0x61 => some (.pcmpNe (fld w 19 5) (fld w 12 6) (fld w 6 6), [(18, 1), (0, 6)])
  | 0x62 => some (.pcmpLt (fld w 19 5) (fld w 12 6) (fld w 6 6), [(18, 1), (0, 6)])
  | 0x63 => some (.pcmpGe (fld w 19 5) (fld w 12 6) (fld w 6 6), [(18, 1), (0, 6)])
  | 0x64 => some (.pcmpLtn (fld w 19 5) (fld w 12 6) (fld w 6 6), [(18, 1), (0, 6)])
  | 0x65 => some (.pcmpGen (fld w 19 5) (fld w 12 6) (fld w 6 6), [(18, 1), (0, 6)])
  | 0x70 => some (.movi (fld w 18 6) (fld w 0 18), [])
  | 0x71 => some (.movk (fld w 18 6) (fld w 16 2) (fld w 0 16), [])
  | 0x72 => some (.addpc (fld w 18 6) (fld w 0 18), [])
  | _ => none

/-- The control class (R58, R65). MTC has a row of its own for six control registers. -/
def readControl (w : Nat) : Reading :=
  match w / 2 ^ 24 % 256 with
  | 0x00 => some (.pbr (fld w 21 3) (fld w 0 21), [])
  | 0x01 => some (.pbrr (fld w 21 3) (fld w 10 6), [(16, 5), (0, 10)])
  | 0x02 => some (.br (fld w 21 3) (fld w 16 5), [(0, 16)])
  | 0x03 => some (.brn (fld w 21 3) (fld w 16 5), [(0, 16)])
  | 0x04 => some (.call (fld w 21 3) (fld w 16 5), [(0, 16)])
  | 0x05 => some (.chk (fld w 21 3) (fld w 16 5) (fld w 10 6), [(0, 10)])
  | 0x08 => some (.loop (fld w 18 6) (fld w 0 18), [])
  | 0x09 => some (.loopi (fld w 12 12) (fld w 0 12), [])
  | 0x10 => some (.mfc (fld w 18 6) (fld w 10 8) (fld w 8 2), [(0, 8)])
  | 0x12 => some (.twait (fld w 18 6) (fld w 8 2) (fld w 6 2) (fld w 5 1), [(10, 8), (0, 5)])
  | 0x18 => some (.cut (fld w 0 12), [(12, 12)])
  | 0x19 => some (.prio (fld w 0 2), [(2, 22)])
  | 0x1A => some (.dorm, [(0, 24)])
  | 0x1B => some (.exit, [(0, 24)])
  | 0x1C => some (.trap (fld w 0 16), [(16, 8)])
  | 0x1D => some (.tret (fld w 7 1) (fld w 6 1) (fld w 3 3) (fld w 0 3), [(8, 16)])
  | 0x0A => if w % 2 ^ 24 = 0 then some (.blc, []) else if w % 2 ^ 24 = 1 then some (.lpop, []) else none
  | 0x11 =>
    let a := fld w 18 6
    some (if w / 2 ^ 8 % 4 = 0 then
        match w / 2 ^ 10 % 256 with
        | 0x00 => .mtcStatus a
        | 0x01 => .mtcFpf a
        | 0x02 => .mtcFerec a
        | 0x08 => .mtcRng a
        | 0x0C => .mtcTrpb a
        | 0x0E => .mtcTrpc a
        | _ => .mtc a (fld w 10 8) (fld w 8 2)
      else .mtc a (fld w 10 8) (fld w 8 2), [(0, 8)])
  | 0x13 =>
    some (if w % 2 = 0 then .barArrive (fld w 18 6) (fld w 10 8) (fld w 8 2)
      else .barWait (fld w 18 6) (fld w 10 8) (fld w 8 2), [(1, 7)])
  | _ => none

/-- The vector class (R59, R66); opcodes 0xC0 to 0xC8 only in S3, which is when `s3` holds. -/
def readVector (s3 : Bool) (w : Nat) : Reading :=
  let o := readVR w
  match w / 2 ^ 56 % 256 with
  | 0x00 => some (.vadd o, [])
  | 0x01 => some (.vsub o, [])
  | 0x02 => some (.vadds o, [])
  | 0x03 => some (.vsubs o, [])
  | 0x04 => some (.vmul o, [])
  | 0x05 => some (.vmulh o, [])
  | 0x06 => some (.vmad o, [])
  | 0x07 => some (.vmin o, [])
  | 0x08 => some (.vmax o, [])
  | 0x09 => some (.vabs o, [])
  | 0x0A => some (.vneg o, [])
  | 0x0B => some (.vand o, [])
  | 0x0C => some (.vor o, [])
  | 0x0D => some (.vxor o, [])
  | 0x0E => some (.vandn o, [])
  | 0x0F => some (.vshl o, [])
  | 0x10 => some (.vshr o, [])
  | 0x11 => some (.vpopc o, [])
  | 0x12 => some (.vclz o, [])
  | 0x13 => some (.vmov o, [])
  | 0x20 => some (.vfadd o, [])
  | 0x21 => some (.vfsub o, [])
  | 0x22 => some (.vfmul o, [])
  | 0x23 => some (.vfma o, [])
  | 0x24 => some (.vfnma o, [])
  | 0x25 => some (.vfdiv o, [])
  | 0x26 => some (.vfsqrt o, [])
  | 0x27 => some (.vfmin o, [])
  | 0x28 => some (.vfmax o, [])
  | 0x29 => some (.vfrcp o, [])
  | 0x2A => some (.vfrsq o, [])
  | 0x2B => some (.vfexp2 o, [])
  | 0x2C => some (.vflog2 o, [])
  | 0x30 => some (.vcmp o, [])
  | 0x31 => some (.vfcmp o, [])
  | 0x32 => some (.vsel o, [])
  | 0x33 => some (.vbcst o, [])
  | 0x38 => some (.vcvt o, [])
  | 0x3A => some (.vdqnt o, [])
  | 0x40 => some (.vxch o, [])
  | 0x41 => some (.vperm o, [])
  | 0x42 => some (.vcomp o, [])
  | 0x43 => some (.vexp o, [])
  | 0x44 => some (.vsld o, [])
  | 0x48 => some (.vrsum o, [])
  | 0x49 => some (.vrmax o, [])
  | 0x4A => some (.vrmin o, [])
  | 0x4B => some (.vrfsum o, [])
  | 0x4C => some (.vrfmax o, [])
  | 0x80 => some (.vaddS o, [])
  | 0x81 => some (.vsubS o, [])
  | 0x82 => some (.vaddsS o, [])
  | 0x83 => some (.vsubsS o, [])
  | 0x84 => some (.vmulS o, [])
  | 0x85 => some (.vmulhS o, [])
  | 0x86 => some (.vmadS o, [])
  | 0x87 => some (.vminS o, [])
  | 0x88 => some (.vmaxS o, [])
  | 0x8B => some (.vandS o, [])
  | 0x8C => some (.vorS o, [])
  | 0x8D => some (.vxorS o, [])
  | 0x8E => some (.vandnS o, [])
  | 0x8F => some (.vshlS o, [])
  | 0x90 => some (.vshrS o, [])
  | 0xA0 => some (.vfaddS o, [])
  | 0xA1 => some (.vfsubS o, [])
  | 0xA2 => some (.vfmulS o, [])
  | 0xA3 => some (.vfmaS o, [])
  | 0xA4 => some (.vfnmaS o, [])
  | 0xA5 => some (.vfdivS o, [])
  | 0xA7 => some (.vfminS o, [])
  | 0xA8 => some (.vfmaxS o, [])
  | 0xB0 => some (.vcmpS o, [])
  | 0xB1 => some (.vfcmpS o, [])
  | 0x39 => some (if w / 2 ^ 5 % 2 = 0 then .vqnt o else .vqntScale o, [])
  | 0xC0 => if s3 then some (.gset o, []) else none
  | 0xC1 => if s3 then some (.gidx o, []) else none
  | 0xC4 => if s3 then some (.gor2 (readVG w), [(0, 22)]) else none
  | 0xC5 => if s3 then some (.gor3 (readVG w), [(0, 22)]) else none
  | 0xC6 => if s3 then some (.ginc (readVG w), [(0, 22)]) else none
  | 0xC7 => if s3 then some (.gins (readVG w), [(0, 22)]) else none
  | 0xC8 => if s3 then some (.gseg (readVG w), [(0, 22)]) else none
  | _ => none

/-- The memory class (R63, R69). SPRE with the ALL flag has a row of its own (R189). -/
def readMemory (w : Nat) : Reading :=
  match w / 2 ^ 56 % 256 with
  | 0x00 => some (.ldI8 (readLS w), [(32, 2)])
  | 0x01 => some (.ldN8 (readLS w), [(32, 2)])
  | 0x02 => some (.ldI16 (readLS w), [(32, 2)])
  | 0x03 => some (.ldN16 (readLS w), [(32, 2)])
  | 0x04 => some (.ldI32 (readLS w), [(32, 2)])
  | 0x05 => some (.ldN32 (readLS w), [(32, 2)])
  | 0x06 => some (.ldI64 (readLS w), [(32, 2)])
  | 0x08 => some (.stN8 (readLS w), [(32, 2)])
  | 0x09 => some (.stN16 (readLS w), [(32, 2)])
  | 0x0A => some (.stN32 (readLS w), [(32, 2)])
  | 0x0B => some (.stN64 (readLS w), [(32, 2)])
  | 0x0C => some (.ldsI32 (readLS w), [(32, 2)])
  | 0x0D => some (.ldsN32 (readLS w), [(32, 2)])
  | 0x0E => some (.ldsI64 (readLS w), [(32, 2)])
  | 0x10 => some (.ldaN32 (readLS w), [(32, 2)])
  | 0x11 => some (.ldaI64 (readLS w), [(32, 2)])
  | 0x12 => some (.stlN32 (readLS w), [(32, 2)])
  | 0x13 => some (.stlN64 (readLS w), [(32, 2)])
  | 0x18 => some (.aadd (readLA w), [(0, 29)])
  | 0x19 => some (.aand (readLA w), [(0, 29)])
  | 0x1A => some (.aor (readLA w), [(0, 29)])
  | 0x1B => some (.axor (readLA w), [(0, 29)])
  | 0x1C => some (.amin (readLA w), [(0, 29)])
  | 0x1D => some (.amax (readLA w), [(0, 29)])
  | 0x1E => some (.aswp (readLA w), [(0, 29)])
  | 0x1F => some (.acas (readLA w), [(0, 29)])
  | 0x20 => some (.vld (readLV w), [])
  | 0x21 => some (.vst (readLV w), [])
  | 0x22 => some (.vlds (readLV w), [])
  | 0x23 => some (.vsts (readLV w), [])
  | 0x24 => some (.vgth (readLG w), [(0, 21)])
  | 0x25 => some (.vsct (readLG w), [(0, 21)])
  | 0x26 => some (.pld (readLV w), [])
  | 0x27 => some (.pst (readLV w), [])
  | 0x30 => some (.drain (readLS w), [(32, 2)])
  | 0x31 => some (.clwb (readLS w), [(32, 2)])
  | 0x32 => some (.clinv (readLS w), [(32, 2)])
  | 0x33 => some (.clfl (readLS w), [(32, 2)])
  | 0x34 => some (.waita (readLS w), [(32, 2)])
  | 0x38 => some (.sown (readLX w), [])
  | 0x39 => some (.srel (readLX w), [])
  | 0x3A => some (.sact (readLX w), [])
  | 0x3B => some (if w / 2 ^ 34 % 2 = 0 then .spre (readLX w) else .spreAll (readLX w), [])
  | 0x3C => some (.sref (readLX w), [])
  | 0x3D => some (.sldx (readLX w), [])
  | 0x3E => some (.sstx (readLX w), [])
  | _ => none

/-- The matrix class (R61, R67); MGO is two rows by its FIX bit (R226). -/
def readMatrix (w : Nat) : Option (MOp × FM) :=
  let o := readFM w
  match w / 2 ^ 88 % 256 with
  | 0x00 => some (.mcfg, o)
  | 0x01 => some (.mfmt, o)
  | 0x03 => some (.mldw, o)
  | 0x04 => some (.mrdz, o)
  | 0x05 => some (.mrdb, o)
  | 0x06 => some (.mcal, o)
  | 0x07 => some (.mzclr, o)
  | 0x08 => some (.mav, o)
  | 0x0F => some (.msig, o)
  | 0x02 => some (if w / 2 ^ 53 % 2 = 1 then .mgoFix else .mgoLoop, o)
  | _ => none

/-- The engine class (R62, R68); CPYX and MXRED are rows by their op and mode (R200, R203). -/
def readEngine (w : Nat) : Option (EOp × FE) :=
  let o := readFE w
  match w / 2 ^ 88 % 256 with
  | 0x00 => some (.cpy, o)
  | 0x01 => some (.cpy2, o)
  | 0x02 => some (.cpy3, o)
  | 0x04 => some (.cpyh, o)
  | 0x08 => some (.fcpy, o)
  | 0x0A => some (.rsig, o)
  | 0x10 => some (.pmap, o)
  | 0x11 => some (.pmq, o)
  | 0x12 => some (.launch, o)
  | 0x13 => some (.esig, o)
  | 0x03 =>
    match w / 2 ^ 61 % 8 with
    | 0 => some (.cpyxScale, o)
    | 1 => some (.cpyxAdd, o)
    | 2 => some (.cpyxCast, o)
    | 3 => some (.cpyxRadd, o)
    | 4 => some (.cpyxRmax, o)
    | _ => none
  | 0x09 =>
    match w / 2 ^ 62 % 4 with
    | 0 => some (.mxredStart, o)
    | 1 => some (.mxredRelay, o)
    | 2 => some (.mxredFinish, o)
    | _ => none
  | _ => none

/-- The row a slot value holds, with the reserved fields of its format: in formats M and E bits [5:0] (R60). -/
def readSlot (cls : SlotClass) (s3 : Bool) (w : Nat) : Option (Slot × List (Nat × Nat)) :=
  match cls with
  | .scalar => (readScalar w).map fun r => (.op r.1, r.2)
  | .control => (readControl w).map fun r => (.op r.1, r.2)
  | .vector => (readVector s3 w).map fun r => (.op r.1, r.2)
  | .memory => (readMemory w).map fun r => (.op r.1, r.2)
  | .matrix => (readMatrix w).map fun r => (.mat r.1 r.2, [(0, 6)])
  | .engine => (readEngine w).map fun r => (.eng r.1 r.2, [(0, 6)])

/-- What a slot value holds, or the reason it is no instruction: the field checks of R52. -/
def decodeSlot (cls : SlotClass) (s3 : Bool) (w : Nat) : Except DecodeError Slot :=
  match readSlot cls s3 w with
  | none => .error .unassigned
  | some (i, rsv) =>
    if rsv.all fun r => w / 2 ^ r.1 % 2 ^ r.2 = 0 then
      if i.wf then .ok i else .error .form
    else .error .reserved

/-- The instruction a slot value decodes to, or the reason it is none. -/
noncomputable def decode (cls : SlotClass) (s3 : Bool) (w : Nat) : Except DecodeError Instr :=
  (decodeSlot cls s3 w).map Slot.toInstr

/-- Whether the major opcode of a slot value is assigned, which is what the bundle checks of R51 steps 2 and 3 go by. -/
def opcodeAssigned (cls : SlotClass) (s3 : Bool) (w : Nat) : Bool :=
  match cls with
  | .scalar => (readScalar w).isSome
  | .control => (readControl w).isSome || w / 2 ^ 24 % 256 = 0x0A
  | .vector => (readVector s3 w).isSome
  | .matrix => (readMatrix w).isSome
  | .engine => (readEngine w).isSome || w / 2 ^ 88 % 256 = 0x03 || w / 2 ^ 88 % 256 = 0x09
  | .memory => (readMemory w).isSome

/-- The class of slot `i` and its size in bytes (R44). -/
def slotClass (i : Nat) : SlotClass :=
  match i with
  | 0 | 1 => .scalar
  | 2 => .control
  | 3 | 4 => .vector
  | 5 => .matrix
  | 6 => .engine
  | _ => .memory

def slotBytes (i : Nat) : Nat :=
  match slotClass i with
  | .scalar | .control => 4
  | .vector | .memory => 8
  | .matrix | .engine => 12

/-- A bundle header (R44). -/
structure Header where
  mask : BitVec 8
  mi : Bool
  ib : Bool
  rsv : BitVec 6
deriving DecidableEq, Repr

def readHeader (h : Nat) : Header :=
  { mask := fld h 0 8, mi := h / 2 ^ 8 % 2 = 1, ib := h / 2 ^ 9 % 2 = 1, rsv := fld h 10 6 }

/-- The slots a mask names, in ascending order (R44). -/
def presentSlots (mask : BitVec 8) : List Nat := (List.range 8).filter fun i => mask.getLsbD i

/-- The length in bytes of a bundle with this mask (R44). -/
def bundleLength (mask : BitVec 8) : Nat := 2 + ((presentSlots mask).map slotBytes).sum

/-- Little-endian number of a list of bytes (R4). -/
def leNat : List Byte → Nat
  | [] => 0
  | b :: bs => b.toNat + 256 * leNat bs

/-- The slot values of a bundle's bytes after its header, paired with their slot numbers; none where bytes lack. -/
def slotValues : List Nat → List Byte → Option (List (Nat × Nat))
  | [], _ => some []
  | i :: is, bs =>
    if bs.length < slotBytes i then none
    else (slotValues is (bs.drop (slotBytes i))).map ((i, leNat (bs.take (slotBytes i))) :: ·)

/-- A bundle as its bytes give it: header, length, and the value of each present slot. -/
structure Bundle where
  hdr : Header
  len : Nat
  slots : List (Nat × Nat)
deriving DecidableEq, Repr

/-- The bundle that the bytes at an address hold; none where there are fewer bytes than it needs. -/
def readBundle (bs : List Byte) : Option Bundle :=
  match bs with
  | b0 :: b1 :: rest =>
    let h := readHeader (leNat [b0, b1])
    (slotValues (presentSlots h.mask) rest).map fun sl => { hdr := h, len := bundleLength h.mask, slots := sl }
  | _ => none

/-- The vector source fields of an instruction, port and register, in the order va, vb, vc, store data (R49). -/
def Instr.vecSources : Instr → List (BitVec 3 × BitVec 6)
  | .vabs o | .vneg o | .vpopc o | .vclz o | .vmov o | .vfsqrt o | .vfrcp o | .vfrsq o | .vfexp2 o | .vflog2 o
  | .vcvt o | .vqntScale o | .vxch o | .vcomp o | .vexp o | .vrsum o | .vrmax o | .vrmin o | .vrfsum o | .vrfmax o
  | .gidx o
  | .vaddS o | .vsubS o | .vaddsS o | .vsubsS o | .vmulS o | .vmulhS o | .vminS o | .vmaxS o | .vandS o | .vorS o
  | .vxorS o | .vandnS o | .vshlS o | .vshrS o | .vfaddS o | .vfsubS o | .vfmulS o | .vfdivS o | .vfminS o | .vfmaxS o
  | .vcmpS o | .vfcmpS o => [(o.qa, o.va)]
  | .vmadS o | .vfmaS o | .vfnmaS o => [(o.qa, o.va), (o.qc, o.vc)]
  | .vadd o | .vsub o | .vadds o | .vsubs o | .vmul o | .vmulh o | .vmin o | .vmax o | .vand o | .vor o | .vxor o
  | .vandn o | .vshl o | .vshr o | .vfadd o | .vfsub o | .vfmul o | .vfdiv o | .vfmin o | .vfmax o | .vcmp o | .vfcmp o
  | .vsel o | .vqnt o | .vdqnt o | .vperm o | .vsld o => [(o.qa, o.va), (o.qb, o.vb)]
  | .vmad o | .vfma o | .vfnma o => [(o.qa, o.va), (o.qb, o.vb), (o.qc, o.vc)]
  | .gset o => [(o.qa, o.va), (o.qb, o.vb)] ++ (if o.fx.getLsbD 0 then [] else [(o.qc, o.vc)])
  | .vst o | .vsts o => [(o.qd, o.vd)]
  | .vgth o => [(o.qb, o.vb)]
  | .vsct o => [(o.qb, o.vb), (o.qd, o.vd)]
  | _ => []

/-- The vector source fields of a slot; in the matrix class only MGO has one (R226). -/
def Slot.vecSources : Slot → List (BitVec 3 × BitVec 6)
  | .op i => i.vecSources
  | .mat .mgoFix o | .mat .mgoLoop o => [(o.qa, o.va)]
  | _ => []

/-! ### The encoder, from the same layouts -/

/-- The wait/signal block as a number (R60). -/
def WaitSig.toWord (w : WaitSig) : Nat :=
  w.we.toNat * 2 ^ 49 + w.ws.toNat * 2 ^ 41 + w.wt.toNat * 2 ^ 25 + w.se.toNat * 2 ^ 24 + w.ss.toNat * 2 ^ 16
    + w.si.toNat * 2 ^ 8 + w.spt.toNat * 2 ^ 6

def VR.toWord (opc : Nat) (o : VR) : Nat :=
  opc * 2 ^ 56 + o.vd.toNat * 2 ^ 50 + o.va.toNat * 2 ^ 44 + o.qa.toNat * 2 ^ 41 + o.vb.toNat * 2 ^ 35
    + o.qb.toNat * 2 ^ 32 + o.vc.toNat * 2 ^ 26 + o.qc.toNat * 2 ^ 23 + o.pg.toNat * 2 ^ 18 + o.t.toNat * 2 ^ 14
    + o.rm.toNat * 2 ^ 11 + o.zm.toNat * 2 ^ 10 + o.fr.toNat * 2 ^ 6 + o.fx.toNat

def VG.toWord (opc : Nat) (o : VG) : Nat :=
  opc * 2 ^ 56 + o.vd.toNat * 2 ^ 50 + o.pd.toNat * 2 ^ 45 + o.pg.toNat * 2 ^ 40 + o.ga.toNat * 2 ^ 37
    + o.gb.toNat * 2 ^ 34 + o.gc.toNat * 2 ^ 31 + o.ge.toNat * 2 ^ 28 + o.gh.toNat * 2 ^ 25 + o.md.toNat * 2 ^ 23
    + o.nf.toNat * 2 ^ 22

def FM.toWord (opc : Nat) (o : FM) : Nat :=
  opc * 2 ^ 88 + o.vd.toNat * 2 ^ 82 + o.va.toNat * 2 ^ 76 + o.qa.toNat * 2 ^ 73 + o.sd.toNat * 2 ^ 67
    + o.sa.toNat * 2 ^ 61 + o.zt.toNat * 2 ^ 58 + o.imm.toNat * 2 ^ 50 + o.w.toWord

def FE.toWord (opc : Nat) (o : FE) : Nat :=
  opc * 2 ^ 88 + o.sd.toNat * 2 ^ 82 + o.sa.toNat * 2 ^ 76 + o.sb.toNat * 2 ^ 70 + o.sc.toNat * 2 ^ 64
    + o.fn.toNat * 2 ^ 50 + o.w.toWord

def LS.toWord (opc : Nat) (o : LS) : Nat :=
  opc * 2 ^ 56 + o.sd.toNat * 2 ^ 50 + o.sa.toNat * 2 ^ 44 + o.sx.toNat * 2 ^ 38 + o.sh.toNat * 2 ^ 36
    + o.sco.toNat * 2 ^ 34 + o.off.toNat

def LV.toWord (opc : Nat) (o : LV) : Nat :=
  opc * 2 ^ 56 + o.vd.toNat * 2 ^ 50 + o.qd.toNat * 2 ^ 47 + o.sa.toNat * 2 ^ 41 + o.sx.toNat * 2 ^ 35
    + o.pg.toNat * 2 ^ 30 + o.t.toNat * 2 ^ 26 + o.sco.toNat * 2 ^ 24 + o.off.toNat

def LG.toWord (opc : Nat) (o : LG) : Nat :=
  opc * 2 ^ 56 + o.vd.toNat * 2 ^ 50 + o.qd.toNat * 2 ^ 47 + o.sa.toNat * 2 ^ 41 + o.vb.toNat * 2 ^ 35
    + o.qb.toNat * 2 ^ 32 + o.pg.toNat * 2 ^ 27 + o.t.toNat * 2 ^ 23 + o.sco.toNat * 2 ^ 21

def LA.toWord (opc : Nat) (o : LA) : Nat :=
  opc * 2 ^ 56 + o.sd.toNat * 2 ^ 50 + o.sa.toNat * 2 ^ 44 + o.sb.toNat * 2 ^ 38 + o.sc.toNat * 2 ^ 32
    + o.sco.toNat * 2 ^ 30 + o.w.toNat * 2 ^ 29

def LX.toWord (opc : Nat) (o : LX) : Nat :=
  opc * 2 ^ 56 + o.sd.toNat * 2 ^ 50 + o.sa.toNat * 2 ^ 44 + o.sb.toNat * 2 ^ 38 + o.ch.toNat * 2 ^ 35 + o.imm.toNat

/-- A 32-bit slot value: the opcode in its top byte, and fields at the bits given (R57, R58). -/
def wordOf (opc : Nat) (fs : List (Nat × Nat)) : Nat := opc * 2 ^ 24 + (fs.map fun f => f.2 * 2 ^ f.1).sum

/-- The class and the slot value of an instruction; none for an event, which no program encodes. -/
def encode : Instr → Option (SlotClass × Nat)
  | .add d a b => some (.scalar, wordOf 0x00 [(18, d.toNat), (12, a.toNat), (6, b.toNat)])
  | .sub d a b => some (.scalar, wordOf 0x01 [(18, d.toNat), (12, a.toNat), (6, b.toNat)])
  | .and d a b => some (.scalar, wordOf 0x02 [(18, d.toNat), (12, a.toNat), (6, b.toNat)])
  | .or d a b => some (.scalar, wordOf 0x03 [(18, d.toNat), (12, a.toNat), (6, b.toNat)])
  | .xor d a b => some (.scalar, wordOf 0x04 [(18, d.toNat), (12, a.toNat), (6, b.toNat)])
  | .andn d a b => some (.scalar, wordOf 0x05 [(18, d.toNat), (12, a.toNat), (6, b.toNat)])
  | .shl d a b => some (.scalar, wordOf 0x06 [(18, d.toNat), (12, a.toNat), (6, b.toNat)])
  | .shr d a b => some (.scalar, wordOf 0x07 [(18, d.toNat), (12, a.toNat), (6, b.toNat)])
  | .sar d a b => some (.scalar, wordOf 0x08 [(18, d.toNat), (12, a.toNat), (6, b.toNat)])
  | .rol d a b => some (.scalar, wordOf 0x09 [(18, d.toNat), (12, a.toNat), (6, b.toNat)])
  | .mul d a b => some (.scalar, wordOf 0x0A [(18, d.toNat), (12, a.toNat), (6, b.toNat)])
  | .mulh d a b => some (.scalar, wordOf 0x0B [(18, d.toNat), (12, a.toNat), (6, b.toNat)])
  | .mulhn d a b => some (.scalar, wordOf 0x0C [(18, d.toNat), (12, a.toNat), (6, b.toNat)])
  | .div d a b => some (.scalar, wordOf 0x0D [(18, d.toNat), (12, a.toNat), (6, b.toNat)])
  | .divn d a b => some (.scalar, wordOf 0x0E [(18, d.toNat), (12, a.toNat), (6, b.toNat)])
  | .rem d a b => some (.scalar, wordOf 0x0F [(18, d.toNat), (12, a.toNat), (6, b.toNat)])
  | .remn d a b => some (.scalar, wordOf 0x10 [(18, d.toNat), (12, a.toNat), (6, b.toNat)])
  | .min d a b => some (.scalar, wordOf 0x11 [(18, d.toNat), (12, a.toNat), (6, b.toNat)])
  | .max d a b => some (.scalar, wordOf 0x12 [(18, d.toNat), (12, a.toNat), (6, b.toNat)])
  | .minn d a b => some (.scalar, wordOf 0x13 [(18, d.toNat), (12, a.toNat), (6, b.toNat)])
  | .maxn d a b => some (.scalar, wordOf 0x14 [(18, d.toNat), (12, a.toNat), (6, b.toNat)])
  | .clz d a => some (.scalar, wordOf 0x15 [(18, d.toNat), (12, a.toNat)])
  | .popc d a => some (.scalar, wordOf 0x16 [(18, d.toNat), (12, a.toNat)])
  | .cmpEq d a b => some (.scalar, wordOf 0x18 [(18, d.toNat), (12, a.toNat), (6, b.toNat)])
  | .cmpNe d a b => some (.scalar, wordOf 0x19 [(18, d.toNat), (12, a.toNat), (6, b.toNat)])
  | .cmpLt d a b => some (.scalar, wordOf 0x1A [(18, d.toNat), (12, a.toNat), (6, b.toNat)])
  | .cmpGe d a b => some (.scalar, wordOf 0x1B [(18, d.toNat), (12, a.toNat), (6, b.toNat)])
  | .cmpLtn d a b => some (.scalar, wordOf 0x1C [(18, d.toNat), (12, a.toNat), (6, b.toNat)])
  | .cmpGen d a b => some (.scalar, wordOf 0x1D [(18, d.toNat), (12, a.toNat), (6, b.toNat)])
  | .addImm d a imm => some (.scalar, wordOf 0x20 [(18, d.toNat), (12, a.toNat), (0, imm.toNat)])
  | .subImm d a imm => some (.scalar, wordOf 0x21 [(18, d.toNat), (12, a.toNat), (0, imm.toNat)])
  | .andImm d a imm => some (.scalar, wordOf 0x22 [(18, d.toNat), (12, a.toNat), (0, imm.toNat)])
  | .orImm d a imm => some (.scalar, wordOf 0x23 [(18, d.toNat), (12, a.toNat), (0, imm.toNat)])
  | .xorImm d a imm => some (.scalar, wordOf 0x24 [(18, d.toNat), (12, a.toNat), (0, imm.toNat)])
  | .andnImm d a imm => some (.scalar, wordOf 0x25 [(18, d.toNat), (12, a.toNat), (0, imm.toNat)])
  | .shlImm d a k => some (.scalar, wordOf 0x26 [(18, d.toNat), (12, a.toNat), (0, k.toNat)])
  | .shrImm d a k => some (.scalar, wordOf 0x27 [(18, d.toNat), (12, a.toNat), (0, k.toNat)])
  | .sarImm d a k => some (.scalar, wordOf 0x28 [(18, d.toNat), (12, a.toNat), (0, k.toNat)])
  | .rolImm d a k => some (.scalar, wordOf 0x29 [(18, d.toNat), (12, a.toNat), (0, k.toNat)])
  | .mulImm d a imm => some (.scalar, wordOf 0x2A [(18, d.toNat), (12, a.toNat), (0, imm.toNat)])
  | .mulhImm d a imm => some (.scalar, wordOf 0x2B [(18, d.toNat), (12, a.toNat), (0, imm.toNat)])
  | .mulhnImm d a imm => some (.scalar, wordOf 0x2C [(18, d.toNat), (12, a.toNat), (0, imm.toNat)])
  | .divImm d a imm => some (.scalar, wordOf 0x2D [(18, d.toNat), (12, a.toNat), (0, imm.toNat)])
  | .divnImm d a imm => some (.scalar, wordOf 0x2E [(18, d.toNat), (12, a.toNat), (0, imm.toNat)])
  | .remImm d a imm => some (.scalar, wordOf 0x2F [(18, d.toNat), (12, a.toNat), (0, imm.toNat)])
  | .remnImm d a imm => some (.scalar, wordOf 0x30 [(18, d.toNat), (12, a.toNat), (0, imm.toNat)])
  | .minImm d a imm => some (.scalar, wordOf 0x31 [(18, d.toNat), (12, a.toNat), (0, imm.toNat)])
  | .maxImm d a imm => some (.scalar, wordOf 0x32 [(18, d.toNat), (12, a.toNat), (0, imm.toNat)])
  | .minnImm d a imm => some (.scalar, wordOf 0x33 [(18, d.toNat), (12, a.toNat), (0, imm.toNat)])
  | .maxnImm d a imm => some (.scalar, wordOf 0x34 [(18, d.toNat), (12, a.toNat), (0, imm.toNat)])
  | .cmpEqImm d a imm => some (.scalar, wordOf 0x38 [(18, d.toNat), (12, a.toNat), (0, imm.toNat)])
  | .cmpNeImm d a imm => some (.scalar, wordOf 0x39 [(18, d.toNat), (12, a.toNat), (0, imm.toNat)])
  | .cmpLtImm d a imm => some (.scalar, wordOf 0x3A [(18, d.toNat), (12, a.toNat), (0, imm.toNat)])
  | .cmpGeImm d a imm => some (.scalar, wordOf 0x3B [(18, d.toNat), (12, a.toNat), (0, imm.toNat)])
  | .cmpLtnImm d a imm => some (.scalar, wordOf 0x3C [(18, d.toNat), (12, a.toNat), (0, imm.toNat)])
  | .cmpGenImm d a imm => some (.scalar, wordOf 0x3D [(18, d.toNat), (12, a.toNat), (0, imm.toNat)])
  | .fadd d a b t m => some (.scalar, wordOf 0x40 [(18, d.toNat), (12, a.toNat), (6, b.toNat), (4, t.toNat), (2, m.toNat)])
  | .fsub d a b t m => some (.scalar, wordOf 0x41 [(18, d.toNat), (12, a.toNat), (6, b.toNat), (4, t.toNat), (2, m.toNat)])
  | .fmul d a b t m => some (.scalar, wordOf 0x42 [(18, d.toNat), (12, a.toNat), (6, b.toNat), (4, t.toNat), (2, m.toNat)])
  | .fdiv d a b t m => some (.scalar, wordOf 0x43 [(18, d.toNat), (12, a.toNat), (6, b.toNat), (4, t.toNat), (2, m.toNat)])
  | .fsqrt d a t m => some (.scalar, wordOf 0x44 [(18, d.toNat), (12, a.toNat), (4, t.toNat), (2, m.toNat)])
  | .fmin d a b t => some (.scalar, wordOf 0x45 [(18, d.toNat), (12, a.toNat), (6, b.toNat), (4, t.toNat)])
  | .fmax d a b t => some (.scalar, wordOf 0x46 [(18, d.toNat), (12, a.toNat), (6, b.toNat), (4, t.toNat)])
  | .fcmpEq d a b t => some (.scalar, wordOf 0x48 [(18, d.toNat), (12, a.toNat), (6, b.toNat), (4, t.toNat)])
  | .fcmpLt d a b t => some (.scalar, wordOf 0x49 [(18, d.toNat), (12, a.toNat), (6, b.toNat), (4, t.toNat)])
  | .fcmpLe d a b t => some (.scalar, wordOf 0x4A [(18, d.toNat), (12, a.toNat), (6, b.toNat), (4, t.toNat)])
  | .fcmpUn d a b t => some (.scalar, wordOf 0x4B [(18, d.toNat), (12, a.toNat), (6, b.toNat), (4, t.toNat)])
  | .cvtif d a t m u => some (.scalar, wordOf 0x4C [(18, d.toNat), (12, a.toNat), (4, t.toNat), (2, m.toNat), (1, u.toNat)])
  | .cvtfi d a t m u => some (.scalar, wordOf 0x4D [(18, d.toNat), (12, a.toNat), (4, t.toNat), (2, m.toNat), (1, u.toNat)])
  | .cvtff d a t m u => some (.scalar, wordOf 0x4E [(18, d.toNat), (12, a.toNat), (4, t.toNat), (2, m.toNat), (0, u.toNat)])
  | .fmaF64 d a b c => some (.scalar, wordOf 0x50 [(18, d.toNat), (12, a.toNat), (6, b.toNat), (0, c.toNat)])
  | .fmaF32 d a b c => some (.scalar, wordOf 0x51 [(18, d.toNat), (12, a.toNat), (6, b.toNat), (0, c.toNat)])
  | .pand d a b => some (.scalar, wordOf 0x58 [(19, d.toNat), (14, a.toNat), (9, b.toNat)])
  | .por d a b => some (.scalar, wordOf 0x59 [(19, d.toNat), (14, a.toNat), (9, b.toNat)])
  | .pxor d a b => some (.scalar, wordOf 0x5A [(19, d.toNat), (14, a.toNat), (9, b.toNat)])
  | .pandn d a b => some (.scalar, wordOf 0x5B [(19, d.toNat), (14, a.toNat), (9, b.toNat)])
  | .pcmpEq d a b => some (.scalar, wordOf 0x60 [(19, d.toNat), (12, a.toNat), (6, b.toNat)])
  | .pcmpNe d a b => some (.scalar, wordOf 0x61 [(19, d.toNat), (12, a.toNat), (6, b.toNat)])
  | .pcmpLt d a b => some (.scalar, wordOf 0x62 [(19, d.toNat), (12, a.toNat), (6, b.toNat)])
  | .pcmpGe d a b => some (.scalar, wordOf 0x63 [(19, d.toNat), (12, a.toNat), (6, b.toNat)])
  | .pcmpLtn d a b => some (.scalar, wordOf 0x64 [(19, d.toNat), (12, a.toNat), (6, b.toNat)])
  | .pcmpGen d a b => some (.scalar, wordOf 0x65 [(19, d.toNat), (12, a.toNat), (6, b.toNat)])
  | .movi d imm => some (.scalar, wordOf 0x70 [(18, d.toNat), (0, imm.toNat)])
  | .movk d h k => some (.scalar, wordOf 0x71 [(18, d.toNat), (16, h.toNat), (0, k.toNat)])
  | .addpc d imm => some (.scalar, wordOf 0x72 [(18, d.toNat), (0, imm.toNat)])
  | .pbr b off => some (.control, wordOf 0x00 [(21, b.toNat), (0, off.toNat)])
  | .pbrr b a => some (.control, wordOf 0x01 [(21, b.toNat), (10, a.toNat)])
  | .br b pg => some (.control, wordOf 0x02 [(21, b.toNat), (16, pg.toNat)])
  | .brn b pg => some (.control, wordOf 0x03 [(21, b.toNat), (16, pg.toNat)])
  | .call b pg => some (.control, wordOf 0x04 [(21, b.toNat), (16, pg.toNat)])
  | .chk b pg a => some (.control, wordOf 0x05 [(21, b.toNat), (16, pg.toNat), (10, a.toNat)])
  | .loop a off => some (.control, wordOf 0x08 [(18, a.toNat), (0, off.toNat)])
  | .loopi n off => some (.control, wordOf 0x09 [(12, n.toNat), (0, off.toNat)])
  | .mfc d sel spc => some (.control, wordOf 0x10 [(18, d.toNat), (10, sel.toNat), (8, spc.toNat)])
  | .twait a sco tl all => some (.control, wordOf 0x12 [(18, a.toNat), (8, sco.toNat), (6, tl.toNat), (5, all.toNat)])
  | .cut id => some (.control, wordOf 0x18 [(0, id.toNat)])
  | .prio c => some (.control, wordOf 0x19 [(0, c.toNat)])
  | .dorm => some (.control, wordOf 0x1A [])
  | .exit => some (.control, wordOf 0x1B [])
  | .trap code => some (.control, wordOf 0x1C [(0, code.toNat)])
  | .tret rt p tb ra => some (.control, wordOf 0x1D [(7, rt.toNat), (6, p.toNat), (3, tb.toNat), (0, ra.toNat)])
  | .blc => some (.control, wordOf 0x0A [])
  | .lpop => some (.control, wordOf 0x0A [(0, 1)])
  | .mtc a sel spc => some (.control, wordOf 0x11 [(18, a.toNat), (10, sel.toNat), (8, spc.toNat)])
  | .mtcStatus a => some (.control, wordOf 0x11 [(18, a.toNat), (10, 0x00)])
  | .mtcFpf a => some (.control, wordOf 0x11 [(18, a.toNat), (10, 0x01)])
  | .mtcFerec a => some (.control, wordOf 0x11 [(18, a.toNat), (10, 0x02)])
  | .mtcRng a => some (.control, wordOf 0x11 [(18, a.toNat), (10, 0x08)])
  | .mtcTrpb a => some (.control, wordOf 0x11 [(18, a.toNat), (10, 0x0C)])
  | .mtcTrpc a => some (.control, wordOf 0x11 [(18, a.toNat), (10, 0x0E)])
  | .barArrive d id sco => some (.control, wordOf 0x13 [(18, d.toNat), (10, id.toNat), (8, sco.toNat)])
  | .barWait a id sco => some (.control, wordOf 0x13 [(18, a.toNat), (10, id.toNat), (8, sco.toNat), (0, 1)])
  | .vadd o => some (.vector, o.toWord 0x00)
  | .vsub o => some (.vector, o.toWord 0x01)
  | .vadds o => some (.vector, o.toWord 0x02)
  | .vsubs o => some (.vector, o.toWord 0x03)
  | .vmul o => some (.vector, o.toWord 0x04)
  | .vmulh o => some (.vector, o.toWord 0x05)
  | .vmad o => some (.vector, o.toWord 0x06)
  | .vmin o => some (.vector, o.toWord 0x07)
  | .vmax o => some (.vector, o.toWord 0x08)
  | .vabs o => some (.vector, o.toWord 0x09)
  | .vneg o => some (.vector, o.toWord 0x0A)
  | .vand o => some (.vector, o.toWord 0x0B)
  | .vor o => some (.vector, o.toWord 0x0C)
  | .vxor o => some (.vector, o.toWord 0x0D)
  | .vandn o => some (.vector, o.toWord 0x0E)
  | .vshl o => some (.vector, o.toWord 0x0F)
  | .vshr o => some (.vector, o.toWord 0x10)
  | .vpopc o => some (.vector, o.toWord 0x11)
  | .vclz o => some (.vector, o.toWord 0x12)
  | .vmov o => some (.vector, o.toWord 0x13)
  | .vfadd o => some (.vector, o.toWord 0x20)
  | .vfsub o => some (.vector, o.toWord 0x21)
  | .vfmul o => some (.vector, o.toWord 0x22)
  | .vfma o => some (.vector, o.toWord 0x23)
  | .vfnma o => some (.vector, o.toWord 0x24)
  | .vfdiv o => some (.vector, o.toWord 0x25)
  | .vfsqrt o => some (.vector, o.toWord 0x26)
  | .vfmin o => some (.vector, o.toWord 0x27)
  | .vfmax o => some (.vector, o.toWord 0x28)
  | .vfrcp o => some (.vector, o.toWord 0x29)
  | .vfrsq o => some (.vector, o.toWord 0x2A)
  | .vfexp2 o => some (.vector, o.toWord 0x2B)
  | .vflog2 o => some (.vector, o.toWord 0x2C)
  | .vcmp o => some (.vector, o.toWord 0x30)
  | .vfcmp o => some (.vector, o.toWord 0x31)
  | .vsel o => some (.vector, o.toWord 0x32)
  | .vbcst o => some (.vector, o.toWord 0x33)
  | .vcvt o => some (.vector, o.toWord 0x38)
  | .vdqnt o => some (.vector, o.toWord 0x3A)
  | .vxch o => some (.vector, o.toWord 0x40)
  | .vperm o => some (.vector, o.toWord 0x41)
  | .vcomp o => some (.vector, o.toWord 0x42)
  | .vexp o => some (.vector, o.toWord 0x43)
  | .vsld o => some (.vector, o.toWord 0x44)
  | .vrsum o => some (.vector, o.toWord 0x48)
  | .vrmax o => some (.vector, o.toWord 0x49)
  | .vrmin o => some (.vector, o.toWord 0x4A)
  | .vrfsum o => some (.vector, o.toWord 0x4B)
  | .vrfmax o => some (.vector, o.toWord 0x4C)
  | .vaddS o => some (.vector, o.toWord 0x80)
  | .vsubS o => some (.vector, o.toWord 0x81)
  | .vaddsS o => some (.vector, o.toWord 0x82)
  | .vsubsS o => some (.vector, o.toWord 0x83)
  | .vmulS o => some (.vector, o.toWord 0x84)
  | .vmulhS o => some (.vector, o.toWord 0x85)
  | .vmadS o => some (.vector, o.toWord 0x86)
  | .vminS o => some (.vector, o.toWord 0x87)
  | .vmaxS o => some (.vector, o.toWord 0x88)
  | .vandS o => some (.vector, o.toWord 0x8B)
  | .vorS o => some (.vector, o.toWord 0x8C)
  | .vxorS o => some (.vector, o.toWord 0x8D)
  | .vandnS o => some (.vector, o.toWord 0x8E)
  | .vshlS o => some (.vector, o.toWord 0x8F)
  | .vshrS o => some (.vector, o.toWord 0x90)
  | .vfaddS o => some (.vector, o.toWord 0xA0)
  | .vfsubS o => some (.vector, o.toWord 0xA1)
  | .vfmulS o => some (.vector, o.toWord 0xA2)
  | .vfmaS o => some (.vector, o.toWord 0xA3)
  | .vfnmaS o => some (.vector, o.toWord 0xA4)
  | .vfdivS o => some (.vector, o.toWord 0xA5)
  | .vfminS o => some (.vector, o.toWord 0xA7)
  | .vfmaxS o => some (.vector, o.toWord 0xA8)
  | .vcmpS o => some (.vector, o.toWord 0xB0)
  | .vfcmpS o => some (.vector, o.toWord 0xB1)
  | .vqnt o => some (.vector, o.toWord 0x39)
  | .vqntScale o => some (.vector, o.toWord 0x39)
  | .gset o => some (.vector, o.toWord 0xC0)
  | .gidx o => some (.vector, o.toWord 0xC1)
  | .gor2 o => some (.vector, o.toWord 0xC4)
  | .gor3 o => some (.vector, o.toWord 0xC5)
  | .ginc o => some (.vector, o.toWord 0xC6)
  | .gins o => some (.vector, o.toWord 0xC7)
  | .gseg o => some (.vector, o.toWord 0xC8)
  | .ldI8 o => some (.memory, o.toWord 0x00)
  | .ldN8 o => some (.memory, o.toWord 0x01)
  | .ldI16 o => some (.memory, o.toWord 0x02)
  | .ldN16 o => some (.memory, o.toWord 0x03)
  | .ldI32 o => some (.memory, o.toWord 0x04)
  | .ldN32 o => some (.memory, o.toWord 0x05)
  | .ldI64 o => some (.memory, o.toWord 0x06)
  | .stN8 o => some (.memory, o.toWord 0x08)
  | .stN16 o => some (.memory, o.toWord 0x09)
  | .stN32 o => some (.memory, o.toWord 0x0A)
  | .stN64 o => some (.memory, o.toWord 0x0B)
  | .ldsI32 o => some (.memory, o.toWord 0x0C)
  | .ldsN32 o => some (.memory, o.toWord 0x0D)
  | .ldsI64 o => some (.memory, o.toWord 0x0E)
  | .ldaN32 o => some (.memory, o.toWord 0x10)
  | .ldaI64 o => some (.memory, o.toWord 0x11)
  | .stlN32 o => some (.memory, o.toWord 0x12)
  | .stlN64 o => some (.memory, o.toWord 0x13)
  | .aadd o => some (.memory, o.toWord 0x18)
  | .aand o => some (.memory, o.toWord 0x19)
  | .aor o => some (.memory, o.toWord 0x1A)
  | .axor o => some (.memory, o.toWord 0x1B)
  | .amin o => some (.memory, o.toWord 0x1C)
  | .amax o => some (.memory, o.toWord 0x1D)
  | .aswp o => some (.memory, o.toWord 0x1E)
  | .acas o => some (.memory, o.toWord 0x1F)
  | .vld o => some (.memory, o.toWord 0x20)
  | .vst o => some (.memory, o.toWord 0x21)
  | .vlds o => some (.memory, o.toWord 0x22)
  | .vsts o => some (.memory, o.toWord 0x23)
  | .vgth o => some (.memory, o.toWord 0x24)
  | .vsct o => some (.memory, o.toWord 0x25)
  | .pld o => some (.memory, o.toWord 0x26)
  | .pst o => some (.memory, o.toWord 0x27)
  | .drain o => some (.memory, o.toWord 0x30)
  | .clwb o => some (.memory, o.toWord 0x31)
  | .clinv o => some (.memory, o.toWord 0x32)
  | .clfl o => some (.memory, o.toWord 0x33)
  | .waita o => some (.memory, o.toWord 0x34)
  | .sown o => some (.memory, o.toWord 0x38)
  | .srel o => some (.memory, o.toWord 0x39)
  | .sact o => some (.memory, o.toWord 0x3A)
  | .spre o => some (.memory, o.toWord 0x3B)
  | .sref o => some (.memory, o.toWord 0x3C)
  | .sldx o => some (.memory, o.toWord 0x3D)
  | .sstx o => some (.memory, o.toWord 0x3E)
  | .spreAll o => some (.memory, o.toWord 0x3B)
  | .mcfg o => some (.matrix, o.toWord 0x00)
  | .mfmt o => some (.matrix, o.toWord 0x01)
  | .mldw o => some (.matrix, o.toWord 0x03)
  | .mrdz o => some (.matrix, o.toWord 0x04)
  | .mrdb o => some (.matrix, o.toWord 0x05)
  | .mcal o => some (.matrix, o.toWord 0x06)
  | .mzclr o => some (.matrix, o.toWord 0x07)
  | .mav o => some (.matrix, o.toWord 0x08)
  | .msig o => some (.matrix, o.toWord 0x0F)
  | .mgoFix o => some (.matrix, o.toWord 0x02)
  | .mgoLoop o => some (.matrix, o.toWord 0x02)
  | .cpy o => some (.engine, o.toWord 0x00)
  | .cpy2 o => some (.engine, o.toWord 0x01)
  | .cpy3 o => some (.engine, o.toWord 0x02)
  | .cpyh o => some (.engine, o.toWord 0x04)
  | .fcpy o => some (.engine, o.toWord 0x08)
  | .rsig o => some (.engine, o.toWord 0x0A)
  | .pmap o => some (.engine, o.toWord 0x10)
  | .pmq o => some (.engine, o.toWord 0x11)
  | .launch o => some (.engine, o.toWord 0x12)
  | .esig o => some (.engine, o.toWord 0x13)
  | .cpyxScale o => some (.engine, o.toWord 0x03)
  | .cpyxAdd o => some (.engine, o.toWord 0x03)
  | .cpyxCast o => some (.engine, o.toWord 0x03)
  | .cpyxRadd o => some (.engine, o.toWord 0x03)
  | .cpyxRmax o => some (.engine, o.toWord 0x03)
  | .mxredStart o => some (.engine, o.toWord 0x09)
  | .mxredRelay o => some (.engine, o.toWord 0x09)
  | .mxredFinish o => some (.engine, o.toWord 0x09)
  | _ => none

/-- The class of an instruction; none for an event. -/
def Instr.cls (i : Instr) : Option SlotClass := (encode i).map (·.1)

/-- The bytes of a number, lowest first (R4). -/
def leBytes : Nat → Nat → List Byte
  | 0, _ => []
  | n + 1, w => BitVec.ofNat 8 w :: leBytes n (w / 256)

/-- A bundle of one slot: header and slot value, as bytes (R44). -/
def bundleBytes (slot w : Nat) : List Byte := leBytes 2 (2 ^ slot) ++ leBytes (slotBytes slot) w

/-- The slot that a 32-bit table word stands in. The opcode numbers of the scalar and the control class overlap, and the
table does not say which slot a row's word belongs to: the word is taken as control where it is a legal control word,
but for PBR, LOOP and LOOPI, whose legal words are taken as scalar where they are legal scalar words (log entry 9). -/
def tableSlot (w : Nat) : Nat :=
  let s := (decodeSlot .scalar false w).toOption.isSome
  let c := (decodeSlot .control false w).toOption.isSome
  let opc := w / 2 ^ 24 % 256
  if c && !(s && (opc = 0x00 || opc = 0x08 || opc = 0x09)) then 2 else 0

/-- The instruction the decoder reads from a table word: the word laid out as a bundle of one slot, read back. -/
def decodeTableWord (nbits w : Nat) : Option Instr :=
  if nbits ≤ 32 then
    let slot := tableSlot (w % 2 ^ 32)
    match readBundle (bundleBytes slot (w % 2 ^ 32)) with
    | some { slots := [(i, v)], .. } => match decodeSlot (slotClass i) (i == 3) v with
      | .ok (.op i) => some i
      | _ => none
    | _ => none
  else none

end Sys2Proof
end

