-- ==== Sys2Proof/Machine/State.lean ====
section
/-!
DEFINITION. The state of a Plynmel as plain data: contexts (R12 to R37), cores (R12, R24, R239 to R252, R257 to R265,
R311), the package (R38, R39, R267, R332 to R362) and one memory for every byte that has a home (R277). The context and
the core an instruction acts on are held apart (`ctx`, `core`) from the others (`ctxs`, `cores`).
-/

namespace Sys2Proof.Machine

/-- Why the machine stops. -/
inductive Fault where
  /-- The agenda names a core above 1,151, which the part does not have (R2). Raised by ISSUE_CYCLE. Safe: no part of the
  manual speaks of such a core. -/
  | noSuchCore
deriving DecidableEq, Repr

/-- Why a step has no meaning. -/
inductive Refusal where
  /-- The row has not been given a meaning. Raised by an arm of `exec`. Safe. -/
  | notModelled (mnemonic : String)
deriving DecidableEq, Repr

/-- A point slot g (R14, R157): three coordinate vectors of 32 FP64 and an index vector of 32 n64. -/
structure GSlot where
  x : VWord := 0
  y : VWord := 0
  z : VWord := 0
  idx : VWord := 0
deriving DecidableEq, Repr

/-- A level of the loop stack (R22). -/
structure LoopLevel where
  count : W64
  start : W64
  last : W64
  index : W64
deriving DecidableEq, Repr

/-- A timeline (R23): the issue count, the completion watermark, and the numbers above the watermark that have
completed. -/
structure Timeline where
  issued : W64 := 0
  mark : W64 := 0
  ahead : List W64 := []
deriving DecidableEq, Repr

/-- The register files of a context (R14, R15) with their poison bits (R18): bit n of `sp` for s`n`, bit j of element n of
`vp` for lane group j of physical v`n`, bit n of `pp` for physical p`n`. -/
structure Regs where
  s : Vector W64 64 := Vector.replicate 64 0
  sp : W64 := 0
  b : Vector W64 8 := Vector.replicate 8 0
  v : Vector VWord 64 := Vector.replicate 64 0
  vp : Vector W32 64 := Vector.replicate 64 0
  p : Vector PWord 32 := Vector.replicate 32 0
  pp : W32 := 0
  g : Vector GSlot 8 := Vector.replicate 8 {}
  f : Vector W32 16 := Vector.replicate 16 0
  ft : Vector (BitVec 16) 16 := Vector.replicate 16 0
deriving DecidableEq, Repr

/-- The control registers of a context (R26 to R34), STATUS by its fields; PSUM and PCL are derived. -/
structure Ctl where
  sres : BitVec 3 := 0
  vrb : BitVec 5 := 0
  prb : BitVec 4 := 0
  base : BitVec 2 := 0
  gdeg : Bool := false
  gnf : Bool := false
  smis : Bool := false
  mhold : Bool := false
  fpf : W64 := 0
  ferec : W64 := 0
  rng : W64 := Config.rngDefault
  gesc : W64 := 0
  take : BitVec 2 := 0
  ttab : W64 := 0
  trpb : W64 := 0
  lost : Bool := false
  pidx : W32 := 0
  cidx : W32 := 0
deriving DecidableEq, Repr

/-- ESEAM (R36). -/
structure ESeam where
  gtrap : Bool := false
  strict : Bool := false
  lstall : BitVec 16 := 0
  gref : BitVec 16 := 0
  held : BitVec 8 := 0
deriving DecidableEq, Repr

/-- A register or control field whose result may be outstanding (R11, R155, R174): v and p by physical number. -/
inductive Dest where
  | s (n : Nat)
  | v (n : Nat)
  | p (n : Nat)
  | g (n : Nat)
  | geo
deriving DecidableEq, Repr

/-- An outstanding result: its destination and the core cycle from which it can be read, none until an event gives it; and
whether the destination was poisoned before, which STATUS shows until then (R155); whether a vector slot has issued it (R156); of one
that an event brings, when and where it was issued: it is none any more once a later instruction has written its register (R41). -/
structure Pend where
  dst : Dest
  due : Option Nat
  was : Bool := false
  vec : Bool := false
  tag : Nat := 0
deriving DecidableEq, Repr

/-- A floating-point event on its way to FPF and FEREC (R97, R156): the cycle it lands in, its slot, its bundle, its flags, the
cycle its bundle issued in; of an engine event, the timeline and the number of its operation. -/
structure FlagEv where
  due : Nat
  slot : Nat
  ba : W64
  fl : BitVec 5
  at0 : Nat
  eng : Option (BitVec 2 × W64) := none
deriving DecidableEq, Repr

/-- A transfer that has been decided and not yet taken (R113, R114): target, whether it rotates, stall in cycles. -/
structure Xfer where
  tgt : W64
  rot : Bool
  stall : Nat
deriving DecidableEq, Repr

/-- The records that homes keep (R290): of a line, the scope and originator of the last release that reached it (none: the host
or another device) and the line's bytes as it left them, which the scheduler decodes (R317, R318); of a barrier, the agent sets of the generation in progress and of the
last completed one. -/
inductive Agents where
  | all
  | scope (sco : BitVec 2) (core : BitVec 11)
  | nobody
deriving DecidableEq, Repr

structure LineRec where
  key : Nat
  sco : BitVec 2
  org : Option (BitVec 11)
  data : BitVec 512
  /-- The context that has released, whose own acquires the record covers on any core (R294). -/
  by_ : Option CtxId := none
deriving DecidableEq, Repr

structure BarRec where
  key : Nat
  now : Agents
  done : Agents
deriving DecidableEq, Repr

/-- An arrival at a barrier by the bundle in execution (R194): the word's key, its scope, and the word and the records as they
stood before it, which an S7 read of the same bundle still meets (R282). -/
structure Arrived where
  key : Nat
  sco : BitVec 2
  word : W64
  line : Option LineRec
  bar : BarRec
deriving DecidableEq, Repr

/-- What the bundle in execution carries from slot to slot: the bundle's address and length, the slot, whether it is a
re-entered bundle (R27), the transfer decided so far, whether PC and SRES have been set by TRET, the generator's state as
the bundle's draws have left it and whether MTC has written RNG (R31), whether its IB or a BLC makes the next boundary a
legal point (R323), whether MTC has written SRES, and whether EXIT or DORM take effect after it. -/
structure Iss where
  ba : W64 := 0
  len : Nat := 2
  slot : Nat := 0
  xfer : Option Xfer := none
  reent : Option (W64 × Option Xfer) := none
  rng : W64 := 0
  rngSet : Bool := false
  legal : Bool := false
  sresSet : Bool := false
  exiting : Bool := false
  dorming : Bool := false
  /-- The whole bundle has been found able to issue: its waits are satisfied (R53, R60). -/
  ready : Bool := false
  /-- A slot that was tried found that the bundle cannot issue in this cycle (R53). -/
  held : Bool := false
  arrived : Option Arrived := none
  /-- Memory as the bundle's S7 store or atomic leaves it, for the commands of its lower slots that read memory at commit (R282). -/
  later : Option (List Host.Cell) := none
  /-- The first store of the bundle's instruction that is in flight. -/
  flown : Option Nat := none
deriving DecidableEq, Repr

/-- An armed watch of WAITA (R188): the register, the key of the watched line, the scope, the elapsed time at which it
times out, the code observed, and the outstanding result. -/
structure Watch where
  sd : R6
  line : Nat
  addr : W64
  sco : BitVec 2
  deadline : Option Nat
  seen : Option (BitVec 2)
  tag : Nat := 0
deriving DecidableEq, Repr

/-- The mark of a release (R290): its scope, the core it comes from, its context (R294). -/
structure Mark where
  sco : BitVec 2
  core : BitVec 11
  ctx : CtxId
deriving DecidableEq, Repr

/-- A cache line (R178, R278, R290): key of its first byte, the address that named it, held bytes and their data, dirty
bytes, the marks of releases with the dirty bytes that carry each, the last release last, the context that last dirtied it,
its bank. -/
structure Line where
  key : Nat
  va : W64
  data : BitVec 512
  held : BitVec 64
  dirty : BitVec 64
  marks : List (BitVec 64 × Mark) := []
  by_ : CtxId
  bank : Nat
deriving DecidableEq, Repr

/-- The mark of the last release whose bytes are in a line. -/
def Line.mark (l : Line) : Option Mark := l.marks.getLast?.map (·.2)

/-- An S7 access that waits for another device (R331, R335): the request that is out, the instruction and its bundle, the
registers as they stood before the bundle (R41), the cache role and the pool values of the access as of its issue (R278, R282,
R283), and what has come: lines by key with whether they are uncorrectable, an atomic's old value, and whether a record at a
home did not cover the context (R290). -/
structure Remote where
  seq : Nat
  instr : Instr
  iss : Iss
  regs : Regs
  ctl : Ctl
  addr : W64
  cache : List Line := []
  pool : List (Nat × Nat × Bool) := []
  got : List (Nat × BitVec 512 × Bool) := []
  old : Option (W64 × Bool) := none
  mis : Bool := false
  failed : Bool := false
  /-- Bytes of the core that have left for the line's home since the request, which a CORE atomic still meets (R285). -/
  left : List (Nat × BitVec 512 × BitVec 64) := []
deriving DecidableEq, Repr

/-- A tile's status (R223); BUSY and PSN are derived. -/
structure ZStat where
  clip : Bool := false
  stale : Bool := false
  steps : W32 := 0
deriving DecidableEq, Repr

/-- The kinds of matrix-queue entries (R229). -/
inductive MKind where
  | nest | zclr | cal
deriving DecidableEq, Repr

/-- The record of a tile bank (R221, R222): code of the container width (0 for C = 8, 1 for 4, 2 for 2), scales present,
sparse, whether the record is not empty, positions pruned away, poisoned 64-byte lines. -/
structure TileRec where
  bank : Nat
  cw : BitVec 2
  scales : Bool
  sparse : Bool
  weights : BitVec 131072
  scale : BitVec 4096
  pruned : BitVec 16384
  poison : List Nat
deriving DecidableEq, Repr

/-- A tile operation that runs (R208, R222): the cycle it has started in, and its bank's tile as it stood then. -/
structure TileStart where
  at0 : Nat
  tile : TileRec
deriving DecidableEq, Repr

/-- A matrix-queue entry (R229, R237): its kind, number, immediate or mask, wait/signal block, bundle address, the captured
descriptors AF, WF, OUT, the captured active set and va with its poison, whether it has started and in which cycle, how
many tile operations have been applied, those that run, oldest first, and whether its SPT-1 signal has been performed. -/
structure MEntry where
  kind : MKind
  num : W64
  imm : W64
  w : WaitSig
  ba : W64
  af : W32 := 0
  wf : W32 := 0
  outf : W32 := 0
  cfg : Vector W64 16 := Vector.replicate 16 0
  va : VWord := 0
  vap : W32 := 0
  at0 : Nat := 0
  started : Option Nat := none
  step : Nat := 0
  runs : List TileStart := []
  signalled : Bool := false
  restored : Bool := false
deriving DecidableEq, Repr

/-- An MLDW in flight (R230), with the tile once its sources have been read, or an MSIG whose signal waits (R235; `isSig`). -/
structure MLoad where
  num : W64
  o : FM
  ba : W64
  src : W64
  scl : W64
  isSig : Bool := false
  tile : Option TileRec := none
  at0 : Nat := 0
deriving DecidableEq, Repr

/-- The matrix part of a context (R20, R210, R223, R229): rows 32z + m of `val` and `bnd` hold row m of tile z, column n in
bits [32n+31:32n]. -/
structure Matrix where
  val : Vector (BitVec 4096) 256 := Vector.replicate 256 0
  bnd : Vector (BitVec 4096) 256 := Vector.replicate 256 0
  stat : Vector ZStat 8 := Vector.replicate 8 {}
  shadow : Vector W64 16 := Vector.replicate 16 0
  active : Vector W64 16 := Vector.replicate 16 0
  queue : List MEntry := []
  loads : List MLoad := []
deriving DecidableEq, Repr

/-- An engine command (R195, R325): row and fields, timeline (3 for ESIG), number, operand values as read at issue, seed,
bundle address, cycle of issue, the descriptor of a CPY3. Of a started one: its sources once they have been read (the
bytes, and the places of those that came from uncorrectable data), whether its bytes have been written, whether it waits
for a page; the requests that are out (their numbers; for a read its line), what they brought, and whether one failed; of an
FCPY or MXRED that has started, its fabric copy engine (R339). -/
structure Cmd where
  op : EOp
  o : FE
  tl : BitVec 2
  num : W64
  sd : W64
  sa : W64
  sb : W64
  sc : W64
  seed : W64 := 0
  ba : W64
  at0 : Nat := 0
  desc : List W64 := []
  src : Option (List Byte × List Nat) := none
  wrote : Bool := false
  waiting : Bool := false
  seqs : List Nat := []
  asked : List (Nat × Nat) := []
  got : List (Nat × BitVec 512 × Bool) := []
  failed : Bool := false
  engine : Option Nat := none
  /-- Bytes of a remote source that were dirty in the own cache role when its lines were asked for (R196, R202). -/
  own : List (Nat × BitVec 512 × BitVec 64) := []
deriving DecidableEq, Repr

/-- The states of a context (R305); `none` before a context has been created. -/
inductive Life where
  | none | pending | resident | dormant | saving | saved | held | retiring | retired
deriving DecidableEq, Repr

/-- What a save leads to (R305). -/
inductive SaveEnd where
  | saved | held | retired
deriving DecidableEq, Repr

/-- The record that holds a context (R318): its address, and the fields a disposition uses (R319). -/
structure HoldRec where
  addr : W64
  prec : Bool
  ac : Bool
  pt : Bool
  rt : Bool
  ba : W64
  tgt : W64
  /-- The record of a context whose accepted DIVERT had not taken effect yet: SRES is 0, and the handler stands in `tgt`. -/
  diverted : Bool := false
  /-- The home of the record. -/
  key : Nat := 0
deriving DecidableEq, Repr

/-- The accounts of energy (R328, R356): a region, or housekeeping. -/
inductive Account where
  | region (rid : BitVec 32)
  | housekeeping
deriving DecidableEq, Repr

/-- How a context stands with the scheduler (R298 to R327). -/
structure Sched where
  life : Life := .none
  /-- Dormant when its save began (R305). -/
  wasDormant : Bool := false
  saveEnd : SaveEnd := .saved
  saveFor : Option ReqKind := none
  reqs : List ReqKind := []
  /-- A stop that the context's next legal point brings (R317, R318), and what it leads to. -/
  stopAt : Option SaveEnd := none
  hold : Option HoldRec := none
  /-- The 64-byte record that waits for the ring (R317). -/
  pendRec : Option (BitVec 512) := none
  pendHolds : Bool := false
  /-- Records that wait for what they release, or for results to land, oldest first; whether each would hold the context (R175,
  R286, R317). -/
  outRecs : List (BitVec 512 × Bool) := []
  /-- The region of the waiting context that has asked for this one's bank (R309), and the account of its save and restore
  (R328). -/
  asker : Option (BitVec 32) := none
  account : Account := .housekeeping
  /-- An accepted disposition (R319): 1 RETRY, 2 DIVERT, 3 END, with the address of a DIVERT. -/
  disp : Option (BitVec 2 × W64) := none
  block : W64 := 0
  saveArea : W64 := 0
  lastCore : Option (BitVec 11) := none
  target : Option (BitVec 11) := none
  /-- The highest number of the copies into its core that the context held at the decision to migrate it (R308). -/
  copyTop : W64 := 0
  image : Bool := false
  /-- The order in which it was placed, entered its queue and became dormant, and the elapsed times (R306, R309, R311). -/
  placedAt : Nat := 0
  placedNs : Nat := 0
  queuedAt : Nat := 0
  queuedNs : Nat := 0
  /-- The effective class it has waited in, and since when (R309, R310). -/
  queueCls : Nat := 0
  queueClsNs : Nat := 0
  dormAt : Nat := 0
  lic : Int := 0
  /-- Guard refreshes that GREF of the save area has not counted yet: the walk to it is held (R261, R269). -/
  grefOwed : Nat := 0
deriving DecidableEq, Repr

/-- A precise trap: its cause (R315), detail, lane mask and faulting address; the slot the record names; and the slot that
SRES takes, where it takes one. -/
structure Trap where
  cause : Nat
  slot : Nat
  sres : Option Nat
  ac : Bool := false
  detail : Nat := 0
  lmask : Nat := 0
  faddr : W64 := 0
deriving DecidableEq, Repr

/-- A precise trap that has stopped its context and is not entered yet (R314): the trap, its bundle and the pending transfer. -/
structure Trapped where
  t : Trap
  ba : W64
  xfer : Option Xfer
deriving DecidableEq, Repr

/-- The sequencer of a context (R21, R22, R27, R119, R131, R186, R323). -/
structure Seqr where
  pc : W64 := Config.pcDefault
  loops : List LoopLevel := []
  lsel : BitVec 3 := 0
  /-- Bundles issued since the last write of each b register, none where it has never been written; and whether the next transfer
  through it counts as the first after a restore or a TRET (R119). -/
  prep : Vector (Option Nat) 8 := Vector.replicate 8 none
  cold : Vector Bool 8 := Vector.replicate 8 true
  stallUntil : Nat := 0
  /-- The next bundle is a re-entered one (R131), with its pending transfer. -/
  reent : Option (Option Xfer) := none
  /-- The boundary before the next bundle is a legal point by its last bundle (R323). -/
  legal : Bool := true
  /-- A DRAIN, CLWB or CLFL holds the next bundle until these remote accesses have performed (R186, R187). -/
  drain : List Nat := []
  /-- The guard raises its trap before the next bundle, for each of these channels (R261). -/
  guard : List (BitVec 3) := []
  /-- A trap that stops the context until it is entered (R314). -/
  trapped : Option Trapped := none
  /-- A bundle of which EXIT (true) or DORM has committed and a later slot has trapped: it takes effect when the bundle, re-entered
  above S2, commits (R128, R129). -/
  parting : Option (W64 × Bool) := none
  /-- A lenient exposed command has been counted for its present wait (R260). -/
  counted : Bool := false
  /-- The barrier whose wait the context stands at (R194, R310). -/
  waitsOn : Option (BitVec 8) := none
deriving DecidableEq, Repr

/-- A LAUNCH that the scheduler has not decided (R207): where its result goes, the block, its wait/signal block, its bundle, its
outstanding result. -/
structure Submit where
  sd : R6
  block : W64
  w : WaitSig
  ba : W64
  tag : Nat := 0
deriving DecidableEq, Repr

/-- A context (R12). -/
structure Ctx where
  id : CtxId := ⟨0, 0⟩
  core : BitVec 11 := 0
  bank : BitVec 6 := 0
  r : Regs := {}
  c : Ctl := {}
  q : Seqr := {}
  es : ESeam := {}
  tlc : Timeline := {}
  tlm : Timeline := {}
  tlf : Timeline := {}
  mx : Matrix := {}
  queue : List Cmd := []
  running : List Cmd := []
  board : List Pend := []
  events : List FlagEv := []
  watch : Option Watch := none
  remote : Option Remote := none
  /-- LAUNCHes that wait for their decision, oldest first. -/
  launches : List Submit := []
  sch : Sched := {}
deriving DecidableEq, Repr

/-- A run of semaphores granted to a region on a core (R24, R306). -/
structure Grant where
  rid : BitVec 32
  base : Nat
  count : Nat
  /-- No context of the region is left on the core: the run is reserved for a saved image (R24). -/
  reserved : Bool := false
deriving DecidableEq, Repr

/-- The calibration of a charge bank (R233): offsets in 1/16 code of its 128 columns, the temperature it was taken at, and whether
the bank's temperature has since been more than 8 °C away from it (R359). -/
structure Cal where
  bank : Nat
  offsets : BitVec 2048
  at_ : BitVec 8
  stray : Bool := false
deriving DecidableEq, Repr

/-- A pool change in progress (R245 to R248): the issuing context, the banks that change and the relocation targets by
rising number, the new role, REL, the signal; the cycles in which the last lines of the leaving cache banks were invalidated, of
the named ones and of the targets, and the cycle in which the leaving tiles were free. -/
structure PoolChange where
  ctx : CtxId
  banks : List Nat
  targets : List Nat
  role : BitVec 2
  rel : Bool
  w : WaitSig
  leaveDone : Option Nat := none
  targetDone : Option Nat := none
  tileDone : Option Nat := none
deriving DecidableEq, Repr

/-- The pool of a core (R239 to R253). Charge bank 64 + j has entry j of `tiles` where it holds a nonempty record. -/
structure Pool where
  roles : Vector (BitVec 2) 96
  lb : List Nat
  owner : List (Nat × BitVec 32) := []
  change : Option PoolChange := none
  tiles : List TileRec := []
  cals : List Cal := []
deriving DecidableEq, Repr

/-- A bank of an exposed channel: open row, the cycles of the last SACT, SLDX, SSTX and precharge of it, and of the SACT that
opened the row (R257, R259). -/
structure DBank where
  row : Option Nat := none
  act : Option Nat := none
  opened : Option Nat := none
  rd : Option Nat := none
  wr : Option Nat := none
  pre : Option Nat := none
deriving DecidableEq, Repr

/-- A channel of the core's seam (R256 to R265): the owner, whether it is lent, its banks, the cycles of the last four
SACTs, of the last SLDX, SSTX and SREF, the cycle in which a guard refresh ends, the elapsed time of the last refresh, and
the sd of an SOWN that has not completed with when and where it was issued, and whether an SREL has not. -/
structure Chan where
  owner : Option CtxId := none
  lent : Bool := false
  banks : Vector DBank 16 := Vector.replicate 16 {}
  acts : List Nat := []
  lastRd : Option Nat := none
  lastWr : Option Nat := none
  sref : Option Nat := none
  busy : Nat := 0
  refresh : Nat := 0
  owning : Option R6 := none
  owningTag : Nat := 0
  releasing : Bool := false
deriving DecidableEq, Repr

/-- An entry of the arrival queue (R311). -/
structure Arrival where
  rid : BitVec 32
  handler : W64
  s1 : W64
  s2 : W64
  s3 : W64
deriving DecidableEq, Repr

/-- A store or write-back on its way to its home (R284): number, issuing context (none for a write-back), bundle, address,
key of the line, bytes and mask, the packet that carries it to another device (R331), the release mark. -/
structure Flight where
  seq : Nat
  ctx : CtxId
  wb : Bool
  ba : W64
  addr : W64
  key : Nat
  data : BitVec 512
  mask : BitVec 64
  sent : Option Nat
  mark : Option Mark
  /-- The first store in flight of the same instruction, and whether that instruction's one record has been written. -/
  group : Nat := 0
  quiet : Bool := false
  /-- It stands at a held channel, which serves what it has held first and in the order of arrival (R190, R265). -/
  stood : Bool := false
deriving DecidableEq, Repr

/-- A core (R12, R24, R154, R173, R178, R240, R257, R284, R311, R322). -/
structure Core where
  num : BitVec 11
  k : Vector (BitVec 16) 256 := Vector.replicate 256 0
  pool : Pool
  cache : List Line := []
  grants : List Grant := []
  chans : Vector Chan 8 := Vector.replicate 8 {}
  arrivals : List Arrival := []
  flight : List Flight := []
  /-- The cycles from which banks are free of the tile operations started on them (R208). -/
  bankDone : List (Nat × Nat) := []
  geoUntil : Nat := 0
  divAt : Vector (Option Nat) 2 := Vector.replicate 2 none
  saving : Option CtxId := none
  cycle : Nat := 0
  clock : Nat := 0
  /-- Semaphore signals that fall due later: cycle, context's region, semaphore, increment (R206). -/
  sigs : List (Nat × BitVec 32 × BitVec 8 × BitVec 8) := []
deriving DecidableEq, Repr

/-- A meter of energy in µJ (R356): its value, and what has been charged since the last credit. -/
structure Meter where
  value : W64 := 0
  since : W64 := 0
deriving DecidableEq, Repr

/-- The limits of a region (R295, R297). -/
structure Limits where
  cmax : BitVec 11
  rmax : BitVec 15
  kcnt : BitVec 9
  bcch : BitVec 6
  bscr : BitVec 7
  btile : BitVec 6
  ebud : W64
  plo : BitVec 2
  phi : BitVec 2
  expok : Bool
  lnok : Bool
  migok : Bool
deriving DecidableEq, Repr

/-- What a region runs (R295). -/
structure Work where
  kind : BitVec 2
  rmt : Bool
  geom : Bool
  strict : Bool
  npred : BitVec 16
  entry : W64
  arg : W64
  nsel : BitVec 16
  holdn : BitVec 16
  nctx : BitVec 16
  savb : W64
  trb : W64
  seed : W64
  barb : W64
  sgen : BitVec 32
  nbar : BitVec 9
  succ : List W64
  clmask : BitVec 24
deriving DecidableEq, Repr

/-- The domain and the tables of a region (R295, R297). `own` is the region whose own domain it is where FDOM is 0. -/
structure Domain where
  own : BitVec 32
  fdom : BitVec 16
  fpol : BitVec 2
  root : BitVec 28
  pasid : BitVec 20
deriving DecidableEq, Repr

/-- The signal of a LAUNCH under SPT 0 (R207, R292, R303): the issuing context, its core, the LAUNCH's scope, the semaphore and the
increment. -/
structure LaunchSig where
  ctx : CtxId
  core : BitVec 11
  sco : BitVec 2
  ss : BitVec 8
  si : BitVec 8
deriving DecidableEq, Repr

/-- A live region (R295 to R304). `parent` is none for the host root; `tag` is the host's command tag; `bkey` is the home of
the block. -/
structure Region where
  rid : BitVec 32
  block : W64
  bkey : Nat
  lim : Limits
  work : Work
  dom : Domain
  parent : Option (BitVec 32)
  launcher : Option CtxId
  tag : W32
  sig : Option LaunchSig
  st : BitVec 4
  res : BitVec 8 := 0
  iter : W64 := 0
  emeter : Meter := {}
  bcReg : W64 := 0
  bcCch : W64 := 0
  bcScr : W64 := 0
  bcTile : W64 := 0
  /-- The child of a conditional, loop or switch; and that it has selected its last (R301). -/
  child : Option (BitVec 32) := none
  done : Bool := false
  lostArrival : Bool := false
  /-- Cores on which it has held a context; the write-backs of its clean-up that are on their way, once it has begun (R252,
  R303). -/
  visited : List Nat := []
  cleaned : Option (List Nat) := none
  /-- The elapsed time of the last write of the block's words (R296). -/
  wroteNs : Nat := 0
  /-- The region is being stopped, with this code (R320). -/
  stopping : Option (BitVec 8) := none
deriving DecidableEq, Repr

/-- Time (R38, R357, R358): elapsed time in units of Config.unitsPerNs, and as the clocks alone have it; forward steps in
nanoseconds; the offset still to be slewed, in units; by how much a cycle is stretched; the fields of TCTL, OFS of TSTAT, and
since when every measured offset has been within 20 ns. -/
structure Time where
  elapsed : Nat := 0
  raw : Nat := 0
  steps : Nat := 0
  slew : Int := 0
  stretch : Nat := 0
  src : BitVec 2 := 0
  port : BitVec 5 := 0
  near : Option Nat := none
  ofs : BitVec 32 := 0
deriving DecidableEq, Repr

/-- Power and supply (R39, R347, R351, R352, R355, R356): PGRANT.LEVEL, whether there is a droop and whether there is a supply loss,
and since when (elapsed time); either holds the level at 0; whether the pool images of a loss have been written, the meters, the idle state and the
two latencies, in nanoseconds, of the latency tolerance capability. -/
structure Power where
  level : BitVec 3 := 0
  droop : Bool := false
  droopAt : Nat := 0
  lossOn : Bool := false
  lossAt : Nat := 0
  retained : Bool := false
  hkmeter : Meter := {}
  pkge : Meter := {}
  idle : BitVec 2 := 0
  ltrSnoop : Nat := 0
  ltrNoSnoop : Nat := 0
deriving DecidableEq, Repr

/-- A queue in host memory (R344 to R346). -/
structure Ring where
  base : W64 := 0
  tail : W32 := 0
  head : W32 := 0
  lost : Bool := false
deriving DecidableEq, Repr

/-- The answer of the host for a page of 4 KiB under a PASID (R274): the host page it maps to, and whether it may be read and
written; none where it does not translate. -/
structure HostPage where
  pasid : BitVec 20
  page : Nat
  to_ : Option (Nat × Bool × Bool)
deriving DecidableEq, Repr

/-- The management registers and the host link (R273, R342 to R346). -/
structure Mgmt where
  devid : BitVec 12 := 0
  trel : BitVec 8 := 95
  thot : BitVec 8 := 105
  mpasid : BitVec 20 := 0
  tiaddr : W64 := 0
  tikind : BitVec 2 := 0
  tiregion : BitVec 32 := 0
  /-- The invalidation in progress: kind, region, address. -/
  tiJob : Option (BitVec 2 × BitVec 32 × W64) := none
  tiDone : Bool := false
  hcq : Ring := {}
  evq : Ring := {}
  /-- Events held while the queue is full (R346): the entries' words 0x00 (type), 0x08, 0x10 and 0x18. -/
  held : List (W64 × W64 × W64 × W64) := []
  linkUp : Bool := true
  aer : List Bool := []
  /-- How often the MSI-X vector has been raised (R342, R346). -/
  msix : Nat := 0
  /-- Host pages whose translation is held, and how often the host's tables have changed (R274). -/
  ats : List HostPage := []
  hostGen : Nat := 0
deriving DecidableEq, Repr

/-- An Avsin port (R329 to R338): RTR, REPL, STATE, EN, the lanes that the receiver at the other end has paused, and the elapsed
time at which its training began, and its last attempt. -/
structure Port where
  rtr : BitVec 16 := 0
  repl : BitVec 16 := 0
  state : BitVec 4 := 0
  en : Bool := true
  paused : BitVec 4 := 0
  since : Nat := 0
  attempt : Nat := 0
deriving DecidableEq, Repr

/-- The kinds of packets (R331). A forwarded one is what another device has sent, on its lane. -/
inductive Packet where
  | store (addr : W64) (data : BitVec 512) (mask : BitVec 64)
  | atomic (op : BitVec 3) (w : BitVec 1) (addr b c : W64)
  | signal (addr addend : W64)
  | write (addr : W64) (data : List Byte)
  | read (addr : W64) (len : Nat)
  | reduce (addr : W64) (data : List Byte)
  | forward (lane : BitVec 2) (body : List Byte)
deriving DecidableEq, Repr

/-- A packet on its way out: sequence number, the device it is for, the port it leaves by (none while it waits). -/
structure Sent where
  seq : Nat
  dst : BitVec 12
  port : Option (BitVec 5)
  body : Packet
deriving DecidableEq, Repr

/-- The fabric (R329 to R338). RTAB and RAT list the entries that have been written, by index; the rest are zero. -/
structure Fabric where
  rtab : List (Nat × W32) := []
  rat : List (Nat × W64) := []
  ports : Vector Port 18 := Vector.replicate 18 {}
  out : List Sent := []
  nextSeq : Nat := 0
  /-- Requests that have arrived, by sender, lane and number (R334), and the answers they were given, newest first; and
  those that wait for their lane, oldest first (R330). -/
  seen : List (BitVec 12 × Nat × Nat) := []
  answers : List (BitVec 12 × Nat × Answer × List Byte) := []
  owed : List (BitVec 12 × Nat × Answer × List Byte) := []
deriving DecidableEq, Repr

/-- Who holds a translation (R272): the TLB of a core, or the translation cache of a cluster. -/
inductive TransHome where
  | tlb (core : BitVec 11)
  | shared (cluster : Nat)
deriving DecidableEq, Repr

/-- A translation that is held (R272): where, region, virtual base and size of the page, physical base, leaf entry. -/
structure Trans where
  at_ : TransHome
  rid : BitVec 32
  va : Nat
  size : Nat
  pa : Nat
  leaf : W64
deriving DecidableEq, Repr

/-- The signing algorithm and the hash of the responder (R362), the only ones it has. -/
inductive Signature where
  | slhDsaShake256s
deriving DecidableEq, Repr

inductive Hash where
  | shake256
deriving DecidableEq, Repr

/-- What the SPDM responder answers (R362). Of contents whose encoding the manual does not give, the bytes are free. -/
inductive SpdmAnswer where
  | version (major minor : Nat)
  | capabilities (bs : List Byte)
  | algorithms (sign : Signature) (hash : Hash)
  | digests (slot0 : List Byte)
  | certificate (slot0 : List Byte)
  | challenge (nonce : BitVec 256) (signature : List Byte)
  | firmware (digest : BitVec 256)
  | counters (rollback geometry : W64)
  | nothing
deriving DecidableEq, Repr

/-- Start, seams and identity (R267, R352, R359 to R362). `seams` lists the cores whose seam is not full, `partners` the cores
with a retired seam and those that keep their pool images. -/
structure Boot where
  fwerr : Bool := false
  tflag : Bool := false
  kind : BitVec 4 := 0
  phase : BitVec 4 := 0
  geow : W64 := 0
  seams : List (Nat × BitVec 2) := []
  partners : List (Nat × Nat) := []
  failing : List (Nat × BitVec 3) := []
  /-- Columns whose temperature has left the start's by more than 8 °C since the cold start (R359). -/
  strayed : List Nat := []
  /-- The pool images of a supply loss (R352): the cores that kept one, the bytes of their pools, and the units of these that were
  uncorrectable. -/
  images : List Core := []
  imageMem : List Host.Cell := []
  imageBad : List Nat := []
  /-- The contexts that a supply loss has lost (R352, R353). -/
  lost : List CtxId := []
  /-- A warm start has been asked for (R359). -/
  wreq : Bool := false
  /-- Answers of the SPDM responder (R362), newest first. -/
  spdm : List SpdmAnswer := []
  /-- The digests and the rollback counter of the firmware that runs. -/
  fwDigest : BitVec 256 := 0
  mgmtDigest : BitVec 256 := 0
  rollback : W64 := 0
deriving DecidableEq, Repr

/-- A Plynmel. -/
structure State where
  /-- The context acted on, the other contexts, and the context as it stood before the bundle (R41). -/
  ctx : Ctx
  ctxs : List Ctx
  pre : Ctx
  iss : Iss
  /-- The core acted on, and the other cores that differ from the reset core. -/
  core : Core
  cores : List Core
  regions : List Region
  nextRid : BitVec 32
  mem : List Host.Cell
  /-- Units of 8 bytes (key divided by 8) that hold uncorrectable data (R18, R256). -/
  bad : List Nat
  lineRecs : List LineRec
  /-- The DISP words that releases have left in the records that hold contexts, by line, oldest first (R318). -/
  disps : List (Nat × W64)
  barRecs : List BarRec
  trans : List Trans
  time : Time
  power : Power
  mgmt : Mgmt
  fab : Fabric
  boot : Boot
  /-- Hot columns (cluster × 6 + column), the temperatures that are not Config.startTemp, and since when a column has been
  hot (R307, R308). -/
  hot : List (Nat × Nat)
  temps : List (Nat × BitVec 8)
  /-- The model's own fields: events that come next (log entry 3), the counter of free values (log entry 2). -/
  agenda : List Instr
  nfree : Nat
deriving DecidableEq, Repr

/-- The roles of the reset map (R240). -/
def resetRoles : Vector (BitVec 2) 96 :=
  Vector.ofFn fun j => if j.val < 8 then 0 else if j.val < 16 then 1 else if j.val < 64 then 2 else 3

/-- A core at reset (R240, R242). -/
def Core.reset (n : BitVec 11) : Core :=
  { num := n, pool := { roles := resetRoles, lb := (List.range 48).map (16 + ·) } }

/-- The machine right after reset. No region runs and no context exists; `ctx` is a blank that nothing issues from
(log entries 4 to 8 name the values the manual does not give). -/
def State.reset : State :=
  { ctx := {}, ctxs := [], pre := {}, iss := {}, core := Core.reset 0, cores := [], regions := [],
    nextRid := Config.firstRid, mem := [], bad := [], lineRecs := [], disps := [], barRecs := [], trans := [], time := {}, power := {},
    mgmt := {}, fab := {}, boot := {}, hot := [], temps := [], agenda := [], nfree := 0 }

end Sys2Proof.Machine
end

