-- ==== Sys2Proof/Machine/Bits.lean ====
section
/-!
DEFINITION. Bit fields, bytes and elements: the helpers of "Pseudocode" (bits, sext, el, act, wrap, sat) and the
generator's step (R31).
-/

namespace Sys2Proof.Machine

/-- Bits h down to l of x (Pseudocode). -/
def bits (x h l : Nat) : Nat := x / 2 ^ l % 2 ^ (h + 1 - l)

/-- The value of the w-bit pattern x read as two's complement. -/
def signedOf (w x : Nat) : Int := if x % 2 ^ w < 2 ^ (w - 1) then x % 2 ^ w else (x % 2 ^ w : Nat) - (2 ^ w : Nat)

/-- The w-bit pattern of an integer. -/
def wrapN (w : Nat) (x : Int) : Nat := (x % (2 ^ w : Nat)).toNat

/-- sext(x, n) for an n-bit field. -/
def sext {n : Nat} (x : BitVec n) : W64 := x.signExtend 64

/-- zext of an n-bit field. -/
def zext {n : Nat} (x : BitVec n) : W64 := x.setWidth 64

/-- Width in bits of a type code (R56). -/
def tyWidth (t : BitVec 4) : Nat := 8 * 2 ^ tyLog t

/-- Number of elements of a vector of a type (R133). -/
def tyCount (t : BitVec 4) : Nat := 2048 / tyWidth t

/-- Whether a type code is a signed integer type (R133). -/
def tySigned (t : BitVec 4) : Bool := t.toNat < 4

/-- An element read as a number under the signedness of its type (R78). -/
def tyVal (t : BitVec 4) (x : Nat) : Int := if tySigned t then signedOf (tyWidth t) x else (x : Int)

/-- Least and greatest value of an integer type (R78). -/
def tyMin (t : BitVec 4) : Int := if tySigned t then -(2 ^ (tyWidth t - 1) : Nat) else 0
def tyMax (t : BitVec 4) : Int := if tySigned t then (2 ^ (tyWidth t - 1) : Nat) - 1 else (2 ^ tyWidth t : Nat) - 1

/-- sat(x, t) (Pseudocode). -/
def satTo (t : BitVec 4) (x : Int) : Nat := wrapN (tyWidth t) (max (tyMin t) (min (tyMax t) x))

/-- Element i of width w of a vector (Pseudocode: el). -/
def elem (w : Nat) (v : Nat) (i : Nat) : Nat := v / 2 ^ (w * i) % 2 ^ w

/-- A vector of n elements of width w, the first in the lowest bits. -/
def packEl (w : Nat) : List Nat → Nat
  | [] => 0
  | x :: xs => x % 2 ^ w + 2 ^ w * packEl w xs

/-- The vector whose element i is f i. -/
def tabulate (w n : Nat) (f : Nat → Nat) : Nat := packEl w ((List.range n).map f)

/-- Bit of the predicate that governs element i of width w: act(p, t, i). -/
def act (p : PWord) (w i : Nat) : Bool := p.getLsbD (i * (w / 8))

/-- Whether an element of width w at index i lies in a lane group whose bit is set in `g` (R18). -/
def inGroup (g : W32) (w i : Nat) : Bool := g.getLsbD (i * w / 64)

/-- The step of the generator (R31). -/
def rngStep (x : W64) : W64 :=
  let x := x ^^^ (x <<< 13)
  let x := x ^^^ (x >>> 7)
  x ^^^ (x <<< 17)

/-- The rounding bits of a draw (R90). -/
def drawBits (x : W64) : Nat := bits x.toNat 63 40

/-- Little-endian number of a list of bytes, as a bit vector. -/
def ofBytes (w : Nat) (bs : List Byte) : BitVec w := BitVec.ofNat w (leNat bs)

/-- The n low bytes of a number. -/
def toBytes (n : Nat) (x : Nat) : List Byte := leBytes n x

/-- The first entry for a key of an association list, or a default. -/
def assocD {α : Type} (d : α) (k : Nat) : List (Nat × α) → α
  | [] => d
  | (j, a) :: rest => if j = k then a else assocD d k rest

/-- Replaces the elements of a list that a test picks. -/
def replaceIf {α : Type} (p : α → Bool) (f : α → α) (l : List α) : List α := l.map fun a => if p a then f a else a

/-- The smallest n in `range` for which a test holds. -/
def firstNat (n : Nat) (p : Nat → Bool) : Option Nat := (List.range n).find? p

/-- Saturating addition on a 16-bit counter (R36, R338). -/
def sat16 (x : BitVec 16) : BitVec 16 := if x = 0xFFFF then x else x + 1

end Sys2Proof.Machine
end

