-- ==== Sys2Proof/Machine/Num.lean ====
section
/-!
DEFINITION. Exact numbers and rounding (R79 to R93): a real value is a sign and a fraction of naturals; a format is the
fields of a narrow descriptor (R80), of which the IEEE formats are a case; `roundTo` is the helper round(x, f, m) of R89.
-/

namespace Sys2Proof.Machine

/-- Flag bits as FPF orders them (R28). -/
def fNX : BitVec 5 := 1
def fUF : BitVec 5 := 2
def fOF : BitVec 5 := 4
def fDZ : BitVec 5 := 8
def fNV : BitVec 5 := 16

/-- A value: NaN, an infinity, or a finite number with a sign that a zero keeps. -/
inductive Val where
  | nan
  | inf (neg : Bool)
  | fin (neg : Bool) (num den : Nat)
deriving DecidableEq, Repr

/-- A format: the fields of R80 that shape values. `ieee` marks the formats of R79. -/
structure Fmt where
  w : Nat
  sgn : Bool
  kindInt : Bool
  eb : Nat
  mb : Nat
  bias : Int
  spv : Nat
  ovf : Bool
  sub : Bool
  ieee : Bool
deriving DecidableEq, Repr

/-- The IEEE formats and BF16 (R79). -/
def fmtIEEE (w eb mb : Nat) : Fmt :=
  { w := w, sgn := true, kindInt := false, eb := eb, mb := mb, bias := 2 ^ (eb - 1) - 1, spv := 1, ovf := true,
    sub := false, ieee := true }

def fmt64 : Fmt := fmtIEEE 64 11 52
def fmt32 : Fmt := fmtIEEE 32 8 23
def fmt16 : Fmt := fmtIEEE 16 5 10
def fmtB16 : Fmt := fmtIEEE 16 8 7

/-- The block-scale byte UE5M3 (R84). -/
def fmtUE5M3 : Fmt :=
  { w := 8, sgn := false, kindInt := false, eb := 5, mb := 3, bias := 15, spv := 2, ovf := false, sub := false,
    ieee := false }

/-- The format of a floating type code (R56). -/
def tyFmt (t : BitVec 4) : Fmt :=
  match t.toNat with
  | 8 => fmt16
  | 9 => fmtB16
  | 10 => fmt32
  | _ => fmt64

/-- The format of a scalar type field (R57). -/
def scalarFmt (t : BitVec 2) : Fmt :=
  match t.toNat with
  | 0 => fmt64
  | 1 => fmt32
  | 2 => fmt16
  | _ => fmtB16

/-- The format of a narrow descriptor (R80). -/
def descFmt (d : W32) : Fmt :=
  let n := d.toNat
  { w := bits n 3 0, sgn := n.testBit 4, kindInt := n.testBit 5, eb := bits n 8 6, mb := bits n 11 9,
    bias := signedOf 8 (bits n 19 12), spv := bits n 21 20, ovf := n.testBit 22, sub := n.testBit 23, ieee := false }

/-- BSK and RND of a descriptor (R80). -/
def descBsk (d : W32) : Nat := bits d.toNat 27 26
def descRnd (d : W32) : Nat := bits d.toNat 25 24

/-- A valid descriptor (R81). -/
def descValid (d : W32) : Bool :=
  let f := descFmt d
  bits d.toNat 31 28 = 0 && 2 ≤ f.w && f.w ≤ 8 && descRnd d ≠ 3 && descBsk d ≠ 3 && f.spv ≠ 3 &&
    (if f.kindInt then f.eb = 0 && f.mb = 0 && f.spv = 0 && !f.ovf && !f.sub
     else 1 ≤ f.eb && (if f.sgn then 1 else 0) + f.eb + f.mb = f.w && (f.spv ≠ 1 || (2 ≤ f.eb && 1 ≤ f.mb)) &&
       (!f.ovf || f.spv = 1))

/-- The container width of a descriptor (R83). -/
def container (f : Fmt) : Nat := if f.w ≤ 2 then 2 else if f.w ≤ 4 then 4 else 8

/-- num/den times 2^e, as a fraction. -/
def scale2 (num den : Nat) (e : Int) : Nat × Nat :=
  if 0 ≤ e then (num * 2 ^ e.toNat, den) else (num, den * 2 ^ (-e).toNat)

/-- The finite value (-1)^neg * m * 2^e. -/
def Val.ofPow (neg : Bool) (m : Nat) (e : Int) : Val := let p := scale2 m 1 e; .fin neg p.1 p.2

/-- nval of R82, which for the IEEE formats is their value (R79). -/
def decodeVal (f : Fmt) (c : Nat) : Val :=
  let c := c % 2 ^ f.w
  if f.kindInt then
    let n : Int := if f.sgn then signedOf f.w c else c
    Val.ofPow (n < 0) n.natAbs (-f.bias)
  else
    let s := f.sgn && c.testBit (f.w - 1)
    let e := c / 2 ^ f.mb % 2 ^ f.eb
    let m := c % 2 ^ f.mb
    let top := 2 ^ f.eb - 1
    if f.spv = 1 && e = top then (if m = 0 then .inf s else .nan)
    else if f.spv = 2 && e = top && m = 2 ^ f.mb - 1 then .nan
    else if e = 0 then (if f.sub then .fin s 0 1 else Val.ofPow s m (1 - f.bias - f.mb))
    else Val.ofPow s (2 ^ f.mb + m) (e - f.bias - f.mb)

/-- The pattern of the largest finite magnitude. -/
def Fmt.maxPat (f : Fmt) : Nat :=
  if f.kindInt then (if f.sgn then 2 ^ (f.w - 1) - 1 else 2 ^ f.w - 1)
  else if f.spv = 1 then (2 ^ f.eb - 1) * 2 ^ f.mb - 1
  else if f.spv = 2 then 2 ^ (f.eb + f.mb) - 2
  else 2 ^ (f.eb + f.mb) - 1

/-- maxf (R82) as a fraction. -/
def Fmt.maxf (f : Fmt) : Nat × Nat :=
  match decodeVal f f.maxPat with
  | .fin _ n d => (n, d)
  | _ => (0, 1)

def Fmt.emin (f : Fmt) : Int := 1 - f.bias
def Fmt.prec (f : Fmt) : Nat := f.mb + 1

/-- floor(log2(num/den)) for positive num and den. -/
def floorLog2 (num den : Nat) : Int :=
  let k : Int := (Nat.log2 num : Int) - (Nat.log2 den : Int)
  let p := scale2 den 1 k
  if p.1 ≤ num * p.2 then k else k - 1

/-- The modes of rounding (R56, R89); SR carries its 24 rounding bits (R90). -/
inductive RMode where
  | rne | rtz | rup | rdn
  | sr (rb : Nat)
deriving DecidableEq, Repr

/-- The mode of a two-bit rounding field (R56). -/
def modeOf (m : Nat) : RMode :=
  match m with
  | 0 => .rne
  | 1 => .rtz
  | 2 => .rup
  | _ => .rdn

/-- Exponent of the ulp at a positive value (R89); `floor` is the exponent below which the ulp does not fall. -/
def ulpExp (f : Fmt) (num den : Nat) : Int :=
  if f.kindInt then -f.bias else max (floorLog2 num den) f.emin - f.prec + 1

/-- The multiple of 2^e that a mode selects for the positive value num/den (R89 step 1, R90): the multiplier, and whether
it is exact. -/
def roundGrid (m : RMode) (neg : Bool) (num den : Nat) (e : Int) : Nat × Bool :=
  let a := scale2 num den (-e)
  let q := a.1 / a.2
  let r := a.1 % a.2
  let up :=
    match m with
    | .rne => if 2 * r < a.2 then false else if a.2 < 2 * r then true else q % 2 = 1
    | .rtz => false
    | .rup => !neg && r ≠ 0
    | .rdn => neg && r ≠ 0
    | .sr rb => 1 ≤ (a.1 * 2 ^ 24 / a.2 + rb) / 2 ^ 24 - q
  (if up then q + 1 else q, r = 0)

/-- Comparison of fractions. -/
def fracLt (a b : Nat × Nat) : Bool := a.1 * b.2 < b.1 * a.2

/-- The pattern of the finite value (-1)^neg * q * 2^e, which lies on the grid of f within its range. -/
def encodeFin (f : Fmt) (neg : Bool) (q : Nat) (e : Int) : Nat :=
  if f.kindInt then
    (if neg then wrapN f.w (-(q : Int)) else q % 2 ^ f.w)
  else
    let s := if neg && f.sgn then 2 ^ (f.w - 1) else 0
    if q = 0 then s
    else
      let ex := floorLog2 q 1 + e
      let sh := if ex < f.emin then e - (f.emin - f.mb) else e - (ex - f.mb)
      let m := (scale2 q 1 sh).1 / (scale2 q 1 sh).2
      if ex < f.emin then s + m else s + (ex - f.emin).toNat * 2 ^ f.mb + m

/-- The pattern of an infinity, where the format has one. -/
def infPat (f : Fmt) (neg : Bool) : Nat :=
  (if neg then 2 ^ (f.w - 1) else 0) + (2 ^ f.eb - 1) * 2 ^ f.mb

/-- ±maxf as a pattern. -/
def maxPat (f : Fmt) (neg : Bool) : Nat :=
  if f.kindInt then (if neg then wrapN f.w (-(f.maxPat : Int)) else f.maxPat)
  else (if neg && f.sgn then 2 ^ (f.w - 1) else 0) + f.maxPat

/-- The canonical quiet NaN of an IEEE format (R79). -/
def qnan (f : Fmt) : Nat := (2 ^ f.eb - 1) * 2 ^ f.mb + 2 ^ (f.mb - 1)

/-- A NaN result into a narrow format (R93): all ones below the sign, or +maxf with NV where there is no NaN. -/
def narrowNan (f : Fmt) : Nat × BitVec 5 :=
  if f.kindInt || f.spv = 0 then (maxPat f false, fNV)
  else (if f.sgn then 2 ^ (f.w - 1) - 1 else 2 ^ f.w - 1, 0)

/-- Where overflow delivers infinity (R89); `sat` forces saturation (R87). -/
def overflowPat (f : Fmt) (m : RMode) (neg sat : Bool) : Nat :=
  let toInf :=
    match m with
    | .rne | .sr _ => true
    | .rtz => false
    | .rup => !neg
    | .rdn => neg
  if toInf && f.ovf && f.spv = 1 && !sat then infPat f neg else maxPat f neg

/-- Whether the y of R91 for a positive value is tiny. Under SR it is the value of R90 (DEDUCED, log entry 12). -/
def isTiny (f : Fmt) (m : RMode) (neg : Bool) (num den : Nat) : Bool :=
  let e := match m with
    | .sr _ => ulpExp f num den
    | _ => floorLog2 num den - f.prec + 1
  let q := (roundGrid m neg num den e).1
  q ≠ 0 && fracLt (scale2 q 1 e) (scale2 1 1 f.emin)

/-- round(x, f, m) of R89 to R92 and R85, for an x that is no NaN: the pattern and the flags. NX says that the value delivered
differs from x, whatever else the case sets (R92; log entry 93). -/
def roundTo (f : Fmt) (m : RMode) (sat : Bool) (x : Val) : Nat × BitVec 5 :=
  match x with
  | .nan => if f.ieee then (qnan f, 0) else narrowNan f
  | .inf neg =>
    if neg && !f.sgn then (0, fNV)
    else if !f.kindInt && f.spv = 1 then (infPat f neg, 0)
    else (maxPat f neg, fNV ||| fNX)
  | .fin neg num den =>
    if num = 0 then (encodeFin f neg 0 0, 0)
    else if neg && !f.sgn then (0, fNV)
    else
      let e := ulpExp f num den
      let g := roundGrid m neg num den e
      let q := g.1
      let inexact := !g.2
      if q = 0 then (encodeFin f neg 0 0, if f.kindInt then fNX else fNX ||| fUF)
      else if fracLt f.maxf (scale2 q 1 e) then 
        (overflowPat f m neg sat, fOF ||| fNX ||| (if f.kindInt || f.maxf.1 ≠ 0 then 0 else fUF))
      else if f.kindInt then (encodeFin f neg q e, if inexact then fNX else 0)
      else if f.sub && fracLt (scale2 q 1 e) (scale2 1 1 f.emin) then (encodeFin f neg 0 0, fNX ||| fUF)
      else
        (encodeFin f neg q e,
          (if inexact then fNX else 0) ||| (if inexact && isTiny f m neg num den then fUF else 0))

/-- An integer by sign and magnitude. -/
def signInt (neg : Bool) (n : Nat) : Int := if neg then -(n : Int) else n

/-- The value rounded to an integer under a mode (R89 with ulp = 1), and whether it is exact. -/
def roundInt (m : RMode) (neg : Bool) (num den : Nat) : Int × Bool :=
  let g := roundGrid m neg num den 0
  (signInt neg g.1, g.2)

/-- Conversion to the integer range [lo, hi] (R93): the number and the flags, NX where the number differs from x (R92; log entry
93). -/
def toIntRange (m : RMode) (lo hi : Int) (x : Val) : Int × BitVec 5 :=
  match x with
  | .nan => (0, fNV)
  | .inf neg => (if neg then lo else hi, fNV ||| fNX)
  | .fin neg num den =>
    let g := roundInt m neg num den
    if g.1 < lo then (lo, fNV ||| fNX) else if hi < g.1 then (hi, fNV ||| fNX) else (g.1, if g.2 then 0 else fNX)

/-! ### Exact operations -/

/-- The sum of two finite values, with the sign that R106 gives an exact zero; under SR, of which R106 does not speak, it is +0
(log entry 95). -/
def addFin (m : RMode) (an : Bool) (a b : Nat) (cn : Bool) (c d : Nat) : Val :=
  let x : Int := signInt an (a * d) + signInt cn (c * b)
  if x = 0 then .fin (if a = 0 && c = 0 && an == cn then an else m == .rdn) 0 1
  else .fin (x < 0) x.natAbs (b * d)

/-- a + b (R106 gives the sign of an exact zero); none where it makes a NaN of no NaN (R93). -/
def addVal (m : RMode) (a b : Val) : Option Val :=
  match a, b with
  | .inf n, .inf k => if n = k then some (.inf n) else none
  | .inf n, .fin _ _ _ => some (.inf n)
  | .fin _ _ _, .inf n => some (.inf n)
  | .fin an p q, .fin bn r s => some (addFin m an p q bn r s)
  | _, _ => some .nan

def negVal : Val → Val
  | .nan => .nan
  | .inf n => .inf !n
  | .fin n a b => .fin (!n) a b

def mulVal (a b : Val) : Option Val :=
  match a, b with
  | .inf n, .inf k => some (.inf (n != k))
  | .inf n, .fin k p _ => if p = 0 then none else some (.inf (n != k))
  | .fin k p _, .inf n => if p = 0 then none else some (.inf (n != k))
  | .fin n p q, .fin k r s => some (.fin (n != k) (p * r) (q * s))
  | _, _ => some .nan

/-- a ÷ b, with whether DZ is raised. -/
def divVal (a b : Val) : Option (Val × Bool) :=
  match a, b with
  | .inf _, .inf _ => none
  | .inf n, .fin k _ _ => some (.inf (n != k), false)
  | .fin n _ _, .inf k => some (.fin (n != k) 0 1, false)
  | .fin n p q, .fin k r s =>
    if r = 0 then (if p = 0 then none else some (.inf (n != k), true))
    else some (.fin (n != k) (p * s) (q * r), false)
  | _, _ => some (.nan, false)

/-- Integer square root by Newton's method from above. -/
def isqrtFrom : Nat → Nat → Nat → Nat
  | 0, _, x => x
  | fuel + 1, n, x =>
    let y := (x + n / x) / 2
    if y < x then isqrtFrom fuel n y else x

def isqrt (n : Nat) : Nat := if n = 0 then 0 else isqrtFrom 4096 n (2 ^ (Nat.log2 n / 2 + 1))

/-- √(num/den) for a denominator that is a power of two: exact, or a number strictly between the same two points of every
grid that a format of R79 can ask for, which round therefore treats as the root. -/
def sqrtFin (num den : Nat) : Nat × Nat :=
  let n := num * den * 4 ^ 80
  let s := isqrt n
  if s * s = n then (s, den * 2 ^ 80) else (2 * s + 1, den * 2 ^ 81)

/-- Order of two values that are no NaN, as an integer comparison; −0 equals +0. -/
def valLt (a b : Val) : Bool :=
  match a, b with
  | .inf n, .inf k => n && !k
  | .inf n, .fin _ _ _ => n
  | .fin _ _ _, .inf k => !k
  | .fin n p q, .fin k r s =>
    signInt n (p * s) < signInt k (r * q)
  | _, _ => false

def valEq (a b : Val) : Bool :=
  match a, b with
  | .nan, _ => false
  | _, .nan => false
  | _, _ => !valLt a b && !valLt b a

def isNeg : Val → Bool
  | .nan => false
  | .inf n => n
  | .fin n _ _ => n

/-! ### Operations of the scalar and vector units on IEEE patterns -/

def isNan (f : Fmt) (a : Nat) : Bool := decodeVal f a == .nan
/-- A signalling NaN (R79). -/
def isSnan (f : Fmt) (a : Nat) : Bool := isNan f a && !a.testBit (f.mb - 1)
/-- The NaN with its quiet bit set (R93). -/
def quiet (f : Fmt) (a : Nat) : Nat := if a.testBit (f.mb - 1) then a % 2 ^ f.w else (a % 2 ^ f.w) + 2 ^ (f.mb - 1)

/-- The result where an operand is a NaN (R93): the first of them, quieted; NV for a signalling one. -/
def nanResult (f : Fmt) (ops : List Nat) : Option (Nat × BitVec 5) :=
  match ops.find? (isNan f) with
  | some a => some (quiet f a, if ops.any (isSnan f) then fNV else 0)
  | none => none

/-- Rounds a result that may be an invalid operation (R93: the canonical quiet NaN and NV). -/
def finish (f : Fmt) (m : RMode) (x : Option Val) : Nat × BitVec 5 :=
  match x with
  | none => (qnan f, fNV)
  | some v => roundTo f m false v

def fpAdd (f : Fmt) (m : RMode) (a b : Nat) : Nat × BitVec 5 :=
  (nanResult f [a, b]).getD (finish f m (addVal m (decodeVal f a) (decodeVal f b)))

def fpSub (f : Fmt) (m : RMode) (a b : Nat) : Nat × BitVec 5 :=
  (nanResult f [a, b]).getD (finish f m (addVal m (decodeVal f a) (negVal (decodeVal f b))))

def fpMul (f : Fmt) (m : RMode) (a b : Nat) : Nat × BitVec 5 :=
  (nanResult f [a, b]).getD (finish f m (mulVal (decodeVal f a) (decodeVal f b)))

def fpDiv (f : Fmt) (m : RMode) (a b : Nat) : Nat × BitVec 5 :=
  (nanResult f [a, b]).getD
    (match divVal (decodeVal f a) (decodeVal f b) with
     | none => (qnan f, fNV)
     | some (v, dz) => let r := roundTo f m false v; (r.1, r.2 ||| (if dz then fDZ else 0)))

def fpSqrt (f : Fmt) (m : RMode) (a : Nat) : Nat × BitVec 5 :=
  (nanResult f [a]).getD
    (match decodeVal f a with
     | .fin n p q =>
       if p = 0 then roundTo f m false (.fin n 0 1)
       else if n then (qnan f, fNV)
       else let r := sqrtFin p q; roundTo f m false (.fin false r.1 r.2)
     | .inf n => if n then (qnan f, fNV) else (infPat f false, 0)
     | .nan => (qnan f, 0))

/-- a × b + c with one rounding (R110); `neg` negates the product first (R143, VFNMA). -/
def fpFma (f : Fmt) (m : RMode) (neg : Bool) (a b c : Nat) : Nat × BitVec 5 :=
  let p := mulVal (decodeVal f a) (decodeVal f b)
  match p with
  | none => (if isNan f c then quiet f c else qnan f, fNV)
  | some p =>
    (nanResult f [a, b, c]).getD (finish f m (addVal m (if neg then negVal p else p) (decodeVal f c)))

/-- FMIN (`less`) and FMAX (R107): −0 below +0, a single NaN gives way, NV only for a signalling NaN. -/
def fpMinMax (f : Fmt) (less : Bool) (a b : Nat) : Nat × BitVec 5 :=
  let nv : BitVec 5 := if isSnan f a || isSnan f b then fNV else 0
  if isNan f a && isNan f b then (quiet f a, nv)
  else if isNan f a then (b % 2 ^ f.w, nv)
  else if isNan f b then (a % 2 ^ f.w, nv)
  else
    let x := decodeVal f a
    let y := decodeVal f b
    let aLess := valLt x y || (valEq x y && isNeg x)
    (if aLess == less then a % 2 ^ f.w else b % 2 ^ f.w, nv)

/-- The relations of FCMP and VFCMP (R108, R146): whether it holds, and NV for any NaN (`any`) or a signalling one. -/
def fpCmp (f : Fmt) (any : Bool) (rel : Val → Val → Bool) (a b : Nat) : Bool × BitVec 5 :=
  let bad := if any then isNan f a || isNan f b else isSnan f a || isSnan f b
  (rel (decodeVal f a) (decodeVal f b), if bad then fNV else 0)

/-- A NaN carried from format u to format t (R93): sign kept, quiet, uppermost payload bits. -/
def nanAcross (t u : Fmt) (a : Nat) : Nat :=
  let sign := if a.testBit (u.w - 1) then 2 ^ (t.w - 1) else 0
  let pay := a % 2 ^ (u.mb - 1)
  let pay := if u.mb ≤ t.mb then pay * 2 ^ (t.mb - u.mb) else pay / 2 ^ (u.mb - t.mb)
  sign + qnan t + pay

/-- Conversion between IEEE formats (R109, R149). -/
def fpCvt (t u : Fmt) (m : RMode) (a : Nat) : Nat × BitVec 5 :=
  if isNan u a then (nanAcross t u a, if isSnan u a then fNV else 0)
  else if t = u then (a % 2 ^ u.w, 0)
  else roundTo t m false (decodeVal u a)

/-- An integer as a value. -/
def ofInt (x : Int) : Val := .fin (x < 0) x.natAbs 1

/-! ### The approximations (R145) -/

/-- A positive value truncated to `pa` significant bits, below 2^emin to the subnormal grid alone (log entry 96), with the flags
of R145. -/
def truncTo (f : Fmt) (neg : Bool) (num den : Nat) : Nat × BitVec 5 :=
  let pa := min f.prec 12
  let lg := floorLog2 num den
  if f.bias < lg then (infPat f neg, fOF ||| fNX)
  else
    let e := if lg < f.emin then f.emin - f.prec + 1 else lg - pa + 1
    let g := roundGrid .rtz neg num den e
    if g.2 then (encodeFin f neg g.1 e, 0)
    else (encodeFin f neg g.1 e, if lg < f.emin then fNX ||| fUF else fNX)

def fpRcp (f : Fmt) (a : Nat) : Nat × BitVec 5 :=
  (nanResult f [a]).getD
    (match decodeVal f a with
     | .fin n p q => if p = 0 then (infPat f n, fDZ) else truncTo f n q p
     | .inf n => (encodeFin f n 0 0, 0)
     | .nan => (qnan f, 0))

/-- 1 ÷ √(p/q) to 40 fractional bits below its leading bit: the floor of a scaled root, made odd where inexact. -/
def rsqrtFin (p q : Nat) : Nat × Nat :=
  let k := Nat.log2 p + 80
  let n := q * 4 ^ k
  let s := isqrt (n / p)
  if s * s * p = n then (s, 2 ^ k) else (2 * s + 1, 2 ^ (k + 1))

def fpRsq (f : Fmt) (a : Nat) : Nat × BitVec 5 :=
  (nanResult f [a]).getD
    (match decodeVal f a with
     | .fin n p q =>
       if p = 0 then (infPat f n, fDZ)
       else if n then (qnan f, fNV)
       else let r := rsqrtFin p q; truncTo f false r.1 r.2
     | .inf n => if n then (qnan f, fNV) else (encodeFin f false 0 0, 0)
     | .nan => (qnan f, 0))

/-- The product, over the set bits of a 128-bit fraction from the top, of the roots 2^(1/2), 2^(1/4), …, in fixed point
with 192 fractional bits: 2 to the power of the fraction. -/
def exp2Frac : Nat → Nat → Nat → Nat → Nat
  | 0, _, _, acc => acc
  | n + 1, frac, root, acc =>
    exp2Frac n (frac * 2 % 2 ^ 128) (isqrt (root * 2 ^ 192))
      (if 2 ^ 127 ≤ frac then acc * root / 2 ^ 192 else acc)

def fpExp2 (f : Fmt) (a : Nat) : Nat × BitVec 5 :=
  (nanResult f [a]).getD
    (match decodeVal f a with
     | .inf n => (if n then encodeFin f false 0 0 else infPat f false, 0)
     | .nan => (qnan f, 0)
     | .fin n p q =>
       let x := signInt n p
       let whole := x / (q : Int)
       let part := (x % (q : Int)).toNat
       if f.bias + 1 ≤ whole then (infPat f false, fOF ||| fNX)
       else if whole < f.emin - f.prec - 1 then (encodeFin f false 0 0, fNX ||| fUF)
       else if part = 0 then
         let v := scale2 1 1 whole
         truncTo f false v.1 v.2
       else
         let m := exp2Frac 128 (part * 2 ^ 128 / q) (isqrt (2 ^ 385)) (2 ^ 192)
         let v := scale2 (2 * m + 1) (2 ^ 193) whole
         truncTo f false v.1 v.2)

/-- The first n fractional bits of log2 m for 1 ≤ m < 2 in fixed point with 512 fractional bits. -/
def log2Bits : Nat → Nat → Nat → Nat
  | 0, _, acc => acc
  | n + 1, m, acc =>
    let s := m * m / 2 ^ 512
    if 2 ^ 513 ≤ s then log2Bits n (s / 2) (2 * acc + 1) else log2Bits n s (2 * acc)

def fpLog2 (f : Fmt) (a : Nat) : Nat × BitVec 5 :=
  (nanResult f [a]).getD
    (match decodeVal f a with
     | .inf n => if n then (qnan f, fNV) else (infPat f false, 0)
     | .nan => (qnan f, 0)
     | .fin n p q =>
       if p = 0 then (infPat f true, fDZ)
       else if n then (qnan f, fNV)
       else
         let k := floorLog2 p q
         let m := scale2 p q (-k)
         if m.1 = m.2 then
           (if k = 0 then (encodeFin f false 0 0, 0) else truncTo f (k < 0) k.natAbs 1)
         else
           let b := log2Bits 200 (m.1 * 2 ^ 512 / m.2) 0
           let x : Int := k * (2 ^ 201 : Nat) + (2 * b + 1 : Nat)
           truncTo f (x < 0) x.natAbs (2 ^ 201))

/-! ### Block scales (R84, R88) -/

/-- The value of a block's scale byte (R84). -/
def scaleVal (bsk : Nat) (b : Nat) : Val :=
  if bsk = 1 then (if b % 256 = 255 then .nan else Val.ofPow false 1 ((b % 256 : Nat) - 127))
  else decodeVal fmtUE5M3 b

/-- floor(log2 maxf) (R88). -/
def emx (f : Fmt) : Int := floorLog2 f.maxf.1 f.maxf.2

/-- The larger of two magnitudes. -/
def fracMax (a b : Nat × Nat) : Nat × Nat := if fracLt a b then b else a

/-- The magnitude of a finite value. -/
def magOf : Val → Nat × Nat
  | .fin _ p q => (p, q)
  | _ => (0, 1)

def notFinite : Val → Bool
  | .fin _ _ _ => false
  | _ => true

/-- The scale byte R88 chooses for values of a block, and the flags of the choice (OF where a UE5M3 scale is clamped). For a
descriptor whose maxf is 0, of which R88 makes no scale, floor(log2 0) is taken as −1 and mx ÷ 0 as a value above every UE5M3
scale (log entry 94). -/
def chooseScale (f : Fmt) (bsk : Nat) (xs : List Val) : Nat × BitVec 5 :=
  if xs.any notFinite then (0xFF, 0)
  else
    let mx := xs.foldl (fun a x => fracMax a (magOf x)) (0, 1)
    if bsk = 1 then
      if mx.1 = 0 then (127, 0)
      else
        let e := floorLog2 mx.1 mx.2 - emx f
        let s := scale2 mx.1 mx.2 (-e)
        let u := ulpExp f s.1 s.2
        let g := roundGrid .rne false s.1 s.2 u
        let e := if fracLt f.maxf (scale2 g.1 1 u) then e + 1 else e
        ((max (-127) (min 127 e) + 127).toNat, 0)
    else if mx.1 = 0 then (0x78, 0)
    else
      let r := roundTo fmtUE5M3 .rup true (.fin false (mx.1 * f.maxf.2) (mx.2 * f.maxf.1))
      (r.1, r.2 &&& fOF)

/-- One element quantised under a scale (R88, R150): zero without rounding where the scale is NaN or zero (which sets NV).
`nan` is what a NaN element delivers. -/
def quantElem (f : Fmt) (m : RMode) (sat : Bool) (s x : Val) : Nat × BitVec 5 :=
  match s with
  | .fin _ p q =>
    if p = 0 then (0, fNV)
    else
      match x with
      | .fin n a b => roundTo f m sat (.fin n (a * q) (b * p))
      | y => roundTo f m sat y
  | _ => (0, 0)

end Sys2Proof.Machine
end

