-- ==== Sys2Proof/Machine/Mem.lean ====
section
/-!
DEFINITION. Memory: one list of bytes by key in canonical form, the homes (R277), the page tables (R269 to R272), the
cache role (R178, R278, R280) and the records of lines (R290). A key is a number whose part above bit 60 tells the home:
1 for the pool of a core (core · 2^32 + bank · 2^15 + byte), 2 for seams (the physical address of R255), 3 for host memory
(R277). Cached lines of space 0x4 carry their device address as key; 5 names offsets of other cores' scratchpads.
-/

namespace Sys2Proof.Machine

/-! ### The list of bytes -/

/-- What an unlisted byte reads as: zero in the pool (R240), Config.memoryDefault elsewhere (log entry 5). -/
def unlisted (k : Nat) : Byte := if k / 2 ^ 60 = 1 then 0 else Config.memoryDefault

/-- The n bytes from key k on. -/
def readRun : Nat → Nat → List Host.Cell → List Byte
  | 0, _, _ => []
  | n + 1, k, m =>
    let m' := m.dropWhile fun c => c.1 < k
    (match m' with
     | c :: _ => if c.1 = k then c.2 else unlisted k
     | [] => unlisted k) :: readRun n (k + 1) m'

/-- The byte at key k. -/
def readByte (m : List Host.Cell) (k : Nat) : Byte :=
  match m.dropWhile fun c => c.1 < k with
  | c :: _ => if c.1 = k then c.2 else unlisted k
  | [] => unlisted k

/-- The entries for bytes from key k on: those that differ from what an unlisted byte reads as. -/
def cellsFor : Nat → List Byte → List Host.Cell
  | _, [] => []
  | k, b :: bs => if b = unlisted k then cellsFor (k + 1) bs else (k, b) :: cellsFor (k + 1) bs

/-- Memory with the bytes from key k on replaced. -/
def writeRun (m : List Host.Cell) (k : Nat) (bs : List Byte) : List Host.Cell :=
  (m.takeWhile fun c => c.1 < k) ++ cellsFor k bs ++ m.dropWhile fun c => c.1 < k + bs.length

/-- The canonical form: keys rise, and no entry equals what an unlisted byte reads as. -/
def Memory.wf : List Host.Cell → Bool
  | [] => true
  | [c] => c.2 != unlisted c.1
  | c :: d :: rest => c.2 != unlisted c.1 && c.1 < d.1 && Memory.wf (d :: rest)

/-! ### Keys -/

def poolKey (core bank off : Nat) : Nat := 2 ^ 60 + core * 2 ^ 32 + bank * 2 ^ 15 + off
def seamKey (pa : Nat) : Nat := 2 * 2 ^ 60 + pa
def hostKey (va : Nat) : Nat := 3 * 2 ^ 60 + va
/-- The name of a scratchpad offset of another core, for stores on their way there. -/
def farKey (core off : Nat) : Nat := 5 * 2 ^ 60 + core * 2 ^ 48 + off
/-- The key of the 64-byte line that holds a key. -/
def lineOf (k : Nat) : Nat := k / 64 * 64

/-- space(a) (R5). -/
def space (a : W64) : Nat := a.toNat / 2 ^ 60

/-! ### Cores and regions by name -/

/-- The record of a core; one that is not listed stands as at reset. -/
def State.coreAt (s : State) (n : Nat) : Core :=
  if s.core.num.toNat = n then s.core
  else (s.cores.find? fun c => c.num.toNat = n).getD (Core.reset (BitVec.ofNat 11 n))

def State.putCore (s : State) (c : Core) : State :=
  if s.core.num = c.num then { s with core := c }
  else if s.cores.any fun d => d.num = c.num then { s with cores := replaceIf (fun d => d.num = c.num) (fun _ => c) s.cores }
  else { s with cores := s.cores ++ [c] }

def State.region? (s : State) (rid : BitVec 32) : Option Region := s.regions.find? fun r => r.rid = rid

/-- The cluster, the die and the column of a core (R2). -/
def clusterOf (core : Nat) : Nat := core / 48
def dieOf (core : Nat) : Nat := clusterOf core / Config.clustersPerDie
def columnOf (core : Nat) : Nat := core / 48 * 6 + core % 48 / 8

/-! ### Bytes at their homes -/

/-- Whether a byte of [k, k + n) lies in uncorrectable data (R18). -/
def State.isBad (s : State) (k n : Nat) : Bool := s.bad.any fun u => u * 8 < k + n && k < u * 8 + 8

def State.peek (s : State) (k n : Nat) : List Byte := readRun n k s.mem

/-- The 8 bytes at a key as a number. -/
def State.peek64 (s : State) (k : Nat) : Nat := leNat (s.peek k 8)

/-- A watch armed on the line of a write that performs at its home observes it (R188): code 0. -/
def wakeCtx (k n : Nat) (c : Ctx) : Ctx :=
  match c.watch with
  | some w =>
    if w.line < k + n && k < w.line + 64 && w.seen = none then { c with watch := some { w with seen := some 0 } } else c
  | none => c

def State.wake (s : State) (k n : Nat) : State :=
  { s with ctx := wakeCtx k n s.ctx, ctxs := s.ctxs.map (wakeCtx k n) }

/-- A write performs at its home: the bytes, the units it makes good, the watches it ends. -/
def State.poke (s : State) (k : Nat) (bs : List Byte) : State :=
  let s := s.wake k bs.length
  { s with mem := writeRun s.mem k bs,
           bad := s.bad.filter fun u => !(k ≤ u * 8 && u * 8 + 8 ≤ k + bs.length) }

/-- Byte i of a line's data. -/
def lineByte (d : BitVec 512) (i : Nat) : Byte := d.extractLsb' (8 * i) 8

/-- Data with the bytes of a mask taken from another. -/
def mergeLine (old new : BitVec 512) (mask : BitVec 64) : BitVec 512 :=
  ofBytes 512 ((List.range 64).map fun i => if mask.getLsbD i then lineByte new i else lineByte old i)

/-- The mask of bytes [i, i + n) of a line. -/
def maskOf (i n : Nat) : BitVec 64 := BitVec.ofNat 64 ((2 ^ n - 1) * 2 ^ i)

/-- The bytes of a mask written to a line at its home, in one step (R278). -/
def State.pokeLine (s : State) (k : Nat) (d : BitVec 512) (mask : BitVec 64) : State :=
  if mask = 0 then s
  else
    let s := s.wake k 64
    let old := ofBytes 512 (s.peek k 64)
    { s with mem := writeRun s.mem k (toBytes 64 (mergeLine old d mask).toNat),
             bad := s.bad.filter fun u => !(lineOf (u * 8) = k && (mask >>> (u % 8 * 8)).setWidth 8 = 0xFF#8) }

/-! ### Seams (R254, R255, R267) -/

def State.seamState (s : State) (core : Nat) : BitVec 2 := assocD 0 core s.boot.seams

/-- Bytes of a core's seam that exist (R267). -/
def seamSize (st : BitVec 2) : Nat := if st = 0 then 2 ^ 29 else if st = 1 then 2 ^ 28 else 0

/-- An absent physical address (R255). -/
def State.absent (s : State) (pa : Nat) : Bool :=
  let g := pa / 2 ^ 29
  Config.cores ≤ g || seamSize (s.seamState g) ≤ pa % 2 ^ 29

/-- The channel of a seam offset (R255). -/
def chanOf (st : BitVec 2) (o : Nat) : Nat := if st = 1 then bits o 12 11 else bits o 13 11

/-- The core and the channel of a seam key (R255). -/
def State.channelOf (s : State) (k : Nat) : Option (Nat × Nat) :=
  let pa := k % 2 ^ 60
  if k / 2 ^ 60 = 2 then some (pa / 2 ^ 29, chanOf (s.seamState (pa / 2 ^ 29)) (pa % 2 ^ 29)) else none

/-- The channel that a key's access is held for: it lies in an exposed channel that is not lent (R190, R265). -/
def State.heldKey (s : State) (k : Nat) : Bool :=
  k / 2 ^ 60 = 2 &&
    (let pa := k % 2 ^ 60
     let c := s.coreAt (pa / 2 ^ 29)
     match c.chans[chanOf (s.seamState (pa / 2 ^ 29)) (pa % 2 ^ 29)]? with
     | some ch => ch.owner.isSome && !ch.lent && ch.owning.isNone
     | none => false)

/-! ### Translation (R269 to R272) -/

/-- What a walk finds: the physical address, the leaf, the size of its page. -/
structure Hit where
  pa : Nat
  leaf : W64
  size : Nat
deriving DecidableEq, Repr

/-- A walk from a level's table: what it finds, or the detail of a page fault (R271). `fuel` is the number of levels left. -/
def walkFrom (s : State) : Nat → Nat → Nat → Except Nat Hit
  | 0, _, _ => .error 1
  | fuel + 1, table, va =>
    let level := 3 - fuel
    let idx := if fuel = 0 then bits va 20 16 else va / 2 ^ (21 + 9 * (fuel - 1)) % 512
    let ea := table + 8 * idx
    if s.absent ea then .error 2
    else if s.isBad (seamKey ea) 8 then .error 3
    else
      let e := s.peek64 (seamKey ea)
      let leaf := e.testBit 1
      let addr := bits e 39 8 * 2 ^ 8
      let size := if fuel = 0 then 2 ^ 16 else 2 ^ (21 + 9 * (fuel - 1))
      if !e.testBit 0 then .error 0
      else if bits e 63 40 ≠ 0 || bits e 7 6 ≠ 0 || (leaf && level = 0) || (!leaf && level = 3) ||
          (!leaf && bits e 5 2 ≠ 0) || (leaf && addr % size ≠ 0) || (!leaf && fuel ≠ 1 && addr % 4096 ≠ 0) then .error 1
      else if leaf then
        (if s.absent (addr + va % size) then .error 2 else .ok { pa := addr + va % size, leaf := BitVec.ofNat 64 e, size := size })
      else walkFrom s fuel addr va

/-- The walk of a 48-bit virtual address under a root (R269). -/
def State.walkPage (s : State) (root : BitVec 28) (va : Nat) : Except Nat Hit := walkFrom s 4 (root.toNat * 4096) (va % 2 ^ 48)

/-- The physical address and the leaf that a walk finds. -/
def State.walk (s : State) (root : BitVec 28) (va : Nat) : Except Nat (Nat × W64) :=
  match s.walkPage root va with
  | .ok h => .ok (h.pa, h.leaf)
  | .error d => .error d

/-- The seam addresses of the table entries that a walk reads (R269). -/
def walkEntries (s : State) : Nat → Nat → Nat → List Nat
  | 0, _, _ => []
  | fuel + 1, table, va =>
    let idx := if fuel = 0 then bits va 20 16 else va / 2 ^ (21 + 9 * (fuel - 1)) % 512
    let ea := table + 8 * idx
    let e := s.peek64 (seamKey ea)
    if s.absent ea then []
    else if e.testBit 0 && !e.testBit 1 then ea :: walkEntries s fuel (bits e 39 8 * 2 ^ 8) va
    else [ea]

/-- The page of a held translation contains an address. -/
def Trans.has (t : Trans) (va : Nat) : Bool := t.va ≤ va % 2 ^ 48 && va % 2 ^ 48 < t.va + t.size

/-- What a held translation gives an address; its page may reach beyond a seam's end, where the address is absent (R255, R271). -/
def State.hit (s : State) (t : Trans) (va : Nat) : Except Nat Hit :=
  let pa := t.pa + (va % 2 ^ 48 - t.va)
  if s.absent pa then .error 2 else .ok { pa := pa, leaf := t.leaf, size := t.size }

/-- The translations that a core may use for an address of a region without a walk (R272): those of its TLB and of its
cluster's cache. -/
def State.held (s : State) (core : Nat) (rid : BitVec 32) (va : Nat) : List Trans :=
  s.trans.filter fun t =>
    t.rid = rid && t.has va && (t.at_ = .tlb (BitVec.ofNat 11 core) || t.at_ = .shared (clusterOf core))

/-- The translation an access uses: a fresh walk, or where different ones are held, any of these (R272). -/
def State.xlatePage (s : State) (core : Nat) (rid : BitVec 32) (va : Nat) : Except Nat Hit :=
  match s.region? rid with
  | none => .error 0
  | some r =>
    let fresh := s.walkPage r.dom.root va
    let olds := (s.held core rid va).map fun t => s.hit t va
    if olds.all fun o => o = fresh then fresh
    else (olds[Config.freeStale s.nfree va % (olds.length + 1)]?).getD fresh

def State.xlate (s : State) (core : Nat) (rid : BitVec 32) (va : Nat) : Except Nat (Nat × W64) :=
  match s.xlatePage core rid va with
  | .ok h => .ok (h.pa, h.leaf)
  | .error d => .error d

/-- A holder's translations with one more, the oldest leaving where it is full (log entry 11). -/
def holdTrans (room : Nat) (t : Trans) (l : List Trans) : List Trans :=
  let rest := l.filter fun x => !(x.at_ = t.at_ && x.rid = t.rid && x.va < t.va + t.size && t.va < x.va + x.size)
  let mine := rest.filter fun x => x.at_ = t.at_
  (match mine.head? with
   | some old => if mine.length < room then rest else rest.erase old
   | none => rest) ++ [t]

/-- A core and its cluster come to hold the translation of a page that has been used (R272). -/
def State.noteTrans (s : State) (core : Nat) (rid : BitVec 32) (va : Nat) : State :=
  match s.xlatePage core rid va with
  | .ok h =>
    let base := va % 2 ^ 48 / h.size * h.size
    let t : Trans := { at_ := .tlb (BitVec.ofNat 11 core), rid := rid, va := base, size := h.size, pa := h.pa - (va % 2 ^ 48 - base),
                       leaf := h.leaf }
    let u : Trans := { t with at_ := .shared (clusterOf core) }
    let l := if s.trans.contains t then s.trans else holdTrans Config.tlbEntries t s.trans
    { s with trans := if l.contains u then l else holdTrans Config.sharedEntries u l }
  | .error _ => s

/-- What the host's tables say of a page under a PASID, as it is held or as the host answers (R274). -/
def State.hostPage (s : State) (pasid : BitVec 20) (page : Nat) : Option (Nat × Bool × Bool) :=
  match s.mgmt.ats.find? fun p => p.pasid = pasid && p.page = page with
  | some p => p.to_
  | none => Config.freeHostPage s.mgmt.hostGen pasid page

/-- The translation of a page by the host stays held (R274). -/
def State.noteHost (s : State) (pasid : BitVec 20) (page : Nat) : State :=
  if s.mgmt.ats.any fun p => p.pasid = pasid && p.page = page then s
  else
    match s.hostPage pasid page with
    | none => s
    | some x => { s with mgmt := { s.mgmt with ats := s.mgmt.ats ++ [{ pasid := pasid, page := page, to_ := some x }] } }

/-- Permission bits of a leaf (R270). -/
def leafX (l : W64) : Bool := l.getLsbD 4
def leafW (l : W64) : Bool := l.getLsbD 3
def leafR (l : W64) : Bool := l.getLsbD 2
def leafNC (l : W64) : Bool := l.getLsbD 5

/-! ### Where an access goes -/

/-- What an access needs (R271). -/
structure Access where
  rd : Bool
  wr : Bool
deriving DecidableEq, Repr

def Access.load : Access := ⟨true, false⟩
def Access.store : Access := ⟨false, true⟩
def Access.both : Access := ⟨true, true⟩

/-- The place an access reaches: a byte of a scratchpad, an offset in another core's scratchpad that is looked up when the
store arrives there (R176), or a home reached through the cache role or past it. -/
inductive Place where
  | pool (core : Nat) (key : Nat)
  | far (key : Nat)
  | home (key : Nat) (cached : Bool)
deriving DecidableEq, Repr

/-- A failed check (R176): its rank in the order of checks, the trap cause (R315) and the detail. -/
structure Failed where
  rank : Nat
  cause : Nat
  detail : Nat
deriving DecidableEq, Repr

def fSpace : Failed := ⟨0, 0x07, 0⟩
def fAlign : Failed := ⟨1, 0x08, 0⟩
def fSize : Failed := ⟨2, 0x07, 0⟩
def fPage (d : Nat) : Failed := ⟨3, 0x09, d⟩
def fPerm : Failed := ⟨4, 0x0A, 0⟩
def fRemote : Failed := ⟨5, 0x0B, 0⟩

/-- The key of a space-0x3 address, of 57 bits, under a PASID (R274); a host page number has 45 bits. -/
def State.hostXlate (s : State) (pasid : BitVec 20) (va : Nat) (acc : Access) : Except Failed Nat :=
  match s.hostPage pasid (va / 4096) with
  | none => .error (fPage 0)
  | some (f, r, w) =>
    if (acc.rd && !r) || (acc.wr && !w) then .error fPerm else .ok (hostKey (f % 2 ^ 45 * 4096 + va % 4096))

/-- The PASID of a region's host accesses (R274). -/
def State.pasidOf (s : State) (rid : BitVec 32) : BitVec 20 := ((s.region? rid).map fun r => r.dom.pasid).getD 0

/-- The space conditions of R5. -/
def spaceOk (a : W64) : Bool :=
  let n := a.toNat
  match space a with
  | 0 => true
  | 1 => bits n 59 54 = 0 && bits n 53 48 < 48
  | 2 => bits n 59 48 = 0
  | 3 => bits n 59 57 = 0
  | 4 => true
  | _ => false

/-- The key of a scratchpad offset (R241). -/
def Core.scrKey (c : Core) (off : Nat) : Option Nat :=
  (c.pool.lb[off / 2 ^ 15]?).map fun b => poolKey c.num.toNat b (off % 2 ^ 15)

/-- The global number of the core that a space-0x1 address names (R2, R5). -/
def coreOf1 (own : Nat) (a : W64) : Nat := clusterOf own * 48 + bits a.toNat 53 48

/-- CCH banks that take lines: not in a change (R248). -/
def Core.cchBanks (c : Core) : List Nat :=
  (List.range 64).filter fun j => c.pool.roles[j]? = some 1 && !(match c.pool.change with
    | some ch => ch.banks.contains j || ch.targets.contains j
    | none => false)

/-- The root and permissions for a device's requests: its RAT entry (R333). -/
def State.ratOf (s : State) (dev : BitVec 12) : W64 := assocD 0 dev.toNat s.fab.rat

/-- The seam key of a request of a device, translated under its RAT entry and permitted (R333). -/
def State.remoteKey (s : State) (dev : BitVec 12) (va : Nat) (acc : Access) : Option Nat :=
  let e := s.ratOf dev
  if !e.getLsbD 63 || (acc.wr && !e.getLsbD 62) || (acc.rd && !e.getLsbD 61) then none
  else
    match s.walk (e.extractLsb' 12 28) va with
    | .ok (pa, leaf) => if (acc.wr && !leafW leaf) || (acc.rd && !leafR leaf) then none else some (seamKey pa)
    | .error _ => none

/-- The device id of a space-0x4 address (R5). -/
def devOf (a : W64) : BitVec 12 := a.extractLsb' 48 12

/-- The key at which the bytes of a key stand: a space-0x4 address of the own device has its seam home (R332), an offset of
another core's scratchpad its bank (R241). -/
def State.homeOf (s : State) (k : Nat) : Nat :=
  if k / 2 ^ 60 = 4 && devOf (BitVec.ofNat 64 k) = s.mgmt.devid then
    (s.remoteKey s.mgmt.devid k ⟨false, false⟩).getD k
  else if k / 2 ^ 60 = 5 then ((s.coreAt (k % 2 ^ 60 / 2 ^ 48)).scrKey (k % 2 ^ 48)).getD k
  else k

/-- Whether the channel of a key has held stores that it serves before one with a number (R265). -/
def State.behind (s : State) (k seq : Nat) : Bool :=
  match s.channelOf (s.homeOf k) with
  | none => false
  | some ch => (s.core :: s.cores).any fun c => c.flight.any fun f =>
      f.stood && f.seq < seq && s.channelOf (s.homeOf f.key) = some ch

/-- Whether an access of a number to a seam key waits at its channel: it is held there (R190), or the channel first serves older
stores that it has held (R265; log entry 114). -/
def State.blocked (s : State) (k seq : Nat) : Bool := s.heldKey k || s.behind k seq

/-- Whether a walk under a root reads an entry whose channel lets it wait (R190, R265, R269). -/
def State.heldTables (s : State) (root : BitVec 28) (va seq : Nat) : Bool :=
  (walkEntries s 4 (root.toNat * 4096) (va % 2 ^ 48)).any fun ea => s.blocked (seamKey ea) seq

/-- Whether a request of a device waits at a channel (R190, R265, R333): its walk, or its target. -/
def State.heldRequest (s : State) (dev : BitVec 12) (va seq : Nat) : Bool :=
  let e := s.ratOf dev
  e.getLsbD 63 && (s.heldTables (e.extractLsb' 12 28) va seq || (s.remoteKey dev va ⟨false, false⟩).any fun k => s.blocked k seq)

/-- Whether an access of a number to a key waits at its home (R190, R265); one to another device waits there. -/
def State.heldHome (s : State) (k seq : Nat) : Bool :=
  if k / 2 ^ 60 = 4 && devOf (BitVec.ofNat 64 k) = s.mgmt.devid then s.heldRequest s.mgmt.devid k seq else s.blocked k seq

/-- Whether an access that comes now waits at its home. -/
def State.stands (s : State) (k : Nat) : Bool := s.heldHome k s.fab.nextSeq

/-- A walk that a held channel holds (R190, R269). -/
def State.heldWalk (s : State) (core : Nat) (rid : BitVec 32) (a : W64) : Bool :=
  space a = 2 && s.held core rid a.toNat = [] && (s.region? rid).any fun r => s.heldTables r.dom.root a.toNat s.fab.nextSeq

/-- The checks of R176 for an aligned access of n bytes by a context of a region on a core, in their order, and the place
it reaches. An offset beyond another core's scratchpad is a remote fault (R176). -/
def State.resolve (s : State) (own : Nat) (rid : BitVec 32) (a : W64) (n : Nat) (acc : Access) : Except Failed Place :=
  if !spaceOk a then .error fSpace
  else if n ≠ 0 && a.toNat % n ≠ 0 then .error fAlign
  else
    let c := s.coreAt own
    match space a with
    | 0 =>
      match c.scrKey (a.toNat % 2 ^ 60) with
      | some k => .ok (.pool own k)
      | none => .error fSize
    | 1 =>
      let t := coreOf1 own a
      if t ≠ own && !acc.rd then .ok (.far (farKey t (bits a.toNat 47 0)))
      else match (s.coreAt t).scrKey (bits a.toNat 47 0) with
      | some k => .ok (.pool t k)
      | none => .error (if t = own then fSize else fRemote)
    | 2 =>
      match s.xlate own rid a.toNat with
      | .error d => .error (fPage d)
      | .ok (pa, leaf) =>
        if (acc.rd && !leafR leaf) || (acc.wr && !leafW leaf) then .error fPerm
        else .ok (.home (seamKey pa) (!leafNC leaf && c.cchBanks ≠ []))
    | 3 =>
      match s.hostXlate (s.pasidOf rid) (bits a.toNat 56 0) acc with
      | .error e => .error e
      | .ok k => .ok (.home k (c.cchBanks ≠ []))
    | _ => .ok (.home a.toNat (c.cchBanks ≠ []))

/-! ### The cache role (R178, R278, R280, R285, R290) -/

def Core.findLine (c : Core) (k : Nat) : Option Line := c.cache.find? fun l => l.key = k

/-- Whether a scope's reach takes in a line (R285). -/
def inReach (sco : BitVec 2) (k : Nat) : Bool :=
  match sco.toNat with
  | 0 => false
  | 3 => true
  | _ => k / 2 ^ 60 = 2

/-- A line holds a trap record that holds a context (R318). -/
def State.isHolding (s : State) (k : Nat) : Bool := (s.ctx :: s.ctxs).any fun c => c.sch.hold.any fun h => h.key = k

/-- A release has reached a line: the line's record is replaced (R290), and of a record that holds a context the DISP word is noted
(R318). -/
def State.noteRelease (s : State) (r : LineRec) : State :=
  { s with lineRecs := r :: s.lineRecs.filter fun x => x.key ≠ r.key,
           disps := if s.isHolding r.key then s.disps ++ [(r.key, r.data.extractLsb' 448 64)] else s.disps }

/-- The record of a line takes the mark of bytes that have reached its home (R290). -/
def State.recordLine (s : State) (k : Nat) (mark : Option Mark) : State :=
  match mark with
  | none => s
  | some m => s.noteRelease { key := k, sco := m.sco, org := some m.core, data := ofBytes 512 (s.peek k 64), by_ := some m.ctx }

/-- The mark of a release by the context acted on (R290, R294). -/
def State.markOf (s : State) (sco : BitVec 2) : Mark := { sco := sco, core := s.core.num, ctx := s.ctx.id }

/-- A number for a request or a store in flight. -/
def State.freshSeq (s : State) : Nat × State :=
  (s.fab.nextSeq, { s with fab := { s.fab with nextSeq := s.fab.nextSeq + 1 } })

/-- Where a packet goes (R332, R337): through a port, nowhere yet, or nowhere at all. -/
inductive RouteTo where
  | port (p : BitVec 5)
  | wait
  | none
deriving DecidableEq, Repr

/-- A port as the route choice sees it; a number above 17 is none. -/
def Fabric.portState (f : Fabric) (p : BitVec 5) : BitVec 4 := ((f.ports[p.toNat]?).map (·.state)).getD 4

/-- A port that is up, on a lane: while the lane is paused a packet waits (R330). -/
def Fabric.through (f : Fabric) (p : BitVec 5) (lane : Nat) : RouteTo :=
  if (f.ports[p.toNat]?).any fun x => x.paused.getLsbD lane then .wait else .port p

/-- The route of a destination on a lane, by its table entry and the states of its ports. -/
def Fabric.route (f : Fabric) (dst : BitVec 12) (lane : Nat) : RouteTo :=
  let e := assocD 0 dst.toNat f.rtab
  let pri := e.extractLsb' 0 5
  let alt := e.extractLsb' 8 5
  if !e.getLsbD 31 || 18 ≤ pri.toNat || 18 ≤ alt.toNat then .none
  else
    match (f.portState pri).toNat with
    | 2 => f.through pri lane
    | 1 | 3 => .wait
    | _ =>
      if !e.getLsbD 30 then .none
      else match (f.portState alt).toNat with
      | 2 => f.through alt lane
      | 1 | 3 => .wait
      | _ => .none

/-- The virtual lane of a packet (R330, R331). -/
def Packet.lane : Packet → Nat
  | .reduce _ _ => 2
  | .forward l _ => l.toNat
  | _ => 0

/-- The port of a route. -/
def RouteTo.out : RouteTo → Option (BitVec 5)
  | .port p => some p
  | _ => Option.none

/-- A packet for another device enters the fabric (R331). -/
def State.send (s : State) (dst : BitVec 12) (p : Packet) : Nat × State :=
  let q := s.freshSeq
  let x : Sent := { seq := q.1, dst := dst, port := (q.2.fab.route dst p.lane).out, body := p }
  (q.1, { q.2 with fab := { q.2.fab with out := q.2.fab.out ++ [x] } })

/-- A store or write-back of a core waits on its way. -/
def State.addFlight (s : State) (core : Nat) (f : Nat → Flight) : State :=
  let q := s.freshSeq
  let c := q.2.coreAt core
  q.2.putCore { c with flight := c.flight ++ [f q.1] }

/-- Bytes of a line perform at a home of this device, and leave the mark of a release there. -/
def State.perform (s : State) (hk : Nat) (d : BitVec 512) (mask : BitVec 64) (mark : Option Mark) : State :=
  (s.pokeLine hk d mask).recordLine hk mark

/-- Whether the home of a key is another device (R5, R332). -/
def State.isAway (s : State) (k : Nat) : Bool := k / 2 ^ 60 = 4 && devOf (BitVec.ofNat 64 k) ≠ s.mgmt.devid

/-- Whether the home of a line's bytes is another device, or refuses them (R333): they then wait for what it answers. -/
def State.awayOrRefused (s : State) (k : Nat) : Bool :=
  k / 2 ^ 60 = 4 && (devOf (BitVec.ofNat 64 k) ≠ s.mgmt.devid || (s.remoteKey s.mgmt.devid k Access.store).isNone)

/-- Bytes of a line set out for their home (R284): they perform at once where nothing stands between, and wait in flight
where the channel is held (R190) or serves others first (R265), or another device is their home; where an older store of the core
to the line is still on its way they set out after it (R279, R334). `wb` marks a write-back; a
refused one is found when the event performs it. -/
def State.toHome (s : State) (core : Nat) (ctx : CtxId) (wb : Bool) (ba addr : W64) (k : Nat) (d : BitVec 512)
    (mask : BitVec 64) (mark : Option Mark) : State :=
  let f (sent : Option Nat) (stood : Bool) (seq : Nat) : Flight :=
    { seq := seq, ctx := ctx, wb := wb, ba := ba, addr := addr, key := k, data := d, mask := mask, sent := sent, mark := mark,
      stood := stood }
  if mask = 0 then s
  else if (s.coreAt core).flight.any fun g => s.homeOf g.key = s.homeOf k then
    s.addFlight core (f none (!s.isAway k && s.stands k))
  else if s.isAway k then
    let q := s.send (devOf (BitVec.ofNat 64 k)) (.store (BitVec.ofNat 64 k) d mask)
    q.2.addFlight core (f (some q.1) false)
  else if s.stands k then s.addFlight core (f none true)
  else if s.awayOrRefused k then s.addFlight core (f none false)
  else s.perform (s.homeOf k) d mask mark

/-- A context of a core that waits for a line of another device keeps the bytes of the core that leave for it (R285). -/
def Ctx.noteLeft (core : Nat) (l : Line) (c : Ctx) : Ctx :=
  if c.core.toNat = core then
    { c with remote := c.remote.map fun r =>
        if lineOf r.addr.toNat = l.key then { r with left := r.left ++ [(l.key, l.data, l.dirty)] } else r }
  else c

/-- A line's dirty bytes leave for their home; the line stays, clean (R278). -/
def State.writeBack (s : State) (core : Nat) (l : Line) : State :=
  let s := if l.key / 2 ^ 60 = 4 then { s with ctx := s.ctx.noteLeft core l, ctxs := s.ctxs.map (Ctx.noteLeft core l) } else s
  let s := s.toHome core l.by_ true 0 l.va l.key l.data l.dirty l.mark
  let c := s.coreAt core
  s.putCore { c with cache := replaceIf (fun m => m.key = l.key) (fun m => { m with dirty := 0, marks := [] }) c.cache }

/-- Lines of a core chosen by a test are written back. -/
def State.writeBackIf (s : State) (core : Nat) (p : Line → Bool) : State :=
  ((s.coreAt core).cache.filter fun l => l.dirty ≠ 0 && p l).foldl (fun s l => s.writeBack core l) s

/-- The write-back of a release, DRAIN or CLWB at a scope (R285). -/
def State.writeBackReach (s : State) (core : Nat) (sco : BitVec 2) : State :=
  s.writeBackIf core fun l => inReach sco l.key

/-- A watch of this core on a line, by whatever name it holds it, observes its invalidation (R188). -/
def State.wakeInvalid (s : State) (core : Nat) (k : Nat) : State :=
  let f (c : Ctx) : Ctx := if c.core.toNat = core then wakeCtx (s.homeOf k) 64 c else c
  { s with ctx := f s.ctx, ctxs := s.ctxs.map f }

/-- A line leaves the cache role. -/
def State.invalidate (s : State) (core : Nat) (k : Nat) : State :=
  let c := s.coreAt core
  if (c.findLine k).isSome then
    (s.putCore { c with cache := c.cache.filter fun l => l.key ≠ k }).wakeInvalid core k
  else s

/-- A line of a leaving cache bank (R248). -/
def Core.leaving (c : Core) (l : Line) : Bool :=
  c.pool.change.any fun ch => ch.banks.contains l.bank || ch.targets.contains l.bank

/-- An access to a line that is still held in a leaving bank waits until it is invalidated (R248). -/
def State.leavingLine (s : State) (core : Nat) (k : Nat) : Bool :=
  ((s.coreAt core).findLine k).any (s.coreAt core).leaving

/-- The lines of leaving banks of which no dirty byte is on its way any more are invalidated (R248). -/
def State.dropLeft (s : State) (core : Nat) : State :=
  let c := s.coreAt core
  let gone := c.cache.filter fun l => c.leaving l && l.dirty = 0 && !c.flight.any fun f => f.wb && f.key = l.key
  gone.foldl (fun s l => s.invalidate core l.key) s

/-- An eviction (R280): the dirty bytes go home first. A line of a leaving bank stays until they have performed (R248). -/
def State.evict (s : State) (core : Nat) (k : Nat) : State :=
  match (s.coreAt core).findLine k with
  | some l => if s.leavingLine core k then s.writeBack core l else (s.writeBack core l).invalidate core k
  | none => s

/-- The clean bytes of lines in reach leave, the dirty ones stay (R285); a watch is left as it is (R188). A line of a leaving bank,
which serves no hit, stays until its dirty bytes have performed (R248). -/
def State.dropClean (s : State) (core : Nat) (sco : BitVec 2) : State :=
  let c := s.coreAt core
  s.putCore { c with cache :=
    (replaceIf (fun l => inReach sco l.key && !c.leaving l) (fun l => { l with held := l.dirty }) c.cache).filter fun l => l.held ≠ 0 }

/-- Marks of a line without those of some bytes. -/
def unmark (m : List (BitVec 64 × Mark)) (mask : BitVec 64) : List (BitVec 64 × Mark) :=
  (m.map fun x => (x.1 &&& ~~~mask, x.2)).filter fun x => x.1 ≠ 0

/-- The marks after a store of some bytes, with the mark of a release or without one (R290). -/
def remark (m : List (BitVec 64 × Mark)) (mask : BitVec 64) (mark : Option Mark) :
    List (BitVec 64 × Mark) :=
  unmark m mask ++ (mark.map fun x => (mask, x)).toList

/-- The bank a new line goes to: the lowest CCH bank that holds fewer than 512 lines; with all full, the oldest line of
these banks is evicted (log entry 10). -/
def State.makeRoom (s : State) (core : Nat) : State × Nat :=
  let c := s.coreAt core
  match c.cchBanks.find? fun b => (c.cache.filter fun l => l.bank = b).length < 512 with
  | some b => (s, b)
  | none =>
    match c.cache.find? fun l => c.cchBanks.contains l.bank with
    | some l => (s.evict core l.key, l.bank)
    | none => (s, c.cchBanks.headD 0)

/-- Bytes join a line in the cache role, clean (`dirty` false) or stored. -/
def State.cachePut (s : State) (core : Nat) (ctx : CtxId) (va : W64) (k : Nat) (d : BitVec 512) (mask : BitVec 64)
    (dirty : Bool) (mark : Option Mark) : State :=
  let c := s.coreAt core
  match c.findLine k with
  | some l =>
    let l' := { l with data := mergeLine l.data d (if dirty then mask else mask &&& ~~~l.dirty), held := l.held ||| mask,
                       dirty := if dirty then l.dirty ||| mask else l.dirty,
                       marks := if dirty then remark l.marks mask mark else l.marks,
                       by_ := if dirty then ctx else l.by_ }
    s.putCore { c with cache := replaceIf (fun m => m.key = k) (fun _ => l') c.cache }
  | none =>
    let r := s.makeRoom core
    let c := r.1.coreAt core
    let l : Line :=
      { key := k, va := va, data := d, held := mask, dirty := if dirty then mask else 0,
        marks := if dirty then remark [] mask mark else [], by_ := ctx,
        bank := r.2 }
    r.1.putCore { c with cache := c.cache ++ [l] }

/-- A line at its home: data and the mask of bytes in uncorrectable units; none where another device holds it and it has
not come. A space-0x4 line of the own device is read at its seam home, and refused there gives none (R332, R333). -/
def State.homeLine (s : State) (k : Nat) : Option (BitVec 512 × BitVec 64) :=
  let at_ (hk : Nat) : BitVec 512 × BitVec 64 :=
    (ofBytes 512 (s.peek hk 64),
     BitVec.ofNat 64 (packEl 8 ((List.range 8).map fun u => if s.isBad (hk + 8 * u) 8 then 255 else 0)))
  if k / 2 ^ 60 = 4 then
    let dev := devOf (BitVec.ofNat 64 k)
    if dev = s.mgmt.devid then (s.remoteKey dev k Access.load).map at_
    else
      match s.ctx.remote with
      | some r => (r.got.find? fun g => g.1 = k).map fun g => (g.2.1, if g.2.2 then BitVec.allOnes 64 else 0)
      | none => none
  else some (at_ k)

/-- The stores of a context, and the core's write-backs, that are on their way to the bytes of a key. -/
def State.underway (s : State) (core : Nat) (ctx : CtxId) (k : Nat) : List Flight :=
  (s.coreAt core).flight.filter fun f => (f.ctx = ctx || f.wb) && s.homeOf f.key = s.homeOf k

/-- An older store of its context, or a write-back, to its line stands before a store in flight (R279). -/
def State.queuedBehind (s : State) (core : Nat) (f : Flight) : Bool :=
  (s.coreAt core).flight.any fun g =>
    g.seq < f.seq && (g.ctx = f.ctx || g.wb || f.wb) && s.homeOf g.key = s.homeOf f.key

/-- Where a store in flight performs now; none where it is held, stands behind another, waits for another device or would be
refused. -/
def State.landing (s : State) (core : Nat) (f : Flight) : Option Nat :=
  if f.sent.isSome || s.queuedBehind core f then none
  else if f.key / 2 ^ 60 = 5 then (s.coreAt (f.key % 2 ^ 60 / 2 ^ 48)).scrKey (f.key % 2 ^ 48)
  else if s.heldHome f.key f.seq || s.awayOrRefused f.key then none
  else some (s.homeOf f.key)

/-- A bank that is being relocated holds every access to it until the change completes (R248). -/
def State.heldPool (s : State) (k : Nat) : Bool :=
  match (s.coreAt (k % 2 ^ 60 / 2 ^ 32)).pool.change with
  | some ch => ch.rel && ch.banks.contains (k % 2 ^ 32 / 2 ^ 15)
  | none => false

/-- Clean bytes of a mask leave a line of the cache role, by whatever name it holds it: a store that goes past it makes them old
(R280, R289). -/
def State.dropOld (s : State) (core : Nat) (k : Nat) (mask : BitVec 64) : State :=
  let c := s.coreAt core
  let f (l : Line) : Line := { l with held := l.held &&& ~~~(mask &&& ~~~l.dirty) }
  s.putCore { c with cache := (replaceIf (fun l => s.homeOf l.key = s.homeOf k) f c.cache).filter fun l => l.held ≠ 0 }

/-- A store in flight performs at a home; the clean bytes it makes old leave its core's cache role. -/
def State.land (s : State) (core : Nat) (f : Flight) (hk : Nat) : State :=
  let c := s.coreAt core
  let s := s.putCore { c with flight := c.flight.filter fun g => g.seq ≠ f.seq }
  (if f.wb then s else s.dropOld core f.key f.mask).perform hk f.data f.mask f.mark

/-- A store in flight performs, unless something holds it. -/
def State.settleOne (s : State) (core : Nat) (f : Flight) : State :=
  match s.landing core f with
  | some hk =>
    if hk / 2 ^ 60 = 1 && s.heldPool hk then s
    else s.land core f hk
  | none => s

/-- The stores of a context to a line that are still in flight, and the core's write-backs of it, perform first where
nothing holds them (program order to one byte, R279, R283, R289). -/
def State.settle (s : State) (core : Nat) (ctx : CtxId) (k : Nat) : State :=
  (s.underway core ctx k).foldl (fun s f => s.settleOne core f) s

/-- The other names under which a core's cache role holds the bytes of a key: a space-0x4 address of the own device and a
space-0x2 address can name one byte (R332). Their lines go home first. -/
def State.unalias (s : State) (core : Nat) (k : Nat) : State :=
  ((s.coreAt core).cache.filter fun l => l.key ≠ k && s.homeOf l.key = s.homeOf k).foldl (fun s l => s.evict core l.key) s

/-- The agents a recorded scope covers (R6, R290), counted from its originator. -/
def covers (sco : BitVec 2) (org : Option (BitVec 11)) (core : Nat) : Bool :=
  match org with
  | none => true
  | some o =>
    match sco.toNat with
    | 0 => o.toNat = core
    | 1 => clusterOf o.toNat = clusterOf core
    | _ => true

/-- Whether an acquire by the context acted on that reads a line at its home is mismatched (R290). Its own release, on whatever
core, covers it (R294). -/
def State.mismatch (s : State) (core : Nat) (k : Nat) : Bool :=
  match s.lineRecs.find? fun r => r.key = k with
  | some r => !(covers r.sco r.org core || r.by_ = some s.ctx.id)
  | none => false

end Sys2Proof.Machine
end

