-- ==== Sys2Proof/Machine/Flags.lean ====
section
/-!
DEFINITION. Floating-point events: how they enter FPF and FEREC (R28, R29), in which order they land (R97, R156), and the
landing of a context's outstanding results (R155).
-/

namespace Sys2Proof.Machine

/-- Flags of an event enter FPF. Where FEREC is armed and empty, it takes `top`: of the events of one bundle, that of the lowest
slot (R29). -/
def Ctl.landFlags (c : Ctl) (e top : FlagEv) : Ctl :=
  if e.fl = 0 then c
  else
    { c with fpf := c.fpf ||| (zext e.fl <<< (5 * e.slot)),
             ferec := if c.ferec.getLsbD 63 && !c.ferec.getLsbD 62 then
                 0xC000000000000000 ||| (BitVec.ofNat 64 (top.slot * 2 ^ 59)) ||| (zext top.fl <<< 54) |||
                   (top.ba &&& 0x0000FFFFFFFFFFFE)
               else c.ferec }

/-- A slot of the vector class (R156). -/
def vecSlot (n : Nat) : Bool := n = 3 || n = 4

/-- An event of the bundle in execution is on its way. -/
def State.addEvent (s : State) (slot due : Nat) (fl : BitVec 5) : State :=
  let e : FlagEv := { due := due, slot := slot, ba := s.iss.ba, fl := fl, at0 := s.core.cycle }
  { s with ctx := { s.ctx with events := s.ctx.events ++ [e] } }

/-- The flags of an engine operation, by its slot, timeline, number and bundle, land in the cycle that has ended: after the MTC
of that cycle, and before the next bundle (R96, R97; log entry 100). -/
def State.engineEvent (s : State) (slot : Nat) (tl : BitVec 2) (num ba : W64) (fl : BitVec 5) : State :=
  if fl = 0 then s
  else
    let e : FlagEv := { due := s.core.cycle - 1, slot := slot, ba := ba, fl := fl, at0 := s.core.cycle, eng := some (tl, num) }
    { s with ctx := { s.ctx with events := s.ctx.events ++ [e] } }

/-- An instruction's flags land `lat` cycles after issue. That a floating-point instruction of a slot is under way is noted
whether or not it sets any (R97). -/
def State.raise (s : State) (fl : BitVec 5) (lat : Nat) : State :=
  if fl = 0 && 5 ≤ s.iss.slot then s else s.addEvent s.iss.slot (s.core.cycle + lat) fl

/-- The order in which events land (R97): by cycle, then by slot, those of the vector slots together and in issue order, a copy
before a fabric command, and by number. -/
def FlagEv.rank (e : FlagEv) : List Nat :=
  let t := (e.eng.map fun x => [x.1.toNat, x.2.toNat]).getD [0, 0]
  [e.due, if vecSlot e.slot then 3 else e.slot] ++ t ++ [e.at0, e.slot]

/-- Lexicographic order. -/
def lexLt : List Nat → List Nat → Bool
  | a :: as, b :: bs => a < b || (a = b && lexLt as bs)
  | _, _ => false

/-- Insertion by the order of landing. -/
def insertEv (e : FlagEv) : List FlagEv → List FlagEv
  | [] => [e]
  | x :: xs => if lexLt e.rank x.rank then e :: x :: xs else x :: insertEv e xs

def sortEvs (l : List FlagEv) : List FlagEv := l.foldl (fun acc e => insertEv e acc) []

/-- What FEREC takes when an event lands: of a vector event, the flagged vector event that was issued first and has not landed (R156;
log entry 117); of its bundle, the flagged event of the lowest slot (R29); an engine event stands alone. -/
def topOf (all : List FlagEv) (e : FlagEv) : FlagEv :=
  if e.eng.isSome then e
  else
    let e := if vecSlot e.slot then
        (all.filter fun x => vecSlot x.slot && x.fl ≠ 0).foldl (fun m x => if x.at0 < m.at0 then x else m) e
      else e
    (all.filter fun x => x.eng.isNone && x.at0 = e.at0 && x.fl ≠ 0).foldl (fun m x => if x.slot < m.slot then x else m) e

/-- The events that a test picks land, in their order. -/
def landEvents (c : Ctx) (p : FlagEv → Bool) : Ctx :=
  { c with c := (sortEvs (c.events.filter p)).foldl (fun k e => k.landFlags e (topOf c.events e)) c.c,
           events := c.events.filter fun e => !p e }

/-- Results and flags that are due by a cycle land. -/
def landCtx (cycle : Nat) (c : Ctx) : Ctx :=
  let c := landEvents c fun e => e.due ≤ cycle
  { c with board := c.board.filter fun p => match p.due with
             | some d => cycle < d
             | none => true }

/-- A floating-point or vector instruction that the context has issued has not landed (R97, R156). -/
def Ctx.floating (c : Ctx) (cycle : Nat) : Bool :=
  (c.events.any fun e => e.slot < 5 && cycle < e.due) || c.board.any fun p => p.vec && p.due.any fun d => cycle < d

/-- Nothing that an instruction of the context has issued is outstanding (R155, R175). -/
def Ctx.landed (c : Ctx) (cycle : Nat) : Bool :=
  c.events.isEmpty && c.board.all fun p => p.due.all fun d => d ≤ cycle

end Sys2Proof.Machine
end

