-- ==== Sys2Proof/Machine/Ops.lean ====
section
/-!
DEFINITION. The named operations over the state: registers and their renaming (R14 to R18), outstanding results (R11,
R155), draws (R31), semaphores (R24), timelines (R23), host events (R346), trap records (R316,
R317), fault domains (R320), the start of a save (R314, R324), taking a trap (R314) and the return from one (R131).
-/

namespace Sys2Proof.Machine

/-- What a step answers. -/
abbrev Out := Host.Outcome State Fault Refusal

/-- Element i of a vector, or its type's default beyond the end. -/
def vget {α : Type} [Inhabited α] {n : Nat} (v : Vector α n) (i : Nat) : α := v[i]?.getD default

/-- A vector with element i replaced. -/
def vset {α : Type} {n : Nat} (v : Vector α n) (i : Nat) (a : α) : Vector α n := v.setIfInBounds i a

/-! ### Free values (log entry 2): each use takes the next one -/

def State.anyNat (s : State) : Nat × State := (Config.freeNat s.nfree, { s with nfree := s.nfree + 1 })
def State.anyBool (s : State) : Bool × State := (Config.freeBool s.nfree, { s with nfree := s.nfree + 1 })
def State.anyBits (s : State) (w : Nat) : BitVec w × State := (Config.freeBits w s.nfree, { s with nfree := s.nfree + 1 })

/-! ### The context acted on -/

def State.modCtx (s : State) (f : Ctx → Ctx) : State := { s with ctx := f s.ctx }
def State.modRegs (s : State) (f : Regs → Regs) : State := { s with ctx := { s.ctx with r := f s.ctx.r } }
def State.modCtl (s : State) (f : Ctl → Ctl) : State := { s with ctx := { s.ctx with c := f s.ctx.c } }
def State.modSeq (s : State) (f : Seqr → Seqr) : State := { s with ctx := { s.ctx with q := f s.ctx.q } }
def State.modSched (s : State) (f : Sched → Sched) : State := { s with ctx := { s.ctx with sch := f s.ctx.sch } }
def State.modCore (s : State) (f : Core → Core) : State := { s with core := f s.core }
def State.modIss (s : State) (f : Iss → Iss) : State := { s with iss := f s.iss }
def State.modMx (s : State) (f : Matrix → Matrix) : State := { s with ctx := { s.ctx with mx := f s.ctx.mx } }

/-- A slot finds that its bundle cannot issue in this cycle (R53). -/
def State.hold (s : State) : State := s.modIss fun i => { i with held := true }

/-- A wait counts only until the bundle has been found able to issue: its slots then run in one cycle (R53, R60). -/
def State.waits (s : State) (b : Bool) : Bool := !s.iss.ready && b

/-- Applies a function to every context that a test picks. -/
def State.mapCtx (s : State) (p : Ctx → Bool) (f : Ctx → Ctx) : State :=
  { s with ctx := if p s.ctx then f s.ctx else s.ctx, ctxs := replaceIf p f s.ctxs }

/-- All contexts. -/
def State.allCtxs (s : State) : List Ctx := s.ctx :: s.ctxs

/-- The core acted on becomes core n. -/
def State.focusCore (s : State) (n : Nat) : State :=
  if s.core.num.toNat = n then s
  else
    { s with core := s.coreAt n,
             cores := (if s.core = Core.reset s.core.num then [] else [s.core]) ++
               s.cores.filter fun c => c.num.toNat ≠ n }

/-- The context acted on becomes the one named, and the core its core; none where no such context exists, or nothing runs: without
firmware (R361), or after a supply loss (R352). -/
def State.focus (s : State) (id : CtxId) : Option State :=
  if s.boot.fwerr || s.power.retained then none
  else if s.ctx.sch.life ≠ Life.none ∧ s.ctx.id = id then some (s.focusCore s.ctx.core.toNat)
  else
    match s.ctxs.find? fun c => c.id = id with
    | some c =>
      let rest := s.ctxs.filter fun d => d.id ≠ id
      let s := { s with ctx := c, ctxs := if s.ctx.sch.life = Life.none then rest else s.ctx :: rest }
      some (s.focusCore c.core.toNat)
    | none => none

/-- A context as it stands, by name. -/
def State.ctx? (s : State) (id : CtxId) : Option Ctx :=
  s.allCtxs.find? fun c => c.sch.life != Life.none && c.id = id

/-! ### Registers (R14, R16, R18). Reads see the context before the bundle (R41), writes go to the context. -/

/-- phys_v and phys_p of R16. -/
def physV (c : Ctl) (n : R6) : Nat := if n.toNat < 32 then n.toNat else 32 + (n.toNat - 32 + c.vrb.toNat) % 32
def physP (c : Ctl) (n : R5) : Nat := if n.toNat < 16 then n.toNat else 16 + (n.toNat - 16 + c.prb.toNat) % 16

def State.rdS (s : State) (n : R6) : W64 := if n = 0 then 0 else vget s.pre.r.s n.toNat
/-- The poison bit of a scalar register. -/
def State.psS (s : State) (n : R6) : Bool := n ≠ 0 && s.pre.r.sp.getLsbD n.toNat
def State.rdB (s : State) (n : R3) : W64 := vget s.pre.r.b n.toNat
def State.rdV (s : State) (n : R6) : VWord := vget s.pre.r.v (physV s.pre.c n)
def State.psV (s : State) (n : R6) : W32 := vget s.pre.r.vp (physV s.pre.c n)
def State.rdP (s : State) (n : R5) : PWord := if n = 0 then BitVec.allOnes 256 else vget s.pre.r.p (physP s.pre.c n)
def State.psP (s : State) (n : R5) : Bool := n ≠ 0 && s.pre.r.pp.getLsbD (physP s.pre.c n)

/-- A bit of a word set or cleared. -/
def setBit {w : Nat} (x : BitVec w) (i : Nat) (b : Bool) : BitVec w :=
  if b then x ||| (1#w <<< i) else x &&& ~~~(1#w <<< i)

/-- A scalar result with its poison; s0 is never written. -/
def Regs.putS (r : Regs) (n : R6) (v : W64) (poison : Bool) : Regs :=
  if n = 0 then r else { r with s := vset r.s n.toNat v, sp := setBit r.sp n.toNat poison }
def Regs.putB (r : Regs) (n : R3) (v : W64) : Regs := { r with b := vset r.b n.toNat v }
/-- A physical vector register with its lane-group poison. -/
def Regs.putV (r : Regs) (n : Nat) (v : VWord) (g : W32) : Regs := { r with v := vset r.v n v, vp := vset r.vp n g }
def Regs.putP (r : Regs) (n : Nat) (v : PWord) (poison : Bool) : Regs :=
  if n = 0 then r else { r with p := vset r.p n v, pp := setBit r.pp n poison }

/-! ### Outstanding results (R11, R155) -/

/-- The latest cycle in which an outstanding write of a destination can be read. -/
def lastDue (b : List Pend) (d : Dest) : Nat :=
  (b.filter fun p => p.dst = d).foldl (fun m p => max m (p.due.getD 0)) 0

/-- Whether the results of this kind of destination land in issue order (R155): all but scalars. -/
def Dest.inOrder : Dest → Bool
  | .s _ => false
  | _ => true

/-- A destination is written now and can be read `lat` cycles after issue; an earlier result for a scalar is none any more (R41). `was`
says whether it was poisoned before. -/
def State.pend (s : State) (d : Dest) (lat : Nat) (was : Bool) : State :=
  let due := if d.inOrder then max (lastDue s.ctx.board d) (s.core.cycle + lat) else s.core.cycle + lat
  let kept := s.ctx.board.filter fun p => p.dst ≠ d || d.inOrder
  let new : Pend := { dst := d, due := some due, was := was, vec := vecSlot s.iss.slot }
  s.modCtx fun c => { c with board := if due ≤ s.core.cycle + 1 then kept else kept ++ [new] }

/-- When and where an instruction is issued whose result an event will bring. -/
def State.openTag (s : State) : Nat := s.core.cycle * 8 + s.iss.slot

/-- A scalar whose result an event will bring (R188, R189, R207); an earlier one for it is none any more (R41). -/
def State.pendOpen (s : State) (n : R6) : State :=
  if n = 0 then s
  else
    s.modCtx fun c =>
      { c with board := (c.board.filter fun p => p.dst ≠ .s n.toNat) ++ [{ dst := .s n.toNat, due := none, tag := s.openTag }] }

/-- A scalar waits for the result that an event brings of an instruction. -/
def Ctx.awaits (c : Ctx) (n : R6) (tag : Nat) : Bool :=
  c.board.any fun p => p.dst = .s n.toNat && p.due = none && p.tag = tag

/-- An event brings the result of an instruction: a later write of the register stands (R41). -/
def Ctx.bring (c : Ctx) (n : R6) (tag : Nat) (v : W64) : Ctx :=
  if c.awaits n tag then
    { c with r := c.r.putS n v false, board := c.board.filter fun p => !(p.dst = .s n.toNat && p.due = none) }
  else c

def State.wrS (s : State) (n : R6) (v : W64) (poison : Bool) (lat : Nat) : State :=
  if n = 0 then s else (s.modRegs fun r => r.putS n v poison).pend (.s n.toNat) lat (s.ctx.r.sp.getLsbD n.toNat)

/-- A vector result, named before renaming. -/
def State.wrV (s : State) (n : R6) (v : VWord) (g : W32) (lat : Nat) : State :=
  (s.modRegs fun r => r.putV (physV s.pre.c n) v g).pend (.v (physV s.pre.c n)) lat
    (vget s.ctx.r.vp (physV s.pre.c n) ≠ 0)

def State.wrP (s : State) (n : R5) (v : PWord) (poison : Bool) (lat : Nat) : State :=
  if n = 0 then s
  else (s.modRegs fun r => r.putP (physP s.pre.c n) v poison).pend (.p (physP s.pre.c n)) lat
    (s.ctx.r.pp.getLsbD (physP s.pre.c n))

/-- The present contents of a destination, for elements an instruction leaves unchanged: earlier slots' writes show (R41). -/
def State.curV (s : State) (n : R6) : VWord := vget s.ctx.r.v (physV s.pre.c n)
def State.curVP (s : State) (n : R6) : W32 := vget s.ctx.r.vp (physV s.pre.c n)
def State.curP (s : State) (n : R5) : PWord := if n = 0 then BitVec.allOnes 256 else vget s.ctx.r.p (physP s.pre.c n)
def State.curPP (s : State) (n : R5) : Bool := n ≠ 0 && s.ctx.r.pp.getLsbD (physP s.pre.c n)

/-! ### Draws (R31) -/

/-- One draw of the bundle: the generator's next value. An MTC to RNG in the bundle keeps its value (R31). -/
def State.draw (s : State) : W64 × State :=
  let x := rngStep s.iss.rng
  let s := s.modIss fun i => { i with rng := x }
  (x, if s.iss.rngSet then s else s.modCtl fun c => { c with rng := x })

/-- n draws, first to last. -/
def State.draws : Nat → State → List W64 × State
  | 0, s => ([], s)
  | n + 1, s =>
    let d := s.draw
    let r := State.draws n d.2
    (d.1 :: r.1, r.2)

/-! ### Space 0x2 and 0x3 bytes of a context outside its bundles: save areas, rings, tables -/

/-- The home key of an address of a context's region, where it translates with the access asked for. -/
def State.homeKey (s : State) (core : Nat) (rid : BitVec 32) (a : W64) (acc : Access) : Except Failed Nat :=
  match s.resolve core rid a 0 acc with
  | .ok (.home k _) => .ok k
  | .ok (.pool _ k) => .ok k
  | .ok (.far _) => .error fSpace
  | .error f => .error f

/-- Bytes of an address range at their homes, page by page of 64 KiB; none where a page does not translate. -/
def State.readVA (s : State) (core : Nat) (rid : BitVec 32) (a : W64) (n : Nat) : Option (List Byte) :=
  match s.homeKey core rid a Access.load with
  | .ok k => some (s.peek k n)
  | .error _ => none

/-! ### Semaphores (R24, R60) -/

/-- Whether a semaphore satisfies a threshold (R24). -/
def semReady (v t : BitVec 16) : Bool := (v - t).toNat < 2 ^ 15

def Core.grantOf (c : Core) (rid : BitVec 32) : Option Grant := c.grants.find? fun g => g.rid = rid

/-- Whether a region may name a semaphore on a core (R24). -/
def Core.granted (c : Core) (rid : BitVec 32) (k : Nat) : Bool :=
  match c.grantOf rid with
  | some g => g.base ≤ k && k < g.base + g.count
  | none => false

/-- The context whose save area carries a region's semaphore image for a core (R24). -/
def State.imageCtx (s : State) (rid : BitVec 32) (core : Nat) : Option Ctx :=
  s.allCtxs.find? fun c => c.id.rid = rid && c.sch.image && c.sch.lastCore = some (BitVec.ofNat 11 core)

/-- A signal (R24, R247): to the semaphore of the region's grant, to the image of a saved context while the grant is only
reserved, or dropped. -/
def State.signal (s : State) (core : Nat) (rid : BitVec 32) (k : BitVec 8) (inc : BitVec 8) : State :=
  let c := s.coreAt core
  match c.grantOf rid with
  | none => s
  | some g =>
    if g.reserved then
      match s.imageCtx rid core with
      | some x =>
        match s.homeKey core rid (x.sch.saveArea + BitVec.ofNat 64 (0x7E00 + 2 * (k.toNat - g.base))) Access.both with
        | .ok hk => s.poke hk (toBytes 2 (leNat (s.peek hk 2) + inc.toNat))
        | .error _ => s
      | none => s
    else s.putCore { c with k := vset c.k k.toNat (vget c.k k.toNat + inc.setWidth 16) }

/-- The signal half of a block, at the point it names (R60). -/
def State.signalAt (s : State) (core : Nat) (rid : BitVec 32) (w : WaitSig) (spt : Nat) : State :=
  if w.se = 1 && w.spt.toNat = spt then s.signal core rid w.ss w.si else s

/-! ### Timelines (R23) -/

/-- The watermark passes every number that has completed in an unbroken run; the list bounds the run. -/
def advanceMark : Nat → W64 → List W64 → W64 × List W64
  | 0, m, l => (m, l)
  | n + 1, m, l => if l.contains (m + 1) then advanceMark n (m + 1) (l.filter fun x => x ≠ m + 1) else (m, l)

def Timeline.complete (t : Timeline) (n : W64) : Timeline :=
  let l := n :: t.ahead
  let r := advanceMark l.length t.mark l
  { t with mark := r.1, ahead := r.2 }

def Timeline.next (t : Timeline) : Timeline := { t with issued := t.issued + 1 }

/-- END sets TLx := TLxI (R319). -/
def Timeline.close (t : Timeline) : Timeline := { t with mark := t.issued, ahead := [] }

/-- The timeline of a code (R56). -/
def Ctx.tl (c : Ctx) (t : BitVec 2) : Timeline :=
  match t.toNat with
  | 0 => c.tlc
  | 1 => c.tlm
  | _ => c.tlf

def Ctx.setTl (c : Ctx) (t : BitVec 2) (x : Timeline) : Ctx :=
  match t.toNat with
  | 0 => { c with tlc := x }
  | 1 => { c with tlm := x }
  | 2 => { c with tlf := x }
  | _ => c

/-! ### TIME (R38, R358) -/

/-- Elapsed nanoseconds of TIME (R358). -/
def Time.elapsedNs (t : Time) : Nat := t.elapsed / Config.unitsPerNs
/-- TIME (R38): elapsed time with every forward step. -/
def Time.now (t : Time) : W64 := BitVec.ofNat 64 (t.elapsedNs + t.steps)

/-! ### Host events (R346) -/

/-- An event entry's words 0x08, 0x10, 0x18 with its TYPE. -/
abbrev HostEvent := W64 × W64 × W64 × W64

def Ring.enabled (r : Ring) : Bool :=
  4 ≤ bits r.base.toNat 4 0 && bits r.base.toNat 4 0 ≤ 16 && space r.base = 3 && bits r.base.toNat 59 57 = 0

def Ring.entries (r : Ring) : Nat := 2 ^ bits r.base.toNat 4 0
def Ring.full (r : Ring) : Bool := (r.tail - r.head).toNat = r.entries
/-- The space-0x3 address of entry i of a ring, and its key under MPASID (R274, R345); none where the host refuses it. -/
def Ring.addr (r : Ring) (i : W32) : Nat := bits r.base.toNat 56 12 * 4096 + 64 * (i.toNat % r.entries)
def State.ringKey (s : State) (r : Ring) (i : W32) (acc : Access) : Option Nat :=
  (s.hostXlate s.mgmt.mpasid (r.addr i) acc).toOption

/-- The record of a line that the scheduler, the device or the host releases (R290): it covers every agent of its scope, and
none of the package is outside it. -/
def State.recordAgent (s : State) (k : Nat) (sco : BitVec 2) : State :=
  s.noteRelease { key := k, sco := sco, org := none, data := ofBytes 512 (s.peek k 64) }

/-- An event is written to the queue at a key with SEQ = TAIL, as a SYSTEM-scope release by the device; TAIL rises, and the
MSI-X vector is raised. -/
def State.writeEvent (s : State) (k : Nat) (e : HostEvent) : State :=
  let q := s.mgmt.evq
  let w0 := q.tail.toNat + e.1.toNat * 2 ^ 32
  let bs := toBytes 8 w0 ++ toBytes 8 e.2.1.toNat ++ toBytes 8 e.2.2.1.toNat ++ toBytes 8 e.2.2.2.toNat ++
    List.replicate 32 0
  let s := (s.poke k bs).recordAgent k 3
  { s with mgmt := { s.mgmt with evq := { q with tail := q.tail + 1 }, msix := s.mgmt.msix + 1 } }

/-- The key at which the next event is written: none while the queue is full or the host refuses the address (log entry 89). -/
def State.eventPlace (s : State) : Option Nat :=
  if s.mgmt.evq.enabled && !s.mgmt.evq.full then s.ringKey s.mgmt.evq s.mgmt.evq.tail Access.store else none

/-- An event is posted, held (up to 64), or dropped with LOST. -/
def State.post (s : State) (e : HostEvent) : State :=
  if !s.mgmt.evq.enabled then s
  else match (if s.mgmt.held = [] then s.eventPlace else none) with
  | some k => s.writeEvent k e
  | none =>
    if s.mgmt.held.length < 64 then { s with mgmt := { s.mgmt with held := s.mgmt.held ++ [e] } }
    else { s with mgmt := { s.mgmt with evq := { s.mgmt.evq with lost := true } } }

/-! ### Accounts (R328, R356) -/

/-- A meter never leaves its 64 bits. -/
def addSat (x : W64) (n : Nat) : W64 := BitVec.ofNat 64 (min (x.toNat + n) (2 ^ 64 - 1))

/-- Energy is charged to a meter: to it and to what has been charged since its last credit. -/
def Meter.charge (m : Meter) (e : Nat) : Meter := { value := addSat m.value e, since := addSat m.since e }

/-- A saving is credited to a meter: it falls, but not below what has been charged since the last credit (R356). -/
def Meter.credit (m : Meter) (e : Nat) : Meter :=
  { value := BitVec.ofNat 64 (max (m.value.toNat - e) m.since.toNat), since := 0 }

/-- A charge and a credit; a credit of nothing is none. -/
def Meter.bill (m : Meter) (energy credit : Nat) : Meter :=
  if credit = 0 then m.charge energy else (m.charge energy).credit credit

/-- An account of the package, and the meter of the package with it, take a charge and a credit. What would go to a region that has
ended goes to housekeeping (log entry 53). -/
def State.bill (s : State) (a : Account) (energy credit : Nat) : State :=
  let s := { s with power := { s.power with pkge := s.power.pkge.bill energy credit } }
  let house := { s with power := { s.power with hkmeter := s.power.hkmeter.bill energy credit } }
  match a with
  | .housekeeping => house
  | .region rid =>
    if !s.regions.any fun r => r.rid = rid then house
    else
    { s with regions := replaceIf (fun r => r.rid = rid) (fun r => { r with emeter := r.emeter.bill energy credit }) s.regions }

/-- The account of a save and of the restore after it (R328), by the request that brought it. -/
def accountOf (kind : ReqKind) (own : BitVec 32) (asker : Option (BitVec 32)) : Account :=
  match kind with
  | .classWait => .region (asker.getD own)
  | .stop | .trapEntry | .management => .region own
  | .migration | .supplyLoss => .housekeeping

/-- The energy of a save or a restore, which the manual leaves open, is charged (log entry 90). -/
def State.chargeMove (s : State) (a : Account) : State :=
  let e := s.anyNat
  e.2.bill a e.1 0

/-! ### The effective class (R310) -/

/-- One round of inheritance: a context that waits on a barrier raises every other context of its region that does not wait
on it. `cls` gives the classes so far. -/
def raiseClass (all : List Ctx) (cls : Ctx → Nat) (c : Ctx) : Nat :=
  all.foldl (fun m w =>
    if w.id.rid = c.id.rid && w.id ≠ c.id && w.q.waitsOn.isSome && w.q.waitsOn ≠ c.q.waitsOn then max m (cls w) else m)
    (cls c)

def classRounds (all : List Ctx) : Nat → Ctx → Nat
  | 0, c => c.c.base.toNat
  | n + 1, c => raiseClass all (classRounds all n) c

/-- The least assignment of R310: four classes, so four rounds reach it. -/
def State.classOf (s : State) (c : Ctx) : Nat :=
  let all := s.allCtxs
  if all.any fun w => w.q.waitsOn.isSome && w.id.rid = c.id.rid then classRounds all 4 c else c.c.base.toNat

/-! ### Trap records (R316, R317) -/

/-- What goes into a record. -/
structure Rec where
  cause : Nat
  slot : Nat
  sres : BitVec 3 := 0
  prec : Bool
  pt : Bool := false
  rt : Bool := false
  ac : Bool := false
  detail : Nat := 0
  ba : W64
  faddr : W64 := 0
  tgt : W64 := 0
  lmask : Nat := 0
  tl : Nat := 3
deriving DecidableEq, Repr

/-- The 64 bytes of a record (R316). -/
def recBytes (c : Ctx) (time : W64) (r : Rec) : BitVec 512 :=
  let b (x : Bool) : Nat := if x then 1 else 0
  let w0 := r.cause % 256 * 2 ^ 56 + r.slot % 8 * 2 ^ 53 + r.sres.toNat * 2 ^ 50 + b r.prec * 2 ^ 49 + b r.pt * 2 ^ 48 +
    b r.rt * 2 ^ 47 + b r.ac * 2 ^ 46 + r.detail % 2 ^ 32
  let w4 := c.id.rid.toNat * 2 ^ 32 + r.lmask % 2 ^ 32
  let w5 := c.id.num.toNat * 2 ^ 48 + r.tl % 4 * 2 ^ 43 + c.core.toNat * 2 ^ 32
  BitVec.ofNat 512 (packEl 64 [w0, r.ba.toNat, r.faddr.toNat, r.tgt.toNat, w4, w5, time.toNat, 0])

/-- A context whose registers stand in its save area (R305). -/
def Life.inArea : Life → Bool
  | .saved | .held => true
  | _ => false

/-- The ring's registers of a context: its own, or those in its save area (R317). -/
def State.ringOf (s : State) (c : Ctx) : W64 × W32 × W32 :=
  if c.sch.life.inArea then
    match s.homeKey c.core.toNat c.id.rid c.sch.saveArea Access.load with
    | .ok k => (BitVec.ofNat 64 (s.peek64 (k + 0x1F0)), BitVec.ofNat 32 (s.peek64 (k + 0x1F8)),
        BitVec.ofNat 32 (leNat (s.peek (k + 0x600) 4)))
    | .error _ => (c.c.trpb, c.c.pidx, c.c.cidx)
  else (c.c.trpb, c.c.pidx, c.c.cidx)

/-- PIDX written, and LOST set, where the ring's registers stand; LOST once set stays. -/
def State.setRing (s : State) (c : Ctx) (pidx : W32) (lost : Bool) : State :=
  let s := s.mapCtx (fun d => d.id = c.id) fun d => { d with c := { d.c with pidx := pidx, lost := d.c.lost || lost } }
  if c.sch.life.inArea then
    match s.homeKey c.core.toNat c.id.rid c.sch.saveArea Access.store with
    | .ok k =>
      let was := (s.peek64 (k + 0x1F8)).testBit 63
      s.poke (k + 0x1F8) (toBytes 8 (pidx.toNat + (if lost || was then 2 ^ 63 else 0)))
    | .error _ => s
  else s

/-- The address of record i of a ring (R34). -/
def ringAddr (trpb : W64) (i : W32) : W64 :=
  BitVec.ofNat 64 (bits trpb.toNat 63 12 * 4096 + 64 * (i.toNat % 2 ^ bits trpb.toNat 4 0))

/-- The address of the record that comes next, where its write does not fault (R317). -/
def State.recordSlot (s : State) (c : Ctx) : Option (W64 × Nat) :=
  let g := s.ringOf c
  let a := ringAddr g.1 g.2.1
  if space a ≠ 2 && space a ≠ 3 then none
  else match s.homeKey c.core.toNat c.id.rid a Access.store with
  | .ok k => some (a, k)
  | .error _ => none

/-- The address a record goes to, where the ring has room and the write does not fault (R317). -/
def State.recordPlace (s : State) (c : Ctx) : Option (W64 × Nat) :=
  let g := s.ringOf c
  if (g.2.1 - g.2.2).toNat = 2 ^ bits g.1.toNat 4 0 then none else s.recordSlot c

/-- Save-area bytes of a context that a ring record or a disposition is about, and the record of their line. -/
def State.areaRec (s : State) (c : Ctx) (off : Nat) : Option LineRec :=
  match s.homeKey c.core.toNat c.id.rid (c.sch.saveArea + BitVec.ofNat 64 off) Access.load with
  | .ok k => s.lineRecs.find? fun r => r.key = lineOf k
  | .error _ => none

/-- CIDX as the scheduler has it while it watches the line of offset 0x0600: as it was saved, or as a released write has left it
(R317). -/
def State.seenCidx (s : State) (c : Ctx) : W32 :=
  match s.areaRec c 0x600 with
  | some r => r.data.setWidth 32
  | none => c.c.cidx

/-- The scheduler begins to watch the line of offset 0x0600 (R317). -/
def State.watchCidx (s : State) (c : Ctx) : State :=
  match s.areaRec c 0x600 with
  | some r =>
    let d := mergeLine r.data (c.c.cidx.setWidth 512) (maskOf 0 4)
    { s with lineRecs := replaceIf (fun x => x.key = r.key) (fun x => { x with data := d }) s.lineRecs }
  | none => s

/-- Whether a pending record of a context can go: a slot of the ring is free, as the running context's CIDX has it, or as a
released write to the area has it (R317). -/
def State.pendRoom (s : State) (c : Ctx) : Bool :=
  let g := s.ringOf c
  let cidx := if c.sch.life.inArea || c.sch.life = .retired then s.seenCidx c else c.c.cidx
  (g.2.1 - cidx).toNat ≠ 2 ^ bits g.1.toNat 4 0

/-- The record performs at its home as a SYSTEM-scope release of the context's core, with a DISP of zero, and PIDX rises (R317). -/
def State.putRecord (s : State) (c : Ctx) (k : Nat) (d : BitVec 512) : State :=
  let core := c.core.toNat
  let s := (s.writeBackReach core 3).evict core k
  let s := s.perform k d (BitVec.allOnes 64) (some { sco := 3, core := c.core, ctx := c.id })
  let s := { s with disps := s.disps.filter fun x => x.1 ≠ lineOf k }
  s.setRing c ((s.ringOf c).2.1 + 1) false

/-- What became of a record (R317): written at an address and its home; on its way; or refused by the ring, and kept pending or
lost. -/
inductive RecOut where
  | at_ (a : W64) (k : Nat)
  | later
  | full
deriving DecidableEq, Repr

/-- Whether a write that the scheduler makes for a context waits at a held channel, of its walk or its bytes (R190, R269). -/
def State.schedHeld (s : State) (c : Ctx) (a : W64) : Bool :=
  s.heldWalk c.core.toNat c.id.rid a ||
    match s.homeKey c.core.toNat c.id.rid a Access.store with
    | .ok k => s.stands k
    | .error _ => false

/-- Whether the next record of a context waits at a held channel: the record, or the ring's registers in a save area. -/
def State.ringHeld (s : State) (c : Ctx) : Bool :=
  let g := s.ringOf c
  s.schedHeld c (ringAddr g.1 g.2.1) || (c.sch.life.inArea && s.schedHeld c c.sch.saveArea)

/-- Whether a record of a context can be written now: every result of the context has landed (R155, R175), its access to another
device has returned and what the release releases has performed (R286), and no channel holds it (R190). -/
def State.recReady (s : State) (c : Ctx) : Bool :=
  let k := s.coreAt c.core.toNat
  (c.sch.life.inArea || c.landed k.cycle) && c.remote.isNone && !s.ringHeld c &&
    !(k.flight.any fun f => f.wb || (f.ctx = c.id && f.key / 2 ^ 60 ≠ 5))

/-- The pending record stands in the area of a saved context (R325). -/
def State.pendArea (s : State) (c : Ctx) (d : BitVec 512) : State :=
  match s.homeKey c.core.toNat c.id.rid (c.sch.saveArea + 0x7400) Access.store with
  | .ok k => s.poke k (toBytes 64 d.toNat)
  | .error _ => s

/-- A record meets the ring: it is written, or kept pending with LOST set, or lost where one is pending (R317). The one that is kept
pending stops the context, and becomes its holding record unless it has one. -/
def State.ringRec (s : State) (c : Ctx) (d : BitVec 512) : RecOut × State :=
  match (if c.sch.pendRec.isSome then none else s.recordPlace c) with
  | some (a, k) => (.at_ a k, s.putRecord c k d)
  | none =>
    let s := s.setRing c (s.ringOf c).2.1 true
    let s := if c.sch.life.inArea && c.sch.pendRec.isNone then s.pendArea c d else s
    (.full, s.mapCtx (fun x => x.id = c.id) fun x =>
      { x with sch := { x.sch with pendRec := if x.sch.pendRec.isSome then x.sch.pendRec else some d,
                                   pendHolds := if x.sch.pendRec.isSome then x.sch.pendHolds
                                     else x.sch.hold.isNone || x.sch.disp.isSome } })

/-- A record for a context: the write-backs that it releases begin, and it is written where it can be, else it waits. `holds` says
whether it then becomes the context's holding record (R318). -/
def State.writeRec (s : State) (id : CtxId) (holds : Bool) (r : Rec) : RecOut × State :=
  match s.ctx? id with
  | none => (.later, s)
  | some c =>
    let d := recBytes c s.time.now r
    let s := s.writeBackReach c.core.toNat 3
    if c.sch.outRecs = [] && s.recReady c then s.ringRec c d
    else
      (.later, s.mapCtx (fun x => x.id = id) fun x =>
        { x with sch := { x.sch with outRecs := x.sch.outRecs ++ [(d, holds)] } })

/-! ### Starting a save (R314, R322, R324) -/

/-- The order of the kinds (R322). -/
def kindRank : ReqKind → Nat
  | .supplyLoss => 0
  | .stop => 1
  | .trapEntry => 2
  | .management => 3
  | .classWait => 4
  | .migration => 5

/-- An armed watch ends with the code of the cause that it has observed, else with code 3 (R188). -/
def endWatch (now : Nat) (c : Ctx) : Ctx :=
  match c.watch with
  | some w =>
    let code : W64 := match w.seen with
      | some x => zext x
      | none => if w.deadline.any fun d => d ≤ now then 1 else 3
    { c.bring w.sd w.tag code with watch := none }
  | none => c

/-- The watch of a context that is being taken, or that arms another, ends, and the context acquires at its scope (R188, R287). -/
def State.quitWatch (s : State) (id : CtxId) : State :=
  match s.ctx? id with
  | none => s
  | some c =>
    match c.watch with
    | some w => (s.dropClean c.core.toNat w.sco).mapCtx (fun x => x.id = id) (endWatch s.time.elapsedNs)
    | none => s

/-- A context begins its save: nothing more issues, and its preparations are discarded (R119, R324). -/
def Ctx.beginSave (c : Ctx) (kind : ReqKind) (e : SaveEnd) : Ctx :=
  { c with sch := { c.sch with wasDormant := c.sch.life = .dormant, life := .saving, saveFor := some kind, saveEnd := e,
                               stopAt := none, reqs := [], account := accountOf kind c.id.rid c.sch.asker, asker := none },
           q := { c.q with cold := Vector.replicate 8 true } }

/-- The context's core takes the save up, unless another runs (R322). -/
def State.claimSave (s : State) (id : CtxId) (core : Nat) : State :=
  let c := s.coreAt core
  if c.saving.isNone then s.putCore { c with saving := some id } else s

/-- A further request for a context that has landed and waits for its core is a waiting request too: the save then ranks and is
charged by the higher of them (R322, R328). A save of trap entry satisfies the request (R321). -/
def State.raiseSave (s : State) (id : CtxId) (k : ReqKind) : State :=
  s.mapCtx (fun c => c.id = id) fun c =>
    if c.sch.life = .saving && (s.coreAt c.core.toNat).saving ≠ some id && c.sch.saveFor ≠ some .trapEntry &&
        (c.sch.saveFor.all fun j => kindRank k < kindRank j) then
      { c with sch := { c.sch with saveFor := some k, account := accountOf k id.rid none } }
    else c

/-- A context is taken (R324): its watch ends, and its save begins, at once unless the core runs another. -/
def State.startSave (s : State) (id : CtxId) (kind : ReqKind) (e : SaveEnd) : State :=
  match s.ctx? id with
  | none => s
  | some c => ((s.quitWatch id).mapCtx (fun x => x.id = id) fun x => x.beginSave kind e).claimSave id c.core.toNat

/-! ### Fault domains (R300, R318, R320) -/

/-- A context retires: as by END its queued commands are dropped and its timelines closed (R319); it does no engine work any more
(R305). -/
def Ctx.end_ (c : Ctx) : Ctx :=
  { c with sch := { c.sch with life := .retired, hold := none, disp := none, image := false, reqs := [], stopAt := none },
           q := { c.q with waitsOn := none }, watch := none, remote := none,
           launches := [], queue := [], running := [], tlc := c.tlc.close, tlm := c.tlm.close, tlf := c.tlf.close,
           mx := { c.mx with queue := [], loads := [] } }

/-- What a stop of its region does to a context at once (R305, R320). -/
def Ctx.stop (c : Ctx) : Ctx :=
  match c.sch.life with
  | .pending | .saved | .held => c.end_
  | .resident => { c with sch := { c.sch with stopAt := some .retired, reqs := c.sch.reqs ++ [.stop] } }
  | .dormant => c.beginSave .stop .retired
  | .saving => { c with sch := { c.sch with saveEnd := .retired } }
  | .retiring => { c with queue := [], mx := { c.mx with queue := c.mx.queue.filter fun e => e.started.isSome } }
  | .retired | .none => c

/-- The channels a retired context held return to managed mode (R264). -/
def State.freeChannels (s : State) (id : CtxId) : State :=
  let f (c : Core) : Core :=
    { c with chans := c.chans.map fun h => if h.owner = some id then { refresh := h.refresh } else h }
  { s with core := f s.core, cores := s.cores.map f }

/-- Contexts that hold their REG bank (R305). -/
def Life.holdsBank : Life → Bool
  | .resident | .dormant | .saving | .retiring => true
  | _ => false

/-- Whether a region keeps its run of semaphores on a core: a context of it is there, or a saved image reserves it (R24,
R306). -/
def State.keepsGrant (s : State) (core : BitVec 11) (g : Grant) : Bool :=
  s.allCtxs.any fun c => c.id.rid = g.rid &&
    ((c.sch.life.holdsBank && c.core = core) || (g.reserved && c.sch.image && c.sch.lastCore = some core))

/-- Grants that end, and with them the signal of a pool change of their region (R247, R306). -/
def Core.dropGrants (c : Core) (keep : Grant → Bool) : Core :=
  let gone := c.grants.filter fun g => !keep g
  let mute (ch : PoolChange) : PoolChange :=
    if gone.any fun g => g.rid = ch.ctx.rid then { ch with w := { ch.w with se := 0 } } else ch
  { c with grants := c.grants.filter keep, pool := { c.pool with change := c.pool.change.map mute } }

def State.sweepGrants (s : State) : State :=
  let f (c : Core) : Core := c.dropGrants (s.keepsGrant c.num)
  { s with core := f s.core, cores := s.cores.map f }

/-- What the retirement of contexts frees: their channels (R264) and their regions' grants. -/
def State.freeAllRetired (s : State) : State :=
  (s.allCtxs.filter fun c => c.sch.life = .retired && c.es.held ≠ 0).foldl
    (fun s c => (s.freeChannels c.id).mapCtx (fun x => x.id = c.id) fun x => { x with es := { x.es with held := 0 } }) s
    |>.sweepGrants

/-- A region is stopped (R320): its contexts, and the region takes the completion code it will end with (R304). -/
def State.stopRegion (s : State) (rid : BitVec 32) (res : BitVec 8) : State :=
  let dormant := s.allCtxs.filter fun c => c.id.rid = rid && c.sch.life = .dormant
  let s := dormant.foldl (fun s c => s.quitWatch c.id) s
  let landed := s.allCtxs.filter fun c => c.id.rid = rid && c.sch.life = .saving
  let s := landed.foldl (fun s c => s.raiseSave c.id .stop) s
  let s := s.mapCtx (fun c => c.id.rid = rid) Ctx.stop
  let s := dormant.foldl (fun s c => s.claimSave c.id c.core.toNat) s
  let marked := replaceIf (fun r => r.rid = rid && r.stopping.isNone) (fun r => { r with stopping := some res }) s.regions
  let s := { s with regions := marked }
  s.freeAllRetired

/-- Event 3, the domain notification (R320, R346). -/
def domainEvent (rid : BitVec 32) (fpol : BitVec 2) : HostEvent :=
  (3, zext rid, BitVec.ofNat 64 (fpol.toNat * 2 ^ 56), 0)

/-- The holding record of a context that a later record holds before an accepted disposition has taken effect: a RETRY of it
goes on as that disposition said (R318, R319; log entry 87). -/
def Sched.nextHold (x : Sched) (h : HoldRec) : HoldRec :=
  match x.disp, x.hold with
  | some (op, a), some o =>
    if op = 2 then
      { addr := h.addr, prec := true, ac := true, pt := false, rt := false, ba := h.ba, tgt := 0x2000000000000000 + a,
        diverted := true, key := h.key }
    else { o with addr := h.addr, key := h.key }
  | _, _ => h

/-- A non-precise fault under FPOL 0 takes its context by its state (R318); `h` is its record where written. -/
def State.stopOne (s : State) (id : CtxId) (h : Option HoldRec) : State :=
  match s.ctx? id with
  | none => s
  | some c =>
    let put (f : Ctx → Ctx) : State := s.mapCtx (fun x => x.id = id) f
    let first (x : Ctx) : Option HoldRec := if x.sch.hold.isSome then x.sch.hold else h
    match c.sch.life with
    | .resident => put fun x => { x with sch := { x.sch with stopAt := some (x.sch.stopAt.getD .held), hold := first x } }
    | .dormant => (put fun x => { x with sch := { x.sch with hold := first x } }).startSave id .stop .held
    | .saved =>
      put fun x =>
        { x with sch := { x.sch with life := .held, hold := if h.isSome then h.map x.sch.nextHold else x.sch.hold,
                                     disp := if h.isSome then none else x.sch.disp } }
    | .saving =>
      put fun x =>
        { x with sch := { x.sch with saveEnd := if x.sch.saveEnd = .saved then .held else x.sch.saveEnd,
                                     hold := first x } }
    | _ => s

/-- The fault domain of a region acts on a fault that reaches it under FPOL 1 to 3 (R320). A 0x1A record that the launcher's
ring does not take stops the launching context as a fault that reaches its domain (R317). The manual names no slot and no bundle for
the record; both are 0 (log entry 116). `n` bounds the ancestors. -/
def State.domainStopN : Nat → State → Region → BitVec 8 → State
  | 0, s, _, _ => s
  | n + 1, s, r, res =>
    match r.dom.fpol.toNat with
    | 1 => s.stopRegion r.rid res
    | 2 =>
      let s := s.stopRegion r.rid res
      match r.parent with
      | none => s.post (domainEvent r.rid 2)
      | some p =>
        let gone (c : Ctx) : Bool := c.sch.life = .retired || c.sch.life = .none
        let to_ := match r.launcher.bind s.ctx? with
          | some c => if gone c then { rid := p, num := 0 } else c.id
          | none => { rid := p, num := 0 }
        let w := s.writeRec to_ false { cause := 0x1A, slot := 0, prec := false, detail := r.rid.toNat, ba := 0 }
        match w.1, w.2.region? to_.rid with
        | .full, some g => if g.dom.fpol = 0 then w.2.stopOne to_ none else State.domainStopN n w.2 g 0x10
        | _, _ => w.2
    | 3 =>
      let hit (q : Region) : Bool :=
        q.dom.fdom = r.dom.fdom && (r.dom.fdom ≠ 0 || q.dom.own = r.dom.own)
      let s := (s.regions.filter hit).foldl (fun s q => s.stopRegion q.rid (if q.rid = r.rid then res else 0x10)) s
      s.post (domainEvent r.rid 3)
    | _ => s

def State.domainStop (s : State) (r : Region) (res : BitVec 8) : State := s.domainStopN (s.regions.length + 1) r res

/-- Whether a fault reaches the domain (R315). -/
def reaches (cause detail : Nat) : Bool :=
  match cause with
  | 0x09 => detail ≠ 0
  | 0x14 | 0x18 | 0x19 | 0x1A => false
  | _ => true

/-- What a context's region does where a fault reaches its domain (R318, R320). -/
def State.reachDomain (s : State) (id : CtxId) (h : Option HoldRec) : State :=
  match s.region? id.rid with
  | none => s
  | some g => if g.dom.fpol = 0 then s.stopOne id h else s.domainStop g 0x10

/-- A non-precise record for a context (R195, R250, R317): written, on its way or pending, and the fault domain acts. -/
def State.imprecise (s : State) (id : CtxId) (r : Rec) : State :=
  let w := s.writeRec id (reaches r.cause r.detail) r
  match w.1 with
  | .at_ a k =>
    if reaches r.cause r.detail then
      w.2.reachDomain id
        (some { addr := a, prec := false, ac := false, pt := false, rt := false, ba := r.ba, tgt := r.tgt, key := k })
    else w.2
  | .later => if reaches r.cause r.detail then w.2.reachDomain id none else w.2
  | .full => w.2.reachDomain id none

/-! ### Taking a trap (R10, R51, R314) -/

/-- The holding record that a record of a precise trap makes (R318). -/
def Trapped.hold (x : Trapped) (a : W64) (k : Nat) : HoldRec :=
  { addr := a, prec := true, ac := x.t.ac, pt := x.xfer.isSome, rt := (x.xfer.map (·.rot)).getD false, ba := x.ba,
    tgt := (x.xfer.map (·.tgt)).getD 0, key := k }

/-- The record of a precise trap, with the transfer that is pending (R114, R316). -/
def Trapped.record (x : Trapped) (sres : BitVec 3) : Rec :=
  { cause := x.t.cause, slot := x.t.slot, sres := sres, prec := true, pt := x.xfer.isSome,
    rt := (x.xfer.map (·.rot)).getD false, ac := x.t.ac, detail := x.t.detail, ba := x.ba, faddr := x.t.faddr,
    tgt := (x.xfer.map (·.tgt)).getD 0, lmask := x.t.lmask }

/-- The trap of the context acted on is entered (R314) once its results have landed and what its record releases has
performed: the record is written, the context is saved and then held by it, and the fault domain acts. -/
def State.enterTrap (s : State) : State :=
  match s.ctx.q.trapped with
  | none => s
  | some x =>
    if s.ctx.sch.outRecs ≠ [] || !s.recReady s.ctx then s
    else
      let id := s.ctx.id
      let e := s.ctx.sch.stopAt.getD .held
      let s := (s.modSeq fun q => { q with trapped := none }).startSave id .trapEntry e
      let w := s.ringRec s.ctx (recBytes s.ctx s.time.now (x.record s.ctx.c.sres))
      let h : Option HoldRec := match w.1 with
        | .at_ a k => some (x.hold a k)
        | _ => none
      let lost := h.isNone && s.ctx.sch.pendRec.isSome
      let s := w.2.mapCtx (fun c => c.id = id) fun c =>
        if lost then c else { c with sch := { c.sch with hold := h, pendHolds := h.isNone || c.sch.pendHolds } }
      match s.region? id.rid with
      | some g => if (reaches x.t.cause x.t.detail || h.isNone) && g.dom.fpol ≠ 0 then s.domainStop g 0x10 else s
      | none => s

/-- What an EXIT or a DORM that the bundle in execution has committed will do when the bundle commits (R128, R129). -/
def Iss.parting (i : Iss) (was : Option (W64 × Bool)) : Option (W64 × Bool) :=
  if i.exiting then some (i.ba, true) else if i.dorming then some (i.ba, false) else was

/-- A trap stops its context (R314): PC stays at the bundle, and SRES names the slot. The slots that have committed keep their
effects; the trapping slot has none. The trap is entered at once, or when results have landed. -/
def State.takeTrap (s : State) (t : Trap) : State :=
  let s := match t.sres with
    | some n => s.modCtl fun c => { c with sres := BitVec.ofNat 3 n }
    | none => s
  let x : Trapped := { t := t, ba := s.iss.ba, xfer := s.iss.xfer }
  ((s.modSeq fun q =>
    { q with reent := none, trapped := some x, parting := s.iss.parting q.parting }).writeBackReach s.ctx.core.toNat 3).enterTrap

/-- The slot in execution traps (R10). -/
def State.trap (s : State) (cause : Nat) (detail : Nat := 0) (lmask : Nat := 0) (faddr : W64 := 0) : Out :=
  .next (s.takeTrap { cause := cause, slot := s.iss.slot, sres := some s.iss.slot, detail := detail, lmask := lmask,
                      faddr := faddr })

/-! ### Returning from a trap (R27, R131, R319) -/

/-- The re-entry of a bundle at an address, with the transfer that is pending after it: by TRET or by an accepted RETRY. The
preparations are discarded (R119). -/
def Ctx.reenter (c : Ctx) (ra : W64) (p : Option Xfer) : Ctx :=
  { c with q := { c.q with pc := ra, reent := some p, cold := Vector.replicate 8 true } }

/-- The rotation of a back-branching BLC (R17). -/
def Ctl.rotate (c : Ctl) : Ctl := { c with vrb := c.vrb - 1, prb := c.prb - 1 }

/-- Trap causes (R315). -/
def cIllegalBundle : Nat := 0x01
def cIllegalInstr : Nat := 0x02
def cIllegalOperand : Nat := 0x03
def cPoison : Nat := 0x04
def cMatrixNotHeld : Nat := 0x05
def cFetch : Nat := 0x06
def cAddress : Nat := 0x07
def cRemote : Nat := 0x0B
def cRemoteStore : Nat := 0x0C
def cCopy : Nat := 0x0D
def cLoopOver : Nat := 0x0E
def cLoopUnder : Nat := 0x0F
def cLoopStructure : Nat := 0x10
def cTakeTable : Nat := 0x11
def cSemRange : Nat := 0x12
def cReserved : Nat := 0x13
def cGeometry : Nat := 0x14
def cSeamOwner : Nat := 0x15
def cSeamSequence : Nat := 0x16
def cSeamTiming : Nat := 0x17
def cSeamGuard : Nat := 0x18
def cSoftware : Nat := 0x19

end Sys2Proof.Machine
end

