-- ==== Sys2Proof/Machine/Operands.lean ====
section
/-!
DEFINITION. Operand forms: scalar and floating operands (R100, R106), vector elements with guard, renaming and poison
(R133 to R136), effective addresses (R63, R181 to R184), the checks and the performance of memory accesses (R176 to R178,
R278, R283 to R287), fetching (R21, R45, R46, R271) and the destinations whose outstanding results hold a slot (R11).
-/

namespace Sys2Proof.Machine

/-! ### Scalar operands -/

/-- A scalar result: poisoned if a source is (R100). -/
def State.scal (s : State) (d : R6) (srcs : List R6) (lat : Nat) (v : W64) : Out :=
  .next (s.wrS d v (srcs.any s.psS) lat)

/-- A floating scalar result of width w, in the low bits of sd, with its flags (R100, R106). -/
def State.fpScal (s : State) (d : R6) (srcs : List R6) (w lat : Nat) (r : Nat × BitVec 5) : Out :=
  .next ((s.wrS d (BitVec.ofNat 64 (r.1 % 2 ^ w)) (srcs.any s.psS) lat).raise r.2 lat)

/-- A floating source of width w (R100). -/
def State.rdF (s : State) (n : R6) (w : Nat) : Nat := (s.rdS n).toNat % 2 ^ w

/-- The truth value of a compare as a register value. -/
def boolW (b : Bool) : W64 := if b then 1 else 0

/-! ### Vector operands -/

/-- Numbers of the elements of a type. -/
def tyRange (t : BitVec 4) : List Nat := List.range (tyCount t)

/-- The guard of an element (R135). -/
def State.guard (s : State) (pg : R5) (t : BitVec 4) (i : Nat) : Bool := act (s.rdP pg) (tyWidth t) i

/-- Element i of type t of a vector register, as a pattern. -/
def State.rdE (s : State) (n : R6) (t : BitVec 4) (i : Nat) : Nat := elem (tyWidth t) (s.rdV n).toNat i

/-- Whether element i of type t of a vector register lies in a poisoned lane group. -/
def State.psE (s : State) (n : R6) (t : BitVec 4) (i : Nat) : Bool := inGroup (s.psV n) (tyWidth t) i

/-- A value of a 64-bit lane group j from facts about the elements of width w that it holds. -/
def groupAny (w j : Nat) (p : Nat → Bool) : Bool :=
  if w ≤ 64 then (List.range (64 / w)).any fun k => p (j * (64 / w) + k) else false

/-- The lane-group mask of the elements of width w that a test picks. -/
def groupMask (w : Nat) (p : Nat → Bool) : W32 :=
  BitVec.ofNat 32 (packEl 1 ((List.range 32).map fun j => if groupAny w j p then 1 else 0))

/-- What an element-wise instruction does to element i: `some (v, poisoned)` writes it, `none` leaves it unchanged. -/
abbrev EWrite := Nat → Option (Nat × Bool)

/-- A vector register after an element-wise write at width w (R135, R136): merged with its present contents. -/
def mergeV (w : Nat) (old : VWord) (oldP : W32) (f : EWrite) : VWord × W32 :=
  let n := 2048 / w
  let ws := (List.range n).map f
  let o := old.toNat
  let at_ (i : Nat) : Option (Nat × Bool) := (ws[i]?).join
  (BitVec.ofNat 2048 (packEl w ((List.range n).map fun i => match at_ i with
     | some x => x.1
     | none => elem w o i)),
   groupMask w (fun i => match at_ i with
     | some x => x.2
     | none => inGroup oldP w i))

/-- Writes a vector destination element-wise. -/
def State.wrE (s : State) (vd : R6) (w : Nat) (lat : Nat) (f : EWrite) : State :=
  let r := mergeV w (s.curV vd) (s.curVP vd) f
  s.wrV vd r.1 r.2 lat

/-- A predicate register after an element-wise write at width w: each element fills its byte group. -/
def mergeP (w : Nat) (old : PWord) (f : Nat → Option Bool) : PWord :=
  let k := w / 8
  let n := 2048 / w
  BitVec.ofNat 256 (packEl k ((List.range n).map fun i => match f i with
    | some b => if b then 2 ^ k - 1 else 0
    | none => elem k old.toNat i))

/-! ### Effective addresses (R63, R181 to R184) -/

/-- An active element of an access: its number and its address. A scalar access is element 0. -/
structure Elem where
  i : Nat
  addr : W64
deriving DecidableEq, Repr

def State.lsAddr (s : State) (o : LS) : W64 := s.rdS o.sa + (s.rdS o.sx <<< o.sh.toNat) + sext o.off
def State.lvBase (s : State) (o : LV) : W64 := s.rdS o.sa + s.rdS o.sx + sext o.off
def State.lvsBase (s : State) (o : LV) : W64 := s.rdS o.sa + sext o.off

def State.actives (s : State) (pg : R5) (t : BitVec 4) : List Nat := (tyRange t).filter (s.guard pg t)

/-- Elements of VLD and VST. -/
def State.lvElems (s : State) (o : LV) : List Elem :=
  (s.actives o.pg o.t).map fun i => { i := i, addr := s.lvBase o + BitVec.ofNat 64 (i * (tyWidth o.t / 8)) }
/-- Elements of VLDS and VSTS. -/
def State.lvsElems (s : State) (o : LV) : List Elem :=
  (s.actives o.pg o.t).map fun i => { i := i, addr := s.lvsBase o + BitVec.ofNat 64 i * s.rdS o.sx }
/-- Elements of VGTH and VSCT. -/
def State.lgElems (s : State) (o : LG) : List Elem :=
  (s.actives o.pg o.t).map fun i =>
    { i := i, addr := s.rdS o.sa + BitVec.ofInt 64 (tyVal o.t (s.rdE o.vb o.t i) * (tyWidth o.t / 8 : Nat)) }

/-! ### The checks of R176 -/

/-- Number and identity of the core and context acted on. -/
def State.me (s : State) : Nat := s.core.num.toNat
def State.rid (s : State) : BitVec 32 := s.ctx.id.rid

/-- What the checks found: the first failing check in their order, and the elements that fail it. -/
structure Fail where
  why : Failed
  elems : List Elem
deriving DecidableEq, Repr

/-- The check of one element; `misaligned` says that the form's own alignment rule is broken. -/
def State.checkElem (s : State) (acc : Access) (n : Nat) (misaligned : Bool) (e : Elem) : Except Failed Place :=
  match s.resolve s.me s.rid e.addr n acc with
  | .ok p => if misaligned then .error fAlign else .ok p
  | .error f => if misaligned && 1 < f.rank then .error fAlign else .error f

def State.checkElems (s : State) (acc : Access) (n : Nat) (misaligned : Bool) (es : List Elem) :
    Except Fail (List (Elem × Place)) :=
  let rs := es.map fun e => (e, s.checkElem acc n misaligned e)
  let bad := rs.filterMap fun r => match r.2 with
    | .error f => some (r.1, f)
    | .ok _ => none
  match bad with
  | [] => .ok (rs.filterMap fun r => match r.2 with
      | .ok p => some (r.1, p)
      | .error _ => none)
  | b :: bs =>
    let first := bs.foldl (fun m x => if x.2.rank < m.2.rank then x else m) b
    .error { why := first.2, elems := ((b :: bs).filter fun x => x.2.rank = first.2.rank).map (·.1) }

/-- The lane groups of elements of width w, as LMASK (R315). -/
def laneMask (w : Nat) (es : List Elem) : Nat := (groupMask w fun i => es.any fun e => e.i = i).toNat

/-- Whether the checks of an access come only after a walk that a held channel holds (R190, R269): one of its walks is held, and
nothing fails before translation (R176). -/
def State.walkHeld (s : State) (es : List Elem) (r : Except Fail (List (Elem × Place))) : Bool :=
  (match r with
   | .error f => 3 ≤ f.why.rank
   | .ok _ => true) && es.any fun e => s.heldWalk s.me s.rid e.addr

/-- The trap of a failed check (R176, R182). `w` is zero for a scalar access, which marks no lane. -/
def State.trapFail (s : State) (w : Nat) (f : Fail) : Out :=
  s.trap f.why.cause f.why.detail (if w = 0 then 0 else laneMask w f.elems) ((f.elems.head?.map (·.addr)).getD 0)

/-! ### Reading -/

/-- The answer of a read: a value and whether it comes from uncorrectable data; a line another device has to be asked for;
or the home's refusal (R176, R333). -/
inductive Got where
  | val (x : Nat) (bad : Bool)
  | ask (line : Nat)
  | refused
deriving DecidableEq, Repr

/-- The line at a home as this context can have it. -/
inductive HomeView where
  | line (d : BitVec 512) (bad : BitVec 64)
  | ask
  | refused

def State.homeView (s : State) (k : Nat) : HomeView :=
  match s.homeLine k with
  | some x => .line x.1 x.2
  | none =>
    if devOf (BitVec.ofNat 64 k) = s.mgmt.devid then .refused
    else match s.ctx.remote with
      | some r => if r.failed then .refused else .ask
      | none => .ask

/-- A line of the cache role as an access of the context meets it: one that waits for another device has met it when it issued
(R278). -/
def State.lineSeen (s : State) (l : Nat) : Option Line :=
  match s.ctx.remote with
  | some r => r.cache.find? fun x => x.key = l
  | none => s.core.findLine l

/-- Bytes of a pool, and whether they are uncorrectable, as an access of the context meets them (R283). -/
def State.poolSeen (s : State) (k n : Nat) : Nat × Bool :=
  match s.ctx.remote.bind fun r => r.pool.find? fun x => x.1 = k with
  | some x => x.2
  | none => (leNat (s.peek k n), s.isBad k n)

/-- What comes before an access to a place (R279, R289): other names of the line, and the line itself for an access past the
cache role, go home; the context's own stores to it that are on their way perform where nothing holds them. -/
def State.approach (s : State) (p : Place) : State :=
  match p with
  | .pool _ k => s.settle s.me s.ctx.id (lineOf k)
  | .far _ => s
  | .home k cached =>
    let s := s.unalias s.me (lineOf k)
    (if cached then s else s.evict s.me (lineOf k)).settle s.me s.ctx.id (lineOf k)

/-- What comes before accesses to several places. -/
def State.approachAll (s : State) (ps : List (Elem × Place)) : State := ps.foldl (fun s p => s.approach p.2) s

/-- A read of n bytes at a place, inside one line, with the state it leaves. Where the cache role does not hold all of them, the
home gives every byte that is not dirty (R278, R281), and a line of this device's homes joins the cache role (log entry 10). -/
def State.readPlace (s : State) (p : Place) (a : W64) (n : Nat) : Got × State :=
  match p with
  | .pool _ k => (.val (s.poolSeen k n).1 (s.poolSeen k n).2, s)
  | .far _ => (.refused, s)
  | .home k cached =>
    let l := lineOf k
    let m := maskOf (k % 64) n
    let cl := if cached then s.lineSeen l else none
    let held := (cl.map (·.held)).getD 0
    let mine := (cl.map (·.data)).getD 0
    if m &&& ~~~held = 0 then (.val (bits mine.toNat (8 * (k % 64 + n) - 1) (8 * (k % 64))) false, s)
    else
      match s.homeView l with
      | .ask => (.ask l, s)
      | .refused => (.refused, s)
      | .line d bad =>
        let own := (cl.map (·.dirty)).getD 0
        let d' := mergeLine d mine own
        let x := bits d'.toNat (8 * (k % 64 + n) - 1) (8 * (k % 64))
        let s := if cached && s.ctx.remote.isNone then
            s.cachePut s.me s.ctx.id (a - BitVec.ofNat 64 (k % 64)) l d (~~~own &&& ~~~bad) false none
          else s
        (.val x (bad &&& m &&& ~~~own ≠ 0), s)

/-- Whether a read at a place takes bytes from its home, and so meets the home's record (R290). -/
def State.readsHome (s : State) (p : Place) (n : Nat) : Bool :=
  match p with
  | .pool _ _ => true
  | .far _ => false
  | .home k cached =>
    !cached || maskOf (k % 64) n &&& ~~~((s.lineSeen (lineOf k)).map (·.held)).getD 0 ≠ 0

/-- The key by which a home keeps its record of a line: for space 0x4 on the own device, the seam's; another device keeps its own. -/
def State.recordKey (s : State) (p : Place) : Nat :=
  match p with
  | .pool _ k => lineOf k
  | .far k => lineOf k
  | .home k _ => lineOf (s.homeOf k)

/-- Stores of the context to the bytes of a place, and for a read that takes the line from its home write-backs of the core too,
are still on their way (R283, R289); or the line stands in a leaving bank (R248). -/
def State.lineBusy (s : State) (p : Place) (n : Nat) : Bool :=
  let under (k : Nat) (wb : Bool) : Bool := (s.underway s.me s.ctx.id (lineOf k)).any fun f => wb || !f.wb
  match p with
  | .pool _ k => under k false
  | .far _ => false
  | .home k _ => under k (s.readsHome p n) || s.leavingLine s.me (lineOf k)

/-- Whether a read is held (R190, R248, R289), in the state that its approach leaves: by its home, by a bank in relocation, by
stores that have not performed. -/
def State.heldRead (s : State) (p : Place) (n : Nat) : Bool :=
  s.lineBusy p n ||
    (match p with
     | .home k _ => s.readsHome p n && s.stands k
     | .pool _ k => s.heldPool k
     | .far _ => false)

/-- Whether a store is held at once (R248): in a bank in relocation of the own core, or by a line in a leaving bank. -/
def State.heldWrite (s : State) (p : Place) : Bool :=
  match p with
  | .pool _ k => s.heldPool k
  | .home k _ => s.leavingLine s.me (lineOf k)
  | .far _ => false

/-- A translation that an access uses stays held (R272, R274). -/
def State.noteAddr (s : State) (a : W64) : State :=
  match space a with
  | 2 => s.noteTrans s.me s.rid a.toNat
  | 3 => s.noteHost (s.pasidOf s.rid) (bits a.toNat 56 0 / 4096)
  | _ => s

def State.noteElems (s : State) (es : List Elem) : State := es.foldl (fun s e => s.noteAddr e.addr) s

/-- Reads of elements in their order; stops at the first that cannot be had yet. -/
def State.readElems (n : Nat) : List (Elem × Place) → State → (Except Got (List (Nat × Nat × Bool))) × State
  | [], s => (.ok [], s)
  | (e, p) :: rest, s =>
    let r := s.readPlace p e.addr n
    match r.1 with
    | .val x bad =>
      let q := State.readElems n rest r.2
      (q.1.map ((e.i, x, bad) :: ·), q.2)
    | g => (.error g, r.2)

/-- What a request keeps of the core (R278, R283): the lines and the pool bytes of its access as of its issue. -/
def State.linesOf (s : State) (ps : List (Elem × Place)) : List Line :=
  s.core.cache.filter fun l => ps.any fun p => match p.2 with
    | .home k true => lineOf k = l.key
    | _ => false
def State.poolOf (s : State) (n : Nat) (ps : List (Elem × Place)) : List (Nat × Nat × Bool) :=
  ps.filterMap fun p => match p.2 with
    | .pool _ k => some (k, s.poolSeen k n)
    | _ => none

/-- A request for a line goes to the device that is its home, and the access waits for the answer (R331). -/
def State.askLine (s : State) (i : Instr) (line : Nat) (n : Nat) (ps : List (Elem × Place)) : State :=
  let q := s.send (devOf (BitVec.ofNat 64 line)) (.read (BitVec.ofNat 64 line) 64)
  let r : Remote := match s.ctx.remote with
    | some r => { r with seq := q.1, addr := BitVec.ofNat 64 line }
    | none =>
      { seq := q.1, instr := i, iss := s.iss, regs := s.pre.r, ctl := s.pre.c, addr := BitVec.ofNat 64 line,
        cache := s.linesOf ps, pool := s.poolOf n ps }
  q.2.modCtx fun c => { c with remote := some r }

/-- An S7 read: checks, held channels, reads. `done` gets the values (element, pattern, uncorrectable), `fail` what fails. -/
def State.loadWith (s : State) (i : Instr) (n : Nat) (misaligned : Bool) (es : List Elem)
    (done : State → List (Nat × Nat × Bool) → State) (fail : State → Fail → Out) : Out :=
  let found := s.checkElems Access.load n misaligned es
  if s.waits (s.walkHeld es found) then .next s.hold
  else match found with
  | .error f => fail s f
  | .ok ps =>
    let s := s.approachAll ps
    if s.waits (ps.any fun p => s.heldRead p.2 n) then .next s.hold
    else
      let r := State.readElems n ps (s.noteElems es)
      match r.1 with
      | .ok vs => .next (done (r.2.modCtx fun c => { c with remote := none }) vs)
      | .error (.ask l) => .next (s.askLine i l n ps)
      | .error _ =>
        let bad := ps.filter fun p => match (s.readPlace p.2 p.1.addr n).1 with
          | .refused => true
          | _ => false
        fail (s.modCtx fun c => { c with remote := none }) { why := fRemote, elems := bad.map (·.1) }

/-- A read whose failure traps. -/
def State.load (s : State) (i : Instr) (w n : Nat) (misaligned : Bool) (es : List Elem)
    (done : State → List (Nat × Nat × Bool) → State) : Out :=
  s.loadWith i n misaligned es done fun s f => s.trapFail w f

/-- The read of an access that waits for another device is done: its value is there (R331). -/
def State.clearRemote (s : State) : State := s.modCtx fun c => { c with remote := none }

/-- Latency of a load from a place (R180): fixed for the scratchpad and a hit, typical elsewhere. -/
def State.loadLat (s : State) (p : Place) (n : Nat) (vec : Bool) : Nat :=
  match p with
  | .pool c _ => if c = s.me then (if vec then 6 else 4) else if vec then 34 else 30
  | .far _ => 30
  | .home k _ =>
    let extra := if vec then 4 else 0
    if !s.readsHome p n then (if vec then 10 else 8)
    else if k / 2 ^ 60 = 3 then 900 + extra
    else if k % 2 ^ 60 / 2 ^ 29 = s.me then 110 + extra
    else 260 + extra

/-- The latency of an access to several places: the longest. -/
def State.latOf (s : State) (es : List Elem) (n : Nat) (vec : Bool) : Nat :=
  es.foldl (fun m e => match s.resolve s.me s.rid e.addr n Access.load with
    | .ok p => max m (s.loadLat p n vec)
    | .error _ => m) (if vec then 6 else 4)

/-! ### Writing -/

/-- A store sets out for its home past the cache role or to another core, and stays in flight (R284). Older dirty bytes of the
core at the line set out before it (R279), and a packet for another device after what is on its way there (R334); where its channel is held or serves others first, it stands there (R265). -/
def State.fly (s : State) (a : W64) (k : Nat) (n x : Nat) (mark : Option Mark) : State :=
  let s := (s.unalias s.me (lineOf k)).evict s.me (lineOf k)
  let d := BitVec.ofNat 512 (x % 2 ^ (8 * n) * 2 ^ (8 * (k % 64)))
  let sent := if s.isAway k && s.underway s.me s.ctx.id (lineOf k) = [] then
      let q := s.send (devOf (BitVec.ofNat 64 k)) (.store (BitVec.ofNat 64 (lineOf k)) d (maskOf (k % 64) n))
      (some q.1, q.2)
    else (none, s)
  let q := sent.2.freshSeq
  let f : Flight :=
    { seq := q.1, ctx := s.ctx.id, wb := false, ba := s.iss.ba, addr := a, key := lineOf k, data := d,
      mask := maskOf (k % 64) n, sent := sent.1, mark := mark, group := s.iss.flown.getD q.1,
      stood := !s.isAway k && s.heldHome k q.1 }
  let s := q.2.modCore fun c => { c with flight := c.flight ++ [f] }
  { s with iss := { s.iss with flown := some f.group } }

/-- A store of n bytes at a place, inside one line (R178, R278, R283, R284). -/
def State.writePlace (s : State) (p : Place) (a : W64) (n x : Nat) (mark : Option Mark) : State :=
  match p with
  | .pool _ k =>
    let s := s.poke k (toBytes n x)
    s.recordLine (lineOf k) mark
  | .far k => s.fly a k n x mark
  | .home k cached =>
    if cached then
      let d := BitVec.ofNat 512 (x % 2 ^ (8 * n) * 2 ^ (8 * (k % 64)))
      (s.unalias s.me (lineOf k)).cachePut s.me s.ctx.id (a - BitVec.ofNat 64 (k % 64)) (lineOf k) d (maskOf (k % 64) n) true mark
    else s.fly a k n x mark

/-- Stores of elements in their order, so that the highest element wins (R10). -/
def State.writeElems (n : Nat) (val : Nat → Nat) (ps : List (Elem × Place)) (s : State) : State :=
  ps.foldl (fun s p => s.writePlace p.2 p.1.addr n (val p.1.i) none) s

/-- An S7 store: checks, then the stores. -/
def State.store (s : State) (w n : Nat) (misaligned : Bool) (es : List Elem) (val : Nat → Nat) : Out :=
  let found := s.checkElems Access.store n misaligned es
  if s.waits (s.walkHeld es found) then .next s.hold
  else match found with
  | .error f => s.trapFail w f
  | .ok ps =>
    if s.waits (ps.any fun p => s.heldWrite p.2) then .next s.hold
    else .next (State.writeElems n val ps (s.noteElems es))

/-! ### Release and acquire (R285 to R287) -/

/-- An acquire at a scope drops clean bytes (R285). -/
def State.acquire (s : State) (sco : BitVec 2) : State := s.dropClean s.me sco

/-- The place of an address for a mark: whether a scope reaches its home (R285, R286). -/
def placeReached (sco : BitVec 2) (p : Place) : Bool :=
  match p with
  | .home k _ => inReach sco k
  | _ => true

/-- Whether something of a release is still on its way (R286): the context's bypassing stores to spaces 0x2 to 0x4, and
write-backs within the scope's reach. -/
def State.releasePending (s : State) (sco : BitVec 2) : Bool :=
  s.core.flight.any fun f =>
    if f.wb then inReach sco f.key else f.ctx = s.ctx.id && f.key / 2 ^ 60 ≠ 5

/-- The write-backs of a release begin (R286). -/
def State.beginRelease (s : State) (sco : BitVec 2) : State := s.writeBackReach s.me sco

/-- Bytes of a line leave the cache role, clean or dirty (R291). -/
def State.dropBytes (s : State) (core : Nat) (k : Nat) (mask : BitVec 64) : State :=
  let c := s.coreAt core
  s.putCore { c with cache :=
    (replaceIf (fun l => l.key = k)
      (fun l => { l with held := l.held &&& ~~~mask, dirty := l.dirty &&& ~~~mask, marks := unmark l.marks mask }) c.cache).filter fun l => l.held ≠ 0 }

/-! ### Fetching (R21, R45, R46, R271) -/

/-- Where the code bytes at an address are, or the detail of the fetch fault. -/
def State.fetchPlace (s : State) (a : W64) : Except Nat (Nat × Bool) :=
  if space a ≠ 2 || !spaceOk a then .error 0
  else
    match s.xlate s.me s.rid a.toNat with
    | .error d => .error d
    | .ok (pa, leaf) => if leafX leaf then .ok (seamKey pa, !leafNC leaf) else .error 0

/-- The code bytes of a line from an address on, as a load of the core would find them (log entry 13). -/
def State.fetchBytes (s : State) (k n : Nat) (cached : Bool) : List Byte :=
  let home := s.peek k n
  match if cached then s.core.findLine (lineOf k) else none with
  | none => home
  | some l =>
    (List.range n).map fun i =>
      if l.held.getLsbD (k % 64 + i) then lineByte l.data (k % 64 + i) else home.getD i 0

/-- The header at an address. -/
def State.fetchHeader (s : State) (a : W64) : Except Nat Nat :=
  match s.fetchPlace a with
  | .error d => .error d
  | .ok (k, c) => .ok (leNat (s.fetchBytes k 2 c))

/-- Whether the fetch of n code bytes is held: by a held channel (R190), its walk or the bytes where the cache role does not hold
them, or by their line in a leaving bank (R248). -/
def State.fetchHeld (s : State) (a : W64) (n : Nat) : Bool :=
  s.heldWalk s.me s.rid a ||
    (match s.fetchPlace a with
     | .ok (k, c) =>
       (s.stands k &&
         !(c && (s.core.findLine (lineOf k)).any fun l => maskOf (k % 64) n &&& ~~~l.held = 0)) ||
         (c && s.leavingLine s.me (lineOf k))
     | .error _ => false)

/-- What fetch finds at an address when it has passed the pads (R46): the bundle's address and header, a fault with its
address, the address at which the fetch is held, or nothing where the pads do not end. -/
inductive Found where
  | header (a : W64) (h : Nat)
  | fault (a : W64) (detail : Nat)
  | held (a : W64)
  | endless
deriving DecidableEq, Repr

def State.skipPads (s : State) : Nat → W64 → Found
  | 0, _ => .endless
  | fuel + 1, a =>
    if s.fetchHeld a 2 then .held a
    else match s.fetchHeader a with
    | .error d => .fault a d
    | .ok h => if h = 0 then s.skipPads fuel (a + 2) else .header a h

/-- The first bundle at or after an address; 2^47 headers make up the space. -/
def State.findBundle (s : State) (a : W64) : Found := s.skipPads (2 ^ 47) a

/-- The address that pads before the next bundle lead to (R46): a pad is never where a context stalls or is pre-empted. -/
def State.pastPads (s : State) (a : W64) : W64 :=
  match s.findBundle a with
  | .header b _ => b
  | .fault b _ => b
  | .held b => b
  | .endless => a

/-- The address that control can pass to (R21): even, in space 0x2. The PC reads 0x2000 in its bits [63:48]. -/
def goodTarget (a : W64) : Bool := space a = 2 && !a.getLsbD 0
def asPc (a : W64) : W64 := (a &&& 0x0000FFFFFFFFFFFE) ||| 0x2000000000000000

/-! ### Small reads of the machine itself: table words that an instruction of the context reads (R126) -/

/-- A doubleword as a load of the context would read it, through the cache role; none where such a load would fault. One that
memory marks uncorrectable gives its value and raises nothing (log entry 91). -/
def State.loadWord (s : State) (a : W64) : Option (Nat × State) :=
  match s.resolve s.me s.rid a 8 Access.load with
  | .error _ => none
  | .ok p =>
    let r := (s.approach p).readPlace p a 8
    match r.1 with
    | .val x _ => some (x, r.2)
    | _ => none

/-- Whether such a read is held (R190). -/
def State.wordHeld (s : State) (a : W64) : Bool :=
  match s.resolve s.me s.rid a 8 Access.load with
  | .ok p => (s.approach p).heldRead p 8 || s.heldWalk s.me s.rid a
  | .error _ => s.heldWalk s.me s.rid a

/-! ### The registers a slot reads (R11) -/

end Sys2Proof.Machine

namespace Sys2Proof

open Sys2Proof.Machine

/-- Scalar registers that an instruction reads. -/
def Instr.srcS : Instr → List R6
  | .add _ a b | .sub _ a b | .and _ a b | .or _ a b | .xor _ a b | .andn _ a b | .shl _ a b | .shr _ a b | .sar _ a b
  | .rol _ a b | .mul _ a b | .mulh _ a b | .mulhn _ a b | .div _ a b | .divn _ a b | .rem _ a b | .remn _ a b
  | .min _ a b | .max _ a b | .minn _ a b | .maxn _ a b | .cmpEq _ a b | .cmpNe _ a b | .cmpLt _ a b | .cmpGe _ a b
  | .cmpLtn _ a b | .cmpGen _ a b | .fadd _ a b _ _ | .fsub _ a b _ _ | .fmul _ a b _ _ | .fdiv _ a b _ _
  | .fmin _ a b _ | .fmax _ a b _ | .fcmpEq _ a b _ | .fcmpLt _ a b _ | .fcmpLe _ a b _ | .fcmpUn _ a b _
  | .pcmpEq _ a b | .pcmpNe _ a b | .pcmpLt _ a b | .pcmpGe _ a b | .pcmpLtn _ a b | .pcmpGen _ a b => [a, b]
  | .clz _ a | .popc _ a | .addImm _ a _ | .subImm _ a _ | .andImm _ a _ | .orImm _ a _ | .xorImm _ a _ | .andnImm _ a _
  | .shlImm _ a _ | .shrImm _ a _ | .sarImm _ a _ | .rolImm _ a _ | .mulImm _ a _ | .mulhImm _ a _ | .mulhnImm _ a _
  | .divImm _ a _ | .divnImm _ a _ | .remImm _ a _ | .remnImm _ a _ | .minImm _ a _ | .maxImm _ a _ | .minnImm _ a _
  | .maxnImm _ a _ | .cmpEqImm _ a _ | .cmpNeImm _ a _ | .cmpLtImm _ a _ | .cmpGeImm _ a _ | .cmpLtnImm _ a _
  | .cmpGenImm _ a _ | .fsqrt _ a _ _ | .cvtif _ a _ _ _ | .cvtfi _ a _ _ _ | .cvtff _ a _ _ _ | .movk a _ _
  | .pbrr _ a | .chk _ _ a | .loop a _ | .mtc a _ _ | .mtcRng a | .mtcTrpb a | .mtcTrpc a | .mtcFpf a | .mtcFerec a
  | .mtcStatus a | .twait a _ _ _ | .barWait a _ _ => [a]
  | .fmaF64 _ a b c | .fmaF32 _ a b c => [a, b, c]
  | .vaddS o | .vsubS o | .vaddsS o | .vsubsS o | .vmulS o | .vmulhS o | .vmadS o | .vminS o | .vmaxS o | .vandS o
  | .vorS o | .vxorS o | .vandnS o | .vshlS o | .vshrS o | .vfaddS o | .vfsubS o | .vfmulS o | .vfmaS o | .vfnmaS o
  | .vfdivS o | .vfminS o | .vfmaxS o | .vcmpS o | .vfcmpS o | .vbcst o => [o.vb]
  | .ldI8 o | .ldN8 o | .ldI16 o | .ldN16 o | .ldI32 o | .ldN32 o | .ldI64 o | .ldsI32 o | .ldsN32 o | .ldsI64 o
  | .ldaN32 o | .ldaI64 o | .clwb o | .clinv o | .clfl o | .waita o => [o.sa, o.sx]
  | .stN8 o | .stN16 o | .stN32 o | .stN64 o | .stlN32 o | .stlN64 o => [o.sd, o.sa, o.sx]
  | .aadd o | .aand o | .aor o | .axor o | .amin o | .amax o | .aswp o | .acas o => [o.sa, o.sb, o.sc]
  | .vld o | .vst o | .vlds o | .vsts o | .pld o | .pst o => [o.sa, o.sx]
  | .vgth o | .vsct o => [o.sa]
  | .sact o | .spre o | .sldx o => [o.sa, o.sb]
  | .sstx o => [o.sd, o.sa, o.sb]
  | _ => []

/-- Predicate registers that an instruction reads, before renaming. -/
def Instr.srcP : Instr → List R5
  | .pand _ a b | .por _ a b | .pxor _ a b | .pandn _ a b => [a, b]
  | .br _ p | .brn _ p | .call _ p | .chk _ p _ => [p]
  | .vadd o | .vsub o | .vadds o | .vsubs o | .vmul o | .vmulh o | .vmad o | .vmin o | .vmax o | .vabs o | .vneg o
  | .vand o | .vor o | .vxor o | .vandn o | .vshl o | .vshr o | .vpopc o | .vclz o | .vmov o | .vaddS o | .vsubS o
  | .vaddsS o | .vsubsS o | .vmulS o | .vmulhS o | .vmadS o | .vminS o | .vmaxS o | .vandS o | .vorS o | .vxorS o
  | .vandnS o | .vshlS o | .vshrS o | .vfadd o | .vfsub o | .vfmul o | .vfma o | .vfnma o | .vfdiv o | .vfsqrt o
  | .vfmin o | .vfmax o | .vfaddS o | .vfsubS o | .vfmulS o | .vfmaS o | .vfnmaS o | .vfdivS o | .vfminS o | .vfmaxS o
  | .vfrcp o | .vfrsq o | .vfexp2 o | .vflog2 o | .vcmp o | .vfcmp o | .vcmpS o | .vfcmpS o | .vsel o | .vbcst o
  | .vcvt o | .vqnt o | .vqntScale o | .vdqnt o | .vxch o | .vperm o | .vcomp o | .vexp o | .vsld o | .vrsum o
  | .vrmax o | .vrmin o | .vrfsum o | .vrfmax o | .gset o | .gidx o => [o.pg]
  | .gor2 o | .gor3 o | .ginc o | .gins o | .gseg o => [o.pg]
  | .vld o | .vst o | .vlds o | .vsts o => [o.pg]
  | .pst o => [(o.vd.setWidth 5)]
  | .vgth o | .vsct o => [o.pg]
  | _ => []

/-- Point slots that an instruction reads. -/
def Instr.srcG : Instr → List R3
  | .gor2 o => [o.ga, o.gb, o.gc]
  | .gor3 o | .ginc o | .gseg o => [o.ga, o.gb, o.gc, o.ge]
  | .gins o => [o.ga, o.gb, o.gc, o.ge, o.gh]
  | _ => []

/-- Whether an instruction waits for the context's geometry instruction (R174). -/
def Instr.waitsGeo : Instr → Bool
  | .mfc _ sel spc => spc = 0 && (sel = 0x00 || sel = 0x09)
  | _ => false

/-- Whether an instruction waits for every flag of earlier bundles to land (R97, R156). -/
def Instr.waitsFlags : Instr → Bool
  | .mfc _ sel spc => spc = 0 && (sel = 0x01 || sel = 0x02)
  | .mtcFpf _ | .mtcFerec _ => true
  | _ => false

/-- The scalars that a slot reads; a matrix or engine row reads those its format names (R196). -/
def Slot.srcS : Slot → List R6
  | .op i => i.srcS
  | .mat m o => if m = .mrdz || m = .mrdb then [] else [o.sd, o.sa]
  | .eng e o => if e = .pmap || e = .pmq || e = .launch then [o.sa, o.sb, o.sc] else [o.sd, o.sa, o.sb, o.sc]

/-- The destinations that a slot reads, with the names of the context renamed (R16). -/
def Slot.reads (c : Ctl) (x : Slot) : List Dest :=
  let i : List Dest := match x with
    | .op i => (i.srcP.map fun p => Dest.p (physP c p)) ++ (i.srcG.map fun g => Dest.g g.toNat) ++
        (if i.waitsGeo then [Dest.geo] else [])
    | _ => []
  (x.srcS.map fun n => Dest.s n.toNat) ++ (x.vecSources.map fun v => Dest.v (physV c v.2)) ++ i

/-- Whether an outstanding result or flag holds a slot (R11, R97, R156, R174). -/
def Slot.interlocked (c : Ctx) (cycle : Nat) (x : Slot) : Bool :=
  let rs := x.reads c.c
  (c.board.any fun p => rs.contains p.dst && (match p.due with
     | some d => cycle < d
     | none => true)) ||
    (match x with
     | .op i => i.waitsFlags && c.floating cycle
     | _ => false)

end Sys2Proof
end

