-- ==== Sys2Proof/Machine/Transfer.lean ====
section
/-!
DEFINITION. What the S5 and S6 classes share: the wait half of a block and the check of the holder (R20, R53, R60), the
addresses of engine reads and writes (R177, R195, R196), their bytes (R198, R282, R291), and the records of failed
commands (R195, R316).
-/

namespace Sys2Proof.Machine

/-! ### The block (R24, R60) -/

/-- Whether the semaphores that a block names lie in the context's grant (R24). -/
def State.semsOk (s : State) (w : WaitSig) : Bool :=
  (w.we = 0 || s.core.granted s.rid w.ws.toNat) && (w.se = 0 || s.core.granted s.rid w.ss.toNat)

/-- Whether a block's wait is satisfied. -/
def State.waitOk (s : State) (w : WaitSig) : Bool := w.we = 0 || semReady (vget s.core.k w.ws.toNat) w.wt

/-- The head of every S5 and S6 meaning: a bundle whose readiness has been settled runs it; alone, it first meets the check
of the semaphore range and its wait. -/
def State.s56 (s : State) (w : WaitSig) (run : State → Out) : Out :=
  if s.iss.ready then run s
  else if !s.semsOk w then .next (s.takeTrap { cause := cSemRange, slot := s.iss.slot, sres := none })
  else if !s.waitOk w then .next s.hold
  else run s

/-- The S5 class asks for the matrix holder first (R20). -/
def State.s5 (s : State) (w : WaitSig) (run : State → Out) : Out :=
  s.s56 w fun s => if s.pre.c.mhold then run s else s.trap cMatrixNotHeld

/-- Both signal points of a command at once. -/
def State.signalBoth (s : State) (w : WaitSig) : State := (s.signalAt s.me s.rid w 0).signalAt s.me s.rid w 1

/-- A signal that falls due with a result, some cycles after issue (R206, R226). -/
def State.signalLater (s : State) (w : WaitSig) (lat : Nat) : State :=
  if w.se = 1 then s.modCore fun c => { c with sigs := c.sigs ++ [(c.cycle + lat, s.rid, w.ss, w.si)] } else s

/-- Signals that are due are performed. -/
def State.landSigs (s : State) : State :=
  let due := s.core.sigs.filter fun x => x.1 ≤ s.core.cycle
  let s := s.modCore fun c => { c with sigs := c.sigs.filter fun x => c.cycle < x.1 }
  due.foldl (fun s x => s.signal s.me x.2.1 x.2.2.1 x.2.2.2) s

/-! ### Runs of bytes -/

/-- Bytes at consecutive keys. -/
structure Run where
  key : Nat
  n : Nat
deriving DecidableEq, Repr

/-- The way of an engine access to its bytes: where they are, or that it waits (R195: a page that is being serviced; R190,
R248: a held channel or bank), or that it fails for good. -/
inductive Route where
  | ok (rs : List Run)
  | wait
  | fail (f : Failed)
deriving DecidableEq, Repr

/-- The pieces of [a, a + n) that lie in one bank, page and channel: they end at multiples of 2,048. -/
def pieces : Nat → W64 → Nat → List (W64 × Nat)
  | 0, _, _ => []
  | fuel + 1, a, n =>
    if n = 0 then []
    else
      let k := min n (2048 - a.toNat % 2048)
      (a, k) :: pieces fuel (a + BitVec.ofNat 64 k) (n - k)

/-- The key of a place for an engine, which looks an offset of another core up at once. An address of the own device in
space 0x4 is translated as a request of its own (R332); another device's has no key here. -/
def State.placeKey (s : State) (p : Place) (acc : Access) : Option Nat :=
  match p with
  | .pool _ k => some k
  | .far k => (s.coreAt (k % 2 ^ 60 / 2 ^ 48)).scrKey (k % 2 ^ 48)
  | .home k _ =>
    if k / 2 ^ 60 = 4 then
      let dev := devOf (BitVec.ofNat 64 k)
      if dev = s.mgmt.devid then s.remoteKey dev k acc else none
    else some k

/-- Whether an engine access to a place is held (R190, R248): by a channel, of its walk or its bytes, or a bank in relocation. -/
def State.heldAt (s : State) (core : Nat) (rid : BitVec 32) (a : W64) (p : Place) (k : Nat) : Bool :=
  s.heldWalk core rid a ||
    (match p with
     | .home h _ => s.stands h
     | _ => s.heldPool k)

/-- One piece. -/
def State.routePiece (s : State) (core : Nat) (rid : BitVec 32) (a : W64) (n : Nat) (acc : Access) : Route :=
  match s.resolve core rid a 0 acc with
  | .error f => if f.rank = 3 || (f.rank = 4 && s.heldWalk core rid a) then .wait else .fail f
  | .ok p =>
    match s.placeKey p acc with
    | none => .fail fRemote
    | some k => if s.heldAt core rid a p k then .wait else .ok [{ key := k, n := n }]

/-- Routes one after the other: a failure comes before a wait. -/
def Route.join : Route → Route → Route
  | .ok a, .ok b => .ok (a ++ b)
  | .fail f, _ => .fail f
  | _, .fail f => .fail f
  | _, _ => .wait

/-- The bytes [a, a + n) of a context of a region on a core. -/
def State.route (s : State) (core : Nat) (rid : BitVec 32) (acc : Access) (a : W64) (n : Nat) : Route :=
  (pieces (n / 2048 + 2) a n).foldl (fun r p => r.join (s.routePiece core rid p.1 p.2 acc)) (.ok [])

/-- Lines of a core's cache role that meet a run, with the keys of their homes (R332). -/
def State.linesOn (s : State) (core : Nat) (r : Run) (p : Line → Bool) : List (Nat × Line) :=
  (((s.coreAt core).cache.filter p).map fun l => (s.homeOf l.key, l)).filter fun x => x.1 < r.key + r.n && r.key < x.1 + 64

/-- The bytes of a run as an engine of a core reads them: those that are dirty in its own cache role, the rest at home. -/
def State.runBytes (s : State) (core : Nat) (r : Run) : List Byte :=
  let home := s.peek r.key r.n
  let ls := s.linesOn core r fun l => l.dirty ≠ 0
  if ls = [] then home
  else
    (List.range r.n).zipWith (fun i b =>
      match ls.find? fun x => x.1 = lineOf (r.key + i) && x.2.dirty.getLsbD ((r.key + i) % 64) with
      | some x => lineByte x.2.data ((r.key + i) % 64)
      | none => b) home

/-- Bytes of a run that lie in uncorrectable data, and are not dirty in the own cache role, by their place in the run. -/
def State.runBad (s : State) (core : Nat) (r : Run) : List Nat :=
  if s.isBad r.key r.n then
    let ls := s.linesOn core r fun l => l.dirty ≠ 0
    (List.range r.n).filter fun i =>
      s.isBad (r.key + i) 1 && !(ls.any fun x => x.1 = lineOf (r.key + i) && x.2.dirty.getLsbD ((r.key + i) % 64))
  else []

/-- What an engine reads: the bytes, and which of them came from uncorrectable data. -/
def State.gather (s : State) (core : Nat) : Nat → List Run → List Byte × List Nat
  | _, [] => ([], [])
  | at_, r :: rs =>
    let q := State.gather s core (at_ + r.n) rs
    (s.runBytes core r ++ q.1, (s.runBad core r).map (at_ + ·) ++ q.2)

/-- Units of 8 bytes become uncorrectable: a copy of uncorrectable data stays marked (R18, R224). -/
def State.markBad (s : State) (ks : List Nat) : State :=
  { s with bad := (ks.map (· / 8)).foldl (fun l u => if l.contains u then l else u :: l) s.bad }

/-- Bytes of a run leave the cache role of the issuing core, clean or dirty, by whatever name it holds them (R291). -/
def State.dropRun (s : State) (core : Nat) (r : Run) : State :=
  if r.key / 2 ^ 60 = 1 then s
  else
    ((s.linesOn core r fun _ => true).map fun x => (x.1, x.2.key)).foldl
      (fun s x =>
        let lo := max x.1 r.key
        s.dropBytes core x.2 (maskOf (lo - x.1) (min (x.1 + 64) (r.key + r.n) - lo))) s

/-- An engine writes bytes over runs, in their order. `bad` gives the places of the bytes that stay uncorrectable. -/
def State.scatter (core : Nat) (bad : List Nat) : Nat → List Run → List Byte → State → State
  | _, [], _, s => s
  | at_, r :: rs, bs, s =>
    let s := (s.poke r.key (bs.take r.n)).markBad
      ((bad.filter fun i => at_ ≤ i && i < at_ + r.n).map fun i => r.key + (i - at_))
    State.scatter core bad (at_ + r.n) rs (bs.drop r.n) (s.dropRun core r)

/-- The way of several ranges, in their order. -/
def State.routeAll (s : State) (core : Nat) (rid : BitVec 32) (acc : Access) (rows : List (W64 × Nat)) : Route :=
  rows.foldl (fun r x => r.join (s.route core rid acc x.1 x.2)) (.ok [])

/-- The first piece of ranges that fails for good. -/
def State.firstFail (s : State) (core : Nat) (rid : BitVec 32) (acc : Access) (rows : List (W64 × Nat)) : Option W64 :=
  ((rows.flatMap fun x => pieces (x.2 / 2048 + 2) x.1 x.2).find? fun p =>
    match s.routePiece core rid p.1 p.2 acc with
    | .fail _ => true
    | _ => false).map (·.1)

/-! ### Failures (R195, R316) -/

/-- The record of a failed S5 or S6 command. -/
def State.copyFault (s : State) (id : CtxId) (slot : Nat) (tl : BitVec 2) (num ba faddr : W64) : State :=
  s.imprecise id
    { cause := cCopy, slot := slot, prec := false, ba := ba, faddr := faddr, tgt := num, tl := tl.toNat }

/-! ### Ranges of operands (R5, R196, R230) -/

/-- An operand's range: its base, the offsets of its lowest and highest byte, none for an empty one, and the spaces it may lie
in. -/
structure Span where
  base : W64
  reach : Option (Int × Int)
  spaces : List Nat
deriving DecidableEq, Repr

/-- The offsets of n bytes. -/
def flatReach (n : Nat) : Option (Int × Int) := if n = 0 then none else some (0, (n : Int) - 1)

/-- The addresses of a space that R5 allows: they stand without a gap from the first up to the second. -/
def spaceSpan (n : Nat) : Nat × Nat :=
  match n with
  | 0 => (0, 2 ^ 60)
  | 1 => (2 ^ 60, 2 ^ 60 + 48 * 2 ^ 48)
  | 2 => (2 * 2 ^ 60, 2 * 2 ^ 60 + 2 ^ 48)
  | 3 => (3 * 2 ^ 60, 3 * 2 ^ 60 + 2 ^ 57)
  | _ => (4 * 2 ^ 60, 5 * 2 ^ 60)

/-- An address at which a range breaks the space conditions of R5: its base, or where it leaves the base's space (log entry
101). Rows lie less than 2^32 bytes apart, so no row leaves the space unless the lowest or the highest byte does. -/
def Span.fault (x : Span) : Option W64 :=
  let r := spaceSpan (space x.base)
  let at_ (d : Int) : Int := (x.base.toNat : Int) + d
  if !(spaceOk x.base && x.spaces.contains (space x.base)) then some x.base
  else
    match x.reach with
    | none => none
    | some (lo, hi) =>
      if (r.2 : Int) ≤ at_ hi then some (BitVec.ofNat 64 r.2)
      else if at_ lo < (r.1 : Int) then some (BitVec.ofInt 64 (at_ lo))
      else none

end Sys2Proof.Machine
end

