-- ==== Sys2Proof/Machine/Charge.lean ====
section
/-!
DEFINITION. The arithmetic of the matrix engine (R212 to R220): alignment of blocks, the split into digital and charge
sums, scaling, accumulation and the bound, and the down-converter. Numbers are exact fractions until a rounding to FP32.
-/

namespace Sys2Proof.Machine

/-! ### Fractions -/

abbrev Frac := Nat × Nat

def fracAdd (a b : Frac) : Frac := (a.1 * b.2 + b.1 * a.2, a.2 * b.2)
def fracMul (a b : Frac) : Frac := (a.1 * b.1, a.2 * b.2)
def pow2 (e : Int) : Frac := scale2 1 1 e
/-- floor(log2 x) of a positive fraction. -/
def fracLog (a : Frac) : Int := floorLog2 a.1 a.2
/-- A magnitude of an FP32 pattern that is finite. -/
def mag32 (x : Nat) : Frac := magOf (decodeVal fmt32 x)
def qnan32 : Nat := qnan fmt32
def isNan32 (x : Nat) : Bool := isNan fmt32 x
/-- The pattern of +infinity. -/
def inf32 : Nat := infPat fmt32 false
/-- A non-negative fraction rounded up to FP32, with its flags. -/
def up32 (a : Frac) : Nat × BitVec 5 := roundTo fmt32 .rup false (.fin false a.1 a.2)

/-- ulp32 of R217 for a finite magnitude. -/
def ulp32 (a : Frac) : Frac := if a.1 = 0 then pow2 (-149) else pow2 (max (fracLog a) (-126) - 23)

/-! ### Blocks (R212, R213) -/

/-- A value times a block scale (R82, R84): a NaN scale makes a NaN, a zero scale a zero of a finite value. -/
def scaledVal (x s : Val) : Val :=
  match x, s with
  | .fin n p q, .fin _ a b => .fin n (p * a) (q * b)
  | .inf n, .fin _ _ _ => .inf n
  | _, _ => .nan

/-- An aligned element: its sign, and the magnitude q. -/
structure QElem where
  neg : Bool
  q : Nat
deriving DecidableEq, Repr

/-- A block of 32 elements: their values with the scale, the exponent E, the aligned elements, and for a block from the
down-converter the carried bounds (none where it carries none; an infinite one is none inside). -/
structure Blk where
  vals : List Val
  e : Int
  qs : List QElem
  ba : Option (List (Option Frac)) := none
deriving DecidableEq, Repr

def Val.isZero : Val → Bool
  | .fin _ p _ => p = 0
  | _ => false

/-- align of R212 for containers c under a scale value. -/
def alignBlk (f : Fmt) (cs : List Nat) (sc : Val) (ba : Option (List (Option Frac))) : Blk :=
  let vals := cs.map fun c => scaledVal (decodeVal f c) sc
  if f.kindInt then
    let lg := match sc with
      | .fin _ p q => if p = 0 then 0 else floorLog2 p q
      | _ => 0
    let num (c : Nat) : Int := if f.sgn then signedOf f.w c else (c % 2 ^ f.w : Nat)
    { vals := vals, e := 8 - f.bias + lg, qs := cs.map fun c => { neg := num c < 0, q := (num c).natAbs }, ba := ba }
  else
    let e := (vals.filter fun v => !v.isZero).foldl (fun (m : Option Int) v =>
      let l := fracLog (magOf v)
      match m with
      | none => some l
      | some k => some (max k l)) none
    let e := e.getD 0
    let q (v : Val) : Nat := let m := scale2 (magOf v).1 (magOf v).2 (8 - e); m.1 / m.2
    { vals := vals, e := e, qs := vals.map fun v => { neg := isNeg v, q := q v }, ba := ba }

def Blk.special (b : Blk) : Bool := b.vals.any notFinite
def Blk.zero (b : Blk) : Bool := b.vals.all Val.isZero

/-- The contribution of a non-finite block pair and its flags (R213). -/
def specialSum (a w : Blk) : Nat × BitVec 5 :=
  let ps := a.vals.zip w.vals
  let prods := ps.map fun p => mulVal p.1 p.2
  let zeroInf := prods.any (·.isNone)
  let pos := prods.any fun p => p = some (.inf false)
  let neg := prods.any fun p => p = some (.inf true)
  let nan := ps.any fun p => p.1 = .nan || p.2 = .nan
  let nv : BitVec 5 := if zeroInf || (pos && neg) then fNV else 0
  (if nan || zeroInf || (pos && neg) then qnan32 else infPat fmt32 neg, nv)

/-! ### The split (R214, R215) -/

/-- 2^(i+j) summed over the pairs of bits below the split point, times 32: Lmax(S). -/
def lmax (S : Nat) : Nat :=
  32 * ((List.range 9).map fun i => ((List.range 9).map fun j => if i + j < S then 2 ^ (i + j) else 0).sum).sum

/-- h of R215: 2^h is the smallest power of two greater than Lmax. -/
def hOf (S : Nat) : Nat := Nat.log2 (lmax S) + 1

/-- The part of a product that the split sums as charge: bit products with i + j < S. -/
def lowPart (S a w : Nat) : Nat :=
  ((List.range 9).map fun i => if a.testBit i && i < S then w % 2 ^ (S - i) * 2 ^ i else 0).sum

/-- Sums of a block: H, and what each array holds. -/
structure Sums where
  h : Int
  pos : Nat
  neg : Nat
deriving DecidableEq, Repr

def splitSums (S : Nat) (a w : List QElem) : Sums :=
  (a.zip w).foldl (fun s p =>
    let neg := p.1.neg != p.2.neg
    let lo := lowPart S p.1.q p.2.q
    let hi : Int := (p.1.q * p.2.q - lo : Nat)
    { h := if neg then s.h - hi else s.h + hi, pos := if neg then s.pos else s.pos + lo,
      neg := if neg then s.neg + lo else s.neg }) { h := 0, pos := 0, neg := 0 }

/-- The exponent of 1/16 of a converter step, of which every reading is a multiple. -/
def readExp (S g : Nat) : Int := (hOf S : Int) - 12 - g

/-- An array holds more than the converter reads, and whether a clip may be reported without that (R214). -/
def overRange (S g L : Nat) : Bool := lmax S < L * 2 ^ g
def nearRange (S g L : Nat) : Bool := lmax S * 2 ^ 8 < L * 2 ^ g * 2 ^ 8 + 2 ^ hOf S

/-- What the free readings of a block come to: the block integer as n · 2^e, and whether it clipped. -/
structure Reading214 where
  n : Int
  e : Int
  clip : Bool
deriving DecidableEq, Repr

/-- PS of R214. `free` gives the next free values: a choice, and two numbers. A reading within e(S, g) of the charge sum is
one of the multiples of 1/16 step that lie within 24 of them; a clipped block's PS is any value. -/
def readBlock (S g : Nat) (t : Sums) (choice : Bool) (x y : Nat) : Reading214 :=
  if S = 0 then { n := t.h, e := 0, clip := false }
  else
    let L := max t.pos t.neg
    let u := readExp S g
    let clip := overRange S g L || (nearRange S g L && choice)
    let d : Int := (t.pos : Int) - t.neg
    if clip then { n := if y % 2 = 0 then (x : Int) else -(x : Int), e := u, clip := true }
    else if u < 0 then
      let k : Int := (2 ^ (-u).toNat : Nat)
      let m := d * k - 24 + (x % 49 : Nat)
      { n := t.h * k + m, e := u, clip := false }
    else
      let k : Int := (2 ^ u.toNat : Nat)
      let lo := -((24 * k - d) / k)
      let hi := (d + 24 * k) / k
      { n := t.h + (lo + (x % (hi - lo + 1).toNat : Nat)) * k, e := 0, clip := false }

/-! ### Scaling, accumulation and the bound (R217, R220) -/

/-- cterm of R220 for a W block; none is infinite. -/
def cterm (f : Fmt) (a w : Blk) : Option Frac :=
  match a.ba with
  | none => some (0, 1)
  | some bs =>
    if bs.any (·.isNone) then none
    else
      let bs := bs.filterMap id
      let unit := pow2 (w.e - 8)
      let extra : Frac :=
        if f.kindInt then (0, 1)
        else
          let top := (a.qs.zip bs).foldl (fun m p => fracMax m (fracAdd (fracMul (p.1.q, 1) (pow2 (a.e - 8))) p.2)) (0, 1)
          fracAdd (pow2 (a.e - 8)) (if top.1 = 0 then (0, 1) else pow2 (fracLog top - 8))
      some ((w.qs.zip bs).foldl (fun m p => fracAdd m (fracMul (fracMul (p.1.q, 1) unit) (fracAdd p.2 extra))) (0, 1))

/-- An output element while a tile operation runs: value, bound, flags, whether a block clipped, whether a block ran, the
counter of free values. -/
structure Acc where
  acc : Nat
  bnd : Nat
  fl : BitVec 5
  clip : Bool
  ran : Bool
  nfree : Nat
deriving DecidableEq, Repr

/-- What a nest fixes for its blocks. -/
structure Split where
  s : Nat
  g : Nat
  stale : Bool
  chained : Bool
  af : Fmt
deriving DecidableEq, Repr

/-- The new bound of an element after a block (R217), where it is neither poisoned nor NaN, and the flags of its two
roundings. -/
def newBound (z : Acc) (t acc : Nat) (inc : Option Frac) : Nat × BitVec 5 :=
  match inc with
  | none => (inf32, 0)
  | some inc =>
    if inc.1 = 0 then (z.bnd, 0)
    else
      match decodeVal fmt32 z.bnd with
      | .fin _ p q =>
        let mm := fracMax (fracMax (mag32 t) (mag32 acc)) (fracAdd (p, q) inc)
        if !fracLt mm (pow2 126) then (inf32, 0)
        else
          let r := up32 inc
          match decodeVal fmt32 r.1 with
          | .fin _ a b =>
            let x := up32 (fracAdd (fracAdd (p, q) (a, b)) (fracMul (4, 1) (ulp32 mm)))
            (x.1, r.2 ||| x.2)
          | _ => (inf32, r.2)
      | _ => (inf32, 0)

/-- One block of one output element (R217). -/
def stepBlock (c : Split) (a w : Blk) (z : Acc) : Acc :=
  let special := a.special || w.special
  if !special && (a.zero || w.zero) then z
  else
    let r := readBlock c.s c.g (if special then { h := 0, pos := 0, neg := 0 } else splitSums c.s a.qs w.qs)
      (Config.freeBool z.nfree) (Config.freeNat (z.nfree + 1)) (Config.freeNat (z.nfree + 2))
    let clip := !special && r.clip
    let t :=
      if special then specialSum a w
      else
        let v := scale2 r.n.natAbs 1 (r.e + a.e + w.e - 16)
        roundTo fmt32 .rne false (.fin (r.n < 0) v.1 v.2)
    let s :=
      if isNan32 z.acc || isNan32 t.1 then (qnan32, 0)
      else match addVal .rne (decodeVal fmt32 z.acc) (decodeVal fmt32 t.1) with
        | none => (qnan32, fNV)
        | some v => roundTo fmt32 .rne false v
    let charge : Frac := if !special && 0 < c.s then fracMul (24, 1) (pow2 (readExp c.s c.g + a.e + w.e - 16)) else (0, 1)
    let inc : Option Frac := if c.chained && !special then (cterm c.af a w).map (fracAdd charge) else some charge
    let bnd : Nat × BitVec 5 :=
      if isNan32 z.bnd then (z.bnd, 0)
      else if clip || (0 < c.s && c.stale) then (inf32, 0)
      else if notFinite (decodeVal fmt32 t.1) || notFinite (decodeVal fmt32 s.1) then (inf32, 0)
      else newBound z t.1 s.1 inc
    { acc := s.1, bnd := bnd.1, fl := z.fl ||| t.2 ||| s.2 ||| bnd.2, clip := z.clip || clip, ran := true, nfree := z.nfree + 3 }

/-! ### The down-converter (R88, R219, R220) -/

/-- A block quantised: its scale byte, its element patterns, the flags. `ms` gives the rounding mode of each element. -/
structure Quant where
  scale : Nat
  pats : List Nat
  fl : BitVec 5
deriving DecidableEq, Repr

def quantBlk (d : W32) (ms : List RMode) (vs : List Nat) : Quant :=
  let f := descFmt d
  let bsk := descBsk d
  let xs := vs.map (decodeVal fmt32)
  if bsk = 0 then
    let rs := (xs.zip ms).map fun p => roundTo f p.2 false p.1
    { scale := 0, pats := rs.map (·.1), fl := (rs.map (·.2)).foldl (· ||| ·) 0 }
  else
    let sc := chooseScale f bsk xs
    let rs := if xs.any notFinite then xs.map fun _ => (0, (0 : BitVec 5))
      else (xs.zip ms).map fun p => quantElem f p.2 (bsk = 1) (scaleVal bsk sc.1) p.1
    { scale := sc.1, pats := rs.map (·.1), fl := (rs.map (·.2)).foldl (· ||| ·) sc.2 }

/-- The carried bounds of a block, and the flags of their roundings (R95, R220). -/
def carried (d : W32) (vs bs : List Nat) : Option (List (Option Frac)) × BitVec 5 :=
  if bs.all fun b => (mag32 b).1 = 0 && !notFinite (decodeVal fmt32 b) then (none, 0)
  else
    let f := descFmt d
    if (vs ++ bs).any fun x => notFinite (decodeVal fmt32 x) then (some (bs.map fun _ => none), 0)
    else
      let mx := (vs.zip bs).foldl (fun m p => fracMax m (fracAdd (mag32 p.1) (mag32 p.2))) (0, 1)
      let sc : Frac := if descBsk d = 0 then (1, 1)
        else magOf (scaleVal (descBsk d) (chooseScale f (descBsk d) [.fin false mx.1 mx.2]).1)
      let top := fracMul f.maxf sc
      let u := if descBsk d = 0 then pow2 (ulpExp f mx.1 mx.2) else fracMul (pow2 (ulpExp f f.maxf.1 f.maxf.2)) sc
      if fracLt top mx then (some (bs.map fun _ => none), 0)
      else
        let rs := bs.map fun b => up32 (fracAdd (mag32 b) (fracMul (2, 1) u))
        (some (rs.map fun r =>
          match decodeVal fmt32 r.1 with
          | .fin _ p q => some (p, q)
          | _ => none), (rs.map (·.2)).foldl (· ||| ·) 0)

/-- A row of 128 FP32 values as four blocks of an A operand (R219). -/
def chainRow (d : W32) (vs bs : List Nat) : List Blk × BitVec 5 :=
  let m := if descRnd d = 1 then RMode.rtz else RMode.rne
  let f := descFmt d
  let part (l : List Nat) (b : Nat) : List Nat := (l.drop (32 * b)).take 32
  let qs := (List.range 4).map fun b => (carried d (part vs b) (part bs b), quantBlk d (List.replicate 32 m) (part vs b))
  (qs.map fun x =>
     alignBlk f x.2.pats (if descBsk d = 0 then .fin false 1 1 else scaleVal (descBsk d) x.2.scale) x.1.1,
   (qs.map fun x => x.1.2 ||| x.2.fl).foldl (· ||| ·) 0)

end Sys2Proof.Machine
end

