-- ==== Sys2Proof/Machine/Control.lean ====
section
/-!
DEFINITION. The control class (R113 to R122, R124 to R131, R191, R194): transfers, hardware loops, control registers, cut
points, TWAIT, BAR, and the end of a context's own run. A transfer is decided here and takes place when the bundle's last
slot has committed (Issue.lean).
-/

namespace Sys2Proof.Machine

/-- S2 decides a transfer (R113); it replaces one that was pending from a re-entry (R131). -/
def State.decideTransfer (s : State) (tgt : W64) (rot : Bool) (stall : Nat) : State :=
  s.modIss fun i => { i with xfer := some { tgt := tgt, rot := rot, stall := stall } }

/-- The stall of a taken transfer through b[n] (R119): by the bundles issued since its last write. The first after a restore or a
TRET (`cold`) counts as d = 1; of a register that nothing has written, so does the first transfer (log entry 99). -/
def prepStall (cold : Bool) (d : Option Nat) : Nat :=
  if cold then 2
  else
    match d with
    | none => 0
    | some d => if d ≤ 1 then 2 else if d = 2 then 1 else 0

def State.throughB (s : State) (n : R3) : State :=
  (s.decideTransfer (s.rdB n) false (prepStall (vget s.pre.q.cold n.toNat) (vget s.pre.q.prep n.toNat))).modSeq fun q =>
    { q with cold := vset q.cold n.toNat false }

/-- A branch-target register is written, which starts its prepared fetch (R115, R119). One that is written again after a restore or a
TRET, before its first transfer, counts from that write (log entry 116). -/
def State.wrB (s : State) (n : R3) (v : W64) : State :=
  (s.modRegs fun r => r.putB n v).modSeq fun q =>
    { q with prep := vset q.prep n.toNat (some 0), cold := vset q.cold n.toNat false }

/-! ### Branches (R115 to R118) -/

def execPbr (b : R3) (off : BitVec 21) (s : State) : Out := .next (s.wrB b (s.iss.ba + 2 * sext off))

def execPbrr (b : R3) (a : R6) (s : State) : Out := if s.psS a then s.trap cPoison else .next (s.wrB b (s.rdS a))

/-- A branch whose condition is `want` for bit 0 of pg; a poisoned pg traps. -/
def State.branch (s : State) (b : R3) (pg : R5) (want : Bool) (f : State → State) : Out :=
  if s.psP pg then s.trap cPoison
  else if (s.rdP pg).getLsbD 0 = want then .next (f (s.throughB b))
  else .next s

def execBr (b : R3) (pg : R5) (s : State) : Out := s.branch b pg true id
def execBrn (b : R3) (pg : R5) (s : State) : Out := s.branch b pg false id

/-- The next sequential bundle (R44). -/
def State.nextPc (s : State) : W64 := s.iss.ba + BitVec.ofNat 64 s.iss.len

def execCall (b : R3) (pg : R5) (s : State) : Out := s.branch b pg true fun s => s.wrB 7 s.nextPc

/-- R118. -/
def execChk (b : R3) (pg : R5) (a : R6) (s : State) : Out :=
  .next (if s.psS a || s.psP pg then s.throughB b else s)

/-! ### Hardware loops (R120 to R122) -/

/-- LOOP with a count: push, or with a zero count a transfer past the bundle at the label. -/
def State.openLoop (s : State) (n off : Nat) : Out :=
  if 6 ≤ s.ctx.q.loops.length then s.trap cLoopOver
  else
    let e := s.iss.ba + 2 * BitVec.ofNat 64 off
    if n = 0 then
      match s.findBundle e with
      | .header a h => .next (s.decideTransfer (a + BitVec.ofNat 64 (bundleLength (readHeader h).mask)) false 2)
      | .fault a d => s.trap cFetch d 0 a
      | .held _ | .endless => .next s.hold
    else
      let l : LoopLevel := { count := BitVec.ofNat 64 n, start := s.nextPc, last := e, index := 0 }
      .next (s.modSeq fun q => { q with loops := q.loops ++ [l] })

def execLoop (a : R6) (off : BitVec 18) (s : State) : Out :=
  if s.psS a then s.trap cPoison else s.openLoop (s.rdS a).toNat off.toNat

def execLoopi (n off : BitVec 12) (s : State) : Out := s.openLoop n.toNat off.toNat

/-- R121. The boundary after it is a legal point (R323). -/
def execBlc (s : State) : Out :=
  match s.ctx.q.loops.getLast? with
  | none => s.trap cLoopUnder
  | some l =>
    if l.last ≠ s.iss.ba then s.trap cLoopStructure
    else
      let s := s.modIss fun i => { i with legal := true }
      let rest := s.ctx.q.loops.dropLast
      if 1 < l.count.toNat then
        let s := s.modSeq fun q => { q with loops := rest ++ [{ l with count := l.count - 1, index := l.index + 1 }] }
        .next (s.decideTransfer l.start true 0)
      else .next (s.modSeq fun q => { q with loops := rest })

/-- R122. -/
def execLpop (s : State) : Out :=
  if s.ctx.q.loops = [] then s.trap cLoopUnder
  else .next (s.modSeq fun q => { q with loops := q.loops.dropLast })

/-! ### Control registers (R25 to R40, R124, R125) -/

def b2n (b : Bool) : Nat := if b then 1 else 0

/-- PSUM (R18). -/
def Regs.poisoned (r : Regs) : Bool := r.sp ≠ 0 || r.pp ≠ 0 || r.vp.toList.any fun g => g ≠ 0

/-- Registers with the poison that an outstanding result's destination had before (R155). -/
def Pend.before (p : Pend) (r : Regs) : Regs :=
  match p.dst with
  | .s n => { r with sp := setBit r.sp n p.was }
  | .v n => { r with vp := vset r.vp n (if p.was then 1 else 0) }
  | .p n => { r with pp := setBit r.pp n p.was }
  | _ => r

/-- PSUM in a cycle: results that have not landed do not show (R18, R155). -/
def Ctx.psum (c : Ctx) (cycle : Nat) : Bool :=
  ((c.board.filter fun p => p.due.any fun d => cycle < d).foldr Pend.before c.r).poisoned

/-- STATUS (R26) of a context with a given effective class, in a cycle. -/
def statusWord (c : Ctx) (pcl cycle : Nat) : W64 :=
  BitVec.ofNat 64 (c.c.sres.toNat + b2n c.c.smis * 2 ^ 4 + c.c.vrb.toNat * 2 ^ 5 + c.c.prb.toNat * 2 ^ 10 +
    pcl % 4 * 2 ^ 14 + b2n (c.psum cycle) * 2 ^ 16 + b2n c.c.gdeg * 2 ^ 17 + b2n c.c.gnf * 2 ^ 18 +
    b2n c.c.mhold * 2 ^ 19)

/-- LSTK (R30). -/
def lstkWord (q : Seqr) : W64 := BitVec.ofNat 64 (q.loops.length + q.lsel.toNat * 2 ^ 4)

/-- A value of the selected level, zero where there is none (R30). -/
def levelWord (q : Seqr) (f : LoopLevel → W64) : W64 := ((q.loops[q.lsel.toNat]?).map f).getD 0

/-- TRPP (R34). -/
def trppWord (c : Ctl) : W64 := BitVec.ofNat 64 (c.pidx.toNat + b2n c.lost * 2 ^ 63)

/-- ESEAM (R36). -/
def eseamWord (e : ESeam) : W64 :=
  BitVec.ofNat 64 (e.held.toNat + e.gref.toNat * 2 ^ 16 + e.lstall.toNat * 2 ^ 32 + b2n e.strict * 2 ^ 62 +
    b2n e.gtrap * 2 ^ 63)

/-- CTXID (R35). -/
def ctxidWord (c : Ctx) : W64 := BitVec.ofNat 64 (c.core.toNat + c.bank.toNat * 2 ^ 16 + c.id.rid.toNat * 2 ^ 32)

/-- KWIN (R37) of a region on a core. -/
def kwinWord (c : Core) (rid : BitVec 32) : W64 :=
  match c.grantOf rid with
  | some g => BitVec.ofNat 64 (g.base + g.count * 2 ^ 8)
  | none => 0

/-- PWRL.DROOP (R351, R352), PWRL.LEVEL and PWRL (R39). -/
def Power.low (p : Power) : Bool := p.droop || p.lossOn
def Power.level_ (p : Power) : BitVec 3 := if p.low then 0 else p.level
def pwrlWord (p : Power) : W64 := BitVec.ofNat 64 (p.level_.toNat + b2n p.low * 2 ^ 3)

/-- POOLMAP, POOLMAPM, POOLMAPH (R40). -/
def poolmapWord (p : Pool) (w : Nat) : W64 :=
  BitVec.ofNat 64 (packEl 2 ((List.range 32).map fun j => (vget p.roles (32 * w + j)).toNat))

/-- Nothing of a context issues: it is not resident, waits for another device, or has trapped (R314, R331). -/
def Ctx.halted (c : Ctx) : Bool := c.sch.life ≠ .resident || c.remote.isSome || c.q.trapped.isSome

/-- Banks in a role change (R40, R245). -/
def Pool.moving (p : Pool) : List Nat :=
  match p.change with
  | some ch => ch.banks ++ ch.targets
  | none => []

def Pool.countRole (p : Pool) (r : BitVec 2) : Nat := (p.roles.toList.filter fun x => x = r).length

/-- POCC (R40). -/
def poccWord (p : Pool) : W64 :=
  BitVec.ofNat 64 (p.countRole 0 + p.countRole 1 * 2 ^ 8 + p.countRole 2 * 2 ^ 16 + p.countRole 3 * 2 ^ 24 +
    p.moving.length * 2 ^ 32)

/-- A control register as the bundle finds it. -/
def State.readCtl (s : State) (sel : BitVec 8) : W64 :=
  let c := s.pre
  match sel.toNat with
  | 0x00 => statusWord c (s.classOf c) s.core.cycle
  | 0x01 => c.c.fpf
  | 0x02 => c.c.ferec
  | 0x03 => lstkWord c.q
  | 0x04 => levelWord c.q (·.count)
  | 0x05 => levelWord c.q (·.start)
  | 0x06 => levelWord c.q (·.last)
  | 0x07 => levelWord c.q (·.index)
  | 0x08 => c.c.rng
  | 0x09 => c.c.gesc
  | 0x0A => zext c.c.take
  | 0x0B => c.c.ttab
  | 0x0C => c.c.trpb
  | 0x0D => trppWord c.c
  | 0x0E => zext c.c.cidx
  | 0x0F => ctxidWord c
  | 0x10 => c.tlc.mark
  | 0x11 => c.tlc.issued
  | 0x12 => c.tlm.mark
  | 0x13 => c.tlm.issued
  | 0x14 => c.tlf.mark
  | 0x15 => c.tlf.issued
  | 0x16 => eseamWord c.es
  | 0x18 => kwinWord s.core c.id.rid
  | 0x20 => s.time.now
  | 0x21 => pwrlWord s.power
  | 0x22 => poolmapWord s.core.pool 0
  | 0x23 => poolmapWord s.core.pool 1
  | 0x24 => poolmapWord s.core.pool 2
  | 0x25 => poccWord s.core.pool
  | _ => 0

/-- A register of a space of R124. -/
def State.readSpace (s : State) (sel : BitVec 8) (spc : BitVec 2) : W64 :=
  match spc.toNat with
  | 0 => s.readCtl sel
  | 1 => zext (vget s.pre.r.f sel.toNat)
  | 2 => zext (vget s.pre.r.ft sel.toNat)
  | _ => s.rdB (sel.setWidth 3)

/-- The latency of MFC (R101): 4 for what belongs to the core or the package. -/
def mfcLat (sel : BitVec 8) (spc : BitVec 2) : Nat := if spc = 0 && 0x18 ≤ sel.toNat then 4 else 1

def execMfc (d : R6) (sel : BitVec 8) (spc : BitVec 2) (s : State) : Out :=
  .next (s.wrS d (s.readSpace sel spc) false (mfcLat sel spc))

/-- A poisoned source traps (R125). -/
def State.mtcWith (s : State) (a : R6) (f : W64 → State → State) : Out :=
  if s.psS a then s.trap cPoison else .next (f (s.rdS a) s)

/-- What MTC writes to a control register other than those with a row of their own (R25, R30, R32 to R36). -/
def Ctx.writeCtl (c : Ctx) (sel : BitVec 8) (x : W64) : Ctx :=
  match sel.toNat with
  | 0x03 => { c with q := { c.q with lsel := x.extractLsb' 4 3 } }
  | 0x09 => { c with c := { c.c with gesc := x } }
  | 0x0B => { c with c := { c.c with ttab := x } }
  | 0x0D => { c with c := { c.c with lost := c.c.lost && !x.getLsbD 63 } }
  | 0x16 => { c with es := { c.es with gtrap := x.getLsbD 63, lstall := x.extractLsb' 32 16,
                                       gref := x.extractLsb' 16 16 } }
  | _ => c

def execMtc (a : R6) (sel : BitVec 8) (spc : BitVec 2) (s : State) : Out :=
  s.mtcWith a fun x s =>
    match spc.toNat with
    | 0 => s.modCtx fun c => c.writeCtl sel x
    | 1 => s.modRegs fun r => { r with f := vset r.f sel.toNat (x.setWidth 32) }
    | _ => s.modRegs fun r => { r with ft := vset r.ft sel.toNat (x.setWidth 16) }

/-- R31: zero loads the constant; the value outlives the draws of the bundle. -/
def execMtcRng (a : R6) (s : State) : Out :=
  s.mtcWith a fun x s =>
    (s.modCtl fun c => { c with rng := if x = 0 then Config.rngDefault else x }).modIss fun i => { i with rngSet := true }

/-- R34. -/
def ringBaseOk (x : W64) : Bool :=
  4 ≤ bits x.toNat 4 0 && bits x.toNat 4 0 ≤ 16 && (space x = 2 || space x = 3)

def execMtcTrpb (a : R6) (s : State) : Out :=
  if s.psS a then s.trap cPoison
  else if ringBaseOk (s.rdS a) then
    .next (s.modCtl fun c =>
      { c with trpb := s.rdS a &&& 0xFFFFFFFFFFFFF01F, pidx := 0, cidx := 0, lost := false })
  else s.trap cIllegalOperand

def execMtcTrpc (a : R6) (s : State) : Out := s.mtcWith a fun x s => s.modCtl fun c => { c with cidx := x.setWidth 32 }

/-- R28, R97: the flags of the own bundle land later. -/
def execMtcFpf (a : R6) (s : State) : Out := s.mtcWith a fun x s => s.modCtl fun c => { c with fpf := c.fpf &&& ~~~x }

/-- R29: ARM is written, VAL is cleared by a one. -/
def execMtcFerec (a : R6) (s : State) : Out :=
  s.mtcWith a fun x s => s.modCtl fun c =>
    let f := setBit c.ferec 63 (x.getLsbD 63)
    { c with ferec := if x.getLsbD 62 then setBit f 62 false else f }

/-- R26, R27, R125. -/
def execMtcStatus (a : R6) (s : State) : Out :=
  s.mtcWith a fun x s =>
    (s.modCtl fun c =>
      { c with sres := x.extractLsb' 0 3, vrb := x.extractLsb' 5 5, prb := x.extractLsb' 10 4,
               smis := c.smis && !x.getLsbD 4, gdeg := c.gdeg && !x.getLsbD 17,
               gnf := c.gnf && !x.getLsbD 18 }).modIss fun i => { i with sresSet := true }

/-! ### Waits (R191, R194) -/

/-- The number a TWAIT waits for, where it is legal. -/
def State.twaitTarget (s : State) (a : R6) (tl : BitVec 2) (all : BitVec 1) : W64 :=
  if all = 1 then (s.pre.tl tl).issued else s.rdS a

/-- The wait is not satisfied (an interlock under R53). -/
def State.twaitHeld (s : State) (a : R6) (tl : BitVec 2) (all : BitVec 1) : Bool :=
  !(all = 0 && s.psS a) && (s.twaitTarget a tl all).toNat ≤ (s.pre.tl tl).issued.toNat &&
    (s.ctx.tl tl).mark.toNat < (s.twaitTarget a tl all).toNat

def execTwait (a : R6) (sco tl : BitVec 2) (all : BitVec 1) (s : State) : Out :=
  if all = 0 && s.psS a then s.trap cPoison
  else if (s.pre.tl tl).issued.toNat < (s.twaitTarget a tl all).toNat then s.trap cIllegalOperand
  else if s.twaitHeld a tl all then .next s.hold
  else .next (s.acquire sco)

/-- The address of a barrier line, where the region has it (R193). -/
def State.barAddr (s : State) (id : BitVec 8) : Option W64 :=
  match s.region? s.rid with
  | some r => if r.work.barb = 0 || r.work.nbar.toNat ≤ id.toNat then none
      else some (r.work.barb + 64 * zext id)
  | none => none

/-- The agents two sets have in common (R290): any two such sets are nested or disjoint. -/
def Agents.inter (a b : Agents) : Agents :=
  match a, b with
  | .nobody, _ => .nobody
  | _, .nobody => .nobody
  | .all, x => x
  | x, .all => x
  | .scope s c, .scope t d =>
    if 2 ≤ s.toNat then .scope t d
    else if 2 ≤ t.toNat then .scope s c
    else if s = t then
      (if (if s = 0 then c = d else clusterOf c.toNat = clusterOf d.toNat) then a else .nobody)
    else if clusterOf c.toNat = clusterOf d.toNat then .scope 0 (if s = 0 then c else d)
    else .nobody

/-- Whether a set of agents holds a core's contexts. -/
def Agents.covers (a : Agents) (core : Nat) : Bool :=
  match a with
  | .all => true
  | .nobody => false
  | .scope s c => Machine.covers s (some c) core

/-- The records of a barrier line (R290). -/
def State.barRec (s : State) (k : Nat) : BarRec :=
  (s.barRecs.find? fun r => r.key = k).getD { key := k, now := .all, done := .all }

/-- An arrival at the barrier word (R194): ARR and GEN, the line's record and the generation records (R290). -/
def State.arrive (s : State) (k : Nat) (sco : BitVec 2) : State :=
  let w := s.peek64 k
  let arr := bits w 47 32
  let exp := bits w 63 48
  let gen := bits w 31 0
  let full := arr + 1 = exp
  let w' := if full then exp * 2 ^ 48 + (gen + 1) % 2 ^ 32 else exp * 2 ^ 48 + (arr + 1) * 2 ^ 32 + gen
  let r := s.barRec k
  let now := (if arr = 0 then Agents.all else r.now).inter (.scope sco s.core.num)
  let r' : BarRec := if full then { key := k, now := .all, done := now } else { r with now := now }
  let s := (s.poke k (toBytes 8 w')).recordLine (lineOf k) (some (s.markOf sco))
  { s with barRecs := r' :: s.barRecs.filter fun x => x.key ≠ k }

/-- The seam key of a barrier word under the access asked for, or the failed check. -/
def State.barPlace (s : State) (a : W64) (acc : Access) : Except Failed Nat :=
  match s.resolve s.me s.rid a 8 acc with
  | .ok (.home k _) => .ok k
  | .ok _ => .error fSpace
  | .error f => .error f

/-- What an arrival releases sets out, and the core's own bytes of the word are home before it (R279, R286). -/
def State.beforeArrival (s : State) (k : Nat) (sco : BitVec 2) : State := (s.approach (.home k false)).beginRelease sco

/-- Whether the walk to a barrier word is held (R190, R269): nothing fails before it. -/
def State.barWalk (s : State) (a : W64) (acc : Access) : Bool :=
  (match s.barPlace a acc with
   | .error f => 3 ≤ f.rank
   | .ok _ => true) && s.heldWalk s.me s.rid a

/-- The arrival is held: by its release (R286), or at a held channel (R190). -/
def State.arriveHeld (s : State) (id : BitVec 8) (sco : BitVec 2) : Bool :=
  match s.barAddr id with
  | none => false
  | some a =>
    s.barWalk a Access.both ||
    match s.barPlace a Access.both with
    | .error _ => false
    | .ok k =>
      let s' := s.beforeArrival k sco
      s'.releasePending sco || s'.lineBusy (.home k false) 8 || s.stands k

def execBarArrive (d : R6) (id : BitVec 8) (sco : BitVec 2) (s : State) : Out :=
  match s.barAddr id with
  | none => s.trap cIllegalOperand
  | some a =>
    if s.waits (s.barWalk a Access.both) then .next s.hold
    else match s.barPlace a Access.both with
    | .error f => s.trap f.cause f.detail 0 a
    | .ok k =>
      if s.waits (s.arriveHeld id sco) then .next (s.beforeArrival k sco).hold
      else
        let s := s.beforeArrival k sco
        let w := s.peek64 k
        if bits w 63 48 = 0 || bits w 63 48 ≤ bits w 47 32 then s.trap cIllegalOperand
        else
          let r := s.lineRecs.find? fun r => r.key = lineOf k
          let x : Arrived := { key := k, sco := sco, word := BitVec.ofNat 64 w, line := r, bar := s.barRec k }
          let s' := (s.arrive k sco).modIss fun i => { i with arrived := some x }
          .next (s'.wrS d (BitVec.ofNat 64 (bits w 31 0)) false (s.loadLat (.home k false) 8 false + 4))

/-- The wait has not ended: GEN still equals the value waited on, or its word is held. -/
def State.barWaitHeld (s : State) (a : R6) (id : BitVec 8) : Bool :=
  match s.barAddr id with
  | none => false
  | some x =>
    !s.psS a && (s.barWalk x Access.load ||
      match s.barPlace x Access.load with
      | .error _ => false
      | .ok k => s.stands k || bits (s.peek64 k) 31 0 = bits (s.rdS a).toNat 31 0)

def execBarWait (a : R6) (id : BitVec 8) (sco : BitVec 2) (s : State) : Out :=
  match s.barAddr id with
  | none => s.trap cIllegalOperand
  | some x =>
    if s.psS a then s.trap cPoison
    else if s.waits (s.barWalk x Access.load) then .next s.hold
    else
      match s.barPlace x Access.load with
      | .error f => s.trap f.cause f.detail 0 x
      | .ok k =>
        if s.barWaitHeld a id then .next (s.modSeq fun q => { q with waitsOn := some id }).hold
        else
          let s := (s.modSeq fun q => { q with waitsOn := none }).acquire sco
          .next (if (s.barRec k).done.covers s.me then s else s.modCtl fun c => { c with smis := true })

/-! ### Cut points (R126, R349) -/

def execCut (id : BitVec 12) (s : State) : Out :=
  let t := s.pre.c.ttab
  if t = 0 || t.toNat % 64 ≠ 0 || space t ≠ 2 then s.trap cTakeTable
  else if s.wordHeld t then .next s.hold
  else
    match s.loadWord t with
    | none => s.trap cTakeTable
    | some (w, s1) =>
      let take := bits w (2 * s.power.level_.toNat + 1) (2 * s.power.level_.toNat)
      if bits w 63 48 ≠ 0 || bits w 31 16 ≠ 0 || bits w 47 32 ≤ id.toNat || take = 3 then s.trap cTakeTable
      else if take = s.pre.c.take.toNat then .next s1
      else
        let a := t + BitVec.ofNat 64 (0x40 + 24 * id.toNat + 8 * take)
        if s1.wordHeld a then .next s.hold
        else
          match s1.loadWord a with
          | none => s.trap cTakeTable
          | some (x, s2) =>
            if x = 0 || x % 2 = 1 then s.trap cTakeTable
            else
              let s2 := s2.modCtl fun c => { c with take := BitVec.ofNat 2 take }
              .next (s2.decideTransfer (BitVec.ofNat 64 x) false 8)

/-! ### The rest (R127 to R131) -/

/-- The priority range of the context's region (R295). -/
def execPrio (c : BitVec 2) (s : State) : Out :=
  match s.region? s.rid with
  | some r =>
    if c.toNat < r.lim.plo.toNat || r.lim.phi.toNat < c.toNat then s.trap cIllegalOperand
    else .next (s.modCtl fun x => { x with base := c })
  | none => s.trap cIllegalOperand

def execDorm (s : State) : Out := .next (s.modIss fun i => { i with dorming := true })
def execExit (s : State) : Out := .next (s.modIss fun i => { i with exiting := true })

/-- R130: S2 does not commit. -/
def execTrap (code : BitVec 16) (s : State) : Out := s.trap cSoftware code.toNat

/-- R131: the re-entry address and the pending transfer, both as before the bundle. -/
def execTret (rt p : BitVec 1) (tb ra : R3) (s : State) : Out :=
  let pend : Option Xfer := if p = 1 then some { tgt := s.rdB tb, rot := rt = 1, stall := 0 } else none
  .next ((s.decideTransfer (s.rdB ra) false 6).modIss fun i => { i with reent := some (s.rdB ra, pend) })

end Sys2Proof.Machine
end

