-- ==== Sys2Proof/Machine/Matrix.lean ====
section
/-!
DEFINITION. The matrix class (R208 to R211, R221 to R238): the configuration set and its nests, tile banks, the
instructions, and the events that start, run and complete them.
-/

namespace Sys2Proof

/-! ### The fields of MLDW (R226, R230) -/

def FM.cw (o : FM) : BitVec 2 := o.zt.extractLsb' 0 2
def FM.sparse (o : FM) : Bool := o.imm.getLsbD 5
def FM.scaled (o : FM) : Bool := o.imm.getLsbD 6
def FM.bank (o : FM) : Nat := o.imm.toNat % 32
/-- The container width that CW codes. -/
def FM.c (o : FM) : Nat := if o.cw = 0 then 8 else if o.cw = 1 then 4 else 2
/-- Bytes that an MLDW reads at its tile address. -/
def FM.tileBytes (o : FM) : Nat := if o.sparse then 1024 * o.c + 2048 else 2048 * o.c

end Sys2Proof

namespace Sys2Proof.Machine

/-! ### The configuration set (R209, R210) -/

/-- A level of a nest. -/
structure MLevel where
  cnt : Nat
  da : Int
  dz : Int
  dza : Int
  dw : Int
  ds : Int
deriving DecidableEq, Repr

/-- The fields of a configuration set. -/
structure MCfg where
  sbase : Nat
  abase : Nat
  nlev : Nat
  asrc : Nat
  rows : Nat
  zabase : Nat
  zbase : Nat
  wbase : Nat
  ars : Int
  g : Nat
  s : Nat
  levels : List MLevel
deriving DecidableEq, Repr

def readCfg (c : Vector W64 16) : MCfg :=
  let w (i : Nat) : Nat := (vget c i).toNat
  let level (l : Nat) : MLevel :=
    { cnt := bits (w (4 + 2 * l)) 15 0, da := signedOf 32 (bits (w (4 + 2 * l)) 47 16),
      dz := signedOf 4 (bits (w (5 + 2 * l)) 43 40), dza := signedOf 4 (bits (w (5 + 2 * l)) 47 44),
      dw := signedOf 8 (bits (w (5 + 2 * l)) 39 32), ds := signedOf 32 (bits (w (5 + 2 * l)) 31 0) }
  let n := bits (w 1) 52 50
  { sbase := bits (w 0) 63 32, abase := bits (w 0) 31 0, nlev := n, asrc := bits (w 1) 49 48,
    rows := bits (w 1) 47 43 + 1, zabase := bits (w 1) 42 40, zbase := bits (w 1) 39 37, wbase := bits (w 1) 36 32,
    ars := signedOf 32 (bits (w 1) 31 0), g := bits (w 2) 6 5, s := bits (w 2) 4 0,
    levels := (List.range (min n 6)).map level }

/-- Number of tile operations of a nest. -/
def MCfg.total (c : MCfg) : Nat := c.levels.foldl (fun m l => m * (l.cnt + 1)) 1

/-- The value of a generator in the k-th index vector of the lexicographic order. -/
def MCfg.gen (c : MCfg) (d : MLevel → Int) (base : Int) (k : Nat) : Int :=
  (c.levels.foldr (fun l (m : Int × Nat) => (m.1 + (m.2 % (l.cnt + 1) : Nat) * d l, m.2 / (l.cnt + 1))) (base, k)).1

/-- Least and greatest value of a generator, from the signs of its steps (R225). -/
def MCfg.low (c : MCfg) (d : MLevel → Int) (base : Int) : Int := c.levels.foldl (fun m l => m + min 0 (l.cnt * d l)) base
def MCfg.high (c : MCfg) (d : MLevel → Int) (base : Int) : Int := c.levels.foldl (fun m l => m + max 0 (l.cnt * d l)) base

/-- The values a generator takes, which lie in a range of 32. -/
def MCfg.values (c : MCfg) (d : MLevel → Int) (base : Int) : List Int :=
  c.levels.foldl (fun vs l =>
    if d l = 0 then vs
    else (vs.flatMap fun v => (List.range (min l.cnt 31 + 1)).map fun (i : Nat) => v + i * d l).eraseDups) [base]

def MCfg.banks (c : MCfg) : List Nat := (c.values (·.dw) c.wbase).map Int.toNat
def MCfg.dests (c : MCfg) : List Nat := (c.values (·.dz) c.zbase).map Int.toNat
def MCfg.sources (c : MCfg) : List Nat := if c.asrc = 2 then (c.values (·.dza) c.zabase).map Int.toNat else []

/-! ### Tile banks (R221, R233) -/

/-- The record of tile bank j, where it is not empty. -/
def Pool.tile? (p : Pool) (j : Nat) : Option TileRec := p.tiles.find? fun t => t.bank = j
def Pool.putTile (p : Pool) (t : TileRec) : Pool := { p with tiles := t :: p.tiles.filter fun u => u.bank ≠ t.bank }
/-- Tile bank j holds the TILE role and no change moves it. -/
def Pool.isTile (p : Pool) (j : Nat) : Bool := vget p.roles (64 + j) = 3 && !p.moving.contains (64 + j)

/-- The container width of a record. -/
def TileRec.c (t : TileRec) : Nat := if t.cw = 0 then 8 else if t.cw = 1 then 4 else 2

/-- The temperature of a core's tile banks: that of its column (log entry 6). -/
def State.bankTemp (s : State) (core : Nat) : BitVec 8 := assocD Config.startTemp (columnOf core) s.temps

/-- A stale bank (R233). -/
def State.staleBank (s : State) (j : Nat) : Bool :=
  let at_ := ((s.core.pool.cals.find? fun c => c.bank = j).map (·.at_)).getD Config.startTemp
  let d : Int := (s.bankTemp s.me).toInt - at_.toInt
  8 < d.natAbs

/-! ### The checks of MGO (R225) -/

/-- Whether a format-table entry can be used, and its descriptors AF, WF, OUT (R15, R86). -/
def Regs.entry (r : Regs) (n : Nat) : Option (W32 × W32 × W32) :=
  let e := (vget r.ft n).toNat
  let d (lo : Nat) : W32 := vget r.f (bits e (lo + 3) lo)
  if bits e 15 12 = 0 && descValid (d 0) && descValid (d 4) && descValid (d 8) then some (d 0, d 4, d 8) else none

def mgoReject (p : Pool) (scr : Nat) (c : MCfg) (af wf : W32) : Option Nat :=
  let fa := descFmt af
  let fw := descFmt wf
  if fa.kindInt != fw.kindInt || (fa.kindInt && (descBsk af = 2 || descBsk wf = 2)) then some 2
  else if c.nlev = 0 || c.nlev = 7 then some 3
  else if c.asrc = 3 || (c.asrc = 1 && 1 < c.rows) || (c.asrc = 2 && descRnd af = 2) then some 4
  else if c.low (·.dw) c.wbase < 0 || 31 < c.high (·.dw) c.wbase || c.banks.any fun j => !p.isTile j then some 5
  else if c.banks.any fun j => (match p.tile? j with
      | some t => t.c ≠ container fw || t.scales != (descBsk wf ≠ 0)
      | none => true) then some 6
  else if c.low (·.dz) c.zbase < 0 || 7 < c.high (·.dz) c.zbase || c.low (·.dza) c.zabase < 0 ||
      7 < c.high (·.dza) c.zabase || c.sources.any fun z => c.dests.contains z then some 7
  else
    let span : Int := (c.rows - 1 : Nat) * c.ars
    let aLo := c.low (·.da) c.abase + min 0 span
    let aHi := c.high (·.da) c.abase + max 0 span + 16 * container fa
    let sHi := c.high (·.ds) c.sbase + (4 * (c.rows - 1) : Nat) + 4
    let misaligned := c.abase % 16 ≠ 0 || c.ars % 16 ≠ 0 || c.sbase % 4 ≠ 0 ||
      c.levels.any fun l => l.da % 16 ≠ 0 || l.ds % 4 ≠ 0
    if misaligned || (c.asrc = 0 && (aLo < 0 || scr < aHi ||
        (descBsk af ≠ 0 && (c.low (·.ds) c.sbase < 0 || scr < sHi)))) then some 8
    else none

/-! ### Queue and timeline -/

/-- Banks, destinations and sources that a queue entry references. -/
def MEntry.banks (e : MEntry) : List Nat := if e.kind = .nest then (readCfg e.cfg).banks else []
/-- Tiles that an entry writes. -/
def MEntry.writes (e : MEntry) : List Nat :=
  match e.kind with
  | .nest => (readCfg e.cfg).dests
  | .zclr => (List.range 8).filter fun z => e.imm.getLsbD z
  | .cal => []
/-- Tiles that an entry writes or reads. -/
def MEntry.tiles (e : MEntry) : List Nat := e.writes ++ (if e.kind = .nest then (readCfg e.cfg).sources else [])

/-- The queue holds four entries (R229). -/
def Matrix.full (m : Matrix) : Bool := 4 ≤ m.queue.length

/-- The next number of timeline M is taken (R23). -/
def State.takeM (s : State) : W64 × State :=
  let t := s.ctx.tlm.next
  (t.issued, s.modCtx fun c => { c with tlm := t })

/-- Whether an operation numbered up to n has finished reading its sources; one that reads none, once it is complete. -/
def Ctx.readsDone (c : Ctx) (n : W64) : Bool :=
  (c.mx.queue.all fun e => n.toNat < e.num.toNat ||
    (e.kind == .nest && e.started.isSome && e.step == (readCfg e.cfg).total)) &&
    c.mx.loads.all fun l => l.isSig || n.toNat < l.num.toNat || l.tile.isSome

/-- Whether the signal of an MSIG is due: its number is the last one issued before it (R235). -/
def Ctx.msigDue (c : Ctx) (l : MLoad) : Bool :=
  if l.o.w.spt = 0 then l.num.toNat ≤ c.tlm.mark.toNat else c.readsDone l.num

/-- Signals of MSIGs that have fallen due. -/
def State.matrixSigs (s : State) : State :=
  let c := s.ctx
  let due := c.mx.loads.filter fun l => l.isSig && c.msigDue l
  let s := s.modMx fun m => { m with loads := m.loads.filter fun l => !(l.isSig && c.msigDue l) }
  due.foldl (fun s l => s.signalBoth l.o.w) s

/-- An operation of timeline M completes: its signals, TLM, and what waited for it. -/
def State.matrixDone (s : State) (num : W64) (w : WaitSig) (signalled : Bool) : State :=
  let s := s.signalAt s.me s.rid w 0
  let s := if signalled then s else s.signalAt s.me s.rid w 1
  (s.modCtx fun c => { c with tlm := c.tlm.complete num }).matrixSigs

/-! ### The instructions (R226 to R235) -/

/-- Reserved bits of a word of the set (R210). -/
def cfgReserved (w : Nat) (x : W64) : Bool :=
  if w = 1 then bits x.toNat 63 53 ≠ 0 else 4 ≤ w && bits x.toNat 63 48 ≠ 0

/-- MCFG. Where several of its traps apply, the poison-use trap comes first (log entry 116). -/
def execMcfg (o : FM) (s : State) : Out :=
  s.s5 o.w fun s =>
    let w := o.imm.toNat
    if s.psS o.sa then s.trap cPoison
    else if w = 2 || w = 3 || 15 < w || cfgReserved w (s.rdS o.sa) then s.trap cIllegalOperand
    else .next ((s.modMx fun m => { m with shadow := vset m.shadow w (s.rdS o.sa) }).signalBoth o.w)

def execMfmt (o : FM) (s : State) : Out :=
  s.s5 o.w fun s =>
    .next ((s.modMx fun m => { m with shadow := vset m.shadow 2 (zext (o.imm.extractLsb' 0 7)) }).signalBoth o.w)

/-- The start of a nest from a format-table entry (R229). -/
def State.mgo (s : State) (o : FM) (entry : Nat) : Out :=
  let sh := s.ctx.mx.shadow
  let c := readCfg sh
  match s.pre.r.entry entry with
  | none => s.trap cReserved 1
  | some (af, wf, outf) =>
    match mgoReject s.core.pool (2 ^ 15 * s.core.pool.lb.length) c af wf with
    | some d => s.trap cReserved d
    | none =>
      let n := s.takeM
      let v := c.asrc = 1
      let e : MEntry :=
        { kind := .nest, num := n.1, imm := zext o.imm, w := o.w, ba := s.iss.ba, af := af, wf := wf, outf := outf,
          cfg := sh, va := if v then s.rdV o.va else 0, vap := if v then s.psV o.va else 0, at0 := s.core.cycle }
      .next (n.2.modMx fun m => { m with active := sh, queue := m.queue ++ [e] })

/-- A bundle whose entry finds the queue full does not issue (R229). -/
def State.s5Queue (s : State) (o : FM) (run : State → Out) : Out :=
  s.s5 o.w fun s => if s.ctx.mx.full then .next s.hold else run s

def execMgoFix (o : FM) (s : State) : Out := s.s5Queue o fun s => s.mgo o (o.imm.toNat / 16)

/-- The level has to exist before an entry can be named (R225). -/
def execMgoLoop (o : FM) (s : State) : Out :=
  s.s5Queue o fun s =>
    match s.pre.q.loops[o.imm.toNat]? with
    | none => s.trap cReserved 3
    | some l => s.mgo o (l.index.toNat % 16)

/-- Whether an MLDW leaves its bank's record as it is. -/
def Pool.sameRecord (p : Pool) (o : FM) : Bool :=
  match p.tile? o.bank with
  | some t => t.cw = o.cw && t.scales == o.scaled && t.sparse == o.sparse
  | none => false

/-- The ranges that an MLDW reads, with the spaces of R230. -/
def mldwSpans (o : FM) (src scl : W64) : List Span :=
  ⟨src, flatReach o.tileBytes, [0, 2]⟩ :: (if o.scaled then [⟨scl, flatReach 512, [0, 2]⟩] else [])

/-- MLDW. The order of its traps, of which R230 places only some, is log entry 116. -/
def execMldw (o : FM) (s : State) : Out :=
  s.s5 o.w fun s =>
    let src := s.rdS o.sa
    let scl := if o.scaled then s.rdS o.sd else 0
    if s.psS o.sa || (o.scaled && s.psS o.sd) then s.trap cPoison
    else match (mldwSpans o src scl).findSome? Span.fault with
    | some a => s.trap cCopy 0 0 a
    | none =>
    if src.toNat % 64 ≠ 0 || scl.toNat % 64 ≠ 0 then s.trap cIllegalOperand
    else if (o.sparse && o.cw = 2) || !s.core.pool.isTile o.bank then s.trap cIllegalOperand
    else if !s.core.pool.sameRecord o && s.ctx.mx.queue.any fun e => e.banks.contains o.bank then s.trap cReserved 6
    else
      let n := s.takeM
      let l : MLoad := { num := n.1, o := o, ba := s.iss.ba, src := src, scl := scl, at0 := s.core.cycle }
      .next (n.2.modMx fun m => { m with loads := m.loads ++ [l] })

/-- Row m of tile z in a file of rows. -/
def tileRow (f : Vector (BitVec 4096) 256) (z m : Nat) : BitVec 4096 := vget f (32 * z + m)
/-- The FP32 patterns of a row. -/
def rowList (r : BitVec 4096) : List Nat := (List.range 128).map (elem 32 r.toNat)
def rowOf (l : List Nat) : BitVec 4096 := BitVec.ofNat 4096 (packEl 32 l)

/-- The status word of a tile (R223). -/
def Matrix.status (m : Matrix) (z : Nat) : W64 :=
  let t := (m.stat[z]?).getD {}
  let busy := m.queue.any fun e => e.writes.contains z
  let psn := (List.range 32).any fun r => (rowList (tileRow m.bnd z r)).any isNan32
  BitVec.ofNat 64 (t.steps.toNat + b2n psn * 2 ^ 60 + b2n t.stale * 2 ^ 61 + b2n t.clip * 2 ^ 62 + b2n busy * 2 ^ 63)

/-- MRDZ and MRDB (R224, R231). -/
def State.mrd (s : State) (o : FM) (file : Matrix → Vector (BitVec 4096) 256) : Out :=
  s.s5 o.w fun s =>
    let m := s.ctx.mx
    let z := o.zt.toNat
    let row := o.imm.toNat % 32
    let h := o.imm.toNat / 32 % 2
    let half (f : Vector (BitVec 4096) 256) : VWord := (tileRow f z row).extractLsb' (2048 * h) 2048
    let g := groupMask 32 fun i => isNan32 (elem 32 (half m.bnd).toNat i)
    .next (((s.wrV o.vd (half (file m)) g 8).wrS o.sd (m.status z) false 8).signalLater o.w 8)

def execMrdz (o : FM) (s : State) : Out := s.mrd o Matrix.val
def execMrdb (o : FM) (s : State) : Out := s.mrd o Matrix.bnd

/-- MCAL. Where both of its traps apply, the poison-use trap comes first (log entry 116). -/
def execMcal (o : FM) (s : State) : Out :=
  s.s5Queue o fun s =>
    let x := s.rdS o.sa
    if s.psS o.sa then s.trap cPoison
    else if bits x.toNat 63 32 ≠ 0 || (List.range 32).any fun j => x.getLsbD j && !s.core.pool.isTile j then
      s.trap cIllegalOperand
    else
      let n := s.takeM
      .next (n.2.modMx fun m => { m with queue := m.queue ++
        [{ kind := .cal, num := n.1, imm := x, w := o.w, ba := s.iss.ba, at0 := s.core.cycle }] })

def execMzclr (o : FM) (s : State) : Out :=
  s.s5Queue o fun s =>
    if o.imm = 0 then s.trap cIllegalOperand
    else
      let n := s.takeM
      .next (n.2.modMx fun m => { m with queue := m.queue ++
        [{ kind := .zclr, num := n.1, imm := zext o.imm, w := o.w, ba := s.iss.ba, at0 := s.core.cycle }] })

/-- A row converted to a format (R219, R232): containers, scale bytes, flags, and the state after the draws. -/
def State.mavRow (s : State) (d : W32) (vs : List Nat) : VWord × BitVec 5 × State :=
  let ds := if descRnd d = 2 then s.draws 128 else ([], s)
  let ms : List RMode := match descRnd d with
    | 0 => List.replicate 128 .rne
    | 1 => List.replicate 128 .rtz
    | _ => ds.1.map fun x => .sr (drawBits x)
  let qs := (List.range 4).map fun b => quantBlk d ((ms.drop (32 * b)).take 32) ((vs.drop (32 * b)).take 32)
  let c := container (descFmt d)
  let low := packEl c (qs.flatMap (·.pats))
  let sc := if descBsk d = 0 then 0 else packEl 8 (qs.map (·.scale))
  (BitVec.ofNat 2048 (low + sc * 2 ^ 1024), (qs.map (·.fl)).foldl (· ||| ·) 0, ds.2)

/-- MAV. Where several of its traps apply, the poison-use trap comes first (log entry 116). -/
def execMav (o : FM) (s : State) : Out :=
  s.s5 o.w fun s =>
    let x := s.rdS o.sa
    let e := (vget s.pre.r.ft o.imm.toNat).toNat
    let d := vget s.pre.r.f (bits e 11 8)
    if s.psS o.sa then s.trap cPoison
    else if 32 ≤ x.toNat then s.trap cIllegalOperand
    else if bits e 15 12 ≠ 0 || !descValid d then s.trap cIllegalOperand
    else
      let m := s.ctx.mx
      let z := o.zt.toNat
      let r := s.mavRow d (rowList (tileRow m.val z x.toNat))
      let bs := rowList (tileRow m.bnd z x.toNat)
      let c := container (descFmt d)
      let cg : W32 := groupMask c fun i => i < 128 && isNan32 (bs.getD i 0)
      let g := if bs.any isNan32 then cg ||| (1 <<< 16) else cg
      .next (((r.2.2.wrV o.vd r.1 g 12).raise r.2.1 12).signalLater o.w 12)

def execMsig (o : FM) (s : State) : Out :=
  s.s5 o.w fun s =>
    let l : MLoad := { num := s.ctx.tlm.issued, o := o, ba := s.iss.ba, src := 0, scl := 0, isSig := true }
    .next ((s.modMx fun m => { m with loads := m.loads ++ [l] }).matrixSigs)

/-! ### Starting an entry (R234, R236, R250) -/

/-- Contexts whose queued commands start: those that are neither being saved nor saved. -/
def Life.starts : Life → Bool
  | .resident | .dormant | .retiring => true
  | _ => false

/-- While a context is being saved, an MCAL of its queue completes, and so does what stands before it: the MLDWs behind it have
to (R233, R237; log entry 104). -/
def Ctx.drains (c : Ctx) (e : MEntry) : Bool :=
  c.sch.life = .saving && c.mx.queue.any fun x => x.kind = .cal && e.num.toNat ≤ x.num.toNat

/-- Whether the entry at the head of the unstarted ones may start behind those before it. -/
def Ctx.mayStart (c : Ctx) (before : List MEntry) (e : MEntry) : Bool :=
  (c.sch.life.starts || c.drains e) && (before.filter fun x => x.started.isSome).length < 2 && before.all (fun x => x.started.isSome) &&
    before.all (fun x => x.kind ≠ .cal) &&
    (match e.kind with
     | .nest => true
     | .zclr => before.all fun x => x.tiles.all fun z => !e.writes.contains z
     | .cal => c.tlm.mark.toNat + 1 = e.num.toNat)

/-- Tile bank j still serves nests: it has the TILE role, and where a change takes it, its tiles are not free yet: nests accepted
before the commit continue (R248). -/
def Pool.servesTile (p : Pool) (j : Nat) : Bool :=
  vget p.roles (64 + j) = 3 && (!p.moving.contains (64 + j) || p.change.all fun ch => ch.tileDone.isNone)

/-- A restored nest whose banks have changed (R250): the detail of its record. -/
def State.nestInvalid (s : State) (e : MEntry) : Option Nat :=
  if e.restored && e.kind = .nest then
    if e.banks.any fun j => !s.core.pool.servesTile j then some 5
    else if e.banks.any fun j => (match s.core.pool.tile? j with
        | some t => t.c ≠ container (descFmt e.wf) || t.scales != (descBsk e.wf ≠ 0)
        | none => true) then some 6
    else none
  else none

/-- Tiles set to +0, their status cleared. -/
def Matrix.zeroTiles (m : Matrix) (zs : List Nat) : Matrix :=
  zs.foldl (fun m z =>
    let clear (v : Vector (BitVec 4096) 256) : Vector (BitVec 4096) 256 :=
      (List.range 32).foldl (fun v r => vset v (32 * z + r) 0) v
    { m with val := clear m.val, bnd := clear m.bnd, stat := vset m.stat z {} }) m

def State.dropEntry (s : State) (num : W64) : State :=
  s.modMx fun m => { m with queue := m.queue.filter fun e => e.num ≠ num }

def State.modEntry (s : State) (num : W64) (f : MEntry → MEntry) : State :=
  s.modMx fun m => { m with queue := replaceIf (fun e => e.num = num) f m.queue }

/-- MATRIX_ENTRY_START: the oldest unstarted entry starts. -/
def execMatrixEntryStart (c : CtxId) (s : State) : Out :=
  match s.focus c with
  | none => .next s
  | some s' =>
    let before := s'.ctx.mx.queue.takeWhile fun e => e.started.isSome
    match s'.ctx.mx.queue.drop before.length with
    | [] => .next s
    | e :: _ =>
      if s'.ctx.mayStart before e then
        match s'.nestInvalid e with
        | some d =>
          let s1 := (s'.dropEntry e.num).matrixDone e.num e.w e.signalled
          .next (s1.imprecise c
            { cause := cReserved, slot := 5, prec := false, detail := d, ba := e.ba, tgt := e.num, tl := 1 })
        | none =>
          let s1 := s'.modEntry e.num fun e => { e with started := some s'.core.cycle }
          if e.kind = .zclr then
            .next (((s1.modMx fun m => m.zeroTiles e.writes).dropEntry e.num).matrixDone e.num e.w e.signalled)
          else .next s1
      else .next s

/-! ### A tile operation (R208, R209, R217, R222, R224) -/

/-- An A row: its blocks, whether it is poisoned, the flags of its down-conversion. -/
structure ARow where
  blks : List Blk
  bad : Bool
  fl : BitVec 5
deriving DecidableEq, Repr

/-- Blocks of a row from its containers and its scale bytes. -/
def rowBlks (d : W32) (row scale : Nat) : List Blk :=
  let f := descFmt d
  (List.range 4).map fun b =>
    alignBlk f ((List.range 32).map fun k => elem (container f) row (32 * b + k))
      (if descBsk d = 0 then .fin false 1 1 else scaleVal (descBsk d) (elem 8 scale b)) none

/-- Bytes of the scratchpad at an offset, and whether one of them is uncorrectable. -/
def State.scrBytes (s : State) (off : Int) (n : Nat) : Option (Nat × Bool) :=
  match s.route s.me s.rid Access.load (BitVec.ofNat 64 off.toNat) n with
  | .ok rs => let g := s.gather s.me 0 rs; some (leNat g.1, g.2 ≠ [])
  | _ => none

def State.aRow (s : State) (e : MEntry) (c : MCfg) (k m : Nat) : Option ARow :=
  match c.asrc with
  | 0 =>
    match s.scrBytes (c.gen (·.da) c.abase k + m * c.ars) (16 * container (descFmt e.af)) with
    | none => none
    | some row =>
      if descBsk e.af = 0 then some { blks := rowBlks e.af row.1 0, bad := row.2, fl := 0 }
      else (s.scrBytes (c.gen (·.ds) c.sbase k + (4 * m : Nat)) 4).map fun sc =>
        { blks := rowBlks e.af row.1 sc.1, bad := row.2 || sc.2, fl := 0 }
  | 1 =>
    some { blks := rowBlks e.af e.va.toNat (e.va.toNat / 2 ^ 1024), bad := e.vap.toNat % 2 ^ 17 ≠ 0, fl := 0 }
  | _ =>
    let za := (c.gen (·.dza) c.zabase k).toNat
    let bs := rowList (tileRow s.ctx.mx.bnd za m)
    let r := chainRow e.af (rowList (tileRow s.ctx.mx.val za m)) bs
    some { blks := r.1, bad := bs.any isNan32, fl := r.2 }

/-- The blocks of a column of a tile. -/
def TileRec.column (t : TileRec) (d : W32) (n : Nat) : List Blk :=
  let f := descFmt d
  (List.range 4).map fun b =>
    alignBlk f ((List.range 32).map fun k => elem t.c t.weights.toNat (128 * (32 * b + k) + n))
      (if descBsk d = 0 then .fin false 1 1 else scaleVal (descBsk d) (elem 8 t.scale.toNat (128 * b + n))) none

/-- The source lines of the elements of a column: its containers, its index nibbles, its scales (R221). -/
def TileRec.columnLines (t : TileRec) (n : Nat) : List Nat :=
  let line (row : Nat) : Nat := (16 * t.c * row + t.c * n / 8) / 64
  let kept (g : Nat) : List Nat :=
    let live := ((List.range 4).filter fun p => !t.pruned.getLsbD (128 * (4 * g + p) + n)).length
    (if live = 1 then [line (2 * g + 1)] else [line (2 * g), line (2 * g + 1)]) ++ [16 * t.c + g]
  (if t.sparse then (List.range 32).flatMap kept else (List.range 128).map line) ++
    (if t.scales then (List.range 4).map fun b => 256 + (128 * b + n) / 64 else [])

def TileRec.badColumn (t : TileRec) (n : Nat) : Bool := t.poison ≠ [] && (t.columnLines n).any t.poison.contains

/-- One output row: the blocks of the A row against every column, in increasing column order. -/
def runRow (c : Split) (a : List Blk) (cols : List (List Blk)) (vals bnds : List Nat) (nfree : Nat) : List Acc × Nat :=
  ((cols.zip (vals.zip bnds)).foldl (fun (r : List Acc × Nat) x =>
    let z : Acc := { acc := x.2.1, bnd := x.2.2, fl := 0, clip := false, ran := false, nfree := r.2 }
    let z := (a.zip x.1).foldl (fun z p => stepBlock c p.1 p.2 z) z
    (z :: r.1, z.nfree)) ([], nfree)) |> fun r => (r.1.reverse, r.2)

/-- A row of the destination updated, its poisoned elements first (R224): the matrix part, the flags, whether a block clipped or ran, the counter. -/
structure TileRun where
  mx : Matrix
  fl : BitVec 5 := 0
  clip : Bool := false
  ran : Bool := false
  nfree : Nat

def TileRun.row (r : TileRun) (c : Split) (cols : List (List Blk)) (badCols : List Bool) (zd m : Nat) (a : ARow) :
    TileRun :=
  let bnds := ((rowList (tileRow r.mx.bnd zd m)).zip badCols).map fun x => if a.bad || x.2 then qnan32 else x.1
  let q := runRow c a.blks cols (rowList (tileRow r.mx.val zd m)) bnds r.nfree
  { mx := { r.mx with val := vset r.mx.val (32 * zd + m) (rowOf (q.1.map (·.acc))),
                      bnd := vset r.mx.bnd (32 * zd + m) (rowOf (q.1.map (·.bnd))) },
    fl := q.1.foldl (fun f z => f ||| z.fl) (r.fl ||| a.fl), clip := r.clip || q.1.any (·.clip),
    ran := r.ran || q.1.any (·.ran), nfree := q.2 }

/-- The tile operation of index k of an entry: its rows, status and flags. -/
def State.tileOp (s : State) (e : MEntry) (t : TileRec) (rows : List ARow) : State :=
  let c := readCfg e.cfg
  let zd := (c.gen (·.dz) c.zbase e.step).toNat
  let stale := s.staleBank t.bank
  let sp : Split := { s := c.s, g := c.g, stale := stale, chained := c.asrc = 2, af := descFmt e.af }
  let cols := (List.range 128).map fun n => t.column e.wf n
  let bad := (List.range 128).map t.badColumn
  let r := ((List.range c.rows).zip rows).foldl (fun r x => TileRun.row r sp cols bad zd x.1 x.2)
    ({ mx := s.ctx.mx, nfree := s.nfree } : TileRun)
  let st := (r.mx.stat[zd]?).getD {}
  let st : ZStat := { clip := st.clip || r.clip, stale := st.stale || (0 < c.s && stale && r.ran), steps := st.steps + 1 }
  let s := { s with nfree := r.nfree }
  (s.modMx fun _ => { r.mx with stat := vset r.mx.stat zd st }).engineEvent 5 1 e.num e.ba r.fl

/-- The cycle from which a bank is not occupied by a tile operation that has started on it (R208). -/
def Core.bankFree (c : Core) (j : Nat) : Nat := assocD 0 j c.bankDone

/-- The number of the tile operation of an entry that starts next. -/
def MEntry.next (e : MEntry) : Nat := e.step + e.runs.length

/-- The bank of that tile operation. -/
def MEntry.nextBank (e : MEntry) : Nat := let g := readCfg e.cfg; (g.gen (·.dw) g.wbase e.next).toNat

/-- The tiles that it writes and reads. -/
def MEntry.nextTiles (e : MEntry) : List Nat :=
  let g := readCfg e.cfg
  (g.gen (·.dz) g.zbase e.next).toNat :: (if g.asrc = 2 then [(g.gen (·.dza) g.zabase e.next).toNat] else [])

/-- A tile operation runs on a bank, or the bank has not had its 1,024 cycles (R208, R222). -/
def State.bankBusy (s : State) (j : Nat) : Bool :=
  s.core.cycle < s.core.bankFree j || s.ctx.mx.queue.any fun e => e.runs.any fun t => t.tile.bank = j

/-- A load that no MCAL before it holds back (R233). -/
def Matrix.live (m : Matrix) (l : MLoad) : Bool :=
  !l.isSig && !m.queue.any fun e => e.kind = .cal && e.num.toNat < l.num.toNat

/-- Whether the next tile operation of a nest can start: its bank is free, no MLDW runs into the bank, and no entry before it
references its tiles (R208, R222, R236). -/
def State.opReady (s : State) (e : MEntry) : Bool :=
  let mx := s.ctx.mx
  e.started.isSome && e.next < (readCfg e.cfg).total && e.at0 + 8 ≤ s.core.cycle &&
    !s.bankBusy e.nextBank && !(mx.loads.any fun l => mx.live l && l.o.bank = e.nextBank) &&
    !((mx.queue.takeWhile fun x => x.num ≠ e.num).any fun x => x.tiles.any e.nextTiles.contains)

/-- A tile operation of a nest starts, with the tile that its bank holds, and occupies the bank for 1,024 cycles (R208, R222). -/
def State.startTile (s : State) (e : MEntry) (t : TileRec) : State :=
  (s.modEntry e.num fun e => { e with runs := e.runs ++ [{ at0 := s.core.cycle, tile := t }] }).modCore fun k =>
    { k with bankDone := (e.nextBank, k.cycle + 1024) :: k.bankDone.filter fun x => x.1 ≠ e.nextBank }

/-- The oldest tile operation of a nest that runs, where its cycles are over. -/
def State.tileDue (s : State) (e : MEntry) : Option TileStart := e.runs.head?.filter fun t => t.at0 + 1024 ≤ s.core.cycle

/-- TILE_OPERATION: the oldest tile operation of a started nest that has had its 1,024 cycles is applied; else the next one starts.
They start and are applied in the order of R209, and up to one runs on every bank (R208). -/
def execTileOperation (c : CtxId) (num : W64) (s : State) : Out :=
  match s.focus c with
  | none => .next s
  | some s' =>
    match s'.ctx.mx.queue.find? fun e => e.num = num && e.kind = .nest with
    | none => .next s
    | some e =>
      match s'.tileDue e with
      | some t =>
        let g := readCfg e.cfg
        match (List.range g.rows).mapM fun m => s'.aRow e g e.step m with
        | some rows =>
          .next ((s'.tileOp e t.tile rows).modEntry num fun e => { e with step := e.step + 1, runs := e.runs.drop 1 })
        | none => .next s
      | none =>
        match s'.core.pool.tile? e.nextBank with
        | some t => if s'.opReady e then .next (s'.startTile e t) else .next s
        | none => .next s

/-- NEST_COMPLETE: all tile operations have been applied. -/
def execNestComplete (c : CtxId) (num : W64) (s : State) : Out :=
  match s.focus c with
  | none => .next s
  | some s' =>
    match s'.ctx.mx.queue.find? fun e => e.num = num && e.kind = .nest && e.started.isSome with
    | some e =>
      if (readCfg e.cfg).total ≤ e.step then .next ((s'.dropEntry num).matrixDone num e.w e.signalled) else .next s
    | none => .next s

/-! ### Loading a tile (R221, R222, R230) -/

/-- Element n of group g of a sparse tile: the containers of its four positions, and whether each is pruned. -/
def sparseGroup (c : Nat) (x g n : Nat) : List (Nat × Bool) :=
  let v (h : Nat) : Nat := elem c x (128 * (2 * g + h) + n)
  let nib := elem 4 (x / 2 ^ (8 * (1024 * c + 64 * g))) n
  let p0 := nib % 4
  let p1 := nib / 4
  (List.range 4).map fun p => if p = p1 then (v 1, false) else if p = p0 then (v 0, false) else (0, true)

/-- The tile that source bytes make (R221). -/
def makeTile (o : FM) (src scl : List Byte × List Nat) : TileRec :=
  let x := leNat src.1
  let at_ (k n : Nat) : Nat × Bool := ((sparseGroup o.c x (k / 4) n)[k % 4]?).getD (0, true)
  let cells := (List.range 128).flatMap fun k => (List.range 128).map fun n => at_ k n
  { bank := o.bank, cw := o.cw, scales := o.scaled, sparse := o.sparse,
    weights := if o.sparse then BitVec.ofNat 131072 (packEl o.c (cells.map (·.1))) else BitVec.ofNat 131072 x,
    scale := BitVec.ofNat 4096 (leNat scl.1),
    pruned := if o.sparse then BitVec.ofNat 16384 (packEl 1 (cells.map fun e => if e.2 then 1 else 0)) else 0,
    poison := ((src.2.map (· / 64)) ++ (scl.2.map fun i => 256 + i / 64)).eraseDups }

/-- The sources of an MLDW: their bytes, or that it waits, or that it fails at an address. -/
inductive TileRead where
  | tile (t : TileRec)
  | wait
  | fail (a : W64)

def State.readTile (s : State) (l : MLoad) : TileRead :=
  let at_ (a : W64) (n : Nat) : W64 := (s.firstFail s.me s.rid Access.load [(a, n)]).getD a
  match s.route s.me s.rid Access.load l.src l.o.tileBytes with
  | .fail _ => .fail (at_ l.src l.o.tileBytes)
  | .wait => .wait
  | .ok rs =>
    if l.o.scaled then
      match s.route s.me s.rid Access.load l.scl 512 with
      | .fail _ => .fail (at_ l.scl 512)
      | .wait => .wait
      | .ok qs => .tile (makeTile l.o (s.gather s.me 0 rs) (s.gather s.me 0 qs))
    else .tile (makeTile l.o (s.gather s.me 0 rs) ([], []))

/-- The tile of a failed MLDW: its record stands, its contents are free (R230). -/
def State.anyTile (s : State) (o : FM) : TileRec × State :=
  let a := s.anyBits 131072
  let b := a.2.anyBits 4096
  ({ bank := o.bank, cw := o.cw, scales := o.scaled, sparse := o.sparse, weights := a.1, scale := b.1, pruned := 0,
     poison := [] }, b.2)

def State.dropLoad (s : State) (num : W64) : State :=
  s.modMx fun m => { m with loads := m.loads.filter fun l => l.isSig || l.num ≠ num }

/-- An MLDW fails for good (R195, R230). -/
def State.failLoad (s : State) (l : MLoad) (a : W64) : State :=
  let id := s.ctx.id
  let t := s.anyTile l.o
  let s := t.2.modCore fun c => { c with pool := c.pool.putTile t.1 }
  let s := (s.dropLoad l.num).matrixDone l.num l.o.w l.tile.isSome
  s.copyFault id 5 1 l.num l.ba a

/-- A load that no MCAL before it holds back, with its context. -/
def State.liveLoad (s : State) (c : CtxId) (num : W64) : Option (State × MLoad) :=
  match s.focus c with
  | none => none
  | some s' =>
    match s'.ctx.mx.loads.find? fun l => !l.isSig && l.num = num with
    | some l => if s'.ctx.mx.live l then some (s', l) else none
    | none => none

/-- MLDW_COMPLETE: the tile and its record stand in the bank, once the tile operation that runs on it has ended (R222). -/
def execMldwComplete (c : CtxId) (num : W64) (s : State) : Out :=
  match s.liveLoad c num with
  | none => .next s
  | some (s', l) =>
    if s'.bankBusy l.o.bank then .next s
    else
      match l.tile.map TileRead.tile |>.getD (s'.readTile l) with
      | .wait => .next s
      | .fail a => .next (s'.failLoad l a)
      | .tile t =>
        let s1 := s'.modCore fun k => { k with pool := k.pool.putTile t }
        .next ((s1.dropLoad num).matrixDone num l.o.w l.tile.isSome)

/-- The matrix half of SOURCE_READS_FINISHED: an SPT 1 signal falls due before completion (R60, R226, R229). -/
def State.matrixReadsFinished (s : State) (c : CtxId) (num : W64) : State :=
  match s.liveLoad c num with
  | some (s', l) =>
    if l.tile.isSome then s
    else
      match s'.readTile l with
      | .tile t =>
        let s1 := s'.modMx fun m =>
          { m with loads := replaceIf (fun x => !x.isSig && x.num = num) (fun x => { x with tile := some t }) m.loads }
        (s1.signalAt s1.me s1.rid l.o.w 1).matrixSigs
      | _ => s
  | none =>
    match s.focus c with
    | none => s
    | some s' =>
      match s'.ctx.mx.queue.find? fun e => e.num = num && e.kind = .nest && e.started.isSome && !e.signalled with
      | some e =>
        if (readCfg e.cfg).total ≤ e.step then
          let s1 := s'.modEntry num fun e => { e with signalled := true }
          (s1.signalAt s1.me s1.rid e.w 1).matrixSigs
        else s
      | none => s

/-! ### Calibration (R233) -/

/-- MCAL_COMPLETE: after 4,096 cycles the offsets, free values, and the temperature of the named banks are recorded. -/
def execMcalComplete (c : CtxId) (num : W64) (s : State) : Out :=
  match s.focus c with
  | none => .next s
  | some s' =>
    match s'.ctx.mx.queue.find? fun e => e.num = num && e.kind = .cal with
    | none => .next s
    | some e =>
      match e.started with
      | none => .next s
      | some t0 =>
        if s'.core.cycle < t0 + 4096 then .next s
        else
          let one (s : State) (j : Nat) : State :=
            let o := s.anyBits 2048
            let cal : Cal := { bank := j, offsets := o.1, at_ := s.bankTemp s.me }
            o.2.modCore fun k => { k with pool := { k.pool with cals := cal :: k.pool.cals.filter fun x => x.bank ≠ j } }
          let s1 := ((List.range 32).filter fun j => e.imm.getLsbD j).foldl one s'
          .next ((s1.dropEntry num).matrixDone num e.w e.signalled)

end Sys2Proof.Machine
end

