-- ==== Sys2Proof/Machine/Scalar.lean ====
section
/-!
DEFINITION. The scalar class (R100 to R112): integer, compare, long-immediate, floating-point and predicate instructions.
-/

namespace Sys2Proof.Machine

/-! ### Integer results (R102, R103) -/

/-- The shift count k of R102. -/
def shiftBy (b : W64) : Nat := b.toNat % 64

def iShl (a b : W64) : W64 := a <<< shiftBy b
def iShr (a b : W64) : W64 := a >>> shiftBy b
def iSar (a b : W64) : W64 := a.sshiftRight (shiftBy b)
def iRol (a b : W64) : W64 := a.rotateLeft (shiftBy b)
def iMulh (a b : W64) : W64 := BitVec.ofInt 64 (a.toInt * b.toInt / 2 ^ 64)
def iMulhn (a b : W64) : W64 := BitVec.ofNat 64 (a.toNat * b.toNat / 2 ^ 64)
def iDiv (a b : W64) : W64 := if b = 0 then BitVec.allOnes 64 else BitVec.ofInt 64 (a.toInt.tdiv b.toInt)
def iDivn (a b : W64) : W64 := if b = 0 then BitVec.allOnes 64 else BitVec.ofNat 64 (a.toNat / b.toNat)
def iRem (a b : W64) : W64 := if b = 0 then a else BitVec.ofInt 64 (a.toInt.tmod b.toInt)
def iRemn (a b : W64) : W64 := if b = 0 then a else BitVec.ofNat 64 (a.toNat % b.toNat)
def iMin (a b : W64) : W64 := if a.toInt < b.toInt then a else b
def iMax (a b : W64) : W64 := if a.toInt < b.toInt then b else a
def iMinn (a b : W64) : W64 := if a.toNat < b.toNat then a else b
def iMaxn (a b : W64) : W64 := if a.toNat < b.toNat then b else a
/-- Leading zero bits of the w-bit pattern x. -/
def clzN (w x : Nat) : Nat := if x = 0 then w else w - 1 - Nat.log2 x
/-- One bits of the w-bit pattern x. -/
def popN (w x : Nat) : Nat := ((List.range w).filter fun i => x.testBit i).length

/-- The compare conditions of R104. -/
def ccEq (a b : W64) : Bool := a = b
def ccNe (a b : W64) : Bool := a ≠ b
def ccLt (a b : W64) : Bool := a.toInt < b.toInt
def ccGe (a b : W64) : Bool := b.toInt ≤ a.toInt
def ccLtn (a b : W64) : Bool := a.toNat < b.toNat
def ccGen (a b : W64) : Bool := b.toNat ≤ a.toNat

/-! ### Integer instructions (R102 to R105) -/

def execAdd (d a b : R6) (s : State) : Out := s.scal d [a, b] 1 ((s.rdS a) + (s.rdS b))
def execSub (d a b : R6) (s : State) : Out := s.scal d [a, b] 1 ((s.rdS a) - (s.rdS b))
def execAnd (d a b : R6) (s : State) : Out := s.scal d [a, b] 1 ((s.rdS a) &&& (s.rdS b))
def execOr (d a b : R6) (s : State) : Out := s.scal d [a, b] 1 ((s.rdS a) ||| (s.rdS b))
def execXor (d a b : R6) (s : State) : Out := s.scal d [a, b] 1 ((s.rdS a) ^^^ (s.rdS b))
def execAndn (d a b : R6) (s : State) : Out := s.scal d [a, b] 1 ((s.rdS a) &&& ~~~(s.rdS b))
def execShl (d a b : R6) (s : State) : Out := s.scal d [a, b] 1 (iShl (s.rdS a) (s.rdS b))
def execShr (d a b : R6) (s : State) : Out := s.scal d [a, b] 1 (iShr (s.rdS a) (s.rdS b))
def execSar (d a b : R6) (s : State) : Out := s.scal d [a, b] 1 (iSar (s.rdS a) (s.rdS b))
def execRol (d a b : R6) (s : State) : Out := s.scal d [a, b] 1 (iRol (s.rdS a) (s.rdS b))
def execMul (d a b : R6) (s : State) : Out := s.scal d [a, b] 3 ((s.rdS a) * (s.rdS b))
def execMulh (d a b : R6) (s : State) : Out := s.scal d [a, b] 3 (iMulh (s.rdS a) (s.rdS b))
def execMulhn (d a b : R6) (s : State) : Out := s.scal d [a, b] 3 (iMulhn (s.rdS a) (s.rdS b))
def execDiv (d a b : R6) (s : State) : Out := s.scal d [a, b] 20 (iDiv (s.rdS a) (s.rdS b))
def execDivn (d a b : R6) (s : State) : Out := s.scal d [a, b] 20 (iDivn (s.rdS a) (s.rdS b))
def execRem (d a b : R6) (s : State) : Out := s.scal d [a, b] 20 (iRem (s.rdS a) (s.rdS b))
def execRemn (d a b : R6) (s : State) : Out := s.scal d [a, b] 20 (iRemn (s.rdS a) (s.rdS b))
def execMin (d a b : R6) (s : State) : Out := s.scal d [a, b] 1 (iMin (s.rdS a) (s.rdS b))
def execMax (d a b : R6) (s : State) : Out := s.scal d [a, b] 1 (iMax (s.rdS a) (s.rdS b))
def execMinn (d a b : R6) (s : State) : Out := s.scal d [a, b] 1 (iMinn (s.rdS a) (s.rdS b))
def execMaxn (d a b : R6) (s : State) : Out := s.scal d [a, b] 1 (iMaxn (s.rdS a) (s.rdS b))
def execClz (d a : R6) (s : State) : Out := s.scal d [a] 1 (BitVec.ofNat 64 (clzN 64 (s.rdS a).toNat))
def execPopc (d a : R6) (s : State) : Out := s.scal d [a] 1 (BitVec.ofNat 64 (popN 64 (s.rdS a).toNat))

def execAddImm (d a : R6) (imm : BitVec 12) (s : State) : Out :=
  s.scal d [a] 1 ((s.rdS a) + (sext imm))
def execSubImm (d a : R6) (imm : BitVec 12) (s : State) : Out :=
  s.scal d [a] 1 ((s.rdS a) - (sext imm))
def execAndImm (d a : R6) (imm : BitVec 12) (s : State) : Out :=
  s.scal d [a] 1 ((s.rdS a) &&& (sext imm))
def execOrImm (d a : R6) (imm : BitVec 12) (s : State) : Out :=
  s.scal d [a] 1 ((s.rdS a) ||| (sext imm))
def execXorImm (d a : R6) (imm : BitVec 12) (s : State) : Out :=
  s.scal d [a] 1 ((s.rdS a) ^^^ (sext imm))
def execAndnImm (d a : R6) (imm : BitVec 12) (s : State) : Out :=
  s.scal d [a] 1 ((s.rdS a) &&& ~~~(sext imm))
def execShlImm (d a k : R6) (s : State) : Out := s.scal d [a] 1 (iShl (s.rdS a) (zext k))
def execShrImm (d a k : R6) (s : State) : Out := s.scal d [a] 1 (iShr (s.rdS a) (zext k))
def execSarImm (d a k : R6) (s : State) : Out := s.scal d [a] 1 (iSar (s.rdS a) (zext k))
def execRolImm (d a k : R6) (s : State) : Out := s.scal d [a] 1 (iRol (s.rdS a) (zext k))
def execMulImm (d a : R6) (imm : BitVec 12) (s : State) : Out :=
  s.scal d [a] 3 ((s.rdS a) * (sext imm))
def execMulhImm (d a : R6) (imm : BitVec 12) (s : State) : Out :=
  s.scal d [a] 3 (iMulh (s.rdS a) (sext imm))
def execMulhnImm (d a : R6) (imm : BitVec 12) (s : State) : Out :=
  s.scal d [a] 3 (iMulhn (s.rdS a) (sext imm))
def execDivImm (d a : R6) (imm : BitVec 12) (s : State) : Out :=
  s.scal d [a] 20 (iDiv (s.rdS a) (sext imm))
def execDivnImm (d a : R6) (imm : BitVec 12) (s : State) : Out :=
  s.scal d [a] 20 (iDivn (s.rdS a) (sext imm))
def execRemImm (d a : R6) (imm : BitVec 12) (s : State) : Out :=
  s.scal d [a] 20 (iRem (s.rdS a) (sext imm))
def execRemnImm (d a : R6) (imm : BitVec 12) (s : State) : Out :=
  s.scal d [a] 20 (iRemn (s.rdS a) (sext imm))
def execMinImm (d a : R6) (imm : BitVec 12) (s : State) : Out :=
  s.scal d [a] 1 (iMin (s.rdS a) (sext imm))
def execMaxImm (d a : R6) (imm : BitVec 12) (s : State) : Out :=
  s.scal d [a] 1 (iMax (s.rdS a) (sext imm))
def execMinnImm (d a : R6) (imm : BitVec 12) (s : State) : Out :=
  s.scal d [a] 1 (iMinn (s.rdS a) (sext imm))
def execMaxnImm (d a : R6) (imm : BitVec 12) (s : State) : Out :=
  s.scal d [a] 1 (iMaxn (s.rdS a) (sext imm))

def execCmpEq (d a b : R6) (s : State) : Out := s.scal d [a, b] 1 (boolW (ccEq (s.rdS a) (s.rdS b)))
def execCmpNe (d a b : R6) (s : State) : Out := s.scal d [a, b] 1 (boolW (ccNe (s.rdS a) (s.rdS b)))
def execCmpLt (d a b : R6) (s : State) : Out := s.scal d [a, b] 1 (boolW (ccLt (s.rdS a) (s.rdS b)))
def execCmpGe (d a b : R6) (s : State) : Out := s.scal d [a, b] 1 (boolW (ccGe (s.rdS a) (s.rdS b)))
def execCmpLtn (d a b : R6) (s : State) : Out := s.scal d [a, b] 1 (boolW (ccLtn (s.rdS a) (s.rdS b)))
def execCmpGen (d a b : R6) (s : State) : Out := s.scal d [a, b] 1 (boolW (ccGen (s.rdS a) (s.rdS b)))
def execCmpEqImm (d a : R6) (imm : BitVec 12) (s : State) : Out :=
  s.scal d [a] 1 (boolW (ccEq (s.rdS a) (sext imm)))
def execCmpNeImm (d a : R6) (imm : BitVec 12) (s : State) : Out :=
  s.scal d [a] 1 (boolW (ccNe (s.rdS a) (sext imm)))
def execCmpLtImm (d a : R6) (imm : BitVec 12) (s : State) : Out :=
  s.scal d [a] 1 (boolW (ccLt (s.rdS a) (sext imm)))
def execCmpGeImm (d a : R6) (imm : BitVec 12) (s : State) : Out :=
  s.scal d [a] 1 (boolW (ccGe (s.rdS a) (sext imm)))
def execCmpLtnImm (d a : R6) (imm : BitVec 12) (s : State) : Out :=
  s.scal d [a] 1 (boolW (ccLtn (s.rdS a) (sext imm)))
def execCmpGenImm (d a : R6) (imm : BitVec 12) (s : State) : Out :=
  s.scal d [a] 1 (boolW (ccGen (s.rdS a) (sext imm)))

/-- R105: the sign-extended immediate. -/
def execMovi (d : R6) (imm : BitVec 18) (s : State) : Out := s.scal d [] 1 (sext imm)

/-- The word with its h-th 16 bits replaced. -/
def putHalf (x : W64) (h : BitVec 2) (k : BitVec 16) : W64 :=
  (x &&& ~~~((0xFFFF : W64) <<< (16 * h.toNat))) ||| (zext k <<< (16 * h.toNat))

/-- R105: sd is a source, so its poison stays. -/
def execMovk (d : R6) (h : BitVec 2) (k : BitVec 16) (s : State) : Out := s.scal d [d] 1 (putHalf (s.rdS d) h k)

/-- R105: an address relative to the bundle. -/
def execAddpc (d : R6) (imm : BitVec 18) (s : State) : Out := s.scal d [] 1 (s.iss.ba + 2 * sext imm)

/-! ### Floating point (R106 to R110) -/

/-- The latency of FDIV and FSQRT by format (R101). -/
def fdivLat (t : BitVec 2) : Nat := if t = 0 then 22 else if t = 1 then 14 else 10
def fsqrtLat (t : BitVec 2) : Nat := if t = 0 then 24 else if t = 1 then 14 else 10

/-- A binary floating instruction. -/
def State.fpBin (s : State) (d a b : R6) (t : BitVec 2) (lat : Nat) (op : Fmt → Nat → Nat → Nat × BitVec 5) : Out :=
  let f := scalarFmt t
  s.fpScal d [a, b] f.w lat (op f (s.rdF a f.w) (s.rdF b f.w))

/-- A floating compare: a truth value and NV. -/
def State.fpCompare (s : State) (d a b : R6) (t : BitVec 2) (any : Bool) (rel : Val → Val → Bool) : Out :=
  let f := scalarFmt t
  let r := fpCmp f any rel (s.rdF a f.w) (s.rdF b f.w)
  s.fpScal d [a, b] 64 2 (if r.1 then 1 else 0, r.2)

/-- The relations of R108. -/
def relLe (a b : Val) : Bool := valLt a b || valEq a b
def relUn (a b : Val) : Bool := a == .nan || b == .nan

def execFadd (d a b : R6) (t m : BitVec 2) (s : State) : Out := s.fpBin d a b t 4 fun f => fpAdd f (modeOf m.toNat)
def execFsub (d a b : R6) (t m : BitVec 2) (s : State) : Out := s.fpBin d a b t 4 fun f => fpSub f (modeOf m.toNat)
def execFmul (d a b : R6) (t m : BitVec 2) (s : State) : Out := s.fpBin d a b t 4 fun f => fpMul f (modeOf m.toNat)
def execFdiv (d a b : R6) (t m : BitVec 2) (s : State) : Out := s.fpBin d a b t (fdivLat t) fun f => fpDiv f (modeOf m.toNat)
def execFsqrt (d a : R6) (t m : BitVec 2) (s : State) : Out :=
  let f := scalarFmt t
  s.fpScal d [a] f.w (fsqrtLat t) (fpSqrt f (modeOf m.toNat) (s.rdF a f.w))
def execFmin (d a b : R6) (t : BitVec 2) (s : State) : Out := s.fpBin d a b t 2 fun f => fpMinMax f true
def execFmax (d a b : R6) (t : BitVec 2) (s : State) : Out := s.fpBin d a b t 2 fun f => fpMinMax f false
def execFcmpEq (d a b : R6) (t : BitVec 2) (s : State) : Out := s.fpCompare d a b t false valEq
def execFcmpLt (d a b : R6) (t : BitVec 2) (s : State) : Out := s.fpCompare d a b t true valLt
def execFcmpLe (d a b : R6) (t : BitVec 2) (s : State) : Out := s.fpCompare d a b t true relLe
def execFcmpUn (d a b : R6) (t : BitVec 2) (s : State) : Out := s.fpCompare d a b t false relUn

/-- R109: an integer, signed or (u = 1) unsigned, rounded to format t. -/
def execCvtif (d a : R6) (t m : BitVec 2) (u : BitVec 1) (s : State) : Out :=
  let f := scalarFmt t
  let x : Int := if u = 1 then ((s.rdS a).toNat : Int) else (s.rdS a).toInt
  s.fpScal d [a] f.w 3 (roundTo f (modeOf m.toNat) false (ofInt x))

/-- R109: a value rounded to a 64-bit integer, signed or (u = 1) unsigned. -/
def execCvtfi (d a : R6) (t m : BitVec 2) (u : BitVec 1) (s : State) : Out :=
  let f := scalarFmt t
  let lo : Int := if u = 1 then 0 else -(2 ^ 63)
  let hi : Int := if u = 1 then 2 ^ 64 - 1 else 2 ^ 63 - 1
  let r := toIntRange (modeOf m.toNat) lo hi (decodeVal f (s.rdF a f.w))
  s.fpScal d [a] 64 3 (wrapN 64 r.1, r.2)

/-- R109: format u to format t. -/
def execCvtff (d a : R6) (t m u : BitVec 2) (s : State) : Out :=
  let ft := scalarFmt t
  let fu := scalarFmt u
  s.fpScal d [a] ft.w 3 (fpCvt ft fu (modeOf m.toNat) (s.rdF a fu.w))

/-- R110, under RNE. -/
def execFmaF64 (d a b c : R6) (s : State) : Out :=
  s.fpScal d [a, b, c] 64 5 (fpFma fmt64 .rne false (s.rdF a 64) (s.rdF b 64) (s.rdF c 64))
def execFmaF32 (d a b c : R6) (s : State) : Out :=
  s.fpScal d [a, b, c] 32 5 (fpFma fmt32 .rne false (s.rdF a 32) (s.rdF b 32) (s.rdF c 32))

/-! ### Predicates (R111, R112) -/

def State.predOp (s : State) (d a b : R5) (v : PWord) : Out := .next (s.wrP d v (s.psP a || s.psP b) 1)
def execPand (d a b : R5) (s : State) : Out := s.predOp d a b (s.rdP a &&& s.rdP b)
def execPor (d a b : R5) (s : State) : Out := s.predOp d a b (s.rdP a ||| s.rdP b)
def execPxor (d a b : R5) (s : State) : Out := s.predOp d a b (s.rdP a ^^^ s.rdP b)
def execPandn (d a b : R5) (s : State) : Out := s.predOp d a b (s.rdP a &&& ~~~s.rdP b)

def State.predCmp (s : State) (d : R5) (a b : R6) (c : Bool) : Out :=
  .next (s.wrP d (if c then BitVec.allOnes 256 else 0) (s.psS a || s.psS b) 1)
def execPcmpEq (d : R5) (a b : R6) (s : State) : Out := s.predCmp d a b (ccEq (s.rdS a) (s.rdS b))
def execPcmpNe (d : R5) (a b : R6) (s : State) : Out := s.predCmp d a b (ccNe (s.rdS a) (s.rdS b))
def execPcmpLt (d : R5) (a b : R6) (s : State) : Out := s.predCmp d a b (ccLt (s.rdS a) (s.rdS b))
def execPcmpGe (d : R5) (a b : R6) (s : State) : Out := s.predCmp d a b (ccGe (s.rdS a) (s.rdS b))
def execPcmpLtn (d : R5) (a b : R6) (s : State) : Out := s.predCmp d a b (ccLtn (s.rdS a) (s.rdS b))
def execPcmpGen (d : R5) (a b : R6) (s : State) : Out := s.predCmp d a b (ccGen (s.rdS a) (s.rdS b))

end Sys2Proof.Machine
end

