-- ==== Sys2Proof/Machine/Vector.lean ====
section
/-!
DEFINITION. The vector class outside the geometry unit (R133 to R156): element-wise integer and floating instructions, the
approximations, compare and select, conversions, lane movement and reductions.
-/

namespace Sys2Proof.Machine

/-! ### Shared forms -/

/-- Writes a guarded element-wise result of width w (R135, R136): `val` and `ps` give an active element and its poison. -/
def State.vecOut (s : State) (o : VR) (w lat : Nat) (active : Nat → Bool) (val : Nat → Nat) (ps : Nat → Bool) : State :=
  s.wrE o.vd w lat fun i =>
    if active i then some (val i, ps i || s.psP o.pg)
    else if o.zm = 1 then some (0, s.psP o.pg)
    else none

/-- The B operand of element i: of vb, or of sb in a VS form (R134). -/
def State.opB (s : State) (o : VR) (vs : Bool) (i : Nat) : Nat :=
  if vs then (s.rdS o.vb).toNat % 2 ^ tyWidth o.t else s.rdE o.vb o.t i
def State.psB (s : State) (o : VR) (vs : Bool) (i : Nat) : Bool := if vs then s.psS o.vb else s.psE o.vb o.t i

/-- The latency of an instruction in its VR or VS form (R134, R154). -/
def vsLat (vs : Bool) (lat : Nat) : Nat := if vs then lat + 2 else lat

/-- A unary integer, logic or move instruction on patterns. -/
def State.vUn (s : State) (o : VR) (lat : Nat) (op : Nat → Nat) : Out :=
  .next (s.vecOut o (tyWidth o.t) lat (s.guard o.pg o.t) (fun i => op (s.rdE o.va o.t i)) (s.psE o.va o.t))

/-- A binary instruction on patterns. -/
def State.vBin (s : State) (o : VR) (vs : Bool) (lat : Nat) (op : Nat → Nat → Nat) : Out :=
  .next (s.vecOut o (tyWidth o.t) (vsLat vs lat) (s.guard o.pg o.t) (fun i => op (s.rdE o.va o.t i) (s.opB o vs i))
    fun i => s.psE o.va o.t i || s.psB o vs i)

/-- A binary instruction on numbers of the type (R141), its result as an integer to be wrapped. -/
def State.vInt (s : State) (o : VR) (vs : Bool) (lat : Nat) (op : Int → Int → Int) : Out :=
  s.vBin o vs lat fun a b => wrapN (tyWidth o.t) (op (tyVal o.t a) (tyVal o.t b))

/-! ### Integer element operations (R141, R142) -/

/-- The upper half of the exact product. -/
def mulHigh (t : BitVec 4) (a b : Int) : Int := a * b / (2 ^ tyWidth t : Nat)
/-- VSHL and VSHR by an unsigned count that is not reduced. -/
def shlE (w a k : Nat) : Nat := if w ≤ k then 0 else a * 2 ^ k % 2 ^ w
def shrE (t : BitVec 4) (a k : Nat) : Nat :=
  let x := tyVal t a
  wrapN (tyWidth t) (x / (2 ^ min k (tyWidth t) : Nat))

/-- The shift count: an element, or all 64 bits of sb. -/
def State.shiftCount (s : State) (o : VR) (vs : Bool) (i : Nat) : Nat :=
  if vs then (s.rdS o.vb).toNat else s.rdE o.vb o.t i

def State.vShift (s : State) (o : VR) (vs : Bool) (op : Nat → Nat → Nat) : Out :=
  .next (s.vecOut o (tyWidth o.t) (vsLat vs 2) (s.guard o.pg o.t)
    (fun i => op (s.rdE o.va o.t i) (s.shiftCount o vs i)) fun i => s.psE o.va o.t i || s.psB o vs i)

def State.vMad (s : State) (o : VR) (vs : Bool) : Out :=
  .next (s.vecOut o (tyWidth o.t) (vsLat vs 4) (s.guard o.pg o.t)
    (fun i => wrapN (tyWidth o.t) (tyVal o.t (s.rdE o.va o.t i) * tyVal o.t (s.opB o vs i) +
      tyVal o.t (s.rdE o.vc o.t i)))
    fun i => s.psE o.va o.t i || s.psB o vs i || s.psE o.vc o.t i)

def satAdd (t : BitVec 4) (a b : Int) : Int := max (tyMin t) (min (tyMax t) (a + b))
def satSub (t : BitVec 4) (a b : Int) : Int := max (tyMin t) (min (tyMax t) (a - b))
def notN (w x : Nat) : Nat := 2 ^ w - 1 - x % 2 ^ w

def execVadd (o : VR) (s : State) : Out := s.vInt o false 2 (fun a b => a + b)
def execVsub (o : VR) (s : State) : Out := s.vInt o false 2 (fun a b => a - b)
def execVadds (o : VR) (s : State) : Out := s.vInt o false 2 (satAdd o.t)
def execVsubs (o : VR) (s : State) : Out := s.vInt o false 2 (satSub o.t)
def execVmul (o : VR) (s : State) : Out := s.vInt o false 4 (fun a b => a * b)
def execVmulh (o : VR) (s : State) : Out := s.vInt o false 4 (mulHigh o.t)
def execVmin (o : VR) (s : State) : Out := s.vInt o false 2 min
def execVmax (o : VR) (s : State) : Out := s.vInt o false 2 max
def execVand (o : VR) (s : State) : Out := s.vBin o false 2 (fun a b => a &&& b)
def execVor (o : VR) (s : State) : Out := s.vBin o false 2 (fun a b => a ||| b)
def execVxor (o : VR) (s : State) : Out := s.vBin o false 2 (fun a b => a ^^^ b)
def execVandn (o : VR) (s : State) : Out := s.vBin o false 2 (fun a b => a &&& notN (tyWidth o.t) b)
def execVshl (o : VR) (s : State) : Out := s.vShift o false (shlE (tyWidth o.t))
def execVshr (o : VR) (s : State) : Out := s.vShift o false (shrE o.t)
def execVmad (o : VR) (s : State) : Out := s.vMad o false

def execVaddS (o : VR) (s : State) : Out := s.vInt o true 2 (fun a b => a + b)
def execVsubS (o : VR) (s : State) : Out := s.vInt o true 2 (fun a b => a - b)
def execVaddsS (o : VR) (s : State) : Out := s.vInt o true 2 (satAdd o.t)
def execVsubsS (o : VR) (s : State) : Out := s.vInt o true 2 (satSub o.t)
def execVmulS (o : VR) (s : State) : Out := s.vInt o true 4 (fun a b => a * b)
def execVmulhS (o : VR) (s : State) : Out := s.vInt o true 4 (mulHigh o.t)
def execVminS (o : VR) (s : State) : Out := s.vInt o true 2 min
def execVmaxS (o : VR) (s : State) : Out := s.vInt o true 2 max
def execVandS (o : VR) (s : State) : Out := s.vBin o true 2 (fun a b => a &&& b)
def execVorS (o : VR) (s : State) : Out := s.vBin o true 2 (fun a b => a ||| b)
def execVxorS (o : VR) (s : State) : Out := s.vBin o true 2 (fun a b => a ^^^ b)
def execVandnS (o : VR) (s : State) : Out := s.vBin o true 2 (fun a b => a &&& notN (tyWidth o.t) b)
def execVshlS (o : VR) (s : State) : Out := s.vShift o true (shlE (tyWidth o.t))
def execVshrS (o : VR) (s : State) : Out := s.vShift o true (shrE o.t)
def execVmadS (o : VR) (s : State) : Out := s.vMad o true

def execVabs (o : VR) (s : State) : Out := s.vUn o 2 fun a => (tyVal o.t a).natAbs
def execVneg (o : VR) (s : State) : Out := s.vUn o 2 fun a => wrapN (tyWidth o.t) (-(tyVal o.t a))
def execVpopc (o : VR) (s : State) : Out := s.vUn o 2 fun a => popN (tyWidth o.t) a
def execVclz (o : VR) (s : State) : Out := s.vUn o 2 fun a => clzN (tyWidth o.t) a
def execVmov (o : VR) (s : State) : Out := s.vUn o 2 id

/-! ### Rounding (R90, R138, R143) -/

/-- The mode of a rounded instruction: a fixed one, or SR with a draw for each active element. -/
inductive RSel where
  | fixed (m : RMode)
  | stoch
deriving DecidableEq, Repr

/-- RND of a descriptor. -/
def rndSel (d : W32) : RSel :=
  match descRnd d with
  | 0 => .fixed .rne
  | 1 => .fixed .rtz
  | _ => .stoch

/-- The mode that rm names; none where rm is 5 and the descriptor is not valid. -/
def State.rmSel (s : State) (o : VR) : Option RSel :=
  match o.rm.toNat with
  | 4 => some .stoch
  | 5 => let d := vget s.pre.r.f o.fr.toNat; if descValid d then some (rndSel d) else none
  | m => some (.fixed (modeOf m))

/-- The modes of the active elements in lane order, with one draw for each under SR (R31, R90). -/
def State.modes (s : State) (sel : RSel) (act : List Nat) : List (Nat × RMode) × State :=
  match sel with
  | .fixed m => (act.map fun i => (i, m), s)
  | .stoch =>
    let r := State.draws act.length s
    (act.zip (r.1.map fun x => RMode.sr (drawBits x)), r.2)

/-- The OR of flags. -/
def orFlags (l : List (BitVec 5)) : BitVec 5 := l.foldl (· ||| ·) 0

/-- Results of a rounded instruction: for each active element its pattern and flags. -/
def roundedAt (rs : List (Nat × Nat × BitVec 5)) (i : Nat) : Nat :=
  match rs.find? fun r => r.1 = i with
  | some r => r.2.1
  | none => 0

/-- A rounded element-wise instruction: `n` operation elements, active by `act`; element i is written at `di i` of width w;
`f` gives the result of element i under its mode and `ps` its poison. -/
def State.vRound (s : State) (o : VR) (n w lat : Nat) (act : Nat → Bool) (base : Nat)
    (f : RMode → Nat → Nat × BitVec 5) (ps : Nat → Bool) : Out :=
  match s.rmSel o with
  | none => s.trap cIllegalOperand
  | some sel =>
    let m := s.modes sel ((List.range n).filter act)
    let rs := m.1.map fun x => (x.1, f x.2 x.1)
    let s := m.2
    .next ((s.wrE o.vd w lat fun k =>
      if k < base || base + n ≤ k then none
      else if act (k - base) then some (roundedAt rs (k - base), ps (k - base) || s.psP o.pg)
      else if o.zm = 1 then some (0, s.psP o.pg)
      else none).raise (orFlags (rs.map (·.2.2))) lat)

/-- A binary rounded instruction (R143). -/
def State.vfBin (s : State) (o : VR) (vs : Bool) (lat : Nat) (op : Fmt → RMode → Nat → Nat → Nat × BitVec 5) : Out :=
  s.vRound o (tyCount o.t) (tyWidth o.t) (vsLat vs lat) (s.guard o.pg o.t) 0
    (fun m i => op (tyFmt o.t) m (s.rdE o.va o.t i) (s.opB o vs i)) fun i => s.psE o.va o.t i || s.psB o vs i

def State.vfTern (s : State) (o : VR) (vs neg : Bool) : Out :=
  s.vRound o (tyCount o.t) (tyWidth o.t) (vsLat vs (if o.t = 0xB then 5 else 4)) (s.guard o.pg o.t) 0
    (fun m i => fpFma (tyFmt o.t) m neg (s.rdE o.va o.t i) (s.opB o vs i) (s.rdE o.vc o.t i))
    fun i => s.psE o.va o.t i || s.psB o vs i || s.psE o.vc o.t i

/-- An element-wise instruction that raises flags without rounding by rm. -/
def State.vFlag (s : State) (o : VR) (lat : Nat) (f : Nat → Nat × BitVec 5) (ps : Nat → Bool) : Out :=
  let act := s.actives o.pg o.t
  let rs := act.map fun i => (i, f i)
  .next ((s.vecOut o (tyWidth o.t) lat (s.guard o.pg o.t) (roundedAt rs) ps).raise (orFlags (rs.map (·.2.2))) lat)

/-- VFDIV and VFSQRT note their issue for the repeat interval of their slot (R154). -/
def State.noteDiv (s : State) : State :=
  s.modCore fun c => { c with divAt := vset c.divAt (s.iss.slot - 3) (some c.cycle) }

/-- The repeat interval by type (R154). -/
def divRepeat (t : BitVec 4) : Nat := if t = 0xB then 8 else if t = 0xA then 4 else 2

def vfdivLat (t : BitVec 4) : Nat := if t = 0xB then 28 else if t = 0xA then 18 else 12
def vfsqrtLat (t : BitVec 4) : Nat := if t = 0xB then 30 else if t = 0xA then 18 else 12
def vfLat (t : BitVec 4) : Nat := if t = 0xB then 5 else 4

/-- The state a next outcome holds, changed. -/
def onNext (f : State → State) : Out → Out
  | .next s => .next (f s)
  | x => x

/-- VFDIV and VFSQRT trap only for an invalid descriptor, which starts no division. -/
def State.dividing (s : State) (o : VR) (r : Out) : Out := if (s.rmSel o).isSome then onNext State.noteDiv r else r

def execVfadd (o : VR) (s : State) : Out := s.vfBin o false (vfLat o.t) fpAdd
def execVfsub (o : VR) (s : State) : Out := s.vfBin o false (vfLat o.t) fpSub
def execVfmul (o : VR) (s : State) : Out := s.vfBin o false (vfLat o.t) fpMul
def execVfma (o : VR) (s : State) : Out := s.vfTern o false false
def execVfnma (o : VR) (s : State) : Out := s.vfTern o false true
def execVfdiv (o : VR) (s : State) : Out := s.dividing o (s.vfBin o false (vfdivLat o.t) fpDiv)
def execVfmin (o : VR) (s : State) : Out :=
  s.vFlag o (vsLat false 2) (fun i => fpMinMax (tyFmt o.t) true (s.rdE o.va o.t i) (s.opB o false i))
    fun i => s.psE o.va o.t i || s.psB o false i
def execVfmax (o : VR) (s : State) : Out :=
  s.vFlag o (vsLat false 2) (fun i => fpMinMax (tyFmt o.t) false (s.rdE o.va o.t i) (s.opB o false i))
    fun i => s.psE o.va o.t i || s.psB o false i
def execVfaddS (o : VR) (s : State) : Out := s.vfBin o true (vfLat o.t) fpAdd
def execVfsubS (o : VR) (s : State) : Out := s.vfBin o true (vfLat o.t) fpSub
def execVfmulS (o : VR) (s : State) : Out := s.vfBin o true (vfLat o.t) fpMul
def execVfmaS (o : VR) (s : State) : Out := s.vfTern o true false
def execVfnmaS (o : VR) (s : State) : Out := s.vfTern o true true
def execVfdivS (o : VR) (s : State) : Out := s.dividing o (s.vfBin o true (vfdivLat o.t) fpDiv)
def execVfminS (o : VR) (s : State) : Out :=
  s.vFlag o (vsLat true 2) (fun i => fpMinMax (tyFmt o.t) true (s.rdE o.va o.t i) (s.opB o true i))
    fun i => s.psE o.va o.t i || s.psB o true i
def execVfmaxS (o : VR) (s : State) : Out :=
  s.vFlag o (vsLat true 2) (fun i => fpMinMax (tyFmt o.t) false (s.rdE o.va o.t i) (s.opB o true i))
    fun i => s.psE o.va o.t i || s.psB o true i
def execVfsqrt (o : VR) (s : State) : Out :=
  s.dividing o (s.vRound o (tyCount o.t) (tyWidth o.t) (vfsqrtLat o.t) (s.guard o.pg o.t) 0
    (fun m i => fpSqrt (tyFmt o.t) m (s.rdE o.va o.t i)) (s.psE o.va o.t))

/-- The approximations (R145). -/
def State.vApprox (s : State) (o : VR) (lat : Nat) (f : Fmt → Nat → Nat × BitVec 5) : Out :=
  s.vFlag o lat (fun i => f (tyFmt o.t) (s.rdE o.va o.t i)) (s.psE o.va o.t)
def execVfrcp (o : VR) (s : State) : Out := s.vApprox o 6 fpRcp
def execVfrsq (o : VR) (s : State) : Out := s.vApprox o 6 fpRsq
def execVfexp2 (o : VR) (s : State) : Out := s.vApprox o 8 fpExp2
def execVflog2 (o : VR) (s : State) : Out := s.vApprox o 8 fpLog2

/-! ### Compare, select, broadcast (R146 to R148) -/

/-- The number of pd in a compare (R140). -/
def VR_pd (o : VR) : R5 := o.vd.setWidth 5

/-- A compare writes pd: `f` gives the condition and the flags of an active element. -/
def State.vCompare (s : State) (o : VR) (vs : Bool) (f : Nat → Nat → Bool × BitVec 5) : Out :=
  let pd := VR_pd o
  let n := tyCount o.t
  let act := s.guard o.pg o.t
  let rs := (List.range n).map fun i => if act i then some (f (s.rdE o.va o.t i) (s.opB o vs i)) else none
  let v := mergeP (tyWidth o.t) (s.curP pd) fun i => match (rs[i]?).join with
    | some r => some r.1
    | none => if o.zm = 1 then some false else none
  let ps := (List.range n).any fun i =>
    if act i then s.psE o.va o.t i || s.psB o vs i || s.psP o.pg
    else if o.zm = 1 then s.psP o.pg else s.curPP pd
  let fl := orFlags (rs.map fun r => match r with
    | some x => x.2
    | none => 0)
  .next ((s.wrP pd v ps (vsLat vs 2)).raise fl (vsLat vs 2))

/-- The conditions of VCMP. -/
def vcmpHolds (cc : Nat) (a b : Int) : Bool :=
  match cc with
  | 0 => a = b
  | 1 => a ≠ b
  | 2 => a < b
  | 3 => b ≤ a
  | 4 => b < a
  | _ => a ≤ b

/-- The conditions of VFCMP with their flags. -/
def vfcmpHolds (f : Fmt) (cc a b : Nat) : Bool × BitVec 5 :=
  match cc with
  | 0 => fpCmp f false valEq a b
  | 1 => fpCmp f false (fun x y => !valEq x y) a b
  | 2 => fpCmp f true valLt a b
  | 3 => fpCmp f true (fun x y => valLt y x || valEq x y) a b
  | 4 => fpCmp f true (fun x y => valLt y x) a b
  | 5 => fpCmp f true (fun x y => valLt x y || valEq x y) a b
  | 6 => fpCmp f false (fun x y => x == .nan || y == .nan) a b
  | _ => fpCmp f false (fun x y => !(x == .nan || y == .nan)) a b

def State.vcmpAs (s : State) (o : VR) (vs : Bool) : Out :=
  s.vCompare o vs fun a b => (vcmpHolds o.fx.toNat (tyVal o.t a) (tyVal o.t b), 0)
def execVcmp (o : VR) (s : State) : Out := s.vcmpAs o false
def execVcmpS (o : VR) (s : State) : Out := s.vcmpAs o true
def execVfcmp (o : VR) (s : State) : Out := s.vCompare o false (vfcmpHolds (tyFmt o.t) o.fx.toNat)
def execVfcmpS (o : VR) (s : State) : Out := s.vCompare o true (vfcmpHolds (tyFmt o.t) o.fx.toNat)

def execVsel (o : VR) (s : State) : Out :=
  .next (s.wrE o.vd (tyWidth o.t) 2 fun i =>
    let src := if s.guard o.pg o.t i then o.va else o.vb
    some (s.rdE src o.t i, s.psE src o.t i || s.psP o.pg))

/-- A poisoned sb poisons every written element, those zeroed under zm = 1 too (R135, R148). -/
def execVbcst (o : VR) (s : State) : Out :=
  let ps := s.psS o.vb || s.psP o.pg
  .next (s.wrE o.vd (tyWidth o.t) 3 fun i =>
    if s.guard o.pg o.t i then some ((s.rdS o.vb).toNat, ps) else if o.zm = 1 then some (0, ps) else none)

/-! ### Conversions (R149 to R151) -/

/-- One element of VCVT from type u to type t under a mode. -/
def convE (t u : BitVec 4) (m : RMode) (a : Nat) : Nat × BitVec 5 :=
  if tyF u then
    if tyF t then fpCvt (tyFmt t) (tyFmt u) m a
    else
      let r := toIntRange m (tyMin t) (tyMax t) (decodeVal (tyFmt u) a)
      (wrapN (tyWidth t) r.1, r.2)
  else if tyF t then roundTo (tyFmt t) m false (ofInt (tyVal u a))
  else if tyWidth u < tyWidth t then (wrapN (tyWidth t) (tyVal u a), 0)
  else (satTo t (tyVal u a), 0)

/-- The conversion with its part h: the operation elements j, from `sb` + j of va to `db` + j of vd. -/
def State.vConv (s : State) (o : VR) : Out :=
  let t := o.t
  let u : BitVec 4 := o.fx.setWidth 4
  let h := o.fx.toNat / 16
  let wide := max (tyWidth t) (tyWidth u)
  let m := 2048 / wide
  let q := wide / min (tyWidth t) (tyWidth u)
  if q ≤ h then s.trap cIllegalOperand
  else
    let sb := if tyWidth u ≤ tyWidth t then h * m else 0
    let db := if tyWidth u ≤ tyWidth t then 0 else h * m
    let act (j : Nat) : Bool := Machine.act (s.rdP o.pg) wide j
    let ps (j : Nat) : Bool := s.psE o.va u (sb + j)
    if !tyF t && !tyF u then
      (if (s.rmSel o).isNone then s.trap cIllegalOperand
       else .next (s.wrE o.vd (tyWidth t) 4 fun k =>
        if k < db || db + m ≤ k then none
        else if act (k - db) then
          some ((convE t u .rne (s.rdE o.va u (sb + (k - db)))).1, ps (k - db) || s.psP o.pg)
        else if o.zm = 1 then some (0, s.psP o.pg)
        else none))
    else s.vRound o m (tyWidth t) 4 act db (fun r j => convE t u r (s.rdE o.va u (sb + j))) ps

def execVcvt (o : VR) (s : State) : Out := s.vConv o

/-- The descriptor that fr names, where it is valid and part h exists (R150, R151). -/
def State.qDesc (s : State) (o : VR) : Option W32 :=
  let d := vget s.pre.r.f o.fr.toNat
  if descValid d && o.fx.toNat % 32 < tyWidth o.t / container (descFmt d) then some d else none

/-- Byte b of a vector register. -/
def State.rdByte (s : State) (n : R6) (b : Nat) : Nat := elem 8 (s.rdV n).toNat b

/-- One element of VQNT in element mode. -/
def State.quant (s : State) (o : VR) (d : W32) (m : RMode) (i : Nat) : Nat × BitVec 5 :=
  let f := descFmt d
  let a := s.rdE o.va o.t i
  let x := decodeVal (tyFmt o.t) a
  let k := o.fx.toNat % 32 * tyCount o.t + i
  let nv : BitVec 5 := if isSnan (tyFmt o.t) a then fNV else 0
  let r := if descBsk d = 0 then roundTo f m false x
    else quantElem f m (descBsk d = 1) (scaleVal (descBsk d) (s.rdByte o.vb (k / 32))) x
  (r.1, r.2 ||| nv)

def execVqnt (o : VR) (s : State) : Out :=
  match s.qDesc o with
  | none => s.trap cIllegalOperand
  | some d =>
    let c := container (descFmt d)
    let n := tyCount o.t
    let h := o.fx.toNat % 32
    s.vRound o n c 8 (s.guard o.pg o.t) (h * n) (fun m i => s.quant o d m i) fun i =>
      s.psE o.va o.t i || (descBsk d ≠ 0 && inGroup (s.psV o.vb) 8 ((h * n + i) / 32))

/-- VQNT in scale mode: one byte for each block of 32 elements. -/
def execVqntScale (o : VR) (s : State) : Out :=
  match s.qDesc o with
  | none => s.trap cIllegalOperand
  | some d =>
    if descBsk d = 0 || (s.rmSel o).isNone then s.trap cIllegalOperand
    else
      let f := descFmt d
      let n := tyCount o.t
      let b0 := o.fx.toNat % 32 * n / 32
      let blk (b : Nat) : List Nat := ((List.range 32).map fun j => (b - b0) * 32 + j).filter (s.guard o.pg o.t)
      let res (b : Nat) : Nat × BitVec 5 :=
        chooseScale f (descBsk d) ((blk b).map fun i => decodeVal (tyFmt o.t) (s.rdE o.va o.t i))
      let fl := orFlags ((List.range (n / 32)).map fun j => if blk (b0 + j) = [] then 0 else (res (b0 + j)).2)
      .next ((s.wrE o.vd 8 8 fun b =>
        if b < b0 || b0 + n / 32 ≤ b then none
        else if blk b = [] then (if o.zm = 1 then some (0, s.psP o.pg) else none)
        else some ((res b).1, s.psP o.pg || (blk b).any (s.psE o.va o.t))).raise fl 8)

/-- The value of a narrow element times its scale, rounded to the vector's type (R151). -/
def dequant (t : BitVec 4) (f : Fmt) (m : RMode) (s : Val) (c : Nat) : Nat × BitVec 5 :=
  match decodeVal f c, s with
  | .nan, _ => (qnan (tyFmt t), 0)
  | _, .nan => (qnan (tyFmt t), 0)
  | .inf n, _ => (infPat (tyFmt t) n, 0)
  | .fin n p q, .fin _ a b => roundTo (tyFmt t) m false (.fin n (p * a) (q * b))
  | .fin n _ _, .inf _ => (infPat (tyFmt t) n, 0)

def execVdqnt (o : VR) (s : State) : Out :=
  match s.qDesc o with
  | none => s.trap cIllegalOperand
  | some d =>
    let f := descFmt d
    let c := container f
    let n := tyCount o.t
    let h := o.fx.toNat % 32
    let sc (k : Nat) : Val := if descBsk d = 0 then .fin false 1 1 else scaleVal (descBsk d) (s.rdByte o.vb (k / 32))
    s.vRound o n (tyWidth o.t) 4 (s.guard o.pg o.t) 0
      (fun m i => dequant o.t f m (sc (h * n + i)) (elem c (s.rdV o.va).toNat (h * n + i)))
      fun i => inGroup (s.psV o.va) c (h * n + i) || (descBsk d ≠ 0 && inGroup (s.psV o.vb) 8 ((h * n + i) / 32))

/-! ### Lane movement (R152) -/

/-- A movement that writes element i from an element of one of two registers. -/
def State.vMove (s : State) (o : VR) (lat : Nat) (src : Nat → R6 × Nat) (also : Nat → Bool) : Out :=
  .next (s.vecOut o (tyWidth o.t) lat (s.guard o.pg o.t) (fun i => s.rdE (src i).1 o.t (src i).2)
    fun i => s.psE (src i).1 o.t (src i).2 || also i)

def execVxch (o : VR) (s : State) : Out :=
  let d := 2 ^ o.fx.toNat
  if tyCount o.t ≤ d then s.trap cIllegalOperand else s.vMove o 2 (fun i => (o.va, i ^^^ d)) fun _ => false

def execVperm (o : VR) (s : State) : Out :=
  s.vMove o 4 (fun i => (o.va, s.rdE o.vb o.t i % tyCount o.t)) (s.psE o.vb o.t)

def execVsld (o : VR) (s : State) : Out :=
  let n := tyCount o.t
  let d := o.fx.toNat
  if n ≤ d then s.trap cIllegalOperand
  else s.vMove o 2 (fun i => if i + d < n then (o.va, i + d) else (o.vb, i + d - n)) fun _ => false

/-- pg picks the source elements; a poisoned pg poisons every element written. -/
def execVcomp (o : VR) (s : State) : Out :=
  let act := s.actives o.pg o.t
  .next (s.wrE o.vd (tyWidth o.t) 4 fun j =>
    match act[j]? with
    | some i => some (s.rdE o.va o.t i, s.psE o.va o.t i || s.psP o.pg)
    | none => if o.zm = 1 then some (0, s.psP o.pg) else none)

/-- How many active elements stand below element i. -/
def State.rankOf (s : State) (o : VR) (i : Nat) : Nat := ((List.range i).filter (s.guard o.pg o.t)).length

def execVexp (o : VR) (s : State) : Out := s.vMove o 4 (fun i => (o.va, s.rankOf o i)) fun _ => false

/-! ### Reductions (R98, R153) -/

/-- The result in every element; one poisoned active group, or a poisoned guard, poisons all. -/
def State.vRed (s : State) (o : VR) (lat : Nat) (res : Nat) (fl : BitVec 5) : Out :=
  let ps := s.psP o.pg || (s.actives o.pg o.t).any (s.psE o.va o.t)
  .next ((s.wrE o.vd (tyWidth o.t) lat fun _ => some (res, ps)).raise fl lat)

def State.activeVals (s : State) (o : VR) : List Int := (s.actives o.pg o.t).map fun i => tyVal o.t (s.rdE o.va o.t i)

def execVrsum (o : VR) (s : State) : Out := s.vRed o 6 (wrapN (tyWidth o.t) (s.activeVals o).sum) 0
def execVrmax (o : VR) (s : State) : Out := s.vRed o 6 (wrapN (tyWidth o.t) ((s.activeVals o).foldl max (tyMin o.t))) 0
def execVrmin (o : VR) (s : State) : Out := s.vRed o 6 (wrapN (tyWidth o.t) ((s.activeVals o).foldl min (tyMax o.t))) 0

/-- Neighbours of a list combined: one round of the tree, with the flags so far. -/
def pairRound (op : Nat → Nat → Nat × BitVec 5) : List Nat → List Nat × BitVec 5
  | a :: b :: rest =>
    let r := op a b
    let q := pairRound op rest
    (r.1 :: q.1, r.2 ||| q.2)
  | l => (l, 0)

/-- The fixed pairwise tree of R98 over a list whose length is 2^k. -/
def treeFold (op : Nat → Nat → Nat × BitVec 5) : Nat → List Nat → Nat × BitVec 5
  | 0, l => (l.headD 0, 0)
  | k + 1, l =>
    let r := pairRound op l
    let q := treeFold op k r.1
    (q.1, r.2 ||| q.2)

/-- log2 n(t). -/
def tyDepth (t : BitVec 4) : Nat := Nat.log2 (tyCount t)

/-- −0 of a type, and −∞. -/
def negZero (t : BitVec 4) : Nat := 2 ^ (tyWidth t - 1)
def negInf (t : BitVec 4) : Nat := infPat (tyFmt t) true

def State.treeOf (s : State) (o : VR) (absent : Nat) (op : Nat → Nat → Nat × BitVec 5) : Nat × BitVec 5 :=
  treeFold op (tyDepth o.t)
    ((tyRange o.t).map fun i => if s.guard o.pg o.t i then s.rdE o.va o.t i else absent)

def execVrfsum (o : VR) (s : State) : Out :=
  let r := s.treeOf o (negZero o.t) (fpAdd (tyFmt o.t) .rne)
  s.vRed o (4 * tyDepth o.t) r.1 r.2

def execVrfmax (o : VR) (s : State) : Out :=
  let r := s.treeOf o (negInf o.t) (fpMinMax (tyFmt o.t) false)
  s.vRed o (2 * tyDepth o.t + 2) r.1 r.2

end Sys2Proof.Machine
end

