-- ==== Sys2Proof/Machine/Engine.lean ====
section
/-!
DEFINITION. The engine queue and its commands (R192, R195 to R204, R266, R325): issue with its operand checks, release,
source reads, completion and failure; the transforms of CPYX and the hops of MXRED (R340); and arrivals (R128, R201, R311).
-/

namespace Sys2Proof.Machine

/-! ### Arrivals (R128, R201, R311) -/

/-- A dormant context is woken: handler, s1 to s3, SRES. It is dormant no more, in the sense of R308 too. -/
def Ctx.wakeUp (a : Arrival) (c : Ctx) : Ctx :=
  { c with sch := { c.sch with life := .resident, wasDormant := false }, c := { c.c with sres := 0 },
           q := { c.q with pc := asPc a.handler },
           r := ((c.r.putS 1 a.s1 false).putS 2 a.s2 false).putS 3 a.s3 false }

/-- Of two dormant contexts, the one that an arrival wakes. -/
def longerDormant (a b : Ctx) : Ctx :=
  if a.sch.dormAt < b.sch.dormAt || (a.sch.dormAt = b.sch.dormAt && a.bank.toNat ≤ b.bank.toNat) then a else b

/-- The dormant context of a region on a core that has been dormant longest, ties to the lower REG bank. -/
def State.dormantOf (s : State) (core : Nat) (rid : BitVec 32) : Option Ctx :=
  (s.allCtxs.filter fun c => c.sch.life = .dormant && c.core.toNat = core && c.id.rid = rid).foldl
    (fun m c => some ((m.map fun d => longerDormant d c).getD c)) none

/-- An arrival wakes a dormant context or enters the core's queue; none while the queue is full. -/
def State.arriveAt (s : State) (core : Nat) (a : Arrival) : Option State :=
  match s.dormantOf core a.rid with
  | some d => some (s.mapCtx (fun c => c.id = d.id) (Ctx.wakeUp a))
  | none =>
    let c := s.coreAt core
    if c.arrivals.length < 32 then some (s.putCore { c with arrivals := c.arrivals ++ [a] }) else none

/-- The k-th entry of a core's queue goes to a dormant context of its region. -/
def State.deliver (s : State) (core k : Nat) : State :=
  let c := s.coreAt core
  match c.arrivals[k]? with
  | none => s
  | some a =>
    match s.dormantOf core a.rid with
    | none => s
    | some d => (s.putCore { c with arrivals := c.arrivals.eraseIdx k }).mapCtx (fun x => x.id = d.id) (Ctx.wakeUp a)

/-- The oldest queued entry of a region is delivered as one of its contexts becomes dormant. -/
def State.deliverOldest (s : State) (core : Nat) (rid : BitVec 32) : State :=
  match (s.coreAt core).arrivals.findIdx? fun a => a.rid = rid with
  | some k => s.deliver core k
  | none => s

/-- ARRIVAL_DELIVERY. Only the oldest entry of its region can be next. -/
def execArrivalDelivery (core : BitVec 11) (k : Nat) (s : State) : Out :=
  let c := s.coreAt core.toNat
  match c.arrivals[k]? with
  | some a => .next (if (c.arrivals.take k).any fun b => b.rid = a.rid then s else s.deliver core.toNat k)
  | none => .next s

/-! ### Shapes and ranges (R197, R200, R202, R203) -/

/-- Planes, rows, row bytes and the strides: destination row, source row, destination plane, source plane. -/
structure CopyShape where
  p : Nat
  r : Nat
  l : Nat
  drs : Int
  srs : Int
  dps : Int
  sps : Int
deriving DecidableEq, Repr

def hi32 (x : W64) : Nat := bits x.toNat 63 32
def lo32 (x : W64) : Nat := bits x.toNat 31 0

def Cmd.shape (c : Cmd) : CopyShape :=
  let flat (n : Nat) : CopyShape := { p := 1, r := 1, l := n, drs := 0, srs := 0, dps := 0, sps := 0 }
  match c.op with
  | .cpy2 =>
    { p := 1, r := hi32 c.sc, l := lo32 c.sc, drs := signedOf 32 (hi32 c.sd), srs := signedOf 32 (lo32 c.sd), dps := 0,
      sps := 0 }
  | .cpy3 =>
    match c.desc with
    | [a, b, d, e] =>
      { p := lo32 d, r := hi32 a, l := lo32 a, drs := signedOf 32 (hi32 b), srs := signedOf 32 (lo32 b),
        dps := signedOf 32 (hi32 e), sps := signedOf 32 (lo32 e) }
    | _ => flat 0
  | _ => flat c.sc.toNat

/-- The rows of a shape at a base with a plane and a row stride, in increasing p, then r. -/
def CopyShape.rows (h : CopyShape) (base : W64) (ps rs : Int) : List (W64 × Nat) :=
  (List.range h.p).flatMap fun (p : Nat) => (List.range h.r).map fun (r : Nat) =>
    (base + BitVec.ofInt 64 (p * ps + r * rs), h.l)

/-- Whether a command is a transform, a reduction hop, a reduction hop with an incoming buffer. -/
def isX : EOp → Bool
  | .cpyxScale | .cpyxAdd | .cpyxCast | .cpyxRadd | .cpyxRmax => true
  | _ => false
def isMx : EOp → Bool
  | .mxredStart | .mxredRelay | .mxredFinish => true
  | _ => false
/-- A transform that reads its destination. -/
def isReduce : EOp → Bool
  | .cpyxRadd | .cpyxRmax => true
  | _ => false

/-- The destination type of a transform. -/
def xDst (op : EOp) (o : FE) : BitVec 4 := if op = .cpyxCast then o.xU else o.xT
/-- Bytes of an element. -/
def tyBytes (t : BitVec 4) : Nat := tyWidth t / 8
/-- Bytes of an MX buffer of n elements (R203). -/
def mxBytes (n : Nat) : Nat := n + n / 32

/-- The ranges that a command reads as its sources. -/
def Cmd.srcRows (c : Cmd) : List (W64 × Nat) :=
  let h := c.shape
  match c.op with
  | .mxredStart => [(c.sb, 4 * c.sd.toNat)]
  | .mxredRelay | .mxredFinish => [(c.sb, 4 * c.sd.toNat), (c.sc, mxBytes c.sd.toNat)]
  | .rsig | .esig | .pmap | .pmq | .launch => []
  | _ => h.rows c.sb h.sps h.srs

/-- The ranges that a command writes. -/
def Cmd.dstRows (c : Cmd) : List (W64 × Nat) :=
  let h := c.shape
  match c.op with
  | .mxredStart | .mxredRelay => [(c.sa, mxBytes c.sd.toNat)]
  | .mxredFinish => [(c.sa, 4 * c.sd.toNat)]
  | .rsig => [(c.sa, 8)]
  | .esig | .pmap | .pmq | .launch => []
  | op => if isX op then [(c.sa, c.sc.toNat / tyBytes c.o.xT * tyBytes (xDst op c.o))] else h.rows c.sa h.dps h.drs

/-- The access that a command makes to its destination; a signal needs W only (R333). -/
def Cmd.dstAccess (c : Cmd) : Access := if isReduce c.op then Access.both else Access.store

/-- An address of another device (R332). -/
def State.remoteAddr (s : State) (a : W64) : Bool := space a = 4 && devOf a ≠ s.mgmt.devid
def Cmd.remoteSrc (s : State) (c : Cmd) : Bool := c.op = .fcpy && s.remoteAddr c.sb
def Cmd.remoteDst (s : State) (c : Cmd) : Bool := (c.op = .fcpy || isMx c.op || c.op = .rsig) && s.remoteAddr c.sa

/-! ### Operand checks at the commit of slot 6 (R196 to R204) -/

/-- What a check finds: the copy fault at an address, the illegal-operand trap, or nothing. -/
inductive OpCheck where
  | copy (a : W64)
  | operand
  | good
deriving DecidableEq, Repr

/-- The offsets of the lowest and the highest byte that the rows of a shape take. -/
def CopyShape.reach (h : CopyShape) (ps rs : Int) : Option (Int × Int) :=
  if h.p = 0 || h.r = 0 || h.l = 0 then none
  else
    let a := ((h.p - 1 : Nat) : Int) * ps
    let b := ((h.r - 1 : Nat) : Int) * rs
    some (min 0 a + min 0 b, max 0 a + max 0 b + ((h.l - 1 : Nat) : Int))

/-- The first range outside the spaces allowed to it, as a copy fault; then the limits. -/
def checkOp (spans : List Span) (limit : Bool) : OpCheck :=
  match spans.findSome? Span.fault with
  | some a => .copy a
  | none => if limit then .good else .operand

def aligned (a : W64) (n : Nat) : Bool := a.toNat % n = 0

/-- The ranges of a command with the spaces of R197 to R204; the incoming buffer of a hop is local memory, read as space 0x0 or
0x2 (log entry 102). -/
def Cmd.spans (c : Cmd) : List Span :=
  let h := c.shape
  let mem := [0, 1, 2, 3]
  let n := c.sd.toNat
  let dst (sp : List Nat) : Span := ⟨c.sa, h.reach h.dps h.drs, sp⟩
  let src (sp : List Nat) : Span := ⟨c.sb, h.reach h.sps h.srs, sp⟩
  match c.op with
  | .cpy | .cpy2 | .cpy3 => [dst mem, src mem]
  | .cpyh => [dst [0, 1], src mem]
  | .fcpy => if space c.sa = 4 then [dst [4], src [0, 2, 3]] else [src [4], dst [0, 2, 3]]
  | .mxredStart => [⟨c.sa, flatReach (mxBytes n), [0, 2, 4]⟩, ⟨c.sb, flatReach (4 * n), [0, 2]⟩]
  | .mxredRelay =>
    [⟨c.sa, flatReach (mxBytes n), [0, 2, 4]⟩, ⟨c.sb, flatReach (4 * n), [0, 2]⟩, ⟨c.sc, flatReach (mxBytes n), [0, 2]⟩]
  | .mxredFinish =>
    [⟨c.sa, flatReach (4 * n), [0, 2]⟩, ⟨c.sb, flatReach (4 * n), [0, 2]⟩, ⟨c.sc, flatReach (mxBytes n), [0, 2]⟩]
  | .rsig => [⟨c.sa, flatReach 8, [2, 3, 4]⟩]
  | .cpyxScale | .cpyxAdd | .cpyxCast | .cpyxRadd | .cpyxRmax =>
    [⟨c.sa, flatReach (c.sc.toNat / tyBytes c.o.xT * tyBytes (xDst c.op c.o)), [0, 1, 2]⟩, src mem]
  | .esig | .pmap | .pmq | .launch => []

/-- Alignment and length limits. -/
def Cmd.limits (c : Cmd) : Bool :=
  let h := c.shape
  let small := h.p * h.r * h.l ≤ 2 ^ 32
  let count := c.sd.toNat % 32 = 0 && 32 ≤ c.sd.toNat && c.sd.toNat ≤ 2 ^ 24
  match c.op with
  | .cpy | .cpy2 | .fcpy => small
  | .cpy3 => small && (match c.desc with
      | [_, _, d, _] => hi32 d = 0
      | _ => true)
  | .cpyh => small && goodTarget c.sd && spaceOk c.sd
  | .mxredStart => count && aligned c.sa 32 && aligned c.sb 4
  | .mxredRelay => count && aligned c.sa 32 && aligned c.sb 4 && aligned c.sc 32
  | .mxredFinish => count && aligned c.sa 4 && aligned c.sb 4 && aligned c.sc 32
  | .rsig => aligned c.sa 8
  | .cpyxScale | .cpyxAdd | .cpyxCast | .cpyxRadd | .cpyxRmax =>
    let n := tyBytes c.o.xT
    small && aligned c.sb n && aligned c.sc n && aligned c.sa (tyBytes (xDst c.op c.o))
  | .esig | .pmap | .pmq | .launch => true

def Cmd.check (c : Cmd) : OpCheck := checkOp c.spans c.limits

/-! ### Issue (R195) -/

/-- A command whose operands have passed takes its number and enters the queue. CPYX under SR takes its seed here (R200). -/
def State.enqueue (s : State) (c : Cmd) : State :=
  let d := if isX c.op && c.o.xRm = 4 then s.draw else (0, s)
  let s := d.2
  let t := if c.tl = 3 then s.ctx.tlc else (s.ctx.tl c.tl).next
  let c := { c with num := if c.tl = 3 then 0 else t.issued, seed := d.1 }
  s.modCtx fun x => { (if c.tl = 3 then x else x.setTl c.tl t) with queue := x.queue ++ [c] }

/-- The engine queue holds 16 entries. -/
def Ctx.queueFull (c : Ctx) : Bool := 16 ≤ c.queue.length

/-- The timeline of a row. -/
def eTimeline : EOp → BitVec 2
  | .fcpy | .mxredStart | .mxredRelay | .mxredFinish | .rsig => 2
  | .esig => 3
  | _ => 0

/-- The operands of a command as slot 6 reads them. -/
def State.readCmd (s : State) (op : EOp) (o : FE) : Cmd :=
  { op := op, o := o, tl := eTimeline op, num := 0, sd := s.rdS o.sd, sa := s.rdS o.sa, sb := s.rdS o.sb,
    sc := s.rdS o.sc, ba := s.iss.ba, at0 := s.core.cycle }

/-- A poisoned operand register. -/
def State.psE4 (s : State) (o : FE) : Bool := s.psS o.sd || s.psS o.sa || s.psS o.sb || s.psS o.sc

/-- A command with its operands is checked and queued. -/
def State.queueCmd (s : State) (c : Cmd) : Out :=
  match c.check with
  | .copy a => s.trap cCopy 0 0 a
  | .operand => s.trap cIllegalOperand
  | .good => .next (s.enqueue c)

/-- A queued S6 command. -/
def State.engine (s : State) (op : EOp) (o : FE) : Out :=
  s.s56 o.w fun s =>
    if s.ctx.queueFull then .next s.hold
    else if s.psE4 o then s.trap cPoison
    else s.queueCmd (s.readCmd op o)

def execCpy (o : FE) (s : State) : Out := s.engine .cpy o
def execCpy2 (o : FE) (s : State) : Out := s.engine .cpy2 o

/-- The descriptor of a CPY3 in the bytes it stands in, as the S7 store of the same bundle leaves them (R282). -/
def State.readDesc (s : State) (rs : List Run) : List W64 :=
  let bs := ({ s with mem := s.iss.later.getD s.mem }.gather s.me 0 rs).1
  (List.range 4).map fun i => BitVec.ofNat 64 (leNat ((bs.drop (8 * i)).take 8))

/-- The descriptor's own checks come with the others (R196, R197); one in a bank that is being relocated is waited for (R248). -/
def execCpy3 (o : FE) (s : State) : Out :=
  s.s56 o.w fun s =>
    let c := s.readCmd .cpy3 o
    if s.ctx.queueFull then .next s.hold
    else if s.psE4 o then s.trap cPoison
    else if !(spaceOk c.sc && space c.sc = 0) then s.trap cCopy 0 0 c.sc
    else if c.sc.toNat % 32 ≠ 0 then s.trap cIllegalOperand
    else
      match s.route s.me s.rid Access.load c.sc 32 with
      | .fail _ => s.trap cCopy 0 0 c.sc
      | .wait => .next s.hold
      | .ok rs => s.queueCmd { c with desc := s.readDesc rs }

def execCpyxScale (o : FE) (s : State) : Out := s.engine .cpyxScale o
def execCpyxAdd (o : FE) (s : State) : Out := s.engine .cpyxAdd o
def execCpyxCast (o : FE) (s : State) : Out := s.engine .cpyxCast o
def execCpyxRadd (o : FE) (s : State) : Out := s.engine .cpyxRadd o
def execCpyxRmax (o : FE) (s : State) : Out := s.engine .cpyxRmax o
def execCpyh (o : FE) (s : State) : Out := s.engine .cpyh o
def execFcpy (o : FE) (s : State) : Out := s.engine .fcpy o
def execMxredStart (o : FE) (s : State) : Out := s.engine .mxredStart o
def execMxredRelay (o : FE) (s : State) : Out := s.engine .mxredRelay o
def execMxredFinish (o : FE) (s : State) : Out := s.engine .mxredFinish o
def execRsig (o : FE) (s : State) : Out := s.engine .rsig o
def execEsig (o : FE) (s : State) : Out := s.engine .esig o

/-! ### Release from the queue (R192, R195, R248) -/

/-- Whether a command moves a byte of a bank in relocation, which keeps it from starting (R248). -/
def State.touchesHeld (s : State) (c : Cmd) : Bool :=
  let hit (acc : Access) (rows : List (W64 × Nat)) : Bool :=
    (rows.flatMap fun x => pieces (x.2 / 2048 + 2) x.1 x.2).any fun p =>
      match s.resolve s.me s.rid p.1 0 acc with
      | .ok q => (match s.placeKey q acc with
          | some k => k / 2 ^ 60 = 1 && s.heldPool k
          | none => false)
      | .error _ => false
  hit Access.load c.srcRows || hit Access.store c.dstRows

/-- Copies in flight in the stream unit of a core. -/
def State.inStream (s : State) (core : Nat) : Nat :=
  ((s.allCtxs.filter fun c => c.core.toNat = core).map fun c => (c.running.filter fun x => x.tl = 0).length).sum

/-- Commands that a fabric copy engine holds (R339). -/
def State.onEngine (s : State) (e : Nat) : Nat :=
  ((s.allCtxs.map fun c => (c.running.filter fun x => x.engine = some e).length)).sum

/-- The engine of a core's die that holds the fewest commands, the lowest on a tie (R339). -/
def State.pickEngine (s : State) (core : Nat) : Nat :=
  let base := dieOf core * Config.enginesPerDie
  (List.range Config.enginesPerDie).foldl (fun m j => if s.onEngine (base + j) < s.onEngine m then base + j else m) base

/-- A command that goes to a fabric copy engine (R339). -/
def onFabric (op : EOp) : Bool := op = .fcpy || isMx op

/-- The oldest entry of the queue cannot start: the stream unit or every engine of the die is full (R195, R339), it moves bytes of
a bank in relocation (R248), or the S7 access beside it has not been performed (R282). -/
def State.releaseHeld (s : State) (x : Cmd) : Bool :=
  s.ctx.remote.isSome || (x.tl = 0 && 2048 ≤ s.inStream s.me) ||
    (onFabric x.op && Config.engineRoom ≤ s.onEngine (s.pickEngine s.me)) || s.touchesHeld x

/-- ENGINE_QUEUE_RELEASE: the oldest entry of a context's queue starts; an ESIG there completes. -/
def execEngineQueueRelease (c : CtxId) (s : State) : Out :=
  match s.focus c with
  | none => .next s
  | some s' =>
    if !s'.ctx.sch.life.starts then .next s
    else
      match s'.ctx.queue with
      | [] => .next s
      | x :: rest =>
        if x.tl = 3 then .next ((s'.modCtx fun k => { k with queue := rest }).signalBoth x.o.w)
        else if s'.releaseHeld x then .next s
        else
          let x := if onFabric x.op then { x with engine := some (s'.pickEngine s'.me) } else x
          .next (s'.modCtx fun k => { k with queue := rest, running := k.running ++ [x] })

/-! ### Transforms (R200) -/

/-- Elements of a list of bytes. -/
def elemsOf (t : BitVec 4) (bs : List Byte) : List Nat :=
  let x := leNat bs
  (List.range (bs.length / tyBytes t)).map (elem (tyWidth t) x)

/-- A result of a copy transform: a NaN is the canonical one (R94). -/
def canonNan (t : BitVec 4) (r : Nat × BitVec 5) : Nat × BitVec 5 :=
  if tyF t && isNan (tyFmt t) r.1 then (qnan (tyFmt t), r.2) else r

/-- Destination element i from the source, k, and the old destination. -/
def xElem (op : EOp) (o : FE) (m : RMode) (k : W64) (src dst : Nat) : Nat × BitVec 5 :=
  let t := o.xT
  let f := tyFmt t
  let kk := k.toNat % 2 ^ tyWidth t
  let int (x : Int) : Nat × BitVec 5 := (wrapN (tyWidth t) x, 0)
  let v := tyVal t
  match op with
  | .cpyxScale => if tyF t then canonNan t (fpMul f m src kk) else int (v src * v kk)
  | .cpyxAdd => if tyF t then canonNan t (fpAdd f m src kk) else int (v src + v kk)
  | .cpyxCast => canonNan o.xU (convE o.xU t m src)
  | .cpyxRadd => if tyF t then canonNan t (fpAdd f m dst src) else int (v dst + v src)
  | _ => if tyF t then canonNan t (fpMinMax f false dst src) else int (max (v dst) (v src))

/-- The rounding modes of the elements: under SR, the draw that i + 1 steps from the seed give element i. -/
def xModes (rm : BitVec 3) (seed : W64) : Nat → List RMode
  | 0 => []
  | n + 1 =>
    if rm = 4 then
      let x := rngStep seed
      .sr (drawBits x) :: xModes rm x n
    else modeOf rm.toNat :: xModes rm seed n

/-- The bytes and flags of a transform. -/
def xBytes (c : Cmd) (src dst : List Byte) : List Byte × BitVec 5 :=
  let u := xDst c.op c.o
  let es := elemsOf c.o.xT src
  let ds := elemsOf u dst
  let ms := xModes c.o.xRm c.seed es.length
  let rs := (es.zip (ms.zip (List.range es.length))).map fun x =>
    xElem c.op c.o x.2.1 c.sd x.1 (ds.getD x.2.2 0)
  (rs.flatMap fun r => toBytes (tyBytes u) r.1, orFlags (rs.map (·.2)))

/-! ### Reduction hops (R203, R340) -/

/-- The descriptors of the two formats: E4M3 and E5M2 with an E8M0 scale (R87). -/
def mxDesc (o : FE) : W32 := if o.fn.getLsbD 11 then 0x0410F558 else 0x04207718

/-- An element of an incoming buffer. -/
def mxValue (d : W32) (n : Nat) (buf : Nat) (i : Nat) : Val :=
  scaledVal (decodeVal (descFmt d) (elem 8 buf i)) (scaleVal 1 (elem 8 buf (n + i / 32)))

/-- y of relay and finish: the exact incoming value plus the local one, rounded. -/
def mxAdd (inc : Val) (loc : Nat) : Nat × BitVec 5 :=
  if inc = .nan || isNan32 loc then (qnan32, if isSnan fmt32 loc then fNV else 0)
  else match addVal .rne inc (decodeVal fmt32 loc) with
    | none => (qnan32, fNV)
    | some v => roundTo fmt32 .rne false v

/-- The bytes and flags of a hop from its sources: local FP32 values, then the incoming buffer. -/
def mxHop (c : Cmd) (src : List Byte) : List Byte × BitVec 5 :=
  let n := c.sd.toNat
  let d := mxDesc c.o
  let loc := leNat (src.take (4 * n))
  let inc := leNat (src.drop (4 * n))
  let ys := (List.range n).map fun i =>
    if c.op = .mxredStart then (elem 32 loc i, (0 : BitVec 5)) else mxAdd (mxValue d n inc i) (elem 32 loc i)
  let fl := orFlags (ys.map (·.2))
  if c.op = .mxredFinish then (ys.flatMap fun y => toBytes 4 y.1, fl)
  else
    let qs := (List.range (n / 32)).map fun b =>
      quantBlk d (List.replicate 32 .rne) (((ys.drop (32 * b)).take 32).map (·.1))
    ((qs.flatMap (·.pats)).map (BitVec.ofNat 8) ++ qs.map (fun q => BitVec.ofNat 8 q.scale),
     orFlags (fl :: qs.map (·.fl)))

/-! ### Reading the sources -/

/-- Lines of another device that a source range covers, in order. -/
def lineKeys (a : W64) (n : Nat) : List Nat :=
  if n = 0 then []
  else (List.range ((a.toNat % 64 + n + 63) / 64)).map fun i => lineOf a.toNat + 64 * i

/-- What the sources give now. -/
inductive SrcRead where
  | ok (bs : List Byte) (bad : List Nat)
  | wait
  | fail

/-- A line that another device has sent for a source, with the mask of its uncorrectable bytes: the bytes that were dirty in the own
cache role when it was asked for stand over it (R196, R202). -/
def Cmd.ownBytes (c : Cmd) (g : Nat × BitVec 512 × Bool) : Nat × BitVec 512 × BitVec 64 :=
  let bad : BitVec 64 := if g.2.2 then BitVec.allOnes 64 else 0
  match c.own.find? fun l => l.1 = g.1 with
  | some l => (g.1, mergeLine g.2.1 l.2.1 l.2.2, bad &&& ~~~l.2.2)
  | none => (g.1, g.2.1, bad)

def State.readSrc (s : State) (c : Cmd) : SrcRead :=
  if c.remoteSrc s then
    let ls := (lineKeys c.sb c.sc.toNat).map fun l => c.got.find? fun g => g.1 = l
    if c.failed then .fail
    else if ls.any (·.isNone) then .wait
    else
      let gs := (ls.filterMap id).map fun g => c.ownBytes g
      let off := c.sb.toNat % 64
      let bs := ((gs.flatMap fun g => toBytes 64 g.2.1.toNat).drop off).take c.sc.toNat
      let bad := (gs.flatMap fun g => (List.range 64).map fun i => g.2.2.getLsbD i).drop off
      .ok bs ((List.range c.sc.toNat).filter fun i => bad.getD i false)
  else
    match s.routeAll s.me s.rid Access.load c.srcRows with
    | .ok rs => let g := s.gather s.me 0 rs; .ok g.1 g.2
    | .wait => .wait
    | .fail _ => .fail

/-! ### Running commands -/

/-- The command of a context that runs under a number. -/
def Ctx.cmd? (c : Ctx) (tl : BitVec 2) (num : W64) : Option Cmd := c.running.find? fun x => x.tl = tl && x.num = num
def State.modCmd (s : State) (tl : BitVec 2) (num : W64) (f : Cmd → Cmd) : State :=
  s.modCtx fun c => { c with running := replaceIf (fun x => x.tl = tl && x.num = num) f c.running }

/-- Sources have been read: what a signal with SPT 1 waits for (R60). -/
def State.putSrc (s : State) (c : Cmd) (bs : List Byte) (bad : List Nat) : State :=
  (s.modCmd c.tl c.num fun x => { x with src := some (bs, bad) }).signalAt s.me s.rid c.o.w 1

/-- A running command leaves, its signals are performed, and its timeline passes it (R23, R60, R195). -/
def State.finishCmd (s : State) (c : Cmd) : State :=
  let s := s.modCtx fun k => { k with running := k.running.filter fun x => !(x.tl = c.tl && x.num = c.num) }
  let s := s.signalAt s.me s.rid c.o.w 0
  let s := if c.src.isSome then s else s.signalAt s.me s.rid c.o.w 1
  s.modCtx fun k => k.setTl c.tl ((k.tl c.tl).complete c.num)

/-- Write-backs of the core to the lines of a remote source, which the requests for them come after (R196, R202). -/
def State.srcBusy (s : State) (c : Cmd) : Bool :=
  s.core.flight.any fun f => (lineKeys c.sb c.sc.toNat).any fun l => f.wb && f.key = l

/-- Requests for the lines of a remote source go out (R331); the bytes dirty in the own cache role are kept. -/
def State.askSrc (s : State) (c : Cmd) : State :=
  let r := (lineKeys c.sb c.sc.toNat).foldl (fun (r : List (Nat × Nat) × State) l =>
    let q := r.2.send (devOf (BitVec.ofNat 64 l)) (.read (BitVec.ofNat 64 l) 64)
    (r.1 ++ [(q.1, l)], q.2)) ([], s)
  let own := (s.core.cache.filter fun l => l.dirty ≠ 0 && (lineKeys c.sb c.sc.toNat).contains l.key).map fun l => (l.key, l.data, l.dirty)
  r.2.modCmd c.tl c.num fun x => { x with asked := r.1, own := own }

/-- Chunks of at most 256 bytes, which end at multiples of 256. -/
def chunks : Nat → W64 → List Byte → List (W64 × List Byte)
  | 0, _, _ => []
  | fuel + 1, a, bs =>
    let k := 256 - a.toNat % 256
    if bs = [] then [] else (a, bs.take k) :: chunks fuel (a + BitVec.ofNat 64 k) (bs.drop k)

/-- The written bytes of another device leave the issuing core's cache role (R291). -/
def State.dropDst (s : State) (c : Cmd) : State :=
  c.dstRows.foldl (fun s x => s.dropRun s.me { key := x.1.toNat, n := x.2 }) s

/-- The packets of a remote destination go out (R331, R203, R204). -/
def State.sendDst (s : State) (c : Cmd) (bs : List Byte) (fl : BitVec 5) : State :=
  let ps : List (BitVec 12 × Packet) :=
    if c.op = .rsig then [(devOf c.sa, .signal c.sa c.sb)]
    else (chunks (bs.length + 1) c.sa bs).map fun x =>
      (devOf x.1, if isMx c.op then .reduce x.1 x.2 else .write x.1 x.2)
  let r := ps.foldl (fun (r : List Nat × State) p =>
    let q := r.2.send p.1 p.2
    (r.1 ++ [q.1], q.2)) ([], s)
  (r.2.modCmd c.tl c.num fun x => { x with wrote := true, seqs := r.1 }).engineEvent 6 c.tl c.num c.ba fl

/-- Whether two lists of runs share a byte. -/
def runsMeet (a b : List Run) : Bool := a.any fun x => b.any fun y => x.key < y.key + y.n && y.key < x.key + x.n

/-- An earlier reduction of the context into bytes of a later one comes first (R99, R200); one of which the bytes are not known yet,
as one that is going to fail, does too. -/
def State.reduceOrdered (s : State) (c : Cmd) (dst : List Run) : Bool :=
  !isReduce c.op ||
    !((s.ctx.running ++ s.ctx.queue).any fun x =>
        isReduce x.op && x.num.toNat < c.num.toNat &&
          (match s.routeAll s.me s.rid Access.both x.dstRows with
           | .ok rs => runsMeet rs dst
           | _ => true))

/-- All bytes of a list of runs lie in one core's pool. -/
def inPool (core : Nat) (rs : List Run) : Bool := rs.all fun r => r.key / 2 ^ 60 = 1 && r.key % 2 ^ 60 / 2 ^ 32 = core

/-- One core's scratchpad holds both: the copy then reads all its sources first (R198). -/
def samePad (src dst : List Run) : Bool :=
  match src with
  | [] => true
  | r :: _ => let c := r.key % 2 ^ 60 / 2 ^ 32; inPool c src && inPool c dst

/-- Destination bytes that overlap the source outside one scratchpad are free (R198). -/
def freeOverlap (src : List Run) : List Run → List Byte → State → List Byte × State
  | [], _, s => ([], s)
  | r :: rs, bs, s =>
    let mine := bs.take r.n
    let one := if runsMeet src [r] then
        (mine.zip (List.range r.n)).foldl (fun (a : List Byte × State) x =>
          if runsMeet src [{ key := r.key + x.2, n := 1 }] then
            let f := a.2.anyBits 8
            (a.1 ++ [f.1], f.2)
          else (a.1 ++ [x.1], a.2)) ([], s)
      else (mine, s)
    let rest := freeOverlap src rs (bs.drop r.n) one.2
    (one.1 ++ rest.1, rest.2)

/-- The bytes that a command writes and its flags, from its sources and for a reduction the old destination, which the controller
or the bank that performs it reads (R200, R266). -/
def State.result (s : State) (c : Cmd) (src : List Byte) (dst : List Run) : List Byte × BitVec 5 :=
  if isX c.op then xBytes c src (if isReduce c.op then dst.flatMap fun r => s.peek r.key r.n else [])
  else if isMx c.op then mxHop c src
  else if c.op = .rsig then
    (toBytes 8 ((dst.foldl (fun _ r => s.peek64 r.key) 0) + c.sb.toNat), 0)
  else (src, 0)

/-- The places of result bytes that stay marked uncorrectable: those of the source bytes of a plain copy, or of the elements
and blocks that hold a marked one; for an RSIG, the word's own. -/
def State.badResult (s : State) (c : Cmd) (bad : List Nat) (dst : List Run) (n : Nat) : List Nat :=
  if c.op = .rsig then (if dst.any fun r => s.isBad r.key r.n then List.range 8 else [])
  else if bad = [] then []
  else if isX c.op then
    let u := tyBytes (xDst c.op c.o)
    ((bad.map (· / tyBytes c.o.xT)).eraseDups).flatMap fun i => (List.range u).map (u * i + ·)
  else if isMx c.op then List.range n
  else bad

/-- A command writes its bytes at their homes, all in one step: of two copies that no order binds, the later leaves every byte
(R198; log entry 103). RSIG leaves its mark on the word's line (R290, R293). -/
def State.writeDst (s : State) (c : Cmd) (bs : List Byte) (bad : List Nat) (dst : List Run) : State :=
  let r := if isMx c.op || c.op = .rsig then (bs, s)
    else match s.routeAll s.me s.rid Access.load c.srcRows with
      | .ok src => if samePad src dst then (bs, s) else freeOverlap src dst bs s
      | _ => (bs, s)
  let s := State.scatter s.me bad 0 dst r.1 r.2
  if c.op = .rsig then dst.foldl (fun s d => s.recordLine (lineOf d.key) (some { sco := 3, core := s.core.num, ctx := s.ctx.id })) s else s

/-- The receiving core and the arrival of a CPYH (R201). -/
def State.arrivalOf (s : State) (c : Cmd) : Nat × Arrival :=
  let core := if space c.sa = 1 then coreOf1 s.me c.sa else s.me
  let s3 := if space c.sb = 0 then
      BitVec.ofNat 64 (2 ^ 60 + s.me % 48 * 2 ^ 48 + c.sb.toNat % 2 ^ 48)
    else c.sb
  (core, { rid := s.rid, handler := c.sd, s1 := BitVec.ofNat 64 (c.sa.toNat % 2 ^ 48), s2 := c.sc, s3 := s3 })

/-- The last part of a command whose bytes are written: a CPYH hands its arrival over first. -/
def State.closeCmd (s : State) (c : Cmd) : Option State :=
  if c.op = .cpyh then
    let a := s.arrivalOf c
    (s.arriveAt a.1 a.2).map fun s => s.finishCmd c
  else some (s.finishCmd c)

/-- The least time of a copy that touches a scratchpad (R199). -/
def Cmd.minCycles (c : Cmd) : Nat :=
  let rows := c.srcRows ++ c.dstRows
  if c.tl = 0 && rows.any fun r => space r.1 < 2 then
    (max ((c.srcRows.map (·.2)).sum) ((c.dstRows.map (·.2)).sum) + 127) / 128
  else 0

/-- A step of a running command: it reads its sources, writes its bytes or sends them, and completes when every byte has
performed. None where it can do nothing yet. -/
def State.runCmd (s : State) (c : Cmd) : Option State :=
  if c.wrote then (if c.seqs ≠ [] || c.failed then none else (if c.remoteDst s then s.dropDst c else s).closeCmd c)
  else if c.remoteSrc s && c.asked = [] && c.sc ≠ 0 then (if s.srcBusy c then none else some (s.askSrc c))
  else
    match c.src.map (fun x => SrcRead.ok x.1 x.2) |>.getD (s.readSrc c) with
    | .fail => none
    | .wait => if c.remoteSrc s then none else some (s.modCmd c.tl c.num fun x => { x with waiting := true })
    | .ok bs bad =>
      if c.remoteDst s then
        let r := s.result c bs []
        let s1 := if c.src.isSome then s else s.putSrc c bs bad
        some (s1.sendDst c r.1 r.2)
      else
        match s.routeAll s.me s.rid c.dstAccess c.dstRows with
        | .fail _ => none
        | .wait => some (s.modCmd c.tl c.num fun x => { x with waiting := true })
        | .ok dst =>
          if !s.reduceOrdered c dst then none
          else
            let r := s.result c bs dst
            let s1 := if c.src.isSome then s else s.putSrc c bs bad
            let s2 := (s1.writeDst c r.1 (s.badResult c bad dst r.1.length) dst).engineEvent 6 c.tl c.num c.ba r.2
            let c' := { c with src := some (bs, bad), wrote := true }
            let s3 := s2.modCmd c.tl c.num fun x => { x with wrote := true }
            some ((s3.closeCmd c').getD s3)

/-- ENGINE_OP_COMPLETE. A command with a remote side takes two such steps, before and after its answers. -/
def execEngineOpComplete (c : CtxId) (tl : BitVec 2) (num : W64) (s : State) : Out :=
  match s.focus c with
  | none => .next s
  | some s' =>
    match s'.ctx.cmd? tl num with
    | none => .next s
    | some x =>
      if x.waiting || s'.core.cycle < x.at0 + x.minCycles then .next s else .next ((s'.runCmd x).getD s)

/-- A page that a copy waits for is asked of the host, whose tables then change (R274). -/
def State.requestPages (s : State) (c : Cmd) : State :=
  let missing (acc : Access) (x : W64 × Nat) : Bool :=
    space x.1 = 3 && (pieces (x.2 / 2048 + 2) x.1 x.2).any fun p =>
      match s.resolve s.me s.rid p.1 0 acc with
      | .error f => f.rank = 3
      | .ok _ => false
  if c.srcRows.any (missing Access.load) || c.dstRows.any (missing c.dstAccess) then
    { s with mgmt := { s.mgmt with hostGen := s.mgmt.hostGen + 1 } }
  else s

/-- PAGE_FAULT_REPLAY: the page is there, and the command goes on. -/
def execPageFaultReplay (c : CtxId) (tl : BitVec 2) (num : W64) (s : State) : Out :=
  match s.focus c with
  | none => .next s
  | some s' =>
    match s'.ctx.cmd? tl num with
    | none => .next s
    | some x =>
      let s' := if x.waiting then s'.requestPages x else s'
      let ready (acc : Access) (rows : List (W64 × Nat)) : Bool :=
        match s'.routeAll s'.me s'.rid acc rows with
        | .wait => false
        | _ => true
      if x.waiting && (x.src.isSome || x.remoteSrc s' || ready Access.load x.srcRows) &&
          (x.remoteDst s' || ready x.dstAccess x.dstRows) then
        .next (s'.modCmd tl num fun x => { x with waiting := false })
      else .next s'

/-- Whether a started command can fail for a reason (R195, R249, R337). -/
def State.mayFail (s : State) (c : Cmd) (why : EngineFault) : Bool :=
  let bad (acc : Access) (rows : List (W64 × Nat)) : Bool := (s.firstFail s.me s.rid acc rows).isSome
  let src := !c.remoteSrc s && bad Access.load c.srcRows
  let dst := !c.remoteDst s && bad c.dstAccess c.dstRows
  match why with
  | .route => (c.remoteSrc s || c.remoteDst s) && c.failed
  | .remote => c.failed || src || dst
  | .removedBank => !c.wrote && (src || dst)
  | .uncorrectable => !c.wrote && (match s.readSrc c with
      | .ok _ bad => bad ≠ []
      | _ => false)

/-- The first n bytes of ranges. -/
def firstBytes : Nat → List (W64 × Nat) → List (W64 × Nat)
  | _, [] => []
  | n, (a, k) :: rest => if n = 0 then [] else (a, min n k) :: firstBytes (n - k) rest

/-- The bytes that a failing command has written, which the command, its sources and its destination up to there give; none where
it writes none of its own accord (a reduction hop, an RSIG), has written all, or cannot yet: an earlier reduction of the
context comes first (R99, R200). -/
def State.donePart (s : State) (c : Cmd) (done : Nat) : Option (Cmd × List Run × List Run) :=
  let total := (c.dstRows.map (·.2)).sum
  let n := if isX c.op then min done total / tyBytes (xDst c.op c.o) else min done total
  let c' : Cmd := if isX c.op then { c with sc := BitVec.ofNat 64 (n * tyBytes c.o.xT) } else c
  if c.wrote || c.remoteDst s || c.remoteSrc s || c.op = .rsig || isMx c.op then none
  else
    let src := if isX c.op then c'.srcRows else firstBytes n c.srcRows
    let dst := if isX c.op then c'.dstRows else firstBytes n c.dstRows
    match s.routeAll s.me s.rid Access.load src, s.routeAll s.me s.rid c.dstAccess dst with
    | .ok a, .ok b => if s.reduceOrdered c b then some (c', a, b) else none
    | _, _ => none

/-- The address at which a command fails (R316). -/
def State.failAddr (s : State) (c : Cmd) : W64 :=
  (((s.firstFail s.me s.rid Access.load (if c.remoteSrc s then [] else c.srcRows)).orElse fun _ =>
    s.firstFail s.me s.rid c.dstAccess (if c.remoteDst s then [] else c.dstRows))).getD
      (if c.remoteDst s then c.sa else if c.remoteSrc s then c.sb else 0)

/-- A command fails after `done` of its bytes, for a reduction hop before any: those stay, the command completes, and its
record is written (R195). -/
def State.failCmd (s : State) (c : Cmd) (done : Nat) : State :=
  let s1 := match s.donePart c done with
    | some (c', a, b) =>
      let g := s.gather s.me 0 a
      let r := s.result c' g.1 b
      (s.writeDst c' r.1 (s.badResult c' g.2 b r.1.length) b).engineEvent 6 c.tl c.num c.ba r.2
    | none => s
  let s2 := if c.remoteDst s then s1.dropDst c else s1
  (s2.finishCmd c).copyFault s.ctx.id 6 c.tl c.num c.ba (s.failAddr c)

/-- ENGINE_OP_FAILURE, of a command or of an MLDW (timeline M). -/
def execEngineOpFailure (c : CtxId) (tl : BitVec 2) (num : W64) (why : EngineFault) (done : Nat) (s : State) : Out :=
  if tl = 1 then
    match s.liveLoad c num with
    | none => .next s
    | some (s', l) =>
      match (if s'.bankBusy l.o.bank then .wait else s'.readTile l) with
      | .fail a => .next (s'.failLoad l a)
      | _ => .next s
  else
    match s.focus c with
    | none => .next s
    | some s' =>
      match s'.ctx.cmd? tl num with
      | none => .next s
      | some x => if s'.mayFail x why then .next (s'.failCmd x done) else .next s

/-- SOURCE_READS_FINISHED: the sources of a started command have been read, before it completes. -/
def execSourceReadsFinished (c : CtxId) (tl : BitVec 2) (num : W64) (s : State) : Out :=
  if tl = 1 then .next (s.matrixReadsFinished c num)
  else
    match s.focus c with
    | none => .next s
    | some s' =>
      match s'.ctx.cmd? tl num with
      | none => .next s
      | some x =>
        if x.src.isSome || x.waiting then .next s
        else
          match s'.readSrc x with
          | .ok bs bad => .next (s'.putSrc x bs bad)
          | _ => .next s

end Sys2Proof.Machine
end

