-- ==== Sys2Proof/Machine/Pool.lean ====
section
/-!
DEFINITION. The pool (R205, R206, R239 to R252): the checks and refusals of PMAP and PMQ, the handshakes of an accepted
change, and its completion.
-/

namespace Sys2Proof.Machine

/-! ### Operands (R205, R243) -/

/-- What a PMAP or PMQ asks for: the named banks, the targets, the role, REL. -/
structure PoolReq where
  named : List Nat
  targets : List Nat
  role : BitVec 2
  rel : Bool
deriving DecidableEq, Repr

/-- Set bits of a mask, from the lowest. -/
def maskBits (x : W64) (n : Nat) : List Nat := (List.range n).filter fun j => x.getLsbD j

def State.poolReq (s : State) (o : FE) : PoolReq :=
  { named := maskBits (s.rdS o.sa) 64 ++ (maskBits (s.rdS o.sb) 32).map (64 + ·), targets := maskBits (s.rdS o.sc) 64,
    role := o.fn.extractLsb' 12 2, rel := o.fn.getLsbD 11 }

def Pool.role (p : Pool) (j : Nat) : BitVec 2 := vget p.roles j

/-- Named banks that change: those that do not hold the new role. -/
def PoolReq.changing (q : PoolReq) (p : Pool) : List Nat := q.named.filter fun j => p.role j ≠ q.role
/-- Named banks in the scratchpad (R243), and those of them that leave it. -/
def PoolReq.namedScr (q : PoolReq) (p : Pool) : List Nat := q.named.filter fun j => p.role j = 2
def PoolReq.leavingScr (q : PoolReq) (p : Pool) : List Nat := (q.changing p).filter fun j => p.role j = 2

/-- The operand faults (R205, R243). -/
def PoolReq.faulty (q : PoolReq) (p : Pool) : Bool :=
  let scr := q.namedScr p
  q.named = [] ||
    (if q.rel then
      q.targets.length ≠ scr.length || q.role = 2 || q.targets.any fun j => q.named.contains j || 2 ≤ (p.role j).toNat
     else
      let top := p.lb.drop (p.lb.length - scr.length)
      q.targets ≠ [] || !(scr.all top.contains))

/-! ### Refusals (R243, R244) -/

/-- The role of bank j after a change. -/
def PoolReq.after (q : PoolReq) (p : Pool) (j : Nat) : BitVec 2 :=
  if q.targets.contains j then 2 else if (q.changing p).contains j then q.role else p.role j

def allBanks : List Nat := List.range 96

/-- Whether the counts of R239, or the kinds of banks, forbid a change. -/
def PoolReq.overLimit (q : PoolReq) (p : Pool) : Bool :=
  let n (r : BitVec 2) : Nat := (allBanks.filter fun j => q.after p j = r).length
  n 0 < 2 || 24 < n 0 || 32 < n 1 || 94 < n 2 || 32 < n 3 ||
    q.named.any fun j => if j < 64 then q.role = 3 else q.role.toNat < 2

/-- The owner of bank j. -/
def Pool.ownerOf (p : Pool) (j : Nat) : Option (BitVec 32) := (p.owner.find? fun o => o.1 = j).map (·.2)

/-- Whether the budget of the region, or another region's ownership, forbids a change. A bank that keeps its role is still a
named one (log entry 86). -/
def State.overBudget (s : State) (q : PoolReq) : Bool :=
  let p := s.core.pool
  let moved := q.named ++ q.targets
  let owned (r : BitVec 2) : Nat :=
    (allBanks.filter fun j => q.after p j = r && (moved.contains j || p.ownerOf j = some s.rid)).length
  (match s.region? s.rid with
   | some g => g.lim.bcch.toNat < owned 1 || g.lim.bscr.toNat < owned 2 || g.lim.btile.toNat < owned 3
   | none => true) ||
    moved.any fun j => match p.ownerOf j with
      | some r => r ≠ s.rid && (s.region? r).isSome
      | none => false

/-- A bank with a context in it. -/
def State.occupied (s : State) (core j : Nat) : Bool :=
  s.allCtxs.any fun c => c.sch.life.holdsBank && c.core.toNat = core && c.bank.toNat = j

/-- Whether a range that a context's command moves touches banks of a core. -/
def State.rangeHits (s : State) (x : Ctx) (core : Nat) (banks : List Nat) (acc : Access) (rows : List (W64 × Nat)) : Bool :=
  (rows.flatMap fun r => pieces (r.2 / 2048 + 2) r.1 r.2).any fun p =>
    space p.1 < 2 &&
      match s.resolve x.core.toNat x.id.rid p.1 0 acc with
      | .ok q => (match s.placeKey q acc with
          | some k => k / 2 ^ 60 = 1 && k % 2 ^ 60 / 2 ^ 32 = core && banks.contains (k % 2 ^ 32 / 2 ^ 15)
          | none => false)
      | .error _ => false

def State.cmdHits (s : State) (x : Ctx) (core : Nat) (banks : List Nat) (c : Cmd) : Bool :=
  s.rangeHits x core banks Access.load c.srcRows || s.rangeHits x core banks Access.store c.dstRows

/-- Ranges that a nest reads in the scratchpad. -/
def MEntry.scrRows (e : MEntry) : List (W64 × Nat) :=
  let c := readCfg e.cfg
  if e.kind = .nest && c.asrc = 0 then
    (List.range c.total).flatMap fun k => (List.range c.rows).flatMap fun (m : Nat) =>
      (BitVec.ofInt 64 (c.gen (·.da) c.abase k + m * c.ars), 16 * container (descFmt e.af)) ::
        (if descBsk e.af = 0 then [] else [(BitVec.ofInt 64 (c.gen (·.ds) c.sbase k + (4 * m : Nat)), 4)])
  else []

def MLoad.rows (l : MLoad) : List (W64 × Nat) :=
  if l.isSig then [] else (l.src, l.o.tileBytes) :: (if l.o.scaled then [(l.scl, 512)] else [])

/-- Accesses in flight to SCR banks of the own core (R244). Queued work of saved contexts is not tested (R250). -/
def State.inFlight (s : State) (banks : List Nat) : Bool :=
  banks ≠ [] && s.allCtxs.any fun x =>
    let own := x.core.toNat = s.me && x.sch.life.holdsBank
    (x.running ++ (if own then x.queue else [])).any (s.cmdHits x s.me banks) ||
      (own && (x.mx.queue.any (fun e => s.rangeHits x s.me banks Access.load e.scrRows) ||
        x.mx.loads.any fun l => s.rangeHits x s.me banks Access.load l.rows))

/-- The refusal code of a request, in the order of the table (R243). -/
def State.poolRefusal (s : State) (q : PoolReq) : Option Nat :=
  let p := s.core.pool
  if p.change.isSome then some 6
  else if q.overLimit p then some 4
  else if s.overBudget q then some 5
  else if (q.named ++ q.targets).any fun j => p.role j = 0 && s.occupied s.me j then some 3
  else if s.inFlight (q.namedScr p) then some 2
  else none

/-! ### Bytes of banks -/

def bankLow (core j : Nat) : Nat := poolKey core j 0

/-- A bank holds zeros; watches on its lines end (R249). -/
def State.clearBank (s : State) (core j : Nat) : State :=
  let lo := bankLow core j
  let hi := lo + 2 ^ 15
  let s := s.wake lo (2 ^ 15)
  { s with mem := s.mem.filter fun c => c.1 < lo || hi ≤ c.1,
           bad := s.bad.filter fun u => u * 8 < lo || hi ≤ u * 8 }

/-- The contents of a bank move to another, and a watch on a line goes with it (R245, R249); the record of a line stays where it is (log
entry 116). -/
def State.moveBank (s : State) (core a b : Nat) : State :=
  let la := bankLow core a
  let lb := bankLow core b
  let inA (k : Nat) : Bool := la ≤ k && k < la + 2 ^ 15
  let inB (k : Nat) : Bool := lb ≤ k && k < lb + 2 ^ 15
  let rest := s.mem.filter fun c => !inA c.1 && !inB c.1
  let moved := (s.mem.filter fun c => inA c.1).map fun c => (c.1 - la + lb, c.2)
  let f (c : Ctx) : Ctx :=
    { c with watch := c.watch.map fun w => if inA w.line then { w with line := w.line - la + lb } else w }
  { s with mem := (rest.takeWhile fun c => c.1 < lb) ++ moved ++ rest.dropWhile fun c => c.1 < lb,
           bad := (s.bad.filter fun u => !inA (u * 8) && !inB (u * 8)) ++
             (s.bad.filter fun u => inA (u * 8)).map fun u => (u * 8 - la + lb) / 8,
           ctx := f s.ctx, ctxs := s.ctxs.map f }

/-! ### Acceptance (R245, R246, R248, R252) -/

/-- Lines of leaving cache banks: a clean one leaves at once, the others go home and leave as their bytes have performed (R245,
R248; their order: log entry 119). -/
def State.flushBanks (s : State) (core : Nat) : State :=
  let c := s.coreAt core
  let s := (c.cache.filter fun l => c.leaving l && l.dirty = 0).foldl (fun s l => s.invalidate core l.key) s
  (s.writeBackIf core c.leaving).dropLeft core

/-- Whether work of the core refers to tile banks (R245): nests, MLDW and MCAL of the contexts in its banks. -/
def State.tilesBusy (s : State) (core : Nat) (banks : List Nat) : Bool :=
  let tb := (banks.filter (64 ≤ ·)).map (· - 64)
  s.allCtxs.any fun x =>
    x.core.toNat = core && x.sch.life.holdsBank &&
      (x.mx.queue.any (fun e =>
        tb.any fun j => e.banks.contains j || (e.kind = .cal && e.imm.getLsbD j)) ||
       x.mx.loads.any fun l => !l.isSig && tb.contains l.o.bank)

/-- New owners at the commit (R252): of every named bank and target. -/
def Pool.takeBanks (p : Pool) (q : PoolReq) (rid : BitVec 32) : Pool :=
  let moved := q.named ++ q.targets
  let mine := moved.filter fun j => q.after p j ≠ 0
  { p with owner := (p.owner.filter fun o => !moved.contains o.1) ++ mine.map fun j => (j, rid) }

/-- The roles, the bank map and the tiles after a change (R242, R245). -/
def Pool.finish (p : Pool) (ch : PoolChange) : Pool :=
  let scr := ch.banks.filter fun j => p.role j = 2
  let swap (j : Nat) : Nat := ((scr.zip ch.targets).find? fun x => x.1 = j).map (·.2) |>.getD j
  let lb := if ch.rel then p.lb.map swap else if ch.role = 2 then p.lb ++ ch.banks else p.lb
  let roles := ch.banks.foldl (fun v j => vset v j ch.role) p.roles
  { p with roles := ch.targets.foldl (fun v j => vset v j 2) roles, lb := lb, change := none,
           tiles := p.tiles.filter fun t => !ch.banks.contains (64 + t.bank) }

/-- The bytes of a change: relocated banks move, joining and left ones hold zeros. -/
def State.finishBytes (s : State) (core : Nat) (p : Pool) (ch : PoolChange) : State :=
  let scr := ch.banks.filter fun j => p.role j = 2
  let s := if ch.rel then (scr.zip ch.targets).foldl (fun s x => (s.clearBank core x.2).moveBank core x.1 x.2) s else s
  ch.banks.foldl (fun s j => s.clearBank core j) s

/-- The change completes in this cycle: bytes, roles, bank map, signal (R246, R247). -/
def State.finishChange (s : State) (core : Nat) (ch : PoolChange) : State :=
  let c := s.coreAt core
  let s := s.finishBytes core c.pool ch
  let s := s.putCore { (s.coreAt core) with pool := c.pool.finish ch }
  (s.signalAt core ch.ctx.rid ch.w 0).signalAt core ch.ctx.rid ch.w 1

/-- The leave steps of a change as they stand. -/
def State.watchChange (s : State) (core : Nat) (ch : PoolChange) : PoolChange :=
  let c := s.coreAt core
  let left (banks : List Nat) : Bool := !c.cache.any fun l => banks.contains l.bank
  let note (was : Option Nat) (b : Bool) : Option Nat := if was.isNone && b then some c.cycle else was
  let tiles := ch.banks.filter fun j => c.pool.role j = 3
  { ch with leaveDone := note ch.leaveDone (left ch.banks), targetDone := note ch.targetDone (left ch.targets),
            tileDone := if ch.tileDone.isNone && !s.tilesBusy core tiles then some (c.cycle + 1) else ch.tileDone }

/-- An accepted change (R245, R246): what the commit does, and whether it is all. -/
def State.beginChange (s : State) (q : PoolReq) (w : WaitSig) : Bool × State :=
  let p := s.core.pool
  let banks := q.changing p
  let out := if q.rel then [] else q.leavingScr p
  let lb := p.lb.take (p.lb.length - out.length)
  let busy := s.tilesBusy s.me (banks.filter fun j => p.role j = 3)
  let ch : PoolChange := { ctx := s.ctx.id, banks := banks, targets := q.targets, role := q.role, rel := q.rel, w := w }
  let s := s.modCore fun c => { c with pool := { p.takeBanks q s.rid with lb := lb, change := some ch } }
  let s := out.foldl (fun s j => s.clearBank s.me j) s
  let dirty := s.core.cache.any fun l => s.core.leaving l && l.dirty ≠ 0
  let s := s.flushBanks s.me
  let t := s.core.cycle
  let ch := { (s.watchChange s.me ch) with tileDone := if busy then none else some t }
  if !q.rel && q.role ≠ 2 && !dirty && !busy then (true, s.finishChange s.me ch)
  else (false, s.modCore fun c => { c with pool := { c.pool with change := some ch } })

/-- The checks that PMAP and PMQ share; `act` goes on with the refusal code or none. -/
def State.poolOp (s : State) (o : FE) (act : State → PoolReq → Option Nat → Out) : Out :=
  s.s56 o.w fun s =>
    let q := s.poolReq o
    if s.psS o.sa || s.psS o.sb || s.psS o.sc then s.trap cPoison
    else if bits (s.rdS o.sb).toNat 63 32 ≠ 0 || q.faulty s.core.pool then s.trap cIllegalOperand
    else act s q (if q.changing s.core.pool = [] then none else s.poolRefusal q)

def execPmap (o : FE) (s : State) : Out :=
  s.poolOp o fun s q code =>
    match code with
    | some c => .next (s.wrS o.sd (BitVec.ofNat 64 c) false 6)
    | none =>
      if q.changing s.core.pool = [] then .next ((s.wrS o.sd 0 false 6).signalBoth o.w)
      else
        let r := s.beginChange q o.w
        .next (r.2.wrS o.sd (if r.1 then 0 else 1) false 6)

def execPmq (o : FE) (s : State) : Out :=
  s.poolOp o fun s _ code => .next ((s.wrS o.sd (BitVec.ofNat 64 (code.getD 0)) false 6).signalLater o.w 6)

/-! ### Completion (R245, R246) -/

/-- The cycle in which a change completes, once its leave steps are done (R245): a relocation takes 256 cycles after the targets'
leave steps, and the zero fill of joining banks 64. -/
def PoolChange.doneAt (ch : PoolChange) : Option Nat :=
  match ch.leaveDone, ch.targetDone, ch.tileDone with
  | some a, some r, some b =>
    let left := max a b
    some (if ch.rel then (if ch.targets = [] then left else max (r + 256) left) else if ch.role = 2 then left + 64 else left)
  | _, _, _ => none

/-- POOL_CHANGE_COMPLETE: the leave steps are noted as they end, and the change completes when its last step is done. -/
def execPoolChangeComplete (core : BitVec 11) (s : State) : Out :=
  let s := if (s.coreAt core.toNat).pool.change.isSome then
      (s.writeBackIf core.toNat (s.coreAt core.toNat).leaving).dropLeft core.toNat else s
  let c := s.coreAt core.toNat
  match c.pool.change with
  | none => .next s
  | some ch =>
    let ch := s.watchChange core.toNat ch
    match ch.doneAt with
    | some t =>
      if t ≤ c.cycle then .next (s.finishChange core.toNat ch)
      else .next (s.putCore { c with pool := { c.pool with change := some ch } })
    | none => .next (s.putCore { c with pool := { c.pool with change := some ch } })

/-- CACHE_EVICTION: a line leaves at any time (R280). -/
def execCacheEviction (core : BitVec 11) (line : Nat) (s : State) : Out := .next (s.evict core.toNat line)

/-- HOST_SNOOP: a host access to a line takes it from the cache role; its dirty bytes go to the host home first, and a watch on the
line ends (R188, R280, R343). A host write, of the bytes of a mask, takes it from every core, and its home records SYSTEM and
the host (R290). -/
def execHostSnoop (core : BitVec 11) (access : HostAccess) (s : State) : Out :=
  let line := access.line
  if line / 2 ^ 60 ≠ 3 || line % 64 ≠ 0 then .next s
  else if access.mask = 0 then .next ((s.evict core.toNat line).wakeInvalid core.toNat line)
  else
    let s := (s.core :: s.cores).foldl (fun s c => s.evict c.num.toNat line) s
    if (s.core :: s.cores).any fun c => c.flight.any fun f => f.wb && f.key = line then .next s
    else .next ((s.pokeLine line access.data access.mask).recordAgent line 3)

end Sys2Proof.Machine
end

