-- ==== Sys2Proof/Machine/Save.lean ====
section
/-!
DEFINITION. The save area (R42, R237, R325): its bytes from a context, and a context from its bytes.
-/

namespace Sys2Proof.Machine

/-! ### Writing -/

def words (l : List Nat) : List Byte := l.flatMap (toBytes 8)
def padTo (n : Nat) (bs : List Byte) : List Byte := bs ++ List.replicate (n - bs.length) 0

/-- The major opcode of an engine row (R68). -/
def eOpcode : EOp → Nat
  | .cpy => 0x00
  | .cpy2 => 0x01
  | .cpy3 => 0x02
  | .cpyxScale | .cpyxAdd | .cpyxCast | .cpyxRadd | .cpyxRmax => 0x03
  | .cpyh => 0x04
  | .fcpy => 0x08
  | .mxredStart | .mxredRelay | .mxredFinish => 0x09
  | .rsig => 0x0A
  | .pmap => 0x10
  | .pmq => 0x11
  | .launch => 0x12
  | .esig => 0x13

/-- A saved engine-queue entry (R325). -/
def Cmd.saved (c : Cmd) : List Byte :=
  words [1 + c.tl.toNat * 2, c.num.toNat] ++ toBytes 16 (c.o.toWord (eOpcode c.op)) ++
    words [c.sd.toNat, c.sa.toNat, c.sb.toNat, c.sc.toNat]

/-- Bytes 0x7000 to 0x7DFF (R325). -/
def Ctx.savedQueue (c : Ctx) : List Byte :=
  padTo 1024 (c.queue.flatMap Cmd.saved) ++ toBytes 64 ((c.sch.pendRec.getD 0).toNat) ++
    padTo 128 (words (c.queue.map fun x => x.seed.toNat)) ++ List.replicate 2368 0

def LoopLevel.saved (l : LoopLevel) : List Byte := words [l.count.toNat, l.start.toNat, l.last.toNat, l.index.toNat]

def GSlot.saved (g : GSlot) : List Byte :=
  toBytes 256 g.x.toNat ++ toBytes 256 g.y.toNat ++ toBytes 256 g.z.toNat ++ toBytes 256 g.idx.toNat

/-- Bytes 0x0000 to 0x7DFF, for an effective class in a cycle, with or without a semaphore image. -/
def Ctx.savedBase (c : Ctx) (pcl cycle : Nat) (img : Bool) : List Byte :=
  let ns {n : Nat} (v : Vector W64 n) : List Nat := v.toList.map BitVec.toNat
  words [2 ^ 48 + b2n c.c.mhold + b2n img * 2, c.q.pc.toNat, (statusWord c pcl cycle).toNat, c.c.fpf.toNat, c.c.ferec.toNat,
      c.c.rng.toNat, c.c.gesc.toNat, (lstkWord c.q).toNat] ++
    padTo 192 (c.q.loops.flatMap LoopLevel.saved) ++
    words [c.tlc.mark.toNat, c.tlc.issued.toNat, c.tlm.mark.toNat, c.tlm.issued.toNat, c.tlf.mark.toNat,
      c.tlf.issued.toNat, c.c.take.toNat, c.c.ttab.toNat] ++
    words (ns c.r.b) ++ c.r.f.toList.flatMap (fun x => toBytes 4 x.toNat) ++
    c.r.ft.toList.flatMap (fun x => toBytes 2 x.toNat) ++ words [c.r.sp.toNat, c.r.pp.toNat] ++
    words [c.c.trpb.toNat, (trppWord c.c).toNat] ++ words (ns c.r.s) ++
    padTo 512 (words [(eseamWord c.es).toNat]) ++ padTo 1024 (toBytes 4 c.c.cidx.toNat) ++
    c.r.p.toList.flatMap (fun x => toBytes 32 x.toNat) ++
    padTo 512 (c.r.vp.toList.flatMap fun x => toBytes 4 x.toNat) ++
    c.r.v.toList.flatMap (fun x => toBytes 256 x.toNat) ++ c.r.g.toList.flatMap GSlot.saved ++ c.savedQueue

def kindCode : MKind → Nat
  | .nest => 1
  | .zclr => 2
  | .cal => 3

/-- A saved matrix-queue entry (R237). -/
def MEntry.saved (e : MEntry) : List Byte :=
  words [kindCode e.kind, e.num.toNat, e.imm.toNat, e.w.toWord % 2 ^ 25] ++
    padTo 96 (toBytes 4 e.af.toNat ++ toBytes 4 e.wf.toNat ++ toBytes 4 e.outf.toNat) ++
    words (e.cfg.toList.map BitVec.toNat) ++ toBytes 256 e.va.toNat

/-- Bytes 0x8000 to 0x4FFFF (R42, R237). -/
def Matrix.saved (m : Matrix) : List Byte :=
  words (m.shadow.toList.map BitVec.toNat) ++ words (m.active.toList.map BitVec.toNat) ++
    padTo 768 (words ((List.range 8).map fun z => (m.status z).toNat % 2 ^ 63)) ++
    padTo 3072 (m.queue.flatMap MEntry.saved) ++ List.replicate 0x7000 0 ++
    m.val.toList.flatMap (fun x => toBytes 512 x.toNat) ++ m.bnd.toList.flatMap (fun x => toBytes 512 x.toNat)

/-- A grant's values as an image (R24). -/
def Core.savedSems (c : Core) (g : Grant) : List Byte :=
  (List.range g.count).flatMap fun i => toBytes 2 (vget c.k (g.base + i)).toNat

/-- What a save writes, by offset. -/
def savedParts (c : Ctx) (pcl cycle : Nat) (image : Option (List Byte)) : List (Nat × List Byte) :=
  (0, c.savedBase pcl cycle image.isSome) :: ((image.map fun b => (0x7E00, b)).toList ++
    if c.c.mhold then [(0x8000, c.mx.saved)] else [])

/-! ### Reading -/

def w64At (bs : List Byte) (off : Nat) : W64 := BitVec.ofNat 64 (leNat ((bs.drop off).take 8))
def natAt (bs : List Byte) (off n : Nat) : Nat := leNat ((bs.drop off).take n)

/-- Entry i of the saved engine queue; what the area does not hold comes from the entry as it was saved. -/
def savedCmd (bs : List Byte) (old : List Cmd) (i : Nat) : Option Cmd :=
  let at_ := 0x7000 + 64 * i
  let h := natAt bs at_ 8
  if h % 2 = 1 then
    (readEngine (natAt bs (at_ + 16) 16)).map fun x =>
      let num := w64At bs (at_ + 8)
      let tl := BitVec.ofNat 2 (h / 2)
      let o := old.find? fun c => c.tl = tl && c.num = num && c.op = x.1
      { op := x.1, o := x.2, tl := tl, num := num, sd := w64At bs (at_ + 32), sa := w64At bs (at_ + 40),
        sb := w64At bs (at_ + 48), sc := w64At bs (at_ + 56), seed := w64At bs (0x7440 + 8 * i),
        ba := (o.map (·.ba)).getD 0, desc := (o.map (·.desc)).getD [] }
  else none

/-- The registers in an area (R42). s0 and p0 are constants (R14, R15). -/
def savedRegs (bs : List Byte) : Regs :=
  { s := Vector.ofFn fun i => if i.val = 0 then 0 else w64At bs (0x200 + 8 * i.val), sp := setBit (w64At bs 0x1E0) 0 false,
    b := Vector.ofFn fun i => w64At bs (0x140 + 8 * i.val),
    v := Vector.ofFn fun i => BitVec.ofNat 2048 (natAt bs (0x1000 + 256 * i.val) 256),
    vp := Vector.ofFn fun i => BitVec.ofNat 32 (natAt bs (0xE00 + 4 * i.val) 4),
    p := Vector.ofFn fun i => BitVec.ofNat 256 (natAt bs (0xA00 + 32 * i.val) 32),
    pp := setBit (BitVec.ofNat 32 (natAt bs 0x1E8 4)) 0 false,
    g := Vector.ofFn fun i =>
      let part (k : Nat) : VWord := BitVec.ofNat 2048 (natAt bs (0x5000 + 1024 * i.val + 256 * k) 256)
      { x := part 0, y := part 1, z := part 2, idx := part 3 },
    f := Vector.ofFn fun i => BitVec.ofNat 32 (natAt bs (0x180 + 4 * i.val) 4),
    ft := Vector.ofFn fun i => BitVec.ofNat 16 (natAt bs (0x1C0 + 2 * i.val) 2) }

def savedLoop (bs : List Byte) (i : Nat) : LoopLevel :=
  let at_ := 0x40 + 32 * i
  { count := w64At bs at_, start := w64At bs (at_ + 8), last := w64At bs (at_ + 16), index := w64At bs (at_ + 24) }

/-- The control registers in an area; reserved bits read as zero (R8). PCL, MHOLD, STRICT and HELD are the scheduler's, and stay
as it has them. -/
def savedCtl (bs : List Byte) (c : Ctl) : Ctl :=
  let st := w64At bs 0x10
  { c with sres := st.extractLsb' 0 3, vrb := st.extractLsb' 5 5, prb := st.extractLsb' 10 4, smis := st.getLsbD 4,
           gdeg := st.getLsbD 17, gnf := st.getLsbD 18, fpf := w64At bs 0x18 &&& 0xFFFFFFFFFF,
           ferec := w64At bs 0x20 &&& 0xFFC0FFFFFFFFFFFE,
           rng := w64At bs 0x28, gesc := w64At bs 0x30, take := BitVec.ofNat 2 (natAt bs 0x130 8),
           ttab := w64At bs 0x138, trpb := w64At bs 0x1F0 &&& 0xFFFFFFFFFFFFF01F, pidx := BitVec.ofNat 32 (natAt bs 0x1F8 4),
           lost := (w64At bs 0x1F8).getLsbD 63, cidx := BitVec.ofNat 32 (natAt bs 0x600 4) }

def savedTl (bs : List Byte) (off : Nat) (t : Timeline) : Timeline :=
  { t with mark := w64At bs off, issued := w64At bs (off + 8) }

/-- Entry i of the saved matrix queue. -/
def savedEntry (bs : List Byte) (old : List MEntry) (cycle i : Nat) : Option MEntry :=
  let at_ := 0x400 + 512 * i
  let num := w64At bs (at_ + 8)
  let kind : Option MKind := match natAt bs at_ 8 % 4 with
    | 1 => some .nest
    | 2 => some .zclr
    | 3 => some .cal
    | _ => none
  kind.map fun k =>
    let o := old.find? fun e => e.num = num
    { kind := k, num := num, imm := w64At bs (at_ + 16), w := readWaitSig (natAt bs (at_ + 24) 8 % 2 ^ 25),
      ba := (o.map (·.ba)).getD 0, af := BitVec.ofNat 32 (natAt bs (at_ + 32) 4),
      wf := BitVec.ofNat 32 (natAt bs (at_ + 36) 4), outf := BitVec.ofNat 32 (natAt bs (at_ + 40) 4),
      cfg := Vector.ofFn fun j => w64At bs (at_ + 0x80 + 8 * j.val),
      va := BitVec.ofNat 2048 (natAt bs (at_ + 0x100) 256), vap := (o.map (·.vap)).getD 0, at0 := cycle, restored := true }

/-- The matrix part from the bytes at 0x8000. -/
def savedMatrix (bs : List Byte) (cycle : Nat) (m : Matrix) : Matrix :=
  { m with
    shadow := Vector.ofFn fun i => w64At bs (8 * i.val), active := Vector.ofFn fun i => w64At bs (0x80 + 8 * i.val),
    stat := Vector.ofFn fun i =>
      let x := w64At bs (0x100 + 8 * i.val)
      { clip := x.getLsbD 62, stale := x.getLsbD 61, steps := x.extractLsb' 0 32 },
    queue := (List.range 4).filterMap (savedEntry bs m.queue cycle),
    val := Vector.ofFn fun i => BitVec.ofNat 4096 (natAt bs (0x8000 + 512 * i.val) 512),
    bnd := Vector.ofFn fun i => BitVec.ofNat 4096 (natAt bs (0x28000 + 512 * i.val) 512) }

/-- GREF with refreshes added that its area has not counted (R36, R261). -/
def addGref (g : BitVec 16) (n : Nat) : BitVec 16 := BitVec.ofNat 16 (min (g.toNat + n) 65535)

/-- A context with the state of its area: `low` from its start, `high` from 0x8000 for a holder. -/
def Ctx.fromArea (c : Ctx) (low high : List Byte) (cycle : Nat) : Ctx :=
  let es := w64At low 0x400
  let l := w64At low 0x38
  { c with
    r := savedRegs low, c := savedCtl low c.c,
    q := { c.q with pc := asPc (w64At low 8), loops := (List.range (min 6 (l.toNat % 8))).map (savedLoop low),
                    lsel := l.extractLsb' 4 3, stallUntil := 0, counted := false },
    es := { c.es with gtrap := es.getLsbD 63, lstall := es.extractLsb' 32 16, gref := addGref (es.extractLsb' 16 16) c.sch.grefOwed },
    tlc := savedTl low 0x100 c.tlc, tlm := savedTl low 0x110 c.tlm, tlf := savedTl low 0x120 c.tlf,
    queue := (List.range 16).filterMap (savedCmd low c.queue),
    sch := { c.sch with grefOwed := 0, pendRec := if natAt low 0x7400 64 = 0 then none else some (BitVec.ofNat 512 (natAt low 0x7400 64)) },
    mx := if c.c.mhold then savedMatrix high cycle c.mx else c.mx }

/-! ### The area in memory (R299, R326) -/

/-- Size of a context's area. -/
def Ctx.areaSize (c : Ctx) : Nat := if c.c.mhold then 0x50000 else 0x8000

/-- Why an access to the area faults, and at which address. -/
def State.areaFault (s : State) (c : Ctx) (core : Nat) : Option (SaveFault × W64) :=
  ((pieces (c.areaSize / 2048 + 2) c.sch.saveArea c.areaSize).filterMap fun p =>
    match s.resolve core c.id.rid p.1 0 Access.both with
    | .error f => some (if f.rank = 4 then SaveFault.permission else SaveFault.page, p.1)
    | .ok _ => none).head?

/-- The bytes of the area take free values, where it translates (R326). -/
def State.spoilArea (s : State) (c : Ctx) (core : Nat) : State :=
  (pieces (c.areaSize / 2048 + 2) c.sch.saveArea c.areaSize).foldl
    (fun s p => match s.homeKey core c.id.rid p.1 Access.store with
      | .ok k =>
        let f := s.anyBits (8 * p.2)
        f.2.poke k (toBytes p.2 f.1.toNat)
      | .error _ => s) s

/-- Where a range of the area lies; none where it faults or is held. -/
def State.areaRuns (s : State) (c : Ctx) (core off n : Nat) (acc : Access) : Option (List Run) :=
  match s.route core c.id.rid acc (c.sch.saveArea + BitVec.ofNat 64 off) n with
  | .ok rs => some rs
  | _ => none

/-- Bytes written over runs at their homes. -/
def State.pokeRuns (s : State) : List Run → List Byte → State
  | [], _ => s
  | r :: rs, bs => State.pokeRuns (s.poke r.key (bs.take r.n)) rs (bs.drop r.n)

/-- The bytes of a part of the area; none where it cannot be read. -/
def State.readArea (s : State) (c : Ctx) (core off n : Nat) : Option (List Byte) :=
  (s.areaRuns c core off n Access.load).map fun rs => rs.flatMap fun r => s.peek r.key r.n

/-- A save's parts written; none where one cannot be. -/
def State.writeArea (s : State) (c : Ctx) (core : Nat) : List (Nat × List Byte) → Option State
  | [] => some s
  | p :: ps =>
    match s.areaRuns c core p.1 p.2.length Access.store with
    | some rs => State.writeArea (s.pokeRuns rs p.2) c core ps
    | none => none

end Sys2Proof.Machine
end

