-- ==== Sys2Proof/Machine/MemInstr.lean ====
section
/-!
DEFINITION. The memory class (R123, R176 to R188): scalar, speculative, acquiring and releasing accesses, vector and
predicate accesses, gather and scatter, atomics, fences, cache-line operations and the watch.
-/

namespace Sys2Proof.Machine

/-! ### Scalar loads (R123, R181) -/

/-- The scalar access of format LS. -/
def State.lsElem (s : State) (o : LS) : List Elem := [{ i := 0, addr := s.lsAddr o }]
def State.lsPoison (s : State) (o : LS) : Bool := s.psS o.sa || s.psS o.sx

/-- The register value of n bytes x of a signed or unsigned type. -/
def extend (n : Nat) (signed : Bool) (x : Nat) : W64 :=
  if signed then BitVec.ofInt 64 (signedOf (8 * n) x) else BitVec.ofNat 64 x

/-- Writes a scalar load's result. -/
def State.putLoad (s : State) (o : LS) (n : Nat) (signed : Bool) (lat : Nat) (vs : List (Nat × Nat × Bool)) : State :=
  match vs with
  | v :: _ => s.wrS o.sd (extend n signed v.2.1) v.2.2 lat
  | [] => s

def State.ld (s : State) (i : Instr) (o : LS) (n : Nat) (signed : Bool) : Out :=
  if s.lsPoison o then s.trap cPoison
  else
    let lat := s.latOf (s.lsElem o) n false
    s.load i 0 n false (s.lsElem o) fun s vs => s.putLoad o n signed lat vs

def execLdI8 (o : LS) (s : State) : Out := s.ld (.ldI8 o) o 1 true
def execLdN8 (o : LS) (s : State) : Out := s.ld (.ldN8 o) o 1 false
def execLdI16 (o : LS) (s : State) : Out := s.ld (.ldI16 o) o 2 true
def execLdN16 (o : LS) (s : State) : Out := s.ld (.ldN16 o) o 2 false
def execLdI32 (o : LS) (s : State) : Out := s.ld (.ldI32 o) o 4 true
def execLdN32 (o : LS) (s : State) : Out := s.ld (.ldN32 o) o 4 false
def execLdI64 (o : LS) (s : State) : Out := s.ld (.ldI64 o) o 8 true

/-- A speculative load: what would fault writes a poisoned zero (R123). -/
def State.lds (s : State) (i : Instr) (o : LS) (n : Nat) (signed : Bool) : Out :=
  if s.lsPoison o then s.trap cPoison
  else
    let lat := s.latOf (s.lsElem o) n false
    s.loadWith i n false (s.lsElem o) (fun s vs => s.putLoad o n signed lat vs)
      fun s _ => .next (s.wrS o.sd 0 true lat)

def execLdsI32 (o : LS) (s : State) : Out := s.lds (.ldsI32 o) o 4 true
def execLdsN32 (o : LS) (s : State) : Out := s.lds (.ldsN32 o) o 4 false
def execLdsI64 (o : LS) (s : State) : Out := s.lds (.ldsI64 o) o 8 true

/-- Sets STATUS.SMIS where an acquire that reads the line at its home is mismatched (R290). -/
def State.noteMismatch (s : State) (mis : Bool) : State := if mis then s.modCtl fun c => { c with smis := true } else s

/-- Whether the read of an acquire at a place meets a record that does not cover it. -/
def State.misread (s : State) (p : Place) (n : Nat) : Bool := s.readsHome p n && s.mismatch s.me (s.recordKey p)

/-- A load with acquire: the drop comes before the read (R287). -/
def State.lda (s : State) (i : Instr) (o : LS) (n : Nat) (signed : Bool) : Out :=
  if s.lsPoison o then s.trap cPoison
  else
    let found := s.checkElems Access.load n false (s.lsElem o)
    if s.waits (s.walkHeld (s.lsElem o) found) then .next s.hold
    else match found with
    | .error f => s.trapFail 0 f
    | .ok ps =>
      let s' := (s.acquire o.sco).approachAll ps
      let lat := s'.latOf (s.lsElem o) n false
      let mis := (ps.any fun p => s'.misread p.2 n) || s.ctx.remote.any (·.mis)
      s'.load i 0 n false (s.lsElem o) fun s vs => (s.putLoad o n signed lat vs).noteMismatch mis

def execLdaN32 (o : LS) (s : State) : Out := s.lda (.ldaN32 o) o 4 false
def execLdaI64 (o : LS) (s : State) : Out := s.lda (.ldaI64 o) o 8 true

/-! ### Scalar stores (R181, R286) -/

def State.st (s : State) (o : LS) (n : Nat) : Out :=
  if s.lsPoison o || s.psS o.sd then s.trap cPoison
  else s.store 0 n false (s.lsElem o) fun _ => (s.rdS o.sd).toNat

def execStN8 (o : LS) (s : State) : Out := s.st o 1
def execStN16 (o : LS) (s : State) : Out := s.st o 2
def execStN32 (o : LS) (s : State) : Out := s.st o 4
def execStN64 (o : LS) (s : State) : Out := s.st o 8

/-- The bytes a release has stored go on to the place its scope reaches. -/
def State.pushLine (s : State) (sco : BitVec 2) (p : Place) : State :=
  match p with
  | .home k true => if inReach sco k then s.writeBackIf s.me (fun l => l.key = lineOf k) else s
  | _ => s

/-- A store with release: it waits for what it releases (R286). -/
def State.stl (s : State) (o : LS) (n : Nat) : Out :=
  if s.lsPoison o || s.psS o.sd then s.trap cPoison
  else
    let found := s.checkElems Access.store n false (s.lsElem o)
    if s.waits (s.walkHeld (s.lsElem o) found) then .next s.hold
    else match found with
    | .error f => s.trapFail 0 f
    | .ok ps =>
      let s' := s.beginRelease o.sco
      if s.waits (s'.releasePending o.sco || ps.any (fun p => s.heldWrite p.2)) then .next s'.hold
      else
        .next (ps.foldl (fun s p =>
          (s.writePlace p.2 p.1.addr n (s.rdS o.sd).toNat (some (s.markOf o.sco))).pushLine o.sco p.2)
          (s'.noteElems (s.lsElem o)))

def execStlN32 (o : LS) (s : State) : Out := s.stl o 4
def execStlN64 (o : LS) (s : State) : Out := s.stl o 8

/-! ### Atomics (R185) -/

/-- What an atomic writes, from the old value and its operands, all of n bytes. -/
def newAdd (n old b _c : Nat) : Nat := (old + b) % 2 ^ (8 * n)
def newAnd (_n old b _c : Nat) : Nat := old &&& b
def newOr (_n old b _c : Nat) : Nat := old ||| b
def newXor (_n old b _c : Nat) : Nat := old ^^^ b
def newMin (n old b _c : Nat) : Nat := if signedOf (8 * n) old < signedOf (8 * n) b then old else b
def newMax (n old b _c : Nat) : Nat := if signedOf (8 * n) old < signedOf (8 * n) b then b else old
def newSwp (_n _old b _c : Nat) : Nat := b
def newCas (_n old b c : Nat) : Nat := if old = c then b else old

/-- The operation by its packet code (R331). -/
def newOf (op : BitVec 3) : Nat → Nat → Nat → Nat → Nat :=
  match op.toNat with
  | 0 => newAdd
  | 1 => newAnd
  | 2 => newOr
  | 3 => newXor
  | 4 => newMin
  | 5 => newMax
  | 6 => newSwp
  | _ => newCas

/-- Operand size of an atomic. -/
def laSize (o : LA) : Nat := 8 - 4 * o.w.toNat

/-- The old value as sd receives it. -/
def oldValue (op : BitVec 3) (o : LA) (old : Nat) : W64 := extend (laSize o) (o.w = 1 && (op = 4 || op = 5)) old

/-- The indivisible access at a home key: nothing is written where the old value is uncorrectable. -/
def State.atomicAt (s : State) (op : BitVec 3) (o : LA) (k lat : Nat) : State :=
  let n := laSize o
  let old := leNat (s.peek k n)
  let new := newOf op n old ((s.rdS o.sb).toNat % 2 ^ (8 * n)) ((s.rdS o.sc).toNat % 2 ^ (8 * n))
  if s.isBad k n then s.wrS o.sd (oldValue op o old) true lat
  else ((s.poke k (toBytes n new)).recordLine (lineOf k) (some (s.markOf o.sco))).wrS o.sd (oldValue op o old) false lat

/-- The home key of an atomic at a place outside the pool: the seam's for an address of the own device; none where the home
refuses (R333), and the device's number where it is another. -/
def State.atomicHome (s : State) (k : Nat) : Except (Option (BitVec 12)) Nat :=
  if k / 2 ^ 60 = 4 then
    let dev := devOf (BitVec.ofNat 64 k)
    if dev = s.mgmt.devid then
      match s.remoteKey dev k Access.both with
      | some h => .ok h
      | none => .error none
    else .error (some dev)
  else .ok k

/-- An atomic goes to another device, and the access waits for the old value (R331). -/
def State.askAtomic (s : State) (i : Instr) (op : BitVec 3) (o : LA) (dev : BitVec 12) : State :=
  let q := s.send dev (.atomic op o.w (s.rdS o.sa) (s.rdS o.sb) (s.rdS o.sc))
  let r : Remote := { seq := q.1, instr := i, iss := s.iss, regs := s.pre.r, ctl := s.pre.c, addr := s.rdS o.sa }
  q.2.modCtx fun c => { c with remote := some r }

/-- Whether an atomic of a scope on a place is performed in the own cache role (R285). -/
def inCache (sco : BitVec 2) (cached : Bool) : Bool := sco = 0 && cached

/-- The remote fault of an atomic: nothing has performed, sd is not written (R176). -/
def State.atomicFault (s : State) (a : W64) : Out := s.clearRemote.trap cRemote 0 0 a

/-- The answer of another device to an atomic: sd takes the old value; clean bytes of the word that the cache role holds are old. -/
def State.atomicBack (s : State) (op : BitVec 3) (o : LA) (k lat : Nat) (r : Remote) : Out :=
  if r.failed then s.atomicFault (s.rdS o.sa)
  else match r.old with
    | some (v, bad) =>
      .next (((s.dropOld s.me (lineOf k) (maskOf (k % 64) (laSize o))).wrS o.sd (oldValue op o v.toNat) bad lat).clearRemote.noteMismatch
        r.mis)
    | none => .next s

/-- The line that another device has sent, with the bytes of the own core that have left for it since (R285). -/
def Remote.current (r : Remote) (cache : List Line) : Remote :=
  { r with cache := cache, got := r.got.map fun g =>
      (g.1, (r.left.filter fun x => x.1 = g.1).foldl (fun d x => mergeLine d x.2.1 x.2.2) g.2.1, g.2.2) }

/-- An atomic in the own cache role (R285): it reads and writes the line as it stands. -/
def State.atomicCached (s : State) (i : Instr) (op : BitVec 3) (o : LA) (p : Place) (lat : Nat) (mis : Bool) : Out :=
  let a := s.rdS o.sa
  let n := laSize o
  let now := s.modCtx fun c => { c with remote := c.remote.map fun r => r.current s.core.cache }
  let r := now.readPlace p a n
  match r.1 with
  | .ask l => .next (s.askLine i l n [])
  | .refused => s.atomicFault a
  | .val old bad =>
    let new := newOf op n old ((s.rdS o.sb).toNat % 2 ^ (8 * n)) ((s.rdS o.sc).toNat % 2 ^ (8 * n))
    let s3 := if bad then r.2 else r.2.writePlace p a n new (some (s.markOf o.sco))
    .next ((s3.wrS o.sd (oldValue op o old) bad lat).clearRemote.noteMismatch mis)

/-- An atomic at the home of a cached or bypassing access (R285): the core's older dirty bytes of the line are home first (R279). -/
def State.atomicAway (s : State) (i : Instr) (op : BitVec 3) (o : LA) (k lat : Nat) : Out :=
  let s3 := (s.writeBackIf s.me fun l => l.key = lineOf k).settle s.me s.ctx.id (lineOf k)
  match s.atomicHome k with
  | .error none => s.atomicFault (s.rdS o.sa)
  | .error (some dev) =>
    match s.ctx.remote with
    | none =>
      if s.waits (s3.underway s.me s.ctx.id (lineOf k) ≠ []) then .next s3.hold
      else .next (s3.askAtomic i op o dev)
    | some r => s.atomicBack op o k lat r
  | .ok h =>
    if s.waits (s.stands k || s3.underway s.me s.ctx.id (lineOf k) ≠ []) then .next s3.hold
    else
      let m := s.mismatch s.me (lineOf h)
      .next (((s3.atomicAt op o h lat).dropBytes s.me (lineOf k) (maskOf (k % 64) (laSize o))).noteMismatch m)

def State.atomic (s : State) (i : Instr) (op : BitVec 3) (o : LA) : Out :=
  let a := s.rdS o.sa
  let n := laSize o
  if s.psS o.sa || s.psS o.sb || s.psS o.sc then s.trap cPoison
  else
    let found := s.checkElems Access.both n false [{ i := 0, addr := a }]
    if s.waits (s.walkHeld [{ i := 0, addr := a }] found) then .next s.hold
    else match found with
    | .error f => s.trapFail 0 f
    | .ok ps =>
      match ps.head?.map (·.2) with
      | none => .next s
      | some p =>
        let lat := s.loadLat p n false + 4
        let s1 := (s.approach p).beginRelease o.sco
        if s.waits (s1.releasePending o.sco || s1.lineBusy p n || s.heldWrite p) then .next s1.hold
        else
          let s2 := (s1.acquire o.sco).noteAddr a
          let mis := s2.misread p n || s.ctx.remote.any (·.mis)
          match p with
          | .far _ => .next s
          | .pool _ k => .next ((s2.atomicAt op o k lat).noteMismatch mis)
          | .home k cached =>
            if inCache o.sco cached then
              if s.waits (s2.heldRead p n) then .next s1.hold else s2.atomicCached i op o p lat mis
            else s2.atomicAway i op o k lat

def execAadd (o : LA) (s : State) : Out := s.atomic (.aadd o) 0 o
def execAand (o : LA) (s : State) : Out := s.atomic (.aand o) 1 o
def execAor (o : LA) (s : State) : Out := s.atomic (.aor o) 2 o
def execAxor (o : LA) (s : State) : Out := s.atomic (.axor o) 3 o
def execAmin (o : LA) (s : State) : Out := s.atomic (.amin o) 4 o
def execAmax (o : LA) (s : State) : Out := s.atomic (.amax o) 5 o
def execAswp (o : LA) (s : State) : Out := s.atomic (.aswp o) 6 o
def execAcas (o : LA) (s : State) : Out := s.atomic (.acas o) 7 o

/-! ### Vector accesses (R182, R184) -/

/-- The value that a load gave element i. -/
def valueAt (vs : List (Nat × Nat × Bool)) (i : Nat) : Nat × Bool :=
  match vs.find? fun v => v.1 = i with
  | some v => v.2
  | none => (0, false)

/-- A vector load over its active elements: the rest become zero; a poisoned guard poisons all. -/
def State.vecLoad (s : State) (i : Instr) (vd : R6) (pg : R5) (t : BitVec 4) (misaligned : Bool) (es : List Elem) : Out :=
  let n := tyWidth t / 8
  let lat := s.latOf es n true
  s.load i (tyWidth t) n misaligned es fun s vs =>
    s.wrE vd (tyWidth t) lat fun j => let v := valueAt vs j; some (v.1, v.2 || s.psP pg)

/-- A misaligned base, or for a strided form a misaligned stride (R182). -/
def misBase (n : Nat) (b : W64) : Bool := b.toNat % n ≠ 0

def execVld (o : LV) (s : State) : Out :=
  if s.psS o.sa || s.psS o.sx then s.trap cPoison
  else s.vecLoad (.vld o) o.vd o.pg o.t false (s.lvElems o)

def execVlds (o : LV) (s : State) : Out :=
  let n := tyWidth o.t / 8
  if s.psS o.sa || s.psS o.sx then s.trap cPoison
  else s.vecLoad (.vlds o) o.vd o.pg o.t (misBase n (s.lvsBase o) || misBase n (s.rdS o.sx)) (s.lvsElems o)

/-- Active elements of a register that lie in poisoned lane groups, as a lane mask. -/
def State.poisonMask (s : State) (r : R6) (pg : R5) (t : BitVec 4) : Nat :=
  (groupMask (tyWidth t) fun i => s.guard pg t i && s.psE r t i).toNat

/-- A vector store: the poison of address, guard and data, then the elements (R19, R182). -/
def State.vecStore (s : State) (vd : R6) (pg : R5) (t : BitVec 4) (badAddr : Bool) (idx : Nat) (misaligned : Bool)
    (es : List Elem) : Out :=
  let m := s.poisonMask vd pg t ||| idx
  if badAddr || s.psP pg || m ≠ 0 then s.trap cPoison 0 m
  else s.store (tyWidth t) (tyWidth t / 8) misaligned es fun i => s.rdE vd t i

def execVst (o : LV) (s : State) : Out :=
  s.vecStore o.vd o.pg o.t (s.psS o.sa || s.psS o.sx) 0 false (s.lvElems o)

def execVsts (o : LV) (s : State) : Out :=
  let n := tyWidth o.t / 8
  s.vecStore o.vd o.pg o.t (s.psS o.sa || s.psS o.sx) 0 (misBase n (s.lvsBase o) || misBase n (s.rdS o.sx)) (s.lvsElems o)

def execVgth (o : LG) (s : State) : Out :=
  let m := s.poisonMask o.vb o.pg o.t
  if s.psS o.sa || m ≠ 0 then s.trap cPoison 0 m
  else s.vecLoad (.vgth o) o.vd o.pg o.t false (s.lgElems o)

def execVsct (o : LG) (s : State) : Out :=
  s.vecStore o.vd o.pg o.t (s.psS o.sa) (s.poisonMask o.vb o.pg o.t) false (s.lgElems o)

/-! ### Predicate accesses (R183) -/

def LV_pd (o : LV) : R5 := o.vd.setWidth 5

def execPld (o : LV) (s : State) : Out :=
  if s.psS o.sa || s.psS o.sx then s.trap cPoison
  else
    let es : List Elem := [{ i := 0, addr := s.lvBase o }]
    let lat := s.latOf es 32 true
    s.load (.pld o) 0 32 false es fun s vs =>
      let v := valueAt vs 0
      s.wrP (LV_pd o) (BitVec.ofNat 256 v.1) v.2 lat

def execPst (o : LV) (s : State) : Out :=
  if s.psS o.sa || s.psS o.sx || s.psP (LV_pd o) then s.trap cPoison
  else s.store 0 32 false [{ i := 0, addr := s.lvBase o }] fun _ => (s.rdP (LV_pd o)).toNat

/-! ### Fences and cache lines (R186, R187) -/

/-- What a DRAIN waits for: the context's stores to other cores and past the cache role, and write-backs in reach. -/
def State.drainSet (s : State) (sco : BitVec 2) : List Nat :=
  (s.core.flight.filter fun f => if f.wb then inReach sco f.key else f.ctx = s.ctx.id).map (·.seq)

def execDrain (o : LS) (s : State) : Out :=
  let s := s.beginRelease o.sco
  .next (s.modSeq fun q => { q with drain := q.drain ++ s.drainSet o.sco })

/-- Whether a space-0x4 address of the own device translates under the entry of its own id (R332), and the detail if not. -/
def State.ownFault (s : State) (k : Nat) : Option Nat :=
  let e := s.ratOf s.mgmt.devid
  if !e.getLsbD 63 then some 0
  else match s.walk (e.extractLsb' 12 28) k with
  | .ok _ => none
  | .error d => some d

/-- The line that a cache-line operation names: none for spaces 0x0 and 0x1. A line that does not translate is a page fault; of
another device's line that device says so, as to a load (log entry 92). -/
def State.lineAt (s : State) (o : LS) : Except Failed (Option Nat) :=
  match s.resolve s.me s.rid (s.lsAddr o) 0 ⟨false, false⟩ with
  | .ok (.home k _) =>
    if s.isAway k then (if s.ctx.remote.any (·.failed) then .error (fPage 0) else .ok (some (lineOf k)))
    else if k / 2 ^ 60 = 4 then
      (match s.ownFault k with
       | some d => .error (fPage d)
       | none => .ok (some (lineOf k)))
    else .ok (some (lineOf k))
  | .ok _ => .ok none
  | .error f => if space (s.lsAddr o) < 2 then .ok none else .error f

/-- Write-backs of a line that are on their way hold the next bundle. -/
def State.holdLine (s : State) (k : Nat) : State :=
  s.modSeq fun q => { q with drain := q.drain ++ (s.core.flight.filter fun f => f.wb && f.key = k).map (·.seq) }

/-- Whether the walk of a cache-line operation is held (R190, R269): nothing fails before it. -/
def State.lineHeld (s : State) (o : LS) : Bool :=
  (match s.lineAt o with
   | .error e => 3 ≤ e.rank
   | .ok _ => true) &&
  (s.heldWalk s.me s.rid (s.lsAddr o) ||
    (space (s.lsAddr o) = 4 && devOf (s.lsAddr o) = s.mgmt.devid &&
      s.heldTables ((s.ratOf s.mgmt.devid).extractLsb' 12 28) (s.lsAddr o).toNat s.fab.nextSeq))

/-- A cache-line operation, once its line is known to translate: another device is asked as by a load. -/
def State.lineOp (s : State) (i : Instr) (o : LS) (f : State → Nat → State) : Out :=
  if s.lsPoison o then s.trap cPoison
  else if s.waits (s.lineHeld o) then .next s.hold
  else
    match s.lineAt o with
    | .error e => s.clearRemote.trap e.cause e.detail 0 (s.lsAddr o)
    | .ok none => .next s
    | .ok (some k) =>
      if s.isAway k && s.ctx.remote.isNone then .next (s.askLine i k 0 [])
      else .next ((f s.clearRemote k).noteAddr (s.lsAddr o))

def execClwb (o : LS) (s : State) : Out :=
  s.lineOp (.clwb o) o fun s k =>
    if inReach o.sco k then (s.writeBackIf s.me fun l => l.key = k).holdLine k else s

def execClinv (o : LS) (s : State) : Out := s.lineOp (.clinv o) o fun s k => s.invalidate s.me k

/-- At CORE scope the dirty bytes go home without the mark of a release. -/
def execClfl (o : LS) (s : State) : Out :=
  s.lineOp (.clfl o) o fun s k =>
    let unmark (c : Core) : Core := { c with cache := replaceIf (fun l => l.key = k) (fun l => { l with marks := [] }) c.cache }
    let s := if o.sco = 0 then s.modCore unmark else s
    (s.evict s.me k).holdLine k

/-! ### The watch (R188, R343) -/

/-- The key of the watched line. -/
def State.watchLine (s : State) (a : W64) : Except Failed (Nat × Place) :=
  match s.resolve s.me s.rid a 0 Access.load with
  | .ok p => .ok (s.recordKey p, p)
  | .error f => .error f

/-- A watch on a host line first takes the line into the cache role (R343). -/
def State.fetchWatched (s : State) (a : W64) (p : Place) : State :=
  match p with
  | .home k true => if k / 2 ^ 60 = 3 then (s.readPlace (.home (lineOf k) true) (a - BitVec.ofNat 64 (k % 64)) 64).2 else s
  | _ => s

def execWaita (o : LS) (s : State) : Out :=
  let a := s.rdS o.sa + sext o.off
  if s.psS o.sa || s.psS o.sx then s.trap cPoison
  else
    let found := s.watchLine a
    if s.waits ((match found with
        | .error f => 3 ≤ f.rank
        | .ok _ => true) && s.heldWalk s.me s.rid a) then .next s.hold
    else match found with
    | .error f => s.trap f.cause f.detail 0 a
    | .ok (k, p) =>
      if s.waits (s.heldWrite p) then .next s.hold
      else
        let t := (s.rdS o.sx).toNat
        let w : Watch :=
          { sd := o.sd, line := k, addr := a, sco := o.sco, deadline := if t = 0 then none else some (s.time.elapsedNs + t),
            seen := none, tag := s.openTag }
        let s := (((s.fetchWatched a p).noteAddr a).quitWatch s.ctx.id).modCtx fun c => { c with watch := some w }
        .next (s.pendOpen o.sd)

/-- A watch that has observed its cause writes sd with the code, and the context acquires (R188). -/
def State.endSeen (s : State) (w : Watch) (code : BitVec 2) : State :=
  (s.modCtx fun c => { c.bring w.sd w.tag (zext code) with watch := none }).acquire w.sco

/-- WAITA_WAKE: the watch has seen a write or an invalidation. A watch on another device's line is woken from there. -/
def execWaitaWake (c : CtxId) (s : State) : Out :=
  match s.focus c with
  | none => .next s
  | some s' =>
    match s'.ctx.watch with
    | none => .next s
    | some w =>
      match w.seen with
      | some code => .next (s'.endSeen w code)
      | none =>
        if s.isAway w.line then .next (s'.endSeen w 0) else .next s

/-- WAITA_TIMEOUT: elapsed time has reached the deadline, and nothing else was seen before. -/
def execWaitaTimeout (c : CtxId) (s : State) : Out :=
  match s.focus c with
  | none => .next s
  | some s' =>
    match s'.ctx.watch with
    | none => .next s
    | some w =>
      match w.deadline with
      | some d => if d ≤ s.time.elapsedNs && w.seen.isNone then .next (s'.endSeen w 1) else .next s
      | none => .next s

/-! ### Remote stores and answers (R176, R284, R331) -/

/-- The record of a store that its home refuses, or of a failed write-back (R176, R316, R337). -/
def State.storeFault (s : State) (id : CtxId) (ba addr : W64) : State :=
  s.imprecise id { cause := cRemoteStore, slot := 7, prec := false, ba := ba, faddr := addr }

/-- A store that fails, or a write-back, whose record goes to the context that last dirtied the line, else to context 0 of
its region, else to the host (R337). One store instruction has one record, of the first of its stores that failed; the
others perform or are discarded without another. -/
def State.flightFault (s : State) (core : Nat) (f : Flight) : State :=
  let alive (id : CtxId) : Bool := (s.ctx? id).any fun c => c.sch.life ≠ .retired
  let first : CtxId := { rid := f.ctx.rid, num := 0 }
  if f.quiet then s
  else if !f.wb then
    let hush (c : Core) : Core :=
      { c with flight := c.flight.map fun g => { g with quiet := g.quiet || (!g.wb && g.ctx = f.ctx && g.group = f.group) } }
    let s := s.putCore (hush (s.coreAt core))
    s.storeFault f.ctx f.ba f.addr
  else if alive f.ctx then s.storeFault f.ctx 0 f.addr
  else if alive first then s.storeFault first 0 f.addr
  else s.post (5, 0, 0, f.addr)

/-- Where a store in flight performs: an offset of another core's scratchpad, or its home; none where that refuses it. -/
def State.flightHome (s : State) (f : Flight) : Option Nat :=
  if f.key / 2 ^ 60 = 5 then (s.coreAt (f.key % 2 ^ 60 / 2 ^ 48)).scrKey (f.key % 2 ^ 48)
  else if s.awayOrRefused f.key then none
  else some (s.homeOf f.key)

/-- A store in flight sets out for another device, when what was before it on its way there has performed (R279, R334). -/
def State.sendFlight (s : State) (core : Nat) (f : Flight) : State :=
  let q := s.send (devOf (BitVec.ofNat 64 f.key)) (.store (BitVec.ofNat 64 f.key) f.data f.mask)
  let c := q.2.coreAt core
  q.2.putCore { c with flight := replaceIf (fun g => g.seq = f.seq) (fun g => { g with sent := some q.1 }) c.flight }

/-- A store in flight performs at its home, or is refused there; one for another device sets out. -/
def State.performFlight (s : State) (core : Nat) (f : Flight) : State :=
  if s.isAway f.key then s.sendFlight core f
  else match s.flightHome f with
  | some k => s.land core f k
  | none =>
    let c := s.coreAt core
    (s.putCore { c with flight := c.flight.filter fun g => g.seq ≠ f.seq }).flightFault core f

/-- Whether a store in flight can perform: it does not wait for a packet's answer, its home is not held (R190, R248) and serves
nothing else first (R265), and no earlier store of its context, nor a write-back, to the line stands before it (R279). -/
def State.canPerform (s : State) (core : Nat) (f : Flight) : Bool :=
  f.sent.isNone && !(if f.key / 2 ^ 60 = 5 then (s.flightHome f).any s.heldPool else s.heldHome f.key f.seq) && !s.queuedBehind core f

/-- PERFORM_AT_HOME: the k-th store in flight of a core performs at its home. -/
def execPerformAtHome (core : BitVec 11) (k : Nat) (s : State) : Out :=
  match (s.coreAt core.toNat).flight[k]? with
  | some f => .next (if s.canPerform core.toNat f then s.performFlight core.toNat f else s)
  | none => .next s

/-- REMOTE_STORE_FAULT: the remote side has refused a store of a context; it is discarded and recorded (R176). -/
def execRemoteStoreFault (c : CtxId) (ba addr : W64) (s : State) : Out :=
  match s.ctx? c with
  | none => .next s
  | some x =>
    let k := s.coreAt x.core.toNat
    match k.flight.find? fun f => f.ctx = c && f.ba = ba && f.addr = addr with
    | none => .next s
    | some f =>
      let s := s.putCore { k with flight := k.flight.filter fun g => g.seq ≠ f.seq }
      .next (s.flightFault x.core.toNat f)

end Sys2Proof.Machine
end

