-- ==== Sys2Proof/Machine/Seam.lean ====
section
/-!
DEFINITION. The exposed seam (R189, R190, R254 to R265): its commands with their checks and timing, the completion of SOWN
and SREL, the refresh guard, patrol scrubbing and the marking of failing channels (R256, R267).
-/

namespace Sys2Proof.Machine

/-! ### Units (R189, R255) -/

/-- The key of the 8 bytes of unit c of a channel of a core's seam. -/
def unitKey (st : BitVec 2) (core ch c : Nat) : Nat :=
  let col := c % 256
  let row := c / 256 % 2048
  let bank := c / 2 ^ 19
  let o := if st = 1 then row * 2 ^ 17 + bank * 2 ^ 13 + ch * 2 ^ 11 + col * 8
    else row * 2 ^ 18 + bank * 2 ^ 14 + ch * 2 ^ 11 + col * 8
  seamKey (core * 2 ^ 29 + o)

/-- Channels that a seam provides (R267). -/
def chanCount (st : BitVec 2) : Nat := if st = 0 then 8 else if st = 1 then 4 else 0

/-- The unit number of a command, unbounded (R189). -/
def State.unitOf (s : State) (o : LX) : Nat := (s.rdS o.sa).toNat + (s.rdS o.sb).toNat + bits o.imm.toNat 22 0

def Core.chan (c : Core) (ch : BitVec 3) : Chan := (c.chans[ch.toNat]?).getD {}
def Core.putChan (c : Core) (ch : BitVec 3) (h : Chan) : Core := { c with chans := c.chans.setIfInBounds ch.toNat h }
def Chan.bank (h : Chan) (b : Nat) : DBank := (h.banks[b]?).getD {}
def Chan.putBank (h : Chan) (b : Nat) (d : DBank) : Chan := { h with banks := h.banks.setIfInBounds b d }

/-! ### Timing (R257, R258, R260) -/

/-- The kinds of exposed commands. -/
inductive XKind where
  | rel | act | pre | preAll | ref | rd | wr
deriving DecidableEq, Repr

/-- The earliest cycle that a minimum after an earlier command allows. -/
def after (t : Option Nat) (d : Nat) : Nat :=
  match t with
  | some x => x + d
  | none => 0

def maxOf (l : List Nat) : Nat := l.foldl max 0

/-- The earliest cycle in which a bank may be precharged (tRAS, tRTP, tWR). An SACT of the open row counts for tRCD, tRRD and tFAW
only (R259). -/
def DBank.preFrom (d : DBank) : Nat := maxOf [after d.opened 68, after d.rd 8, after d.wr 32]

/-- The earliest cycle in which a command is legal under the minimums of R257. -/
def Chan.legalFrom (h : Chan) (k : XKind) (bank : Nat) : Nat :=
  let d := h.bank bank
  let any := after h.sref 440
  match k with
  | .act =>
    let others := (List.range 16).filter fun b => b ≠ bank
    let faw := match h.acts with
      | [a, _, _, _] => a + 40
      | _ => 0
    maxOf ([any, after d.pre 30, faw] ++ others.map fun b => after (h.bank b).act 8)
  | .pre => maxOf [any, d.preFrom]
  | .preAll => maxOf (any :: ((List.range 16).filter fun b => (h.bank b).row.isSome).map fun b => (h.bank b).preFrom)
  | .rd => maxOf [any, after d.act 30, after h.lastRd 2, after h.lastWr 12]
  | .wr => maxOf [any, after d.act 30, after h.lastRd 2, after h.lastWr 2]
  | .ref | .rel => any

/-- A refresh is overdue (tREFI), for the commands that mind. -/
def Chan.late (h : Chan) (k : XKind) (now : Nat) : Bool :=
  match k with
  | .pre | .preAll | .ref => false
  | _ => h.refresh + 3900 < now

/-- A sequence error (R259). -/
def Chan.wrongRow (h : Chan) (k : XKind) (bank row : Nat) : Bool :=
  match k with
  | .rd | .wr => (h.bank bank).row ≠ some row
  | .act => (h.bank bank).row.isSome && (h.bank bank).row ≠ some row
  | .ref => (List.range 16).any fun b => (h.bank b).row.isSome
  | _ => false

/-- What the checks of R190 say: a trap, a hold that is no violation, a lenient violation, or the unit the command acts on. -/
inductive XRes where
  | trap (cause detail : Nat)
  | hold
  | violate
  | ok (c : Nat)
deriving DecidableEq, Repr

def XKind.usesUnit : XKind → Bool
  | .act | .pre | .rd | .wr => true
  | _ => false

/-- The checks in the order of R190. -/
def State.exposedCheck (s : State) (o : LX) (k : XKind) : XRes :=
  let h := s.core.chan o.ch
  let c := if k.usesUnit then s.unitOf o else 0
  let bank := c / 2 ^ 19
  let t := s.core.cycle
  if s.psS o.sa || s.psS o.sb || (k = .wr && s.psS o.sd) then .trap cPoison 0
  else if 2 ^ 23 ≤ c then .trap cIllegalOperand 0
  else if !s.ctx.es.held.getLsbD o.ch.toNat then .trap cSeamOwner o.ch.toNat
  else if h.owning.isSome || h.releasing || h.lent || t < h.busy then .hold
  else if h.wrongRow k bank (c / 256 % 2048) then .trap cSeamSequence o.ch.toNat
  else if t < h.legalFrom k bank || h.late k s.time.elapsedNs then
    (if s.ctx.es.strict then .trap cSeamTiming o.ch.toNat else .violate)
  else .ok c

/-- A lenient violation is counted once for the command, however long it waits (R260). -/
def State.countLenient (s : State) : State :=
  if s.ctx.q.counted then s
  else s.modCtx fun c => { c with es := { c.es with lstall := sat16 c.es.lstall }, q := { c.q with counted := true } }

/-- The present wait of an exposed command ends: it performs, or it traps (R260). -/
def State.uncount (s : State) : State := s.modSeq fun q => { q with counted := false }

/-- An exposed command: `f` performs it on the channel for unit c. -/
def State.exposed (s : State) (o : LX) (k : XKind) (f : State → Chan → Nat → State) : Out :=
  match s.exposedCheck o k with
  | .trap c d => s.uncount.trap c d
  | .hold => .next s.hold
  | .violate => .next s.countLenient.hold
  | .ok c => .next (f s (s.core.chan o.ch) c).uncount

def State.putChan (s : State) (ch : BitVec 3) (h : Chan) : State := s.modCore fun c => c.putChan ch h

/-! ### The commands -/

def execSact (o : LX) (s : State) : Out :=
  s.exposed o .act fun s h c =>
    let b := c / 2 ^ 19
    let t := s.core.cycle
    let d := h.bank b
    let h := h.putBank b { d with row := some (c / 256 % 2048), act := some t, opened := if d.row.isSome then d.opened else some t }
    s.putChan o.ch { h with acts := (h.acts ++ [t]).drop (h.acts.length + 1 - 4) }

/-- A bank precharged. -/
def Chan.closeBank (h : Chan) (b t : Nat) : Chan := h.putBank b { h.bank b with row := none, pre := some t }
/-- Every bank with an open row precharged. -/
def Chan.closeAll (h : Chan) (t : Nat) : Chan :=
  (List.range 16).foldl (fun h b => if (h.bank b).row.isSome then h.closeBank b t else h) h

/-- The earliest cycle from one on in which every open bank may be precharged (R257). -/
def Chan.closeFrom (h : Chan) (t : Nat) : Nat :=
  maxOf (t :: ((List.range 16).filter fun b => (h.bank b).row.isSome).map fun b => (h.bank b).preFrom)

def execSpre (o : LX) (s : State) : Out :=
  s.exposed o .pre fun s h c => s.putChan o.ch (h.closeBank (c / 2 ^ 19) s.core.cycle)

def execSpreAll (o : LX) (s : State) : Out := s.exposed o .preAll fun s h _ => s.putChan o.ch (h.closeAll s.core.cycle)

def execSref (o : LX) (s : State) : Out :=
  s.exposed o .ref fun s h _ => s.putChan o.ch { h with sref := some s.core.cycle, refresh := s.time.elapsedNs }

/-- The bytes are those of the seam home, whatever the cache roles hold (R262). -/
def execSldx (o : LX) (s : State) : Out :=
  s.exposed o .rd fun s h c =>
    let k := unitKey (s.seamState s.me) s.me o.ch.toNat c
    let b := c / 2 ^ 19
    let t := s.core.cycle
    let s := s.putChan o.ch { h.putBank b { h.bank b with rd := some t } with lastRd := some t }
    s.wrS o.sd (BitVec.ofNat 64 (s.peek64 k)) (s.isBad k 8) 48

def execSstx (o : LX) (s : State) : Out :=
  s.exposed o .wr fun s h c =>
    let k := unitKey (s.seamState s.me) s.me o.ch.toNat c
    let b := c / 2 ^ 19
    let t := s.core.cycle
    let s := s.putChan o.ch { h.putBank b { h.bank b with wr := some t } with lastWr := some t }
    s.poke k (toBytes 8 (s.rdS o.sd).toNat)

/-- Ownership of a channel (R189, R262). Refusals are written to sd; a grant is written when it completes. -/
def State.sownCode (s : State) (ch : BitVec 3) : Nat :=
  let h := s.core.chan ch
  let permitted := match s.region? s.rid with
    | some r => r.lim.expok
    | none => false
  if s.ctx.es.held.getLsbD ch.toNat then 4
  else if !permitted then 2
  else if chanCount (s.seamState s.me) ≤ ch.toNat then 3
  else if h.owner.isSome then 1
  else 0

def execSown (o : LX) (s : State) : Out :=
  let code := s.sownCode o.ch
  if code ≠ 0 then .next (s.wrS o.sd (BitVec.ofNat 64 code) false 64)
  else
    let s := s.putChan o.ch { (s.core.chan o.ch) with owner := some s.ctx.id, owning := some o.sd, owningTag := s.openTag }
    let s := s.modCtx fun c => { c with es := { c.es with held := setBit c.es.held o.ch.toNat true } }
    let s := s.wrS o.sd 0 false 1
    .next (s.pendOpen o.sd)

/-- The open banks are precharged as soon as R257 lets them (`busy`), and the release completes after that (R262). -/
def execSrel (o : LX) (s : State) : Out :=
  s.exposed o .rel fun s h _ =>
    let t := h.closeFrom s.core.cycle
    s.putChan o.ch { h.closeAll t with releasing := true, busy := t }

/-! ### Completions and the guard (R261, R262) -/

/-- Whether the home of a key lies in a channel of a core's seam, by whatever name (R255, R332). -/
def State.inChannel (s : State) (core : Nat) (ch : BitVec 3) (k : Nat) : Bool :=
  s.channelOf (s.homeOf k) = some (core, ch.toNat)

/-- Lines of a core's own cache role in a channel are written back, then invalidated. -/
def State.flushChannel (s : State) (core : Nat) (ch : BitVec 3) : State :=
  (((s.coreAt core).cache.filter fun l => s.inChannel core ch l.key).map (·.key)).foldl (fun s k => s.evict core k) s

/-- A core's write-backs to a channel that have not performed. -/
def State.flushing (s : State) (core : Nat) (ch : BitVec 3) : Bool :=
  (s.coreAt core).flight.any fun f => f.wb && s.inChannel core ch f.key

/-- A store in flight, with its core, takes its place in the order of arrival. -/
def insertArrived (x : Nat × Flight) : List (Nat × Flight) → List (Nat × Flight)
  | [] => [x]
  | y :: ys => if x.2.seq < y.2.seq then x :: y :: ys else y :: insertArrived x ys

/-- Stores in flight that the controller of a channel has accepted perform, in the order of arrival (R265). -/
def State.serveChannel (s : State) (core : Nat) (ch : BitVec 3) : State :=
  let mine (c : Core) : List (Nat × Flight) := (c.flight.filter fun f => s.inChannel core ch f.key).map fun f => (c.num.toNat, f)
  (((s.core :: s.cores).flatMap mine).foldl (fun l x => insertArrived x l) []).foldl (fun s x => s.settleOne x.1 x.2) s

/-- SOWN_COMPLETE: the controller has closed its rows, and the last refresh of managed mode, a free value less than tREFI
ago, becomes the guard's starting point. -/
def execSownComplete (core : BitVec 11) (ch : BitVec 3) (s : State) : Out :=
  let h := (s.coreAt core.toNat).chan ch
  match h.owner with
  | some id =>
    match h.owning with
    | some sd =>
      let s := s.flushChannel core.toNat ch
      if s.flushing core.toNat ch then .next s
      else
        let f := s.anyNat
        let h' : Chan := { owner := some id, refresh := s.time.elapsedNs - f.1 % 3900 }
        let s := f.2.putCore ((f.2.coreAt core.toNat).putChan ch h')
        .next (s.mapCtx (fun c => c.id = id) fun c => c.bring sd h.owningTag 0)
    | none => .next s
  | none => .next s

/-- SREL_COMPLETE: every bank is closed, and the channel is in managed mode again. -/
def execSrelComplete (core : BitVec 11) (ch : BitVec 3) (s : State) : Out :=
  let h := (s.coreAt core.toNat).chan ch
  match h.owner with
  | some id =>
    if h.releasing && h.busy ≤ (s.coreAt core.toNat).cycle then
      let s := s.putCore ((s.coreAt core.toNat).putChan ch { refresh := h.refresh })
      .next (s.mapCtx (fun c => c.id = id) fun c => { c with es := { c.es with held := setBit c.es.held ch.toNat false } })
    else .next s
  | none => .next s

/-- One more refresh by the guard in ESEAM.GREF of the owner, which stands in the save area of a saved one (R261). -/
def State.countGref (s : State) (id : CtxId) (ch : BitVec 3) : State :=
  match s.ctx? id with
  | none => s
  | some c =>
    if c.sch.life.inArea && s.schedHeld c c.sch.saveArea then
      s.mapCtx (fun x => x.id = id) fun x => { x with sch := { x.sch with grefOwed := x.sch.grefOwed + 1 } }
    else if c.sch.life.inArea then
      match s.homeKey c.core.toNat id.rid (c.sch.saveArea + 0x402) Access.both with
      | .ok k => s.poke k (toBytes 2 (sat16 (BitVec.ofNat 16 (leNat (s.peek k 2)))).toNat)
      | .error _ => s
    else
      s.mapCtx (fun x => x.id = id) fun x =>
        { x with es := { x.es with gref := sat16 x.es.gref },
                 q := if x.es.gtrap && (x.sch.life = .resident || x.sch.life = .dormant) && !x.q.guard.contains ch then
                        { x.q with guard := x.q.guard ++ [ch] } else x.q }

/-- Elapsed time a number of the core's cycles from now (R358). -/
def State.inCycles (s : State) (n : Nat) : Nat :=
  (s.time.elapsed + n * (Config.cycleUnits + s.time.stretch)) / Config.unitsPerNs

/-- GUARD_REFRESH: no refresh for tGRD; every bank is precharged, and then the channel is refreshed: the next deadlines count from
there. -/
def execGuardRefresh (core : BitVec 11) (ch : BitVec 3) (s : State) : Out :=
  let c := s.coreAt core.toNat
  let h := c.chan ch
  match h.owner with
  | some id =>
    if h.owning.isSome || s.time.elapsedNs < h.refresh + 4400 then .next s
    else
      let start := h.closeFrom c.cycle
      let h' := h.closeAll start
      let s := s.putCore (c.putChan ch { h' with refresh := s.inCycles (start - c.cycle), busy := start + 440 })
      .next (s.countGref id ch)
  | none => .next s

/-- PATROL_SCRUB: a unit of a managed channel is read and corrected, which no program sees (R256). -/
def execPatrolScrub (_core : BitVec 11) (_ch : BitVec 3) (_unit : BitVec 23) (s : State) : Out := .next s

/-- SEAM_CHANNEL_FAIL_MARK: the retirement takes effect at the next start (R267). -/
def execSeamChannelFailMark (core : BitVec 11) (ch : BitVec 3) (s : State) : Out :=
  let e := (core.toNat, ch)
  .next (if s.boot.failing.contains e then s else { s with boot := { s.boot with failing := s.boot.failing ++ [e] } })

end Sys2Proof.Machine
end

