-- ==== Sys2Proof/Machine/Traps.lean ====
section
/-!
DEFINITION. What follows a stop (R261, R314 to R326): the guard's trap, requests and where they land, the end of a save, an
abandoned save, pending records, and the dispositions of held contexts.
-/

namespace Sys2Proof.Machine

/-! ### The guard's trap (R261) -/

/-- TRAP_ENTRY: the trap that has stopped the context is entered as soon as it can be; else the guard's trap for the first
channel that has one comes, before the next bundle. -/
def execTrapEntry (c : CtxId) (s : State) : Out :=
  match s.focus c with
  | none => .next s
  | some s' =>
    if s'.ctx.sch.life ≠ .resident || s'.ctx.remote.isSome then .next s
    else if s'.ctx.q.trapped.isSome then .next s'.enterTrap
    else
      match s'.ctx.q.guard with
      | [] => .next s
      | ch :: rest =>
        let ba := s'.pastPads s'.ctx.q.pc
        let s1 := ({ s' with iss := { ba := ba, xfer := s'.ctx.q.reent.join } } : State).modSeq fun q =>
          { q with guard := rest, pc := ba }
        .next (s1.takeTrap { cause := cSeamGuard, slot := 0, sres := some 0, detail := ch.toNat })

/-! ### Requests (R321, R322) -/

/-- The rank of what a context waits to be saved for; none where it waits for nothing. -/
def Ctx.saveRank (c : Ctx) : Option Nat :=
  let rs := match c.sch.life with
    | .saving => c.sch.saveFor.toList
    | .resident => c.sch.reqs ++ (if c.sch.stopAt.isSome then [ReqKind.stop] else [])
    | _ => []
  (rs.map kindRank).min?

/-- A resident context stands at a bundle boundary that is a legal point (R323). -/
def Ctx.atLegal (c : Ctx) : Bool := !c.halted && (c.q.legal || c.q.loops = [])

/-- A geometry instruction of the context is outstanding (R175). -/
def Ctx.predicating (c : Ctx) (cycle : Nat) : Bool := c.board.any fun p => p.dst = .geo && p.due.any fun d => cycle < d

/-- A context whose save on a core could start now. -/
def Ctx.canSave (c : Ctx) (core : Nat) : Bool :=
  c.core.toNat = core && c.saveRank.isSome && (c.sch.life = .saving || c.atLegal)

/-- Which of two saves starts first: by kind, then by effective class (R322). -/
def State.saveBefore (s : State) (a b : Ctx) : Bool :=
  let ra := a.saveRank.getD 6
  let rb := b.saveRank.getD 6
  ra < rb || (ra = rb && s.classOf b < s.classOf a)

/-- The save that starts next on a core; of two that rank alike the first in the list of contexts (log entry 116). -/
def State.nextSave (s : State) (core : Nat) : Option Ctx :=
  (s.allCtxs.filter fun c => c.canSave core).foldl
    (fun m c => match m with
      | none => some c
      | some d => if s.saveBefore c d then some c else some d) none

/-- Where no save runs on a core, the one that ranks first starts; one that has not landed starts where it lands (R322). -/
def State.claimNext (s : State) (core : Nat) : State :=
  if (s.coreAt core).saving.isSome then s
  else match s.nextSave core with
  | some c => if c.sch.life = .saving then s.claimSave c.id core else s
  | none => s

def State.addReq (s : State) (id : CtxId) (k : ReqKind) : State :=
  s.mapCtx (fun c => c.id = id) fun c =>
    if c.sch.reqs.contains k then c else { c with sch := { c.sch with reqs := c.sch.reqs ++ [k] } }

/-- A request of a kind is made for a context (R321): by a supply loss or a stop for resident and dormant ones, by the others
for resident ones; one that has landed is ranked by it; one in trap entry is saved as it is. -/
def State.request (s : State) (id : CtxId) (k : ReqKind) : State :=
  match s.ctx? id with
  | none => s
  | some c =>
    match c.sch.life with
    | .resident => s.addReq id k
    | .dormant =>
      if k = .supplyLoss then s.startSave id k .saved else if k = .stop then s.startSave id k .retired else s
    | .saving => s.raiseSave id k
    | _ => s

/-- What a landing at a legal point leads to: what a stop has noted, else by the request. -/
def Sched.landEnd (h : Sched) (k : ReqKind) : SaveEnd := h.stopAt.getD (if k = .stop then .retired else .saved)

/-- PREEMPTION_LAND: the request or the stop takes its context at a legal point (R317, R318, R323), when a predicate that is
outstanding has completed (R175). Its save starts then, unless the core runs another or one that ranks before it is to start
(R322). -/
def execPreemptionLand (c : CtxId) (s : State) : Out :=
  match s.focus c with
  | none => .next s
  | some s' =>
    let x := s'.ctx
    if x.sch.life ≠ .resident || !x.atLegal || x.predicating s'.core.cycle then .next s
    else
      let kinds := x.sch.reqs ++ (if x.sch.stopAt.isSome then [ReqKind.stop] else [])
      match kinds.find? fun k => some (kindRank k) = x.saveRank with
      | none => .next s
      | some k =>
        let s1 := (s'.modSeq fun q => { q with pc := s'.pastPads q.pc }).quitWatch c
        .next ((s1.modCtx fun y => y.beginSave k (y.sch.landEnd k)).claimNext s'.me)

/-! ### The end of a save (R24, R42, R263, R265, R324) -/

/-- The work that a save waits for is done (R155, R175, R237, R324, R335), and so is what has been begun on the context's
channels and its LAUNCHes; the open rows of its channels may be closed (R257, R263). -/
def Ctx.drained (c : Ctx) (core : Core) : Bool :=
  c.landed core.cycle && c.running = [] && c.mx.queue.all (fun e => e.started.isNone && e.kind ≠ .cal) &&
    c.mx.loads.all (·.isSig) && c.remote.isNone && c.launches = [] &&
    core.chans.all fun h =>
      h.owner ≠ some c.id || (h.owning.isNone && !h.releasing && h.closeFrom core.cycle ≤ core.cycle)

/-- No other context of the region holds a bank on the core. -/
def State.lastOnCore (s : State) (c : Ctx) : Bool :=
  s.allCtxs.all fun d => d.id = c.id || d.id.rid ≠ c.id.rid || d.core ≠ c.core || !d.sch.life.holdsBank

/-- Channels of a saved owner are lent, all rows closed. -/
def Core.lend (c : Core) (id : CtxId) : Core :=
  { c with chans := c.chans.map fun h =>
      if h.owner = some id then { h.closeAll c.cycle with lent := true } else h }

/-- The life that a save ends in. -/
def SaveEnd.life : SaveEnd → Life
  | .saved => .saved
  | .held => .held
  | .retired => .retired

/-- Channels of the context's core, after its save; a retired one frees them itself. -/
def State.afterSave (s : State) (img : Bool) : State :=
  let c := s.ctx
  let e := c.sch.saveEnd
  let keep := img && e ≠ .retired
  let q := s.freshSeq
  let s := q.2.modCore fun k =>
    { k.lend c.id with
      saving := none,
      grants := if keep then replaceIf (fun g => g.rid = c.id.rid) (fun g => { g with reserved := true }) k.grants
        else k.grants }
  let sch : Sched :=
    { c.sch with life := e.life, saveFor := none, saveEnd := .saved, lastCore := some c.core, image := keep, reqs := [],
                 target := c.sch.target, queuedAt := q.1, queuedNs := s.time.elapsedNs }
  let s := s.modCtx fun x => { x with sch := sch }
  (if e = .retired then s.modCtx Ctx.end_ else s).freeAllRetired

/-- A save that is being written on the context's core, its waits over. -/
def State.saveReady (s : State) : Bool :=
  s.ctx.sch.life = .saving && s.core.saving = some s.ctx.id && s.ctx.drained s.core

/-- SAVE_COMPLETE: the state is written to the area, and the context is saved, held or retired. -/
def execSaveComplete (c : CtxId) (s : State) : Out :=
  match s.focus c with
  | none => .next s
  | some s' =>
    if !s'.saveReady then .next s
    else
      let x := s'.ctx
      let image := match s'.core.grantOf c.rid with
        | some g => if s'.lastOnCore x && g.count ≠ 0 then some (s'.core.savedSems g) else none
        | none => none
      match s'.writeArea x s'.me (savedParts x (s'.classOf x) s'.core.cycle image) with
      | none => .next s
      | some s1 => .next ((((s1.watchCidx x).afterSave image.isSome).chargeMove x.sch.account).claimNext s'.me)

/-- The code of a save fault (R315). -/
def saveCode : SaveFault → Nat
  | .page => 0
  | .permission => 1
  | .uncorrectable => 2

/-- The address of an uncorrectable write to an area: one of its lines, which one being left open (log entry 108). -/
def State.badLine (s : State) (c : Ctx) : W64 × State :=
  let f := s.anyNat
  (c.sch.saveArea + BitVec.ofNat 64 (64 * (f.1 % (c.areaSize / 64))), f.2)

/-- SAVE_ABANDONED (R326): the area faults, or a write to it is uncorrectable. The manual names no slot and no bundle for its record;
both are 0 (log entry 116). -/
def execSaveAbandoned (c : CtxId) (why : SaveFault) (s : State) : Out :=
  match s.focus c with
  | none => .next s
  | some s' =>
    let x := s'.ctx
    let found : Option (W64 × State) := match why, s'.areaFault x s'.me with
      | .uncorrectable, _ => some (s'.badLine x)
      | w, some (v, a) => if v = w then some (a, s') else none
      | _, none => none
    match found with
    | none => .next s
    | some (a, s0) =>
      if !s'.saveReady then .next s
      else
        let s1 := ((s0.spoilArea x s'.me).watchCidx x).chargeMove x.sch.account
        let s2 := ((s1.modCtx Ctx.end_).modCore fun k => { k with saving := none }).freeAllRetired
        let s3 := s2.imprecise c { cause := 0x1B, slot := 0, prec := false, detail := saveCode why, ba := 0, faddr := a }
        .next (s3.claimNext s'.me)

/-! ### Records that wait (R317) -/

/-- The holding record that the bytes of a record make. -/
def holdOf (a : W64) (k : Nat) (d : BitVec 512) : HoldRec :=
  { addr := a, prec := d.getLsbD 49, ac := d.getLsbD 46, pt := d.getLsbD 48, rt := d.getLsbD 47,
    ba := d.extractLsb' 64 64, tgt := d.extractLsb' 192 64, key := k }

/-- A record that has waited is written at an address; one that holds its context becomes its holding record, unless an earlier
one still stands (R318). -/
def Sched.wrote (x : Sched) (holds : Bool) (a : W64) (k : Nat) (d : BitVec 512) : Sched :=
  if holds && (x.hold.isNone || x.disp.isSome) then { x with hold := some (x.nextHold (holdOf a k d)), disp := none } else x

/-- The oldest record on its way meets the ring (R317). -/
def State.flushOut (s : State) (x : Ctx) (d : BitVec 512) (holds : Bool) (rest : List (BitVec 512 × Bool)) : State :=
  let s := s.mapCtx (fun y => y.id = x.id) fun y => { y with sch := { y.sch with outRecs := rest } }
  let w := s.ringRec x d
  match w.1 with
  | .at_ a k => w.2.mapCtx (fun y => y.id = x.id) fun y => { y with sch := y.sch.wrote holds a k d }
  | .later => w.2
  | .full => w.2.reachDomain x.id none

/-- The pending record is written, where the ring has room again (R317). -/
def State.flushPend (s : State) (x : Ctx) (d : BitVec 512) : State :=
  match s.recordSlot x with
  | none => s
  | some (a, k) =>
    let s := s.putRecord x k d
    let s := if x.sch.life.inArea then s.pendArea x 0 else s
    s.mapCtx (fun y => y.id = x.id) fun y =>
      { y with sch := { y.sch.wrote x.sch.pendHolds a k d with pendRec := none, pendHolds := false } }

/-- PENDING_RECORD_WRITE: a record that waits for what it releases is written, or a pending one for which the ring has room
again; one whose write has faulted goes as soon as its address translates (log entry 116). -/
def execPendingRecordWrite (c : CtxId) (s : State) : Out :=
  match s.ctx? c with
  | none => .next s
  | some x =>
    match x.sch.outRecs, x.sch.pendRec with
    | (d, holds) :: rest, _ => .next (if s.recReady x then s.flushOut x d holds rest else s)
    | [], some d =>
      if !s.pendRoom x then .next s
      else
        let s := s.writeBackReach x.core.toNat 3
        .next (if s.recReady x then s.flushPend x d else s)
    | [], none => .next s

/-! ### Dispositions (R318, R319) -/

/-- Whether a DISP word is a disposition: the others are ignored (R319). -/
def dispValid (w : W64) : Bool :=
  let x := w.toNat
  1 ≤ bits x 63 60 && bits x 63 60 ≤ 3 && bits x 59 48 = 0 && bits x 0 0 = 0

/-- The disposition that released writes have left in the holding record: the first that is one (R318, R319). -/
def State.disposition (s : State) (h : HoldRec) : Option W64 :=
  ((s.disps.filter fun x => x.1 = h.key).map (·.2)).find? dispValid

/-- The address that the accepted disposition of a held context carries, where its operation is `op`. -/
def State.dispOf (s : State) (c : Ctx) (op : Nat) : Option W64 :=
  match c.sch.life, c.sch.hold.bind s.disposition, c.sch.disp with
  | .held, some w, none => if bits w.toNat 63 60 = op then some (BitVec.ofNat 64 (bits w.toNat 47 0)) else none
  | _, _, _ => none

/-- A held context becomes placeable with its disposition. -/
def State.accept (s : State) (c : CtxId) (op : BitVec 2) : State :=
  match s.ctx? c with
  | none => s
  | some x =>
    match s.dispOf x op.toNat with
    | none => s
    | some a =>
      let q := s.freshSeq
      q.2.mapCtx (fun y => y.id = c) fun y =>
        { y with sch := { y.sch with life := .saved, disp := some (op, a), queuedAt := q.1,
                                     queuedNs := s.time.elapsedNs } }

def execDispRetry (c : CtxId) (s : State) : Out := .next (s.accept c 1)
def execDispDivert (c : CtxId) (s : State) : Out := .next (s.accept c 2)

def execDispEnd (c : CtxId) (s : State) : Out :=
  match s.ctx? c with
  | none => .next s
  | some x =>
    match s.dispOf x 3 with
    | none => .next s
    | some _ => .next ((s.mapCtx (fun y => y.id = c) Ctx.end_).freeAllRetired)

/-- An accepted disposition takes effect at the restore (R319). Of a TGT that the PC cannot hold it takes what it can (R21; log entry
118). A DIVERT leaves the boundary at its handler the legal point that the one before the trapping bundle was (log entry 116). -/
def Ctx.disposed (c : Ctx) : Ctx :=
  let done (c : Ctx) : Ctx := { c with sch := { c.sch with disp := none, hold := none } }
  match c.sch.disp, c.sch.hold with
  | some (op, a), some h =>
    if op = 2 then
      done { c with q := { c.q with pc := asPc (0x2000000000000000 + a), reent := none, waitsOn := none }, c := { c.c with sres := 0 } }
    else if !h.prec then done c
    else if h.ac then
      done { c with q := { c.q with pc := asPc h.tgt, reent := none },
                    c := if h.diverted then { c.c with sres := 0 } else if h.rt then c.c.rotate else c.c }
    else done (c.reenter h.ba (if h.pt then some { tgt := h.tgt, rot := h.rt, stall := 0 } else none))
  | _, _ => c

end Sys2Proof.Machine
end

