-- ==== Sys2Proof/Machine/Launch.lean ====
section
/-!
DEFINITION. Regions (R207, R268, R295 to R304): the checks of a block, its acceptance, the start of its contexts, the
decisions of conditional, loop and switch regions, the updates of blocks, and completion with its clean-up (R252).
-/

namespace Sys2Proof.Machine

/-! ### The block (R295) -/

/-- The key of an address under a region's own tables and PASID, where the access is permitted (R301, R303). -/
def State.regionKey (s : State) (r : Region) (a : W64) (acc : Access) : Option Nat :=
  if !spaceOk a then none
  else match space a with
  | 2 =>
    match s.walk r.dom.root a.toNat with
    | .ok (pa, leaf) => if (acc.rd && !leafR leaf) || (acc.wr && !leafW leaf) then none else some (seamKey pa)
    | .error _ => none
  | 3 => (s.hostXlate r.dom.pasid (bits a.toNat 56 0) acc).toOption
  | _ => none

/-- Whether the walk of an address under a region's tables is held (R190, R269). -/
def State.regionHeld (s : State) (r : Region) (a : W64) : Bool := space a = 2 && s.heldTables r.dom.root a.toNat s.fab.nextSeq

/-- Bytes 0x00 to 0xBF of a block, by doubleword. -/
abbrev Block := List Nat

def Block.w (b : Block) (i : Nat) : Nat := b.getD i 0
def Block.f (b : Block) (off h l : Nat) : Nat := bits (b.w (off / 8)) h l

def readBlockAt (s : State) (k : Nat) : Block := (List.range 24).map fun i => s.peek64 (k + 8 * i)

/-- Reserved fields: offset, high and low bit. -/
def blockRsv : List (Nat × Nat × Nat) :=
  [(0x00, 47, 40), (0x00, 31, 28), (0x00, 19, 16), (0x18, 63, 48), (0x20, 63, 41), (0x20, 31, 31), (0x20, 15, 11),
   (0x28, 63, 22), (0x28, 15, 15), (0x28, 7, 6), (0x38, 63, 32), (0x38, 15, 10), (0x38, 7, 4), (0x40, 63, 40),
   (0x40, 11, 0), (0x48, 63, 20), (0x70, 63, 48), (0x70, 15, 9), (0x98, 63, 24), (0xA0, 63, 0), (0xA8, 63, 0),
   (0xB0, 63, 0), (0xB8, 63, 0)]

/-- The host root (R297). -/
def rootLimits : Limits :=
  { cmax := 1152, rmax := 27648, kcnt := 256, bcch := 32, bscr := 94, btile := 32, ebud := 0, plo := 0, phi := 3,
    expok := true, lnok := true, migok := true }

def Block.inherits (b : Block) (g : Nat) : Bool := (b.f 0 39 32).testBit g

/-- The limits of a block below its parent's: inherited groups take the parent's values (R297). -/
def Block.limits (b : Block) (p : Limits) : Limits :=
  let own (g : Nat) {n : Nat} (x : Nat) (y : BitVec n) : BitVec n := if b.inherits g then y else BitVec.ofNat n x
  { cmax := own 0 (b.f 0x20 10 0) p.cmax, rmax := own 1 (b.f 0x20 30 16) p.rmax, kcnt := own 2 (b.f 0x20 40 32) p.kcnt,
    bcch := own 3 (b.f 0x28 5 0) p.bcch, bscr := own 3 (b.f 0x28 14 8) p.bscr, btile := own 3 (b.f 0x28 21 16) p.btile,
    ebud := own 4 (b.w 6) p.ebud, plo := own 5 (b.f 0x38 1 0) p.plo, phi := own 5 (b.f 0x38 3 2) p.phi,
    expok := b.f 0 23 23 = 1, lnok := b.f 0 21 21 = 1, migok := b.f 0 20 20 = 1 }

/-- The tables of a block; the parent's where inherited. -/
def Block.domain (b : Block) (p : Option Domain) (rid : BitVec 32) : Domain :=
  let d := p.getD { own := rid, fdom := 0, fpol := 0, root := 0, pasid := 0 }
  let inh := b.inherits 6 && p.isSome
  { own := if inh then d.own else rid,
    fdom := if inh then d.fdom else BitVec.ofNat 16 (b.f 0x38 31 16),
    fpol := if inh then d.fpol else BitVec.ofNat 2 (b.f 0x38 9 8),
    root := if b.inherits 7 && p.isSome then d.root else BitVec.ofNat 28 (b.f 0x40 39 12),
    pasid := if b.inherits 7 && p.isSome then d.pasid else BitVec.ofNat 20 (b.f 0x48 19 0) }

def Block.work (b : Block) : Work :=
  { kind := BitVec.ofNat 2 (b.f 0 27 26), rmt := b.f 0 25 25 = 1, geom := b.f 0 24 24 = 1, strict := b.f 0 22 22 = 1,
    npred := BitVec.ofNat 16 (b.f 0 15 0), entry := BitVec.ofNat 64 (b.w 1), arg := BitVec.ofNat 64 (b.w 2),
    nsel := BitVec.ofNat 16 (b.f 0x18 47 32), holdn := BitVec.ofNat 16 (b.f 0x18 31 16),
    nctx := BitVec.ofNat 16 (b.f 0x18 15 0), savb := BitVec.ofNat 64 (b.w 10), trb := BitVec.ofNat 64 (b.w 11),
    seed := BitVec.ofNat 64 (b.w 12), barb := BitVec.ofNat 64 (b.w 13), sgen := BitVec.ofNat 32 (b.f 0x70 47 16),
    nbar := BitVec.ofNat 9 (b.f 0x70 8 0), succ := (List.range 4).map fun i => BitVec.ofNat 64 (b.w (15 + i)),
    clmask := BitVec.ofNat 24 (b.f 0x98 23 0) }

/-! ### The refusals (R298) -/

/-- An address in space 0x2 or 0x3 with an alignment. -/
def mem23 (a : W64) (n : Nat) : Bool := spaceOk a && (space a = 2 || space a = 3) && a.toNat % n = 0

/-- The fields of the kinds (R298). -/
def Work.kindOk (w : Work) : Bool :=
  if w.kind = 0 then w.nctx ≠ 0 && w.holdn.toNat ≤ w.nctx.toNat && w.nsel = 0 && goodTarget w.entry && spaceOk w.entry
  else
    w.nctx = 0 && w.holdn = 0 && mem23 w.entry 8 && mem23 w.arg 8 &&
      (if w.kind = 1 then w.nsel = 0 else if w.kind = 3 then w.nsel ≠ 0 else true)

def Limits.ok (l : Limits) : Bool :=
  1 ≤ l.cmax.toNat && l.cmax.toNat ≤ 1152 && 1 ≤ l.rmax.toNat && l.rmax.toNat ≤ 27648 && l.kcnt.toNat ≤ 256 &&
    l.bcch.toNat ≤ 32 && l.bscr.toNat ≤ 94 && l.btile.toNat ≤ 32 && l.plo.toNat ≤ l.phi.toNat

/-- Code 1. -/
def Block.malformed (b : Block) (addr : W64) (lim : Limits) (host : Bool) : Bool :=
  let w := b.work
  b.f 0 63 48 ≠ 1 || (blockRsv.any fun r => b.f r.1 r.2.1 r.2.2 ≠ 0) || !w.kindOk || !lim.ok || 256 < w.nbar.toNat ||
    (w.nbar ≠ 0 && (w.barb = 0 || w.barb.toNat % 64 ≠ 0)) ||
    (w.succ.any fun a => a ≠ 0 && (!mem23 a 256 || a = addr)) ||
    !ringBaseOk w.trb || bits w.trb.toNat 11 5 ≠ 0 || !spaceOk w.trb || (host && (b.inherits 6 || b.inherits 7))

/-- Code 2 (R297). Inherited values are within the parent's. -/
def Limits.within (l p : Limits) : Bool :=
  l.cmax.toNat ≤ p.cmax.toNat && l.rmax.toNat ≤ p.rmax.toNat && l.kcnt.toNat ≤ p.kcnt.toNat &&
    l.bcch.toNat ≤ p.bcch.toNat && l.bscr.toNat ≤ p.bscr.toNat && l.btile.toNat ≤ p.btile.toNat &&
    (p.ebud = 0 || (l.ebud ≠ 0 && l.ebud.toNat ≤ p.ebud.toNat)) &&
    p.plo.toNat ≤ l.plo.toNat && l.phi.toNat ≤ p.phi.toNat &&
    (!l.expok || p.expok) && (!l.lnok || p.lnok) && (!l.migok || p.migok)

/-- Bytes of all save areas of a region (R299). -/
def Work.areaBytes (w : Work) : Nat := w.holdn.toNat * 0x50000 + (w.nctx.toNat - w.holdn.toNat) * 0x8000

/-- Whether SAVB can stand (R298): aligned, and every area inside space 0x2. -/
def Work.savbOk (w : Work) : Bool :=
  w.savb.toNat % 4096 = 0 && space w.savb = 2 && spaceOk w.savb && bits w.savb.toNat 47 0 + w.areaBytes ≤ 2 ^ 48

/-- The addresses of the 64 KiB pages of the save areas. -/
def Work.areaPages (w : Work) : List Nat :=
  let lo := bits w.savb.toNat 47 0
  (List.range ((lo + w.areaBytes + 65535) / 65536 - lo / 65536)).map fun i => (lo / 65536 + i) * 65536

/-- Code 3: every page of the save areas has to translate with R and W. -/
def State.areasBad (s : State) (w : Work) (root : BitVec 28) : Bool :=
  w.kind = 0 &&
    (!w.savbOk || w.areaPages.any fun va =>
      match s.walk root va with
      | .ok (_, leaf) => !(leafR leaf && leafW leaf)
      | .error _ => true)

/-- GEN of the geometry word (R267). -/
def State.geoGen (s : State) : BitVec 32 := s.boot.geow.extractLsb' 32 32

/-- Who launches: the parent region, none for the host; whether it may; the context and the signal of a LAUNCH; the tag. -/
structure Launcher where
  parent : Option Region
  ctx : Option CtxId := none
  sig : Option LaunchSig := none
  tag : W32 := 0
  may : Bool := true

/-- The refusal code of a block whose home is known, in the order of R298 (5 is last). A block that cannot be read and
written is malformed. -/
def State.launchCode (s : State) (l : Launcher) (addr : W64) (k : Option Nat) : Nat :=
  let p := (l.parent.map (·.lim)).getD rootLimits
  if !l.may then 6
  else match k with
  | none => 1
  | some k =>
    let b := readBlockAt s k
    let lim := b.limits p
    let w := b.work
    if (s.regions.any fun r => r.bkey = k) || b.malformed addr lim l.parent.isNone then 1
    else if !lim.within p then 2
    else if w.geom && !w.rmt && w.sgen ≠ s.geoGen then 4
    else if s.areasBad w (b.domain (l.parent.map (·.dom)) 0).root then 3
    else if 4096 ≤ s.regions.length then 5
    else 0

/-- Whether the decision on a block waits for a held channel (R190): the block itself, or a walk of its save areas. -/
def State.blockHeld (s : State) (p : Option Region) (k : Nat) : Bool :=
  let b := readBlockAt s k
  let w := b.work
  s.stands k ||
    (w.kind = 0 && w.savbOk && w.areaPages.any fun va => s.heldTables (b.domain (p.map (·.dom)) 0).root va s.fab.nextSeq)

/-! ### Acceptance and start (R296, R299, R302) -/

/-- The scope of a write to a block or a successor (R296, R303). -/
def scopeOf (a : W64) : BitVec 2 := if space a = 3 then 3 else 2

def State.modRegion (s : State) (rid : BitVec 32) (f : Region → Region) : State :=
  { s with regions := replaceIf (fun r => r.rid = rid) f s.regions }

/-- The scheduler's words of a block (R295, R296), and when they have been written. -/
def State.writeBlock (s : State) (r : Region) : State :=
  let w0 := r.res.toNat * 2 ^ 56 + r.st.toNat * 2 ^ 48 + r.rid.toNat
  let s := s.poke (r.bkey + 0xC0) (toBytes 8 w0)
  let s := s.poke (r.bkey + 0xD0)
    ([r.iter, r.emeter.value, r.bcReg, r.bcCch, r.bcScr, r.bcTile].flatMap fun x => toBytes 8 x.toNat)
  (s.recordAgent (lineOf (r.bkey + 0xC0)) (scopeOf r.block)).modRegion r.rid fun q => { q with wroteNs := s.time.elapsedNs }

/-- Context i of a region at its creation (R14, R299). -/
def newCtx (r : Region) (i seq ns : Nat) : Ctx :=
  let w := r.work
  let rng := w.seed + BitVec.ofNat 64 i * Config.rngDefault
  let size := max 4096 (64 * 2 ^ bits w.trb.toNat 4 0)
  let area := w.savb + BitVec.ofNat 64
    (if i < w.holdn.toNat then i * 0x50000 else w.holdn.toNat * 0x50000 + (i - w.holdn.toNat) * 0x8000)
  let r0 : Regs := {}
  { id := { rid := r.rid, num := BitVec.ofNat 16 i },
    r := ((r0.putS 1 (BitVec.ofNat 64 i) false).putS 2 w.arg false).putS 3 r.block false,
    c := { base := r.lim.plo, mhold := i < w.holdn.toNat, rng := if rng = 0 then Config.rngDefault else rng,
           trpb := w.trb + BitVec.ofNat 64 (i * size) },
    q := { pc := asPc w.entry }, es := { strict := w.strict },
    sch := { life := .pending, block := r.block, saveArea := area, queuedAt := seq + i, queuedNs := ns } }

/-- A region reaches STATE 2: a plain one gets its contexts, all pending. -/
def State.startRegion (s : State) (rid : BitVec 32) : State :=
  match s.region? rid with
  | none => s
  | some r =>
    let s := s.modRegion rid fun r => { r with st := 2 }
    let s := s.writeBlock { r with st := 2 }
    let n := r.work.nctx.toNat
    let q := s.fab.nextSeq
    { s with ctxs := s.ctxs ++ (List.range n).map (newCtx r · q s.time.elapsedNs),
             fab := { s.fab with nextSeq := q + n } }

/-- PDONE of a block (R295). -/
def State.pdone (s : State) (r : Region) : Nat := leNat (s.peek (r.bkey + 0xC8) 2)

/-- A region id that no live region has, and the one after it (R295, log entry 8). -/
def State.newRid (s : State) : BitVec 32 :=
  let free (x : BitVec 32) : Bool := x ≠ 0 && (s.region? x).isNone
  (((List.range 4098).map fun i => s.nextRid + BitVec.ofNat 32 i).find? free).getD s.nextRid

/-- The scheduler decides on a block: the code, and on acceptance the new region, its words written (R298). -/
def State.tryLaunch (s : State) (l : Launcher) (addr : W64) (k : Option Nat) : Nat × State :=
  let code := s.launchCode l addr k
  match code, k with
  | 0, some k =>
    let b := readBlockAt s k
    let rid := s.newRid
    let r : Region :=
      { rid := rid, block := addr, bkey := k, lim := b.limits ((l.parent.map (·.lim)).getD rootLimits), work := b.work,
        dom := b.domain (l.parent.map (·.dom)) rid, parent := l.parent.map (·.rid), launcher := l.ctx, tag := l.tag,
        sig := l.sig, st := 1 }
    let s := { s with regions := s.regions ++ [r], nextRid := rid + 1 }
    if s.pdone r < r.work.npred.toNat then (0, s.writeBlock r) else (0, s.startRegion rid)
  | c, _ => (c, s)

/-- REGION_START (R302). -/
def execRegionStart (rid : BitVec 32) (s : State) : Out :=
  match s.region? rid with
  | none => .next s
  | some r =>
    if r.st = 1 && r.stopping.isNone && !s.stands r.bkey && r.work.npred.toNat ≤ s.pdone r then .next (s.startRegion rid) else .next s

/-! ### LAUNCH (R207, R286, R298) -/

def execLaunch (o : FE) (s : State) : Out :=
  s.s56 o.w fun s =>
    let a := s.rdS o.sa
    if s.psS o.sa || s.psS o.sb || s.psS o.sc then s.trap cPoison
    else if !(spaceOk a && (space a = 2 || space a = 3)) then s.trap cCopy 0 0 a
    else if a.toNat % 256 ≠ 0 then s.trap cIllegalOperand
    else
      let s := s.beginRelease (scopeOf a)
      let l : Submit := { sd := o.sd, block := a, w := o.w, ba := s.iss.ba, tag := s.openTag }
      let s := s.modCtx fun c => { c with launches := c.launches ++ [l] }
      .next (s.pendOpen o.sd)

/-- LAUNCH_DECISION: the oldest undecided LAUNCH of a context, once its release is done. -/
def execLaunchDecision (c : CtxId) (s : State) : Out :=
  match s.focus c with
  | none => .next s
  | some s' =>
    match s'.ctx.launches with
    | [] => .next s
    | l :: rest =>
      if s'.releasePending (scopeOf l.block) then .next s
      else
        let k := (s'.homeKey s'.me c.rid l.block Access.both).toOption
        let p := s'.region? c.rid
        if k.any (s'.blockHeld p) || s'.heldWalk s'.me c.rid l.block then .next s
        else
          let sig : Option LaunchSig :=
            if l.w.se = 1 && l.w.spt = 0 then
              some { ctx := c, core := s'.core.num, sco := scopeOf l.block, ss := l.w.ss, si := l.w.si }
            else none
          let d := s'.tryLaunch { parent := p, ctx := some c, sig := sig, may := (p.map (·.lim.lnok)).getD false } l.block k
          let s1 := d.2.modCtx fun x => { x.bring l.sd l.tag (BitVec.ofNat 64 d.1) with launches := rest }
          .next (if d.1 = 0 then s1.signalAt s'.me c.rid l.w 1 else s1)

/-! ### Conditional, loop and switch regions (R301) -/

/-- The number of the child-table entry that a condition value selects. -/
def Work.select (w : Work) (v : Nat) (iter : W64) : Option Nat :=
  match w.kind.toNat with
  | 1 => some (if v ≠ 0 then 0 else 1)
  | 3 => if v < w.nsel.toNat then some v else none
  | _ => if v ≠ 0 && (w.nsel = 0 || iter.toNat < w.nsel.toNat) then some 0 else none

/-- A doubleword under a region's tables. -/
inductive WordRead where
  | ok (x : Nat)
  | held
  | bad

def State.readRegion (s : State) (r : Region) (a : W64) : WordRead :=
  if s.regionHeld r a then .held
  else match s.regionKey r a Access.load with
  | none => .bad
  | some k => if s.stands k then .held else if s.isBad k 8 then .bad else .ok (s.peek64 k)

/-- The region itself is stopped with a code (R301). -/
def State.stopAlone (s : State) (rid : BitVec 32) (res : Nat) : State := s.stopRegion rid (BitVec.ofNat 8 res)

/-- REGION_CONDITION_EVAL. A condition word or table entry that cannot be read stops the region. -/
def execRegionConditionEval (rid : BitVec 32) (s : State) : Out :=
  match s.region? rid with
  | none => .next s
  | some r =>
    if r.work.kind = 0 || r.st ≠ 2 || r.child.isSome || r.done || r.stopping.isSome then .next s
    else
      match s.readRegion r r.work.entry with
      | .held => .next s
      | .bad => .next (s.stopAlone rid 0x10)
      | .ok v =>
        match r.work.select v r.iter with
        | none => .next (s.modRegion rid fun r => { r with done := true })
        | some i =>
          match s.readRegion r (r.work.arg + BitVec.ofNat 64 (8 * i)) with
          | .held => .next s
          | .bad => .next (s.stopAlone rid 0x10)
          | .ok a =>
            if a = 0 then .next (s.modRegion rid fun r => { r with done := true })
            else
              let a := BitVec.ofNat 64 a
              let k := if mem23 a 256 then s.regionKey r a Access.both else none
              if s.regionHeld r a || k.any (s.blockHeld (some r)) then .next s
              else
                let d := s.tryLaunch { parent := some r } a k
                if d.1 = 0 then
                  let child := (d.2.regions.find? fun q => q.parent = some rid && some q.bkey = k).map (·.rid)
                  .next (d.2.modRegion rid fun r => { r with child := child })
                else .next (d.2.stopAlone rid d.1)

/-! ### Completion (R252, R303, R304) -/

/-- Whether a region's work is over (R303): its contexts have retired, its children have ended, it selects no more. -/
def State.regionOver (s : State) (r : Region) : Bool :=
  (s.regions.all fun q => q.parent ≠ some r.rid) &&
    (s.allCtxs.all fun c => c.id.rid ≠ r.rid || c.sch.life = .retired || c.sch.life = .none) &&
    (r.stopping.isSome || (r.st = 2 && (r.work.kind = 0 || r.done)))

/-- Records of a region's contexts that are still on their way (R317). -/
def State.owesRecords (s : State) (rid : BitVec 32) : Bool := s.allCtxs.any fun c => c.id.rid = rid && c.sch.outRecs ≠ []

/-- Stores of a region's contexts that are still on their way past the cache roles: the signal of its completion comes after their
effects (R292, R303). -/
def State.farStores (s : State) (rid : BitVec 32) : Bool :=
  (s.core :: s.cores).any fun c => c.flight.any fun f => f.ctx.rid = rid && !f.wb

/-- The banks that a region owns on a core. -/
def Core.ownedBy (c : Core) (rid : BitVec 32) : List Nat := (c.pool.owner.filter fun o => o.2 = rid).map (·.1)

/-- The clean-up of one core (R252). -/
def State.cleanCore (s : State) (rid : BitVec 32) (core : Nat) : State :=
  let own := (s.coreAt core).ownedBy rid
  let lines := ((s.coreAt core).cache.filter fun l => own.contains l.bank).map (·.key)
  let s := lines.foldl (fun s k => s.evict core k) s
  let s := s.writeBackReach core 3
  let roles := (s.coreAt core).pool.roles
  let s := (own.filter fun j => vget roles j = 2).foldl (fun s j => s.clearBank core j) s
  let c := s.coreAt core
  s.putCore { c with pool := { c.pool with tiles := c.pool.tiles.filter fun t => !own.contains (64 + t.bank),
                                           owner := c.pool.owner.filter fun o => o.2 ≠ rid } }

/-- The clean-up, and the write-backs that are on their way after it. -/
def State.cleanUp (s : State) (r : Region) : State :=
  let owning := ((s.core :: s.cores).filter fun c => c.ownedBy r.rid ≠ []).map fun c => c.num.toNat
  let cores := (r.visited ++ owning).eraseDups
  let s := cores.foldl (fun s n => s.cleanCore r.rid n) s
  let fl := cores.flatMap fun n => ((s.coreAt n).flight.filter (·.wb)).map (·.seq)
  s.modRegion r.rid fun r => { r with cleaned := some fl }

/-- Whether a flight with a number is still on its way. -/
def State.flying (s : State) (q : Nat) : Bool := (s.core :: s.cores).any fun c => c.flight.any fun f => f.seq = q

/-- Event 6 (R303, R346). -/
def succEvent (rid : BitVec 32) (a : W64) : HostEvent := (6, zext rid, 0, a)
/-- Event 2 (R303, R346). -/
def endEvent (r : Region) : HostEvent :=
  (2, BitVec.ofNat 64 (r.tag.toNat * 2 ^ 32 + r.rid.toNat), BitVec.ofNat 64 (r.res.toNat * 2 ^ 56 + r.st.toNat * 2 ^ 48), 0)

/-- 1 is added to PDONE of a successor (R303). -/
def State.addPdone (s : State) (r : Region) (a : W64) : State :=
  match s.regionKey r a Access.store with
  | none => s.post (succEvent r.rid a)
  | some k =>
    if s.isBad (k + 0xC8) 8 then s.post (succEvent r.rid a)
    else (s.poke (k + 0xC8) (toBytes 2 (leNat (s.peek (k + 0xC8) 2) + 1))).recordAgent (lineOf (k + 0xC8)) (scopeOf a)

/-- The SPT-0 signal of the LAUNCH (R303). A wait that it satisfies acquires at the scope of the LAUNCH: clean bytes leave the
issuing core (R292). -/
def State.launchSignal (s : State) (g : LaunchSig) : State :=
  let gone := match s.ctx? g.ctx with
    | some c => c.sch.life = .retired
    | none => true
  if gone || !(s.coreAt g.core.toNat).granted g.ctx.rid g.ss.toNat then s
  else (s.signal g.core.toNat g.ctx.rid g.ss g.si).dropClean g.core.toNat g.sco

/-- The parent of kind 1 to 3 goes on (R301). -/
def Region.childEnded (rid : BitVec 32) (p : Region) : Region :=
  if p.child = some rid then
    if p.work.kind = 2 then { p with child := none, iter := p.iter + 1 } else { p with child := none, done := true }
  else p

/-- Everything of a region that has ended leaves. -/
def State.forget (s : State) (rid : BitVec 32) : State :=
  let s := { s with regions := (s.regions.map (Region.childEnded rid)).filter fun (r : Region) => r.rid ≠ rid,
                    ctxs := s.ctxs.filter fun c => c.id.rid ≠ rid,
                    ctx := if s.ctx.id.rid = rid then {} else s.ctx,
                    trans := s.trans.filter fun t => t.rid ≠ rid }
  s.sweepGrants

/-- Steps 3 to 6 of R303. -/
def State.endRegion (s : State) (r : Region) : State :=
  let lost := r.lostArrival || (s.core :: s.cores).any fun c => c.arrivals.any fun a => a.rid = r.rid
  let f (c : Core) : Core := { c with arrivals := c.arrivals.filter fun a => a.rid ≠ r.rid }
  let s := { s with core := f s.core, cores := s.cores.map f }
  let code := (r.stopping.getD 0).toNat % 128
  let r := { r with st := if r.stopping.isSome then 4 else 3, res := BitVec.ofNat 8 (code + (if lost then 128 else 0)) }
  let s := s.writeBlock r
  let s := (r.work.succ.filter (· ≠ 0)).foldl (fun s a => s.addPdone r a) s
  let s := match r.sig with
    | some g => s.launchSignal g
    | none => s
  let s := if r.parent.isNone then s.post (endEvent r) else s
  s.forget r.rid

/-- Words that the completion writes and whose channels are held. -/
def State.endHeld (s : State) (r : Region) : Bool :=
  s.stands r.bkey ||
    r.work.succ.any fun a => a ≠ 0 && (s.regionHeld r a || (s.regionKey r a Access.store).any s.stands)

/-- The clean-up has been made, and its write-backs have performed (R252). -/
def State.cleaned (s : State) (r : Region) : Bool := r.cleaned.any fun l => l.all fun q => !s.flying q

/-- REGION_COMPLETE: the clean-up, and when its write-backs have performed, and its contexts' records, the rest. -/
def execRegionComplete (rid : BitVec 32) (s : State) : Out :=
  match s.region? rid with
  | none => .next s
  | some r =>
    if !s.regionOver r || s.farStores rid then .next s
    else
      let s := if r.cleaned.isNone then s.cleanUp r else s
      match s.region? rid with
      | none => .next s
      | some r => if !s.cleaned r || s.owesRecords rid || s.endHeld r then .next s else .next (s.endRegion r)

/-! ### Updates (R253, R296, R304, R356) -/

/-- REGION_BLOCK_UPDATE: the energy charged since the last update and the saving credited, in µJ. An id that no live region has
is the housekeeping account. The block is written, unless its channel is held. -/
def execRegionBlockUpdate (rid : BitVec 32) (energy : EnergyBill) (s : State) : Out :=
  match s.region? rid with
  | none => .next (s.bill .housekeeping energy.charge energy.credit)
  | some _ =>
    let s := s.bill (.region rid) energy.charge energy.credit
    match s.region? rid with
    | none => .next s
    | some r =>
      let s := if s.stands r.bkey then s else s.writeBlock r
      if r.lim.ebud ≠ 0 && r.lim.ebud.toNat ≤ r.emeter.value.toNat && r.stopping.isNone then
        .next (if r.dom.fpol = 0 then s.stopRegion rid 0x11 else s.domainStop r 0x11)
      else .next s

end Sys2Proof.Machine
end

