-- ==== Sys2Proof/Machine/Sched.lean ====
section
/-!
DEFINITION. The cluster schedulers (R305 to R311): admission and placement with the restore of a saved context, hot columns
and migration, requests for waiting contexts, and retirement.
-/

namespace Sys2Proof.Machine

/-! ### Admission (R306) -/

def State.isHot (s : State) (core : Nat) : Bool := s.hot.any fun h => h.1 = columnOf core

/-- The lowest free REG bank of a core (R251). -/
def State.freeBank (s : State) (core : Nat) : Option Nat :=
  let p := (s.coreAt core).pool
  (List.range 64).find? fun j => vget p.roles j = 0 && !p.moving.contains j && !s.occupied core j

def State.freeBanks (s : State) (core : Nat) : Nat :=
  let p := (s.coreAt core).pool
  ((List.range 64).filter fun j => vget p.roles j = 0 && !p.moving.contains j && !s.occupied core j).length

/-- Resident contexts of a region: those that hold a bank (R13). -/
def State.residents (s : State) (rid : BitVec 32) : List Ctx :=
  s.allCtxs.filter fun c => c.id.rid = rid && c.sch.life.holdsBank

/-- The lowest base of a free run of semaphores. -/
def Core.freeRun (c : Core) (n : Nat) : Option Nat :=
  (List.range (257 - n)).find? fun b => c.grants.all fun g => g.base + g.count ≤ b || b + n ≤ g.base

/-- The base of a region's run on a core: the one it has, or the lowest that is free. -/
def Core.runFor (c : Core) (rid : BitVec 32) (n : Nat) : Option Nat :=
  match c.grantOf rid with
  | some g => some g.base
  | none => c.freeRun n

/-- A request waits on a core (R322). -/
def State.reqWaits (s : State) (core : Nat) : Bool :=
  s.allCtxs.any fun c => c.core.toNat = core && c.saveRank.isSome && (s.coreAt core).saving ≠ some c.id

/-- Whether a context may only return to the core it left (R305, R306). -/
def Ctx.bound (c : Ctx) (r : Region) : Bool :=
  c.sch.lastCore.isSome && (c.c.mhold || c.es.held ≠ 0 || c.sch.wasDormant || !r.lim.migok)

/-- Another region has ended whose clean-up is not done on a core: it has held a context there, or owned banks (R252). -/
def State.cleaning (s : State) (rid : BitVec 32) (core : Nat) : Bool :=
  s.regions.any fun r =>
    r.rid ≠ rid && (r.visited.contains core || (s.coreAt core).ownedBy r.rid ≠ []) && s.regionOver r && !s.cleaned r

/-- Whether a core admits a context, but for its free REG bank. During a supply loss none does (R352; log entry 121). -/
def State.admitsButBank (s : State) (c : Ctx) (core : Nat) : Bool :=
  match s.region? c.id.rid with
  | none => false
  | some r =>
    let here := s.residents c.id.rid
    let cores := (core :: here.map fun x => x.core.toNat).eraseDups
    !s.power.lossOn && (r.work.clmask = 0 || r.work.clmask.getLsbD (clusterOf core)) && !s.isHot core &&
      here.length + 1 ≤ r.lim.rmax.toNat && cores.length ≤ r.lim.cmax.toNat &&
      ((s.coreAt core).runFor c.id.rid r.lim.kcnt.toNat).isSome &&
      !(c.c.mhold && s.allCtxs.any fun x => x.c.mhold && x.sch.life.holdsBank && x.core.toNat = core) &&
      (!c.bound r || c.sch.lastCore = some (BitVec.ofNat 11 core)) && !s.reqWaits core && !s.cleaning c.id.rid core

def State.admits (s : State) (c : Ctx) (core : Nat) : Bool :=
  (s.freeBank core).isSome && s.admitsButBank c core

/-- The cores in whose clusters a context may be placed. -/
def State.maskCores (s : State) (c : Ctx) : List Nat :=
  match s.region? c.id.rid with
  | none => []
  | some r =>
    if c.bound r then (c.sch.lastCore.map BitVec.toNat).toList
    else
      ((List.range 24).filter fun k => r.work.clmask = 0 || r.work.clmask.getLsbD k).flatMap fun k =>
        (List.range 48).map fun i => 48 * k + i

/-- Of the eligible cores, the one with the most free banks, the lowest among those. -/
def State.roomiest (s : State) (cores : List Nat) : Option Nat :=
  (cores.foldl (fun (m : Option (Nat × Nat)) n =>
    let f := s.freeBanks n
    match m with
    | some (_, g) => if g < f then some (n, f) else m
    | none => some (n, f)) none).map (·.1)

/-- The core a context is placed on (R306, R308): the target of its migration, the core it left, or the roomiest. -/
def State.pickCore (s : State) (c : Ctx) : Option Nat :=
  let ok := (s.maskCores c).filter (s.admits c)
  let goes (k : Option (BitVec 11)) : Bool := k.any fun k => ok.contains k.toNat
  if goes c.sch.target then c.sch.target.map BitVec.toNat
  else if goes c.sch.lastCore then c.sch.lastCore.map BitVec.toNat
  else s.roomiest ok

def Ctx.waiting (c : Ctx) : Bool := c.sch.life = .pending || c.sch.life = .saved

/-- Another waiting context comes before this one in a cluster's queues and is admitted there. -/
def State.outranked (s : State) (c : Ctx) (cluster : Nat) : Bool :=
  s.allCtxs.any fun d => d.id ≠ c.id && d.waiting &&
    (s.classOf c < s.classOf d || (s.classOf c = s.classOf d && d.sch.queuedAt < c.sch.queuedAt)) &&
    (s.maskCores d).any fun n => clusterOf n = cluster && s.admits d n

/-! ### Placement and restore (R24, R42, R263, R265, R294, R299, R306) -/

/-- A new grant holds zeros. -/
def Core.giveGrant (c : Core) (rid : BitVec 32) (base n : Nat) : Core :=
  match c.grantOf rid with
  | some _ => c
  | none =>
    { c with grants := c.grants ++ [{ rid := rid, base := base, count := n }],
             k := (List.range n).foldl (fun k i => vset k (base + i) 0) c.k }

/-- The image of a region for a core is restored into its grant, and the header of its area loses the bit (R24). -/
def State.takeImage (s : State) (rid : BitVec 32) (core : Nat) : State :=
  match (s.coreAt core).grantOf rid, s.imageCtx rid core with
  | some g, some x =>
    let bs := (s.readArea x core 0x7E00 (2 * g.count)).getD []
    let c := s.coreAt core
    let k := (List.range g.count).foldl (fun k i => vset k (g.base + i) (BitVec.ofNat 16 (natAt bs (2 * i) 2))) c.k
    let grants := replaceIf (fun h => h.rid = rid) (fun h => { h with reserved := false }) c.grants
    let s := s.putCore { c with k := k, grants := grants }
    let s := match s.homeKey core rid x.sch.saveArea Access.both with
      | .ok hk => s.poke hk (toBytes 1 (leNat (s.peek hk 1) % 2))
      | .error _ => s
    s.mapCtx (fun y => y.id = x.id) fun y => { y with sch := { y.sch with image := false } }
  | _, _ => s

/-- The lending of a restored owner's channels ends (R265): the accesses that the controller has accepted are completed, the core's
lines there go home, rows are closed. -/
def State.endLending (s : State) (core : Nat) (id : CtxId) : State :=
  (List.range 8).foldl (fun s n =>
    let ch := BitVec.ofNat 3 n
    let h := (s.coreAt core).chan ch
    if h.owner = some id then
      let s := (s.serveChannel core ch).flushChannel core ch
      s.putCore ((s.coreAt core).putChan ch { owner := some id, refresh := h.refresh, busy := h.busy })
    else s) s

/-- What a placement gives a context: core, bank, its place in the orders, LIC. -/
def Ctx.placeAt (c : Ctx) (core bank seq cycle ns : Nat) (life : Life) : Ctx :=
  { c with core := BitVec.ofNat 11 core, bank := BitVec.ofNat 6 bank,
           sch := { c.sch with life := life, placedAt := seq, placedNs := ns, dormAt := seq, lic := (cycle : Int),
                               target := none, image := false, wasDormant := false } }

/-- What stands between a saved context and another core (R294): the old core's write-backs, and the context's own stores in
flight, since it reads its earlier writes wherever it resumes (R289). -/
def State.leftBehind (s : State) (c : Ctx) (core : Nat) : Bool :=
  match c.sch.lastCore with
  | none => false
  | some k =>
    k.toNat ≠ core && (s.coreAt k.toNat).flight.any fun f => f.wb || f.ctx = c.id

/-- The context as it resumes on a core; none where its area cannot be read. -/
def State.restored (s : State) (c : Ctx) (core : Nat) : Option Ctx :=
  if c.sch.life = .pending then some c
  else
    match s.readArea c core 0 0x7E00, (if c.c.mhold then s.readArea c core 0x8000 0x48000 else some []) with
    | some low, some high => some (c.fromArea low high (s.coreAt core).cycle).disposed
    | _, _ => none

/-- A core has something to do in every cycle: contexts, a pool change, signals that fall due, banks whose cycles are counted
(R245, R253). -/
def State.busyCore (s : State) (core : Nat) : Bool :=
  let c := s.coreAt core
  c.pool.change.isSome || c.sigs ≠ [] || c.pool.owner ≠ [] ||
    s.allCtxs.any fun x => x.core.toNat = core && x.sch.life.holdsBank

/-- A core without anything to do has counted its cycles up to the present (log entry 3). -/
def Core.catchUp (c : Core) (raw : Nat) : Core :=
  if raw < c.clock + Config.cycleUnits then c
  else { c with clock := raw, cycle := c.cycle + (raw - c.clock) / Config.cycleUnits }

def State.catchUp (s : State) (core : Nat) : State :=
  if s.busyCore core then s else s.putCore ((s.coreAt core).catchUp s.time.raw)

/-- The placement on a core, in a bank, with a base for the region's semaphores. -/
def State.place (s : State) (c : Ctx) (core bank base kcnt : Nat) : State :=
  match s.restored c core with
  | none => s
  | some x =>
    let q := s.freshSeq
    let life := if c.sch.life = .saved && c.sch.wasDormant then Life.dormant else .resident
    let x := x.placeAt core bank q.1 (s.coreAt core).cycle s.time.elapsedNs life
    let away : Bool := c.sch.image && c.sch.lastCore ≠ some (BitVec.ofNat 11 core)
    let s := q.2.modRegion c.id.rid fun r =>
      { r with visited := if r.visited.contains core then r.visited else r.visited ++ [core] }
    let s := s.putCore ((s.coreAt core).giveGrant c.id.rid base kcnt)
    let s := if away then s else s.takeImage c.id.rid core
    let s := s.mapCtx (fun y => y.id = c.id) fun _ => x
    let s := if away then s.takeImage c.id.rid core else s
    let s := (s.endLending core c.id).dropClean core (if c.sch.life = .saved then 3 else scopeOf c.sch.block)
    let s := if c.sch.life = .saved then s.sweepGrants.chargeMove c.sch.account else s.sweepGrants
    if life = .dormant then s.deliverOldest core c.id.rid else s

/-- PLACEMENT. A context that goes to another core first waits for what it left behind. -/
def execPlacement (c : CtxId) (s : State) : Out :=
  match s.ctx? c with
  | none => .next s
  | some x =>
    match s.pickCore x, s.region? c.rid with
    | some core, some r =>
      if !x.waiting || s.outranked x (clusterOf core) then .next s
      else
        let s := match x.sch.lastCore with
          | some k => if k.toNat = core then s else s.writeBackReach k.toNat 3
          | none => s
        if s.leftBehind x core then .next s
        else
          match s.freeBank core, (s.coreAt core).runFor c.rid r.lim.kcnt.toNat with
          | some bank, some base => .next ((s.catchUp core).place x core bank base r.lim.kcnt.toNat)
          | _, _ => .next s
    | _, _ => .next s

/-! ### Hot columns (R307) -/

/-- A bank's calibration after its column has had a temperature (R359). -/
def Cal.seen (t : BitVec 8) (c : Cal) : Cal := { c with stray := c.stray || 8 < (t.toInt - c.at_.toInt).natAbs }

/-- Calibrations of a column's banks after the column has had a temperature. -/
def Core.seenTemp (col : Nat) (t : BitVec 8) (c : Core) : Core :=
  if columnOf c.num.toNat = col then { c with pool := { c.pool with cals := c.pool.cals.map (Cal.seen t) } } else c

/-- What the calibration of banks notes of a column's temperature, in the pool images too (R233, R352, R359). -/
def State.noteStray (s : State) (col : Nat) (t : BitVec 8) : State :=
  let far := 8 < (t.toInt - Config.startTemp.toInt).natAbs && !s.boot.strayed.contains col
  { s with core := s.core.seenTemp col t, cores := s.cores.map (Core.seenTemp col t),
           boot := { s.boot with strayed := if far then s.boot.strayed ++ [col] else s.boot.strayed,
                                 images := s.boot.images.map (Core.seenTemp col t) } }

/-- A column's temperature is noted, and the column becomes or ceases to be hot. -/
def State.noteTemp (s : State) (col : Nat) (t : BitVec 8) : State :=
  let s := { s.noteStray col t with temps := (col, t) :: s.temps.filter fun x => x.1 ≠ col }
  let d := t.toInt
  if (s.mgmt.thot.toNat : Int) ≤ d then
    if s.hot.any fun h => h.1 = col then s else { s with hot := (col, s.time.elapsedNs) :: s.hot }
  else if d < (s.mgmt.trel.toNat : Int) then { s with hot := s.hot.filter fun h => h.1 ≠ col }
  else s

/-- TEMPERATURE_REFRESH: the temperatures of a cluster's six columns, in degrees Celsius, signed. -/
def execTemperatureRefresh (cluster : BitVec 5) (temps : List (BitVec 8)) (s : State) : Out :=
  if 24 ≤ cluster.toNat then .next s
  else .next (((List.range 6).zip temps).foldl (fun s x => s.noteTemp (6 * cluster.toNat + x.1) x.2) s)

/-! ### Migration (R308) -/

/-- The machine without a context's hold on its bank: as placement would find it. -/
def State.vacate (s : State) (id : CtxId) : State :=
  s.mapCtx (fun c => c.id = id) fun c =>
    { c with sch := { c.sch with life := .saved, lastCore := some c.core, reqs := [], stopAt := none } }

/-- The core outside hot columns that would admit a resident context. -/
def State.refuge (s : State) (c : Ctx) : Option Nat :=
  let v := s.vacate c.id
  match v.ctx? c.id with
  | none => none
  | some x => v.roomiest ((v.maskCores x).filter fun n => n ≠ c.core.toNat && v.admits x n)

/-- The conditions of R308 on the context and its column. -/
def State.tooHot (s : State) (c : Ctx) : Bool :=
  c.sch.life = .resident && !c.c.mhold && c.es.held = 0 &&
    (s.hot.any fun h => h.1 = columnOf c.core.toNat && h.2 + 1000000 ≤ s.time.elapsedNs) &&
    match s.region? c.id.rid with
    | some r => r.lim.migok
    | none => false

/-- Whether a copy of a context writes into its core's scratchpad or seam (R308). -/
def State.copiesHome (s : State) (c : Ctx) (x : Cmd) : Bool :=
  x.tl = 0 &&
    (x.dstRows.flatMap fun r => pieces (r.2 / 2048 + 2) r.1 r.2).any fun p =>
      match s.resolve c.core.toNat c.id.rid p.1 0 Access.store with
      | .ok q => (match s.placeKey q Access.store with
          | some k => (k / 2 ^ 60 = 1 && k % 2 ^ 60 / 2 ^ 32 = c.core.toNat) ||
              (k / 2 ^ 60 = 2 && k % 2 ^ 60 / 2 ^ 29 = c.core.toNat)
          | none => false)
      | .error _ => false

/-- The highest number that a copy into its core already holds, of those that have not completed. -/
def State.topCopy (s : State) (c : Ctx) : W64 :=
  ((c.running ++ c.queue).filter fun x => s.copiesHome c x).foldl (fun m x => if m.toNat < x.num.toNat then x.num else m) 0

/-- MIGRATION_DECISION. -/
def execMigrationDecision (c : CtxId) (s : State) : Out :=
  match s.ctx? c with
  | none => .next s
  | some x =>
    if !s.tooHot x || x.sch.target.isSome then .next s
    else
      match s.refuge x with
      | none => .next s
      | some n =>
        .next (s.mapCtx (fun y => y.id = c) fun y =>
          { y with sch := { y.sch with target := some (BitVec.ofNat 11 n), copyTop := s.topCopy x } })

/-- TLC has reached the highest number that such a copy held (R308). -/
def Ctx.copiesDone (c : Ctx) : Bool := c.sch.copyTop.toNat ≤ c.tlc.mark.toNat

/-! ### Requests for waiting contexts (R309) -/

/-- A request of R309 is outstanding in a cluster. -/
def State.classBusy (s : State) (cluster : Nat) : Bool :=
  s.allCtxs.any fun c => clusterOf c.core.toNat = cluster &&
    ((c.sch.life = .resident && c.sch.reqs.contains .classWait) ||
      (c.sch.life = .saving && c.sch.saveFor = some .classWait))

/-- Whether the core of a resident context would admit a waiting one in its place. -/
def State.wouldAdmit (s : State) (v w : Ctx) : Bool := (s.vacate v.id).admits w v.core.toNat

/-- The most recently placed of some contexts. -/
def newest (l : List Ctx) : Option Ctx :=
  l.foldl (fun (m : Option Ctx) c => match m with
    | some d => if d.sch.placedAt < c.sch.placedAt then some c else m
    | none => some c) none

/-- The elapsed time since which a waiting context has been in the queue of its present class (R309, R310). -/
def Ctx.queuedFrom (c : Ctx) : Nat := max c.sch.queuedNs c.sch.queueClsNs

/-- It has waited 2 ms there. -/
def State.waitedLong (s : State) (w : Ctx) : Bool :=
  w.sch.queueCls = s.classOf w && w.queuedFrom + 2000000 ≤ s.time.elapsedNs

/-- The context of a cluster that gives way to a waiting one: for want of a bank, one of the lowest class below; after 2 ms, one of
its own class that has been resident as long. -/
def State.victim (s : State) (w : Ctx) (cluster : Nat) : Option Ctx :=
  let k := s.classOf w
  let all := s.allCtxs.filter fun c => c.sch.life = .resident && clusterOf c.core.toNat = cluster
  let low := all.filter fun c => s.classOf c < k
  let least := (low.map s.classOf).min?.getD 0
  let short := (s.maskCores w).any fun n => clusterOf n = cluster && (s.freeBank n).isNone && s.admitsButBank w n
  let old := all.filter fun c => s.classOf c = k && c.sch.placedNs + 2000000 ≤ s.time.elapsedNs
  let takes (l : List Ctx) : Option Ctx := (newest l).filter fun v => s.wouldAdmit v w
  (if short then takes (low.filter fun c => s.classOf c = least) else none) |>.orElse fun _ =>
    if s.waitedLong w then takes old else none

/-- The victims of a waiting context that no core admits. -/
def State.victims (s : State) (w : Ctx) : List Ctx :=
  if !w.waiting || (s.maskCores w).any (s.admits w) then []
  else (List.range 24).filterMap fun k => if s.classBusy k then none else s.victim w k

/-- A waiting context's request goes to a victim, whose save and restore its region pays for (R328). -/
def State.askRoom (s : State) (w v : CtxId) : State :=
  (s.request v .classWait).mapCtx (fun x => x.id = v) fun x => { x with sch := { x.sch with asker := some w.rid } }

/-- CLASS_PREEMPT_REQUEST, for a waiting context: its request goes to one cluster's victim. -/
def execClassPreemptRequest (c : CtxId) (s : State) : Out :=
  match s.ctx? c with
  | none => .next s
  | some w =>
    match s.victims w with
    | v :: _ => .next (s.askRoom c v.id)
    | [] => .next s

/-! ### Requests from every source (R321) -/

/-- The first waiting context whose request of R309 a context would get. -/
def State.askerOf (s : State) (v : CtxId) : Option Ctx := s.allCtxs.find? fun w => (s.victims w).any fun x => x.id = v

/-- Whether a request of a kind can arise for a context now. -/
def State.mayRequest (s : State) (c : Ctx) (k : ReqKind) : Bool :=
  match k with
  | .management => true
  | .supplyLoss => s.power.lossOn
  | .stop => match s.region? c.id.rid with
    | some r => r.stopping.isSome
    | none => false
  | .migration => c.sch.target.isSome && c.copiesDone
  | .classWait => (s.askerOf c.id).isSome
  | .trapEntry => false

/-- PREEMPTION_REQUEST. -/
def execPreemptionRequest (c : CtxId) (kind : ReqKind) (s : State) : Out :=
  match s.ctx? c with
  | none => .next s
  | some x =>
    if !s.mayRequest x kind then .next s
    else match kind, s.askerOf c with
    | .classWait, some w => .next (s.askRoom w.id c)
    | _, _ => .next (s.request c kind)

/-! ### Retirement (R129, R264, R305) -/

/-- The work that a retiring context waits for is done. -/
def State.retireReady (s : State) (c : Ctx) : Bool :=
  let stopped := match s.region? c.id.rid with
    | some r => r.stopping.isSome
    | none => true
  let idle := c.running = [] && c.mx.queue.all (fun e => e.started.isNone) && c.mx.loads.all (·.isSig)
  let done (t : Timeline) : Bool := t.mark = t.issued
  c.sch.life = .retiring && c.launches = [] && idle &&
    (stopped || (done c.tlc && done c.tlm && done c.tlf && c.queue = [])) &&
    !((s.coreAt c.core.toNat).flight.any fun f => f.ctx = c.id && f.key / 2 ^ 60 = 5)

/-- CONTEXT_RETIRE. -/
def execContextRetire (c : CtxId) (s : State) : Out :=
  match s.ctx? c with
  | none => .next s
  | some x =>
    if s.retireReady x then .next ((s.mapCtx (fun y => y.id = c) Ctx.end_).freeAllRetired) else .next s

end Sys2Proof.Machine
end

