-- ==== Sys2Proof/Machine/Fabric.lean ====
section
/-!
DEFINITION. The fabric (R329 to R339): answers to requests, requests of other devices, forwarding, and the links.
-/

namespace Sys2Proof.Machine

/-! ### Answers (R180, R331, R337) -/

/-- A request that is out and has left by a port. -/
def State.outstanding (s : State) (seq : Nat) : Option Sent :=
  s.fab.out.find? fun p => p.seq = seq && p.port.isSome

def State.dropSent (s : State) (seq : Nat) : State :=
  { s with fab := { s.fab with out := s.fab.out.filter fun p => p.seq ≠ seq } }

/-- The store in flight that a packet carries performs, or fails. -/
def State.answerFlight (s : State) (seq : Nat) (ok : Bool) : State :=
  match (s.core :: s.cores).findSome? fun c => (c.flight.find? fun f => f.sent = some seq).map fun f => (c, f) with
  | none => s
  | some (c, f) =>
    let s := s.putCore { c with flight := c.flight.filter fun g => g.sent ≠ some seq }
    if ok then s else s.flightFault c.num.toNat f

/-- What an answer does to a running command that asked for it. -/
def Cmd.answer (c : Cmd) (seq : Nat) (ans : Answer) : Cmd :=
  if c.seqs.contains seq then
    match ans with
    | .fault => { c with failed := true }
    | _ => { c with seqs := c.seqs.filter (· ≠ seq) }
  else
    match c.asked.find? fun a => a.1 = seq with
    | none => c
    | some a =>
      match ans with
      | .data d u _ => { c with got := c.got ++ [(a.2, d, u)] }
      | _ => { c with failed := true }

def State.answerCmds (s : State) (seq : Nat) (ans : Answer) : State :=
  s.mapCtx (fun _ => true) fun c => { c with running := c.running.map fun x => x.answer seq ans }

/-- ACKNOWLEDGMENT: of a store, a write-back or a command's request. -/
def execAcknowledgment (seq : Nat) (ans : Answer) (s : State) : Out :=
  match s.outstanding seq with
  | none => .next s
  | some _ =>
    if s.allCtxs.any fun c => c.remote.any fun r => r.seq = seq then .next s
    else .next (((s.dropSent seq).answerFlight seq (ans ≠ .fault)).answerCmds seq ans)

/-- What an answer to a packet brings to the access that waits for it: an atomic's old value, or a line, and whether the record at
its home does not cover this device (R290). -/
def Remote.answer (r : Remote) (p : Packet) (ans : Answer) : Remote :=
  match ans, p with
  | .data d u m, .atomic _ w _ _ _ =>
    { r with old := some (if w = 1 then (d.setWidth 32).setWidth 64 else d.setWidth 64, u), mis := r.mis || m }
  | .data d u m, _ => { r with got := r.got ++ [(lineOf r.addr.toNat, d, u)], mis := r.mis || m }
  | _, _ => { r with failed := true }

/-! ### Failing for want of a route (R337) -/

/-- A request fails at once. -/
def State.failRequest (s : State) (p : Sent) : State :=
  let s := ((s.dropSent p.seq).answerFlight p.seq false).answerCmds p.seq .fault
  s.mapCtx (fun c => c.remote.any fun r => r.seq = p.seq) fun c =>
    { c with remote := c.remote.map fun r => { r with failed := true } }

/-- ROUTE_FAILURE. -/
def execRouteFailure (seq : Nat) (s : State) : Out :=
  match s.fab.out.find? fun p => p.seq = seq with
  | none => .next s
  | some p => .next (if p.port.isNone && s.fab.route p.dst p.body.lane = .none then s.failRequest p else s)

/-! ### Requests that arrive (R275, R331 to R334) -/

/-- An exit from an idle state begins (R355). -/
def State.rouse (s : State) : State := { s with power := { s.power with idle := 0 } }

/-- A request is new: its number has not arrived from its sender on its lane. -/
def State.arrivedNew (s : State) (src : BitVec 12) (lane seq : Nat) : Bool := !s.fab.seen.contains (src, lane, seq)

/-- Whether the record of one of some lines does not cover another device (R6, R290). -/
def State.uncovered (s : State) (rs : List Run) : Bool :=
  s.lineRecs.any fun r => r.sco ≠ 3 && rs.any fun x => r.key < x.key + x.n && x.key < r.key + 64

/-- An answer waits for its way to its device, on the lane of the answers (R330, R337). -/
def Fabric.answerWaits (f : Fabric) (src : BitVec 12) : Bool := f.route src 1 = .wait

/-- The answer is given, or waits for its lane. -/
def State.respond (s : State) (src : BitVec 12) (lane seq : Nat) (a : Answer) (bs : List Byte) : State :=
  let f := { s.fab with seen := (src, lane, seq) :: s.fab.seen }
  { s with fab := if f.answerWaits src then { f with owed := f.owed ++ [(src, seq, a, bs)] }
      else { f with answers := (src, seq, a, bs) :: f.answers } }

/-- A request on one line: held at a channel, of its walk or its bytes, refused, or performed by `f` at its home. It begins an exit
from an idle state. -/
def State.serve (s : State) (src : BitVec 12) (seq : Nat) (addr : W64) (acc : Access)
    (f : State → Nat → Answer × State) : Out :=
  if devOf addr ≠ s.mgmt.devid || !s.arrivedNew src 0 seq then .next s
  else if s.heldRequest src addr.toNat s.fab.nextSeq then .next s.rouse
  else
    let s := s.rouse
    match s.remoteKey src addr.toNat acc with
    | none => .next (s.respond src 0 seq .fault [])
    | some k =>
      let r := f s k
      .next (r.2.respond src 0 seq r.1 [])

/-- REMOTE_STORE_PACKET: bytes of one line by mask. -/
def execRemoteStorePacket (src : BitVec 12) (seq : Nat) (addr : W64) (data : BitVec 512) (mask : BitVec 64) (s : State) :
    Out :=
  s.serve src seq (addr &&& ~~~63) Access.store fun s k => (.done, s.pokeLine (lineOf k) data mask)

/-- REMOTE_ATOMIC_PACKET: nothing is written where the old value is uncorrectable. -/
def execRemoteAtomicPacket (src : BitVec 12) (seq : Nat) (op : BitVec 3) (w : BitVec 1) (addr b c : W64) (s : State) : Out :=
  let n := 8 - 4 * w.toNat
  if addr.toNat % n ≠ 0 then .next s
  else
    s.serve src seq addr Access.both fun s k =>
      let old := leNat (s.peek k n)
      let new := newOf op n old (b.toNat % 2 ^ (8 * n)) (c.toNat % 2 ^ (8 * n))
      let bad := s.isBad k n
      (.data (BitVec.ofNat 512 old) bad (s.uncovered [{ key := k, n := n }]),
       if bad then s else (s.poke k (toBytes n new)).recordAgent (lineOf k) 3)

/-- REMOTE_SIGNAL_PACKET: the addition of an RSIG, a release of the sending device at SYSTEM scope (R293). -/
def execRemoteSignalPacket (src : BitVec 12) (seq : Nat) (addr addend : W64) (s : State) : Out :=
  if addr.toNat % 8 ≠ 0 then .next s
  else
    s.serve src seq addr Access.store fun s k =>
      let bad := s.isBad k 8
      let s := (s.poke k (toBytes 8 (s.peek64 k + addend.toNat))).recordAgent (lineOf k) 3
      (.done, if bad then s.markBad [k] else s)

/-- The keys of a range of the own device under a sender's tables; none where a piece is refused. -/
def State.remoteRuns (s : State) (src : BitVec 12) (addr : W64) (n : Nat) (acc : Access) : Option (List Run) :=
  (pieces (n / 2048 + 2) addr n).foldr (fun p r =>
    match r, s.remoteKey src p.1.toNat acc with
    | some rs, some k => some ({ key := k, n := p.2 } :: rs)
    | _, _ => none) (some [])

/-- A request on a range: held, refused, or performed. -/
def State.serveRange (s : State) (src : BitVec 12) (lane seq : Nat) (addr : W64) (n : Nat) (acc : Access)
    (f : State → List Run → (Answer × List Byte) × State) : Out :=
  if devOf addr ≠ s.mgmt.devid || !s.arrivedNew src lane seq then .next s
  else
    let s := s.rouse
    if (pieces (n / 2048 + 2) addr n).any fun p => s.heldRequest src p.1.toNat s.fab.nextSeq then .next s
    else
      match s.remoteRuns src addr n acc with
      | none => .next (s.respond src lane seq .fault [])
      | some rs =>
        let r := f s rs
        .next (r.2.respond src lane seq r.1.1 r.1.2)

/-- COPY_DATA_PACKET: a copy write, or a read whose bytes go back with their state. -/
def execCopyDataPacket (src : BitVec 12) (seq : Nat) (write : Bool) (addr : W64) (data : List Byte) (len : Nat) (s : State) :
    Out :=
  if write then
    s.serveRange src 0 seq addr data.length Access.store fun s rs => ((.done, []), s.pokeRuns rs data)
  else
    s.serveRange src 0 seq addr len Access.load fun s rs =>
      ((.data 0 (rs.any fun r => s.isBad r.key r.n) (s.uncovered rs), rs.flatMap fun r => s.peek r.key r.n), s)

/-- MX_REDUCE_PACKET: bytes of an MX buffer are written at the home (VL2). -/
def execMxReducePacket (src : BitVec 12) (seq : Nat) (addr : W64) (data : List Byte) (s : State) : Out :=
  s.serveRange src 2 seq addr data.length Access.store fun s rs => ((.done, []), s.pokeRuns rs data)

/-- PACKET_FORWARD: a packet for another device goes on by the own route table, or waits for its port. -/
def execPacketForward (dst : BitVec 12) (body : Forwarded) (s : State) : Out :=
  let p : Packet := .forward body.lane body.bytes
  if dst = s.mgmt.devid || s.fab.route dst p.lane = .none then .next s else .next (s.rouse.send dst p).2

/-! ### Links (R329, R330, R336 to R338) -/

def Fabric.modPort (f : Fabric) (p : BitVec 5) (g : Port → Port) : Fabric :=
  { f with ports := match f.ports[p.toNat]? with
      | some x => f.ports.setIfInBounds p.toNat (g x)
      | none => f.ports }

def State.modPort (s : State) (p : BitVec 5) (g : Port → Port) : State := { s with fab := s.fab.modPort p g }

/-- An event of a port in one of some states. -/
def State.onPort (s : State) (p : BitVec 5) (states : List Nat) (f : State → State) : Out :=
  .next (if p.toNat < 18 && states.contains (s.fab.portState p).toNat then f s else s)

/-- FLIT_REPLAY: REPL rises. -/
def execFlitReplay (port : BitVec 5) (s : State) : Out :=
  s.onPort port [2] fun s => s.modPort port fun x => { x with repl := sat16 x.repl }

/-- Packets choose their routes again: those that wait, and those that a failed port has not delivered (R337). Forwarded
packets without any route are gone; answers that no longer wait go. -/
def State.reroute (s : State) (failed : Option (BitVec 5)) : State :=
  let out := s.fab.out.map fun p =>
    if p.port.isNone || (failed.isSome && p.port = failed) then { p with port := (s.fab.route p.dst p.body.lane).out } else p
  let gone (p : Sent) : Bool := match p.body with
    | .forward _ _ => s.fab.route p.dst p.body.lane = .none || p.port.isSome
    | _ => false
  let goes := s.fab.owed.filter fun a => !s.fab.answerWaits a.1
  { s with fab := { s.fab with out := out.filter fun p => !gone p, answers := goes.reverse ++ s.fab.answers,
                               owed := s.fab.owed.filter fun a => s.fab.answerWaits a.1 } }

/-- LANE_PAUSE: the receiver's buffer of a lane has reached 75 %, and packets of the lane wait at their source. -/
def execLanePause (port : BitVec 5) (lane : BitVec 2) (s : State) : Out :=
  s.onPort port [1, 2, 3] fun s => s.modPort port fun x => { x with paused := setBit x.paused lane.toNat true }

/-- LANE_RESUME: it has fallen below 50 %, and they go on. -/
def execLaneResume (port : BitVec 5) (lane : BitVec 2) (s : State) : Out :=
  s.onPort port [1, 2, 3] fun s =>
    (s.modPort port fun x => { x with paused := setBit x.paused lane.toNat false }).reroute none

/-- LINK_RETRAIN: the first attempt begins. -/
def execLinkRetrain (port : BitVec 5) (s : State) : Out :=
  s.onPort port [2] fun s =>
    s.modPort port fun x => { x with state := 3, rtr := sat16 x.rtr, since := s.time.elapsedNs, attempt := s.time.elapsedNs }

/-- RETRAIN_ATTEMPT_FAIL: another attempt follows at once. -/
def execRetrainAttemptFail (port : BitVec 5) (s : State) : Out :=
  s.onPort port [3] fun s => s.modPort port fun x => { x with rtr := sat16 x.rtr, attempt := s.time.elapsedNs }

/-- The elapsed time until which a port's training may succeed (R337). -/
def State.trainEnd (s : State) (port : BitVec 5) : Nat := ((s.fab.ports[port.toNat]?).map (·.since)).getD 0 + 200000000

/-- The elapsed time until which the present attempt of a retrain may succeed (R336). -/
def State.attemptEnd (s : State) (port : BitVec 5) : Nat := ((s.fab.ports[port.toNat]?).map (·.attempt)).getD 0 + 4000000

/-- LINK_UP, within 200 ms of the start of the training, and of a retrain within 4 ms of the start of its attempt. -/
def execLinkUp (port : BitVec 5) (s : State) : Out :=
  s.onPort port [1, 3] fun s =>
    if s.time.elapsedNs ≤ s.trainEnd port && (s.fab.portState port = 1 || s.time.elapsedNs ≤ s.attemptEnd port) then (s.modPort port fun x => { x with state := 2 }).reroute none else s

/-- LINK_DOWN: a link that is not up 200 ms after its training began is declared down; its lanes are paused no more, where a disabled
port's stay as they are (log entry 116). -/
def execLinkDown (port : BitVec 5) (s : State) : Out :=
  s.onPort port [1, 3] fun s =>
    if s.trainEnd port < s.time.elapsedNs then
      ((s.modPort port fun x => { x with state := 0, paused := 0 }).post (4, 0, zext port, 0)).reroute (some port)
    else s

/-- A write of EN (R338). -/
def State.setEnable (s : State) (port : BitVec 5) (en : Bool) : State :=
  match s.fab.ports[port.toNat]? with
  | none => s
  | some x =>
    if en then
      (if x.en then s else s.modPort port fun x => { x with en := true, state := 1, since := s.time.elapsedNs })
    else (s.modPort port fun x => { x with en := false, state := 4 }).reroute (some port)

def execPortEnable (port : BitVec 5) (s : State) : Out := .next (s.setEnable port true)
def execPortDisable (port : BitVec 5) (s : State) : Out := .next (s.setEnable port false)

end Sys2Proof.Machine
end

