-- ==== Sys2Proof/Machine/HostLink.lean ====
section
/-!
DEFINITION. The host link and the management interface (R273, R274, R338, R342 to R348, R357, R360): the registers of
BAR0, the host command queue, the event queue, translation invalidation, granted power and time.
-/

namespace Sys2Proof.Machine

def State.modMgmt (s : State) (f : Mgmt → Mgmt) : State := { s with mgmt := f s.mgmt }

/-! ### Registers with a row of their own (R344) -/

/-- DEVID_WRITE: ignored while a port is training, up or retraining. -/
def State.setDevid (s : State) (v : W64) : State :=
  if s.fab.ports.any fun p => p.state = 1 || p.state = 2 || p.state = 3 then s
  else s.modMgmt fun m => { m with devid := v.setWidth 12 }
def execDevidWrite (v : W64) (s : State) : Out := .next (s.setDevid v)

/-- THERM_WRITE: ignored whole with TREL at or above THOT. -/
def State.setTherm (s : State) (v : W64) : State :=
  let rel := v.extractLsb' 8 8
  let hot := v.extractLsb' 0 8
  if hot.toNat ≤ rel.toNat then s else s.modMgmt fun m => { m with trel := rel, thot := hot }
def execThermWrite (v : W64) (s : State) : Out := .next (s.setTherm v)

/-- PREQ_WRITE. -/
def State.setPreq (s : State) (v : W64) : State :=
  s.rouse.request { rid := v.extractLsb' 32 32, num := v.setWidth 16 } .management
def execPreqWrite (v : W64) (s : State) : Out := .next (s.setPreq v)

/-- The base register of a queue: its index registers start at 0. -/
def ringAt (v : W64) : Ring := { base := v &&& ~~~0xFE0 }

def State.setHcqb (s : State) (v : W64) : State := s.modMgmt fun m => { m with hcq := ringAt v }
def execHcqbWrite (v : W64) (s : State) : Out := .next (s.setHcqb v)

/-- Held events are written while the queue has room (R346). -/
def State.flushEvents (s : State) : List (W64 × W64 × W64 × W64) → State
  | [] => s.modMgmt fun m => { m with held := [] }
  | e :: es =>
    match s.eventPlace with
    | some k => State.flushEvents (s.writeEvent k e) es
    | none => s.modMgmt fun m => { m with held := e :: es }

def State.setEvqb (s : State) (v : W64) : State :=
  (s.modMgmt fun m => { m with evq := ringAt v }).flushEvents s.mgmt.held
def execEvqbWrite (v : W64) (s : State) : Out := .next (s.setEvqb v)

/-- EVENT_QUEUE_DRAIN: the host's write of EVQH. -/
def State.setEvqh (s : State) (head : W32) : State :=
  (s.modMgmt fun m => { m with evq := { m.evq with head := head } }).flushEvents s.mgmt.held
def execEventQueueDrain (head : W32) (s : State) : Out := .next (s.setEvqh head)

/-- HOST_DOORBELL: the host's write of HCQT (R345). -/
def State.setHcqt (s : State) (tail : W32) : State :=
  let q := s.mgmt.hcq
  if !q.enabled || q.entries < (tail - q.head).toNat then s
  else s.rouse.modMgmt fun m => { m with hcq := { m.hcq with tail := tail } }
def execHostDoorbell (tail : W32) (s : State) : Out := .next (s.setHcqt tail)

/-! ### Granted power (R347, R348) -/

/-- The clocks are stretched anew: by how much, the manual leaves open (R347). -/
def State.restretch (s : State) : State :=
  let f := s.anyNat
  { f.2 with time := { f.2.time with stretch := f.1 } }

/-- PGRANT_WRITE: the level is there at the next cycle boundary, which lies within the 2 µs. -/
def State.setGrant (s : State) (v : W64) : State :=
  ({ s with power := { s.power with level := v.setWidth 3 } } : State).rouse.restretch
def execPgrantWrite (v : W64) (s : State) : Out := .next (s.setGrant v)

/-! ### Time (R357) -/

/-- An offset of the source ahead of TIME has been measured, in nanoseconds. -/
def Time.measure (t : Time) (d : Int) : Time :=
  let sat : Int := max (-(2 ^ 31)) (min (2 ^ 31 - 1) d)
  let t := { t with ofs := BitVec.ofInt 32 sat,
                    near := if d.natAbs ≤ 20 then some (t.near.getD t.elapsedNs) else none }
  if 1000000 < d then { t with steps := t.steps + d.toNat, slew := 0 }
  else { t with slew := d * (Config.unitsPerNs : Int) }

/-- TSTAT.LOCK: every offset measured over the last second was within 20 ns. -/
def Time.locked (t : Time) : Bool := t.near.any fun since => since + 1000000000 ≤ t.elapsedNs

/-- TCTL_WRITE: the reserved source is ignored. Free-running, TIME is not corrected, and no offset is measured. -/
def State.setTctl (s : State) (v : W64) : State :=
  if v.setWidth 2 = 3#2 then s
  else
    let t := { s.time with src := v.setWidth 2, port := v.extractLsb' 8 5 }
    { s with time := if t.src = 0 then { t with slew := 0, near := none } else t }
def execTctlWrite (v : W64) (s : State) : Out := .next (s.setTctl v)

/-- TSET_WRITE: host time is taken as an offset measurement where the host is the source. -/
def State.setTset (s : State) (v : W64) : State :=
  if s.time.src = 1 then
    ({ s with time := s.time.measure ((v.toNat : Int) - ((s.time.elapsedNs + s.time.steps : Nat) : Int)) } : State).rouse
  else s
def execTsetWrite (v : W64) (s : State) : Out := .next (s.setTset v)

/-- PTP_EXCHANGE: over the named port, where the fabric is the source and the link is up. -/
def execPtpExchange (offset : Int) (s : State) : Out :=
  .next (if s.time.src = 2 && s.fab.portState s.time.port = 2 then
      ({ s with time := s.time.measure offset } : State).rouse
    else s)

/-! ### Translation invalidation (R272 to R274) -/

/-- GO: ignored while another is in progress, and for the reserved kind. -/
def State.startInvalidation (s : State) (kind : BitVec 2) (rid : BitVec 32) (va : W64) : State :=
  if s.mgmt.tiJob.isSome || kind = 3 then s
  else s.modMgmt fun m => { m with tiJob := some (kind, rid, va &&& 0x0000FFFFFFFF0000) }

/-- The write of TIADDR, and of TICTL with or without GO. -/
def State.setTiaddr (s : State) (v : W64) : State := s.modMgmt fun m => { m with tiaddr := v &&& 0x0000FFFFFFFF0000 }
def State.setTictl (s : State) (v : W64) : State :=
  let kind := v.extractLsb' 2 2
  let rid := v.extractLsb' 32 32
  let s := s.rouse.modMgmt fun m => { m with tikind := kind, tiregion := rid }
  if v.getLsbD 0 then s.startInvalidation kind rid s.mgmt.tiaddr else s

/-- TICTL as the rows write it. -/
def tictlWord (kind : Nat) (rid : BitVec 32) : W64 := BitVec.ofNat 64 (rid.toNat * 2 ^ 32 + kind * 4 + 1)

def execTlbInvalidatePage (va : W64) (rid : BitVec 32) (s : State) : Out :=
  .next ((s.setTiaddr va).setTictl (tictlWord 0 rid))
def execTlbInvalidateRegion (rid : BitVec 32) (s : State) : Out := .next (s.setTictl (tictlWord 1 rid))
def execTlbInvalidateAll (s : State) : Out := .next (s.setTictl (tictlWord 2 0))

/-- Whether an invalidation covers a held translation: for KIND 0, that of the page of any size that contains VA. -/
def Trans.covered (t : Trans) (j : BitVec 2 × BitVec 32 × W64) : Bool :=
  match j.1.toNat with
  | 0 => t.rid = j.2.1 && t.has j.2.2.toNat
  | 1 => t.rid = j.2.1
  | _ => true

/-- Whether an access of a region at an address may have used a translation that an invalidation covers: for KIND 0, a page of
1 GiB, the largest, could hold both addresses (log entry 113). -/
def usedCovered (j : BitVec 2 × BitVec 32 × W64) (rid : BitVec 32) (va : Nat) : Bool :=
  match j.1.toNat with
  | 0 => rid = j.2.1 && va % 2 ^ 48 / 2 ^ 30 = j.2.2.toNat % 2 ^ 48 / 2 ^ 30
  | 1 => rid = j.2.1
  | _ => true

/-- INVALIDATION_COMPLETE: no covered translation is held, and every store that used one has performed. -/
def execInvalidationComplete (s : State) : Out :=
  match s.mgmt.tiJob with
  | none => .next s
  | some j =>
    let used := (s.core :: s.cores).any fun c => c.flight.any fun f =>
      space f.addr = 2 && usedCovered j f.ctx.rid f.addr.toNat
    if used then .next s
    else
      let s := { s with trans := s.trans.filter fun t => !t.covered j }
      .next (s.modMgmt fun m => { m with tiJob := none, tiDone := true })

/-- The host pages of 4 KiB that an ATS invalidation covers. -/
def HostPage.covered (p : HostPage) (pasid : BitVec 20) (addr size : Nat) : Bool :=
  p.pasid = pasid && addr < (p.page + 1) * 4096 && p.page * 4096 < addr + size

/-- Whether a store in flight has used a host page under a PASID that an invalidation covers (R274). -/
def State.hostUsed (s : State) (pasid : BitVec 20) (addr size : Nat) (f : Flight) : Bool :=
  space f.addr = 3 && s.pasidOf f.ctx.rid = pasid &&
    ({ pasid := pasid, page := bits f.addr.toNat 56 0 / 4096, to_ := none } : HostPage).covered pasid addr size

/-- ATS_INVALIDATION: the host's tables have changed. It completes when every store that used a covered translation has
performed, and no covered one is held then (R273, R274; log entry 88). -/
def execAtsInvalidation (pasid : BitVec 20) (addr : W64) (size : Nat) (s : State) : Out :=
  let a := bits addr.toNat 56 0
  if (s.core :: s.cores).any fun c => c.flight.any (s.hostUsed pasid a size) then .next s
  else
    .next (s.modMgmt fun m =>
      { m with ats := m.ats.filter fun p => !p.covered pasid a size, hostGen := m.hostGen + 1 })

/-! ### The host's commands (R345) -/

/-- Event 1: the result of a command. -/
def resultEvent (tag : W32) (rid : BitVec 32) (code : Nat) : HostEvent :=
  (1, BitVec.ofNat 64 (tag.toNat * 2 ^ 32 + rid.toNat), BitVec.ofNat 64 (code * 2 ^ 56), 0)

/-- The next entry of the command queue: tag, whether it is well-formed but for its OP's argument, OP and argument. -/
structure HostCmd where
  tag : W32
  clean : Bool
  op : Nat
  arg : W64

def State.nextCmd (s : State) : Option HostCmd :=
  let q := s.mgmt.hcq
  if !q.enabled || q.head = q.tail || s.boot.fwerr then none
  else (s.ringKey q q.head Access.load).map fun k =>
    let w (i : Nat) : Nat := s.peek64 (k + 8 * i)
    { tag := BitVec.ofNat 32 (bits (w 0) 63 32), op := bits (w 0) 7 0, arg := BitVec.ofNat 64 (w 1),
      clean := bits (w 0) 31 8 = 0 && (List.range 6).all fun i => w (2 + i) = 0 }

/-- HEAD passes the entry. -/
def State.tookCmd (s : State) : State := s.modMgmt fun m => { m with hcq := { m.hcq with head := m.hcq.head + 1 } }

/-- The next command, where it has an OP; a malformed entry returns 0x80. -/
def State.hostCmd (s : State) (mine : Nat → Bool) (good : HostCmd → Bool) (run : State → HostCmd → State) : Out :=
  match s.nextCmd with
  | none => .next s
  | some c =>
    if !mine c.op then .next s
    else if c.clean && good c then .next (run s.tookCmd c)
    else .next (s.tookCmd.post (resultEvent c.tag 0 0x80))

/-- The block of a LAUNCH command is read under MPASID. -/
def State.hostBlock (s : State) (c : HostCmd) : Option Nat :=
  (s.hostXlate s.mgmt.mpasid (bits c.arg.toNat 56 0) Access.both).toOption

def goodLaunch (c : HostCmd) : Bool := mem23 c.arg 256 && space c.arg = 3

/-- LAUNCH with the host root as parent. It waits while a walk of the block's save areas is held (R190). -/
def execHostCmdLaunch (s : State) : Out :=
  if s.nextCmd.any fun c => c.op = 1 && c.clean && goodLaunch c && (s.hostBlock c).any (s.blockHeld none) then .next s
  else
    s.hostCmd (· = 1) goodLaunch fun s c =>
      let k := s.hostBlock c
      let d := s.tryLaunch { parent := none, tag := c.tag } c.arg k
      let rid := if d.1 = 0 then ((d.2.regions.find? fun r => some r.bkey = k).map (·.rid)).getD 0 else 0
      d.2.post (resultEvent c.tag rid d.1)

/-- STOP. The result of one whose region does not live names the id asked for (log entry 116). -/
def execHostCmdStop (s : State) : Out :=
  s.hostCmd (· = 2) (fun c => bits c.arg.toNat 63 32 = 0) fun s c =>
    let rid := c.arg.setWidth 32
    if (s.region? rid).isSome then (s.stopRegion rid 0x10).post (resultEvent c.tag rid 0)
    else s.post (resultEvent c.tag rid 0x81)

/-- NOP, and every entry whose OP is none. -/
def execHostCmdNop (s : State) : Out :=
  s.hostCmd (fun op => op ≠ 1 && op ≠ 2) (fun c => c.op = 3) fun s c => s.post (resultEvent c.tag 0 0)

/-! ### BOOTST (R360) -/

/-- The package is idle (R355). -/
def State.isIdle (s : State) : Bool :=
  (s.allCtxs.all fun c => (c.sch.life = .none || c.sch.life = .saved || c.sch.life = .held || c.sch.life = .retired) &&
      c.running = []) &&
    (s.core :: s.cores).all fun c => c.saving.isNone && c.chans.all fun h => h.owner.isNone

def State.requestWarm (s : State) : State :=
  if s.isIdle then { s with boot := { s.boot with wreq := true, phase := 1 } } else s
def State.requestTransport (s : State) : State := { s with boot := { s.boot with tflag := true } }

def execWarmStartRequest (s : State) : Out := .next s.requestWarm
def execTransportRequest (s : State) : Out := .next s.requestTransport

/-! ### BAR0 writes (R342, R344) -/

def putAssoc {α : Type} (k : Nat) (v : α) (l : List (Nat × α)) : List (Nat × α) := (k, v) :: l.filter fun x => x.1 ≠ k

/-- Registers that act only on an 8-byte write. -/
def State.writeFull (s : State) (off : Nat) (v : W64) : Option State :=
  match off with
  | 0x0018 => some (s.setPreq v)
  | 0x0300 => some (s.setTiaddr v)
  | 0x0308 => some (s.setTictl v)
  | 0x0400 => some (s.setHcqb v)
  | 0x0420 => some (s.setEvqb v)
  | 0x0608 => some (s.setTset v)
  | _ =>
    if 0x20000 ≤ off && off < 0x28000 then
      some { s with fab := { s.fab with rat := putAssoc ((off - 0x20000) / 8) (v &&& 0xE00000FFFFFFF000) s.fab.rat } }
    else none

/-- Fields in bits [31:0] of the register at an offset. -/
def State.writeLow (s : State) (off : Nat) (v : W64) : State :=
  match off with
  | 0x0000 => s.setDevid v
  | 0x0010 => s.setTherm v
  | 0x0020 => s.modMgmt fun m => { m with mpasid := v.setWidth 20 }
  | 0x0310 => s.modMgmt fun m => { m with tiDone := m.tiDone && !v.getLsbD 1 }
  | 0x0408 => s.setHcqt (v.setWidth 32)
  | 0x0430 => s.setEvqh (v.setWidth 32)
  | 0x0500 => s.setGrant v
  | 0x0600 => s.setTctl v
  | 0x0700 =>
    let s := if v.getLsbD 9 then s.requestTransport else s
    if v.getLsbD 8 then s.requestWarm else s
  | _ => if 0x1100 ≤ off && off < 0x1100 + 8 * 18 then s.setEnable (BitVec.ofNat 5 ((off - 0x1100) / 8)) (v.getLsbD 0) else s

/-- Fields in bits [63:32] of the register at an offset; v holds them in its bits [31:0]. -/
def State.writeHigh (s : State) (off : Nat) (v : W32) : State :=
  if off = 0x0428 then s.modMgmt fun m => { m with evq := { m.evq with lost := m.evq.lost && !v.getLsbD 31 } }
  else if 0x1000 ≤ off && off < 0x1000 + 8 * 18 then
    s.modPort (BitVec.ofNat 5 ((off - 0x1000) / 8)) fun x =>
      { x with rtr := v.extractLsb' 16 16, repl := v.extractLsb' 0 16 }
  else s

/-- A route-table entry (R332). -/
def State.writeRtab (s : State) (off : Nat) (v : W32) : State :=
  if 0x10000 ≤ off && off < 0x14000 then
    ({ s with fab := { s.fab with rtab := putAssoc ((off - 0x10000) / 4) (v &&& 0xC0001F1F) s.fab.rtab } } : State).reroute none
  else s

/-- A write of BAR0: naturally aligned, of 4 or 8 bytes; others are unsupported and change nothing. -/
def State.writeBar (s : State) (off size : Nat) (v : W64) : State :=
  if (size ≠ 4 && size ≠ 8) || off % size ≠ 0 then s
  else if size = 8 then
    match s.writeFull off v with
    | some s => s
    | none =>
      (((s.writeLow off v).writeHigh off (v.extractLsb' 32 32)).writeRtab off (v.setWidth 32)).writeRtab (off + 4)
        (v.extractLsb' 32 32)
  else if off % 8 = 0 then (s.writeLow off (zext (v.setWidth 32 : W32))).writeRtab off (v.setWidth 32)
  else (s.writeHigh (off - 4) (v.setWidth 32)).writeRtab off (v.setWidth 32)

/-- REGISTER_WRITE. -/
def execRegisterWrite (off : BitVec 24) (size : Nat) (v : W64) (s : State) : Out := .next (s.writeBar off.toNat size v)

/-! ### BAR0 reads (R342, R344): a read changes nothing -/

def cat64 (hi lo : Nat) : W64 := BitVec.ofNat 64 (hi * 2 ^ 32 + lo % 2 ^ 32)

/-- SEAMST: two bits a core, 32 cores a word (R267). -/
def State.seamWord (s : State) (w : Nat) : W64 :=
  BitVec.ofNat 64 ((List.range 32).foldl (fun acc i => acc + (s.seamState (32 * w + i)).toNat * 4 ^ i) 0)

/-- RTAB: two entries a word (R332). -/
def State.rtabWord (s : State) (i : Nat) : W64 :=
  cat64 (assocD 0 (2 * i + 1) s.fab.rtab).toNat (assocD 0 (2 * i) s.fab.rtab).toNat

/-- BOOTST (R360). -/
def State.bootst (s : State) : W64 :=
  let b := s.boot
  BitVec.ofNat 64 ((if b.fwerr then 2 ^ 11 else 0) + (if b.tflag then 2 ^ 10 else 0) + b.kind.toNat * 16 + b.phase.toNat)

/-- The 64-bit register at an offset; an offset that no register occupies, and a write-only field, read zero. -/
def State.register (s : State) (off : Nat) : W64 :=
  let m := s.mgmt
  match off with
  | 0x0000 => zext m.devid
  | 0x0008 => s.boot.geow
  | 0x0010 => BitVec.ofNat 64 (m.trel.toNat * 256 + m.thot.toNat)
  | 0x0020 => zext m.mpasid
  | 0x0300 => m.tiaddr
  | 0x0308 => cat64 m.tiregion.toNat (m.tikind.toNat * 4)
  | 0x0310 => BitVec.ofNat 64 ((if m.tiDone then 2 else 0) + (if m.tiJob.isSome then 1 else 0))
  | 0x0400 => m.hcq.base
  | 0x0408 => zext m.hcq.tail
  | 0x0410 => zext m.hcq.head
  | 0x0420 => m.evq.base
  | 0x0428 => cat64 (if m.evq.lost then 2 ^ 31 else 0) m.evq.tail.toNat
  | 0x0430 => zext m.evq.head
  | 0x0500 => zext s.power.level
  | 0x0510 => s.power.hkmeter.value
  | 0x0518 => s.power.pkge.value
  | 0x0600 => BitVec.ofNat 64 (s.time.port.toNat * 256 + s.time.src.toNat)
  | 0x0610 => cat64 (if s.time.locked then 2 ^ 31 else 0) s.time.ofs.toNat
  | 0x0700 => s.bootst
  | _ =>
    if 0x0100 ≤ off && off < 0x0220 then s.seamWord ((off - 0x0100) / 8)
    else if 0x1000 ≤ off && off < 0x1000 + 8 * 18 then
      let p := s.fab.ports.toList.getD ((off - 0x1000) / 8) {}
      cat64 (p.rtr.toNat * 2 ^ 16 + p.repl.toNat) p.state.toNat
    else if 0x1100 ≤ off && off < 0x1100 + 8 * 18 then
      BitVec.ofNat 64 (if (s.fab.ports.toList.getD ((off - 0x1100) / 8) {}).en then 1 else 0)
    else if 0x10000 ≤ off && off < 0x14000 then s.rtabWord ((off - 0x10000) / 8)
    else if 0x20000 ≤ off && off < 0x28000 then assocD 0 ((off - 0x20000) / 8) s.fab.rat
    else 0

/-- A read of BAR0: naturally aligned, of 4 or 8 bytes; others complete as Unsupported Request, shown as none. -/
def State.readBar (s : State) (off size : Nat) : Option W64 :=
  if (size ≠ 4 && size ≠ 8) || off % size ≠ 0 then none
  else if size = 8 then some (s.register off)
  else if off % 8 = 0 then some (s.register off &&& 0xFFFFFFFF)
  else some (s.register (off - 4) >>> 32)

/-- HOST_LINK_CHANGE: the link comes up or goes, an error is reported through AER (R342), or the host writes the latencies of the
latency tolerance capability (R355). -/
def execHostLinkChange (up : Option Bool) (report : Option LinkReport) (s : State) : Out :=
  let s := s.modMgmt fun m => { m with linkUp := up.getD m.linkUp }
  match report with
  | none => .next s
  | some (.error u) => .next (s.modMgmt fun m => { m with aer := m.aer ++ [u] })
  | some (.tolerance a b) => .next { s with power := { s.power with ltrSnoop := a, ltrNoSnoop := b } }

end Sys2Proof.Machine
end

