-- ==== Sys2Proof/Machine/Boot.lean ====
section
/-!
DEFINITION. Supply, idle states, starts and identity (R351 to R362): droop, supply loss and the retention of pool images,
cold and warm starts, the warm resume, and the SPDM responder.
-/

namespace Sys2Proof.Machine

/-- An event without fields. -/
def bareEvent (ty : Nat) : HostEvent := (BitVec.ofNat 64 ty, 0, 0, 0)

/-! ### Droop (R351) -/

/-- DROOP_ONSET: one that begins during a droop extends it. -/
def execDroopOnset (s : State) : Out :=
  let on := s.power.droop
  let s := { s with power := { s.power with droop := true, droopAt := s.time.elapsedNs } }
  .next (if on then s else s.restretch.post (bareEvent 17))

/-- The droop is over, and event 18 marks its end. -/
def State.clearDroop (s : State) : State :=
  if s.power.droop then (({ s with power := { s.power with droop := false } } : State).restretch.post (bareEvent 18)) else s

/-- DROOP_END: the input has stayed above the threshold for 1 ms. During a supply loss it does not end (R352). -/
def execDroopEnd (s : State) : Out :=
  .next (if !s.power.lossOn && s.power.droopAt + 1000000 ≤ s.time.elapsedNs then s.clearDroop else s)

/-! ### Supply loss (R352) -/

/-- SUPPLY_LOSS: requests for every resident and dormant context; one that has landed and waits for its core ranks by it (R322). -/
def execSupplyLoss (s : State) : Out :=
  if s.power.lossOn then .next s
  else
    let s := ({ s with power := { s.power with lossOn := true, lossAt := s.time.elapsedNs, retained := false } } : State).restretch
    let s := if s.mgmt.linkUp then s.post (bareEvent 19) else s
    .next (s.allCtxs.foldl (fun s c => s.request c.id .supplyLoss) s)

/-- The core whose seam keeps a core's pool image (R352): its own, or for a retired seam the partner that the start assigned,
while its seam is full. -/
def State.imageHome (s : State) (core : Nat) : Option Nat :=
  if s.seamState core ≠ 2 then some core
  else (s.boot.partners.find? fun p => p.1 = core).bind fun p => if s.seamState p.2 = 0 then some p.2 else none

/-- A dirty line of a core goes home as the supply goes, or is lost with an event. -/
def State.saveLine (s : State) (l : Line) : State :=
  let remote := l.key / 2 ^ 60 = 4 && devOf (BitVec.ofNat 64 l.key) ≠ s.mgmt.devid
  let lost := if l.key / 2 ^ 60 = 3 then !s.mgmt.linkUp
    else remote && (s.fab.route (devOf (BitVec.ofNat 64 l.key)) 0).out.isNone
  if l.dirty = 0 then s
  else if lost then s.post (5, 0, 0, l.va)
  else if remote then (s.send (devOf (BitVec.ofNat 64 l.key)) (.store (BitVec.ofNat 64 l.key) l.data l.dirty)).2
  else
    match (if l.key / 2 ^ 60 = 4 then s.remoteKey s.mgmt.devid l.key Access.store else some l.key) with
    | some k => (s.pokeLine k l.data l.dirty).recordLine k l.mark
    | none => s.post (5, 0, 0, l.va)

/-- The stores in flight and the dirty lines of a core reach their homes. -/
def State.quiesce (s : State) (core : Nat) : State :=
  let fl := (s.coreAt core).flight.filter fun f => f.sent.isNone
  let s := fl.foldl (fun s f => s.performFlight core f) s
  let ls := (s.coreAt core).cache
  let s := ls.foldl (fun s l => s.saveLine l) s
  s.putCore { (s.coreAt core) with cache := [] }

/-- Contexts that are lost where they stand 8 ms after the loss began. -/
def Life.isLost : Life → Bool
  | .pending | .resident | .dormant | .saving | .retiring => true
  | _ => false

/-- The core whose pool a key names; none for other keys. -/
def poolCore (k : Nat) : Option Nat := if k / 2 ^ 60 = 1 then some (k % 2 ^ 60 / 2 ^ 32) else none

/-- POOL_IMAGE_RETENTION: 8 ms after a supply loss began the images are written, and the supply goes (R352). -/
def execPoolImageRetention (s : State) : Out :=
  if !s.power.lossOn || s.power.retained || s.time.elapsedNs < s.power.lossAt + 8000000 then .next s
  else
    let nums := (s.core :: s.cores).map fun c => c.num.toNat
    let s := nums.foldl (fun s n => s.quiesce n) s
    let kept (k : Nat) : Bool := (poolCore k).any fun n => (s.imageHome n).isSome
    let images := (s.core :: s.cores).filter fun c => (s.imageHome c.num.toNat).isSome
    let lost := (s.allCtxs.filter fun c => c.sch.life.isLost).map (·.id)
    .next { s with power := { s.power with retained := true },
                   boot := { s.boot with images := images, lost := lost, phase := 0, imageMem := s.mem.filter fun c => kept c.1,
                                         imageBad := s.bad.filter fun u => kept (u * 8) } }

/-! ### Idle states (R355) -/

/-- The deepest state whose exit latency a tolerance, the lesser of the two latencies of the capability, in nanoseconds allows. -/
def idleFor (tol : Nat) : BitVec 2 := if 1500000 ≤ tol then 3 else if 60000 ≤ tol then 2 else if 2000 ≤ tol then 1 else 0

def execIdleEntry (s : State) : Out :=
  .next (if s.isIdle then { s with power := { s.power with idle := idleFor (min s.power.ltrSnoop s.power.ltrNoSnoop) } } else s)
def execIdleExit (s : State) : Out := .next s.rouse

/-! ### Seam states and the geometry word (R267) -/

/-- The state of a seam after a start that finds `found`, where it stood in `old` and some of its channels are marked as failing: a
full seam gives up to four, and a narrowed one, which has four, none (log entry 112). -/
def seamAfter (old found : BitVec 2) (marks : Nat) : BitVec 2 :=
  let st := if found = 3 then 2 else found
  if marks = 0 then st else if old = 0 && marks ≤ 4 then (if st = 0 then 1 else st) else 2

/-- Seam states after a start, by core. -/
def newSeams (before found : List (Nat × BitVec 2)) (failing : List (Nat × BitVec 3)) : List (Nat × BitVec 2) :=
  (List.range Config.cores).filterMap fun n =>
    let st := seamAfter (assocD 0 n before) (assocD 0 n found) (failing.filter fun f => f.1 = n).length
    if st = 0 then none else some (n, st)

/-- A core whose seam a start has retired gets a partner: the lowest core of its cluster with a full seam that is no partner yet
(R352). -/
def addPartner (seams : List (Nat × BitVec 2)) (l : List (Nat × Nat)) (core : Nat) : List (Nat × Nat) :=
  let all := (List.range 48).map fun i => 48 * clusterOf core + i
  match all.find? fun n => (assocD (0 : BitVec 2) n seams) = 0 && !l.any fun p => p.2 = n with
  | some n => l ++ [(core, n)]
  | none => l

/-- The partners after a start: those of seams that stay retired, and of the newly retired ones in rising order. -/
def newPartners (old : List (Nat × Nat)) (before after : List (Nat × BitVec 2)) : List (Nat × Nat) :=
  let retired (l : List (Nat × BitVec 2)) (n : Nat) : Bool := (assocD (0 : BitVec 2) n l) = 2
  ((List.range Config.cores).filter fun n => retired after n && !retired before n).foldl (addPartner after)
    (old.filter fun p => retired after p.1)

/-- A warm start only retires or narrows. -/
def worstSeams (a b : List (Nat × BitVec 2)) : List (Nat × BitVec 2) :=
  (List.range Config.cores).filterMap fun n =>
    let st : BitVec 2 := if (assocD (0 : BitVec 2) n a).toNat < (assocD (0 : BitVec 2) n b).toNat then assocD 0 n b
      else assocD 0 n a
    if st = 0 then none else some (n, st)

/-- The geometry word of an array, with GEN raised where the array changes. -/
def geoWord (old : W64) (before after : List (Nat × BitVec 2)) : W64 :=
  let gen := bits old.toNat 63 32 + (if before = after then 0 else 1)
  let count (st : BitVec 2) : Nat := (after.filter fun x => x.2 = st).length
  BitVec.ofNat 64 (gen % 2 ^ 32 * 2 ^ 32 + count 2 * 2 ^ 11 + count 1)

/-! ### Starts (R353, R359 to R361) -/

/-- The last steps of a start that verified: an extended one posts its result, and clears the flag only if it passes. -/
def State.finishStart (s : State) (kind : BitVec 4) (r : StartReport) (seams : List (Nat × BitVec 2)) : State :=
  let geow := geoWord s.boot.geow s.boot.seams seams
  let ext := s.boot.tflag
  let k : BitVec 4 := if ext then 3 else kind
  let f := s.anyBits 256
  let g := f.2.anyBits 256
  let boot : Boot :=
    { s.boot with seams := seams, geow := geow, partners := newPartners s.boot.partners s.boot.seams seams, failing := [],
                  fwerr := false, kind := k, phase := 15, wreq := false, images := [], imageMem := [], imageBad := [],
                  lost := [], fwDigest := f.1, mgmtDigest := g.1,
                  tflag := ext && !r.testsOk }
  let s := { g.2 with boot := boot }
  let s := if ext then s.post (21, 0, (if r.testsOk then 0 else BitVec.ofNat 64 (2 ^ 56)), geow) else s
  s.post (16, 0, BitVec.ofNat 64 (k.toNat * 2 ^ 56), 0)

/-- Whether a firmware image may run: its signature verifies, and its version is not below the fused counter (R361). -/
def Boot.runs (b : Boot) (r : StartReport) : Bool := r.sigOk && b.rollback.toNat ≤ r.version

/-- Firmware that does not verify does not run (R361): the start stands at its first step (log entry 111). -/
def State.firmwareError (s : State) : State := { s with boot := { s.boot with fwerr := true, phase := 1, wreq := false } }

/-- Cells of host memory: they outlive every start. -/
def hostCells (m : List Host.Cell) : List Host.Cell := m.filter fun c => c.1 / 2 ^ 60 = 3
/-- Cells outside the pools. -/
def outsidePool (m : List Host.Cell) : List Host.Cell := m.filter fun c => c.1 / 2 ^ 60 ≠ 1

/-- Ports that are enabled train (R353). -/
def Fabric.train (f : Fabric) (now : Nat) : Fabric :=
  { f with ports := f.ports.map fun p => if p.en then { p with state := 1, since := now } else p }

/-- COLD_START: everything is as after reset; host memory, the transport flag, the fused counter, what GEN is counted from and, where
the firmware does not run, the marks of failing channels stay. -/
def execColdStart (r : StartReport) (s : State) : Out :=
  let b := { State.reset with mem := hostCells s.mem, bad := s.bad.filter (fun u => u * 8 / 2 ^ 60 = 3), agenda := s.agenda,
                              nfree := s.nfree, boot := { State.reset.boot with
                                tflag := s.boot.tflag, failing := s.boot.failing, geow := s.boot.geow, seams := s.boot.seams, partners := s.boot.partners,
                                rollback := s.boot.rollback } }
  if !s.boot.runs r then .next b.firmwareError
  else
    let b := { b with fab := b.fab.train 0 }
    .next (b.finishStart 0 r (newSeams s.boot.seams r.seams s.boot.failing))

/-- A core after a warm start: the reset map; what the scheduler keeps for it stays. -/
def Core.warm (c : Core) : Core :=
  { Core.reset c.num with grants := c.grants, arrivals := c.arrivals, cycle := c.cycle, clock := c.clock }

/-- Banks of a core are calibrated again, but for those whose temperature has stayed within 8 °C of their calibration (R233,
R359). A bank that is not listed has that of the cold start; `none` says that no calibration of the core is stored. -/
def State.recalibrate (s : State) (core : Nat) (stored : Option (List Cal)) : State :=
  let t := s.bankTemp core
  let cals := stored.getD []
  let kept := cals.filter fun c => !c.stray
  let todo := if stored.isNone then List.range 32
    else if s.boot.strayed.contains (columnOf core) then (List.range 32).filter fun j => !kept.any fun c => c.bank = j
    else (cals.filter fun c => c.stray).map (·.bank)
  let r := todo.foldl (fun (r : List Cal × State) j =>
    let f := r.2.anyBits 2048
    (r.1 ++ [{ bank := j, offsets := f.1, at_ := t }], f.2)) (kept, s)
  let c := r.2.coreAt core
  r.2.putCore { c with pool := { c.pool with cals := r.1 } }

/-- WARM_START on the host's request. -/
def execWarmStart (r : StartReport) (s : State) : Out :=
  if !s.boot.wreq then .next s
  else if !s.boot.runs r then .next s.firmwareError
  else
    let old := s.core :: s.cores
    let s := (old.map fun c => c.num.toNat).foldl (fun s n => s.quiesce n) s
    let s := { s with core := s.core.warm, cores := s.cores.map Core.warm, mem := outsidePool s.mem,
                      bad := s.bad.filter fun u => u * 8 / 2 ^ 60 ≠ 1, trans := [] }
    let s := old.foldl (fun s c => s.recalibrate c.num.toNat (some c.pool.cals)) s
    .next (s.finishStart 1 r (worstSeams s.boot.seams (newSeams s.boot.seams r.seams s.boot.failing)))

/-- Regions that owned banks of a core, held a grant on it or had a context saved from it (R353). -/
def State.tiedTo (s : State) (c : Core) (r : Region) : Bool :=
  (c.ownedBy r.rid ≠ []) || (c.grantOf r.rid).isSome ||
    s.allCtxs.any fun x => x.id.rid = r.rid && x.sch.lastCore = some c.num && x.sch.life.inArea

/-- Event 20: a lost context. -/
def lostEvent (id : CtxId) : HostEvent := (20, BitVec.ofNat 64 (id.num.toNat * 2 ^ 32 + id.rid.toNat), 0, 0)

/-- Memory with the bytes of the images in place of the pools. -/
def State.imaged (s : State) : List Host.Cell := s.boot.imageMem.foldl (fun m c => writeRun m c.1 [c.2]) (outsidePool s.mem)

/-- A core as the resume finds it: its image, or the reset map. -/
def State.resumed (s : State) (c : Core) : Core :=
  match s.boot.images.find? fun i => i.num = c.num with
  | some i => { i with cache := [], flight := [], saving := none, chans := c.chans, sigs := [] }
  | none => { Core.reset c.num with cycle := c.cycle, clock := c.clock }

/-- WARM_RESUME: a warm start, then every core's image; lost contexts and cores stop their regions. -/
def execWarmResume (r : StartReport) (s : State) : Out :=
  if !s.power.lossOn || !s.power.retained then .next s
  else if !s.boot.runs r then .next s.firmwareError
  else
    let old := s.core :: s.cores
    let kept (n : Nat) : Bool := s.boot.images.any fun i => i.num.toNat = n
    let gone := old.filter fun c => !kept c.num.toNat
    let bare := (List.range Config.cores).filter fun n => !kept n && (s.imageHome n).isNone
    let lost := s.boot.lost
    let stop := (s.regions.filter fun g =>
      (lost.any fun i => i.rid = g.rid) || gone.any fun c => s.tiedTo c g).map (·.rid)
    let s := { s with
      core := s.resumed s.core, cores := s.cores.map s.resumed,
      mem := s.imaged, bad := s.boot.imageBad ++ s.bad.filter (fun u => u * 8 / 2 ^ 60 ≠ 1),
      trans := [], power := { s.power with lossOn := false, retained := false } }
    let s := s.restretch.clearDroop
    let s := (s.core :: s.cores).foldl (fun s c =>
      if bare.contains c.num.toNat then s else s.recalibrate c.num.toNat (some c.pool.cals)) s
    let s := bare.foldl (fun s n => s.recalibrate n none) s
    let s := s.fab.out.foldl (fun s p => s.failRequest p) s
    let s := { s with fab := s.fab.train s.time.elapsedNs }
    let s := s.mapCtx (fun c => lost.contains c.id) Ctx.end_
    let s := stop.foldl (fun s g => s.stopRegion g 0x10) s
    let s := lost.foldl (fun s i => s.post (lostEvent i)) s.freeAllRetired
    .next (s.finishStart 2 r (worstSeams s.boot.seams (newSeams s.boot.seams r.seams s.boot.failing)))

/-- SHOCK_LATCH: above 40 g while unpowered, which is before a start and after a supply loss (R360). -/
def execShockLatch (milliG : Nat) (s : State) : Out :=
  .next (if s.boot.phase = 0 && 40000 < milliG then s.requestTransport else s)

/-! ### The SPDM responder (R362): its answers, newest first -/

def State.spdmAnswer (s : State) (x : SpdmAnswer) : State := { s with boot := { s.boot with spdm := x :: s.boot.spdm } }

/-- Bytes whose number and contents the manual leaves open. -/
def State.anyBytes (s : State) : List Byte × State := (Config.freeBytes s.nfree, { s with nfree := s.nfree + 1 })

def execGetVersion (s : State) : Out := .next (s.spdmAnswer (.version 1 3))

def execGetCapabilities (s : State) : Out := let f := s.anyBytes; .next (f.2.spdmAnswer (.capabilities f.1))

def execNegotiateAlgorithms (s : State) : Out := .next (s.spdmAnswer (.algorithms .slhDsaShake256s .shake256))

/-- The single slot 0: the digest of its chain, and the chain. -/
def execGetDigests (s : State) : Out := .next (s.spdmAnswer (.digests Config.chainDigest))
def execGetCertificate (s : State) : Out := .next (s.spdmAnswer (.certificate Config.certChain))

/-- A signature, with the device identity key, over the challenge's nonce. -/
def execChallenge (nonce : BitVec 256) (s : State) : Out :=
  let f := s.anyBytes
  .next (f.2.spdmAnswer (.challenge nonce f.1))

/-- Indices 1 to 3; others measure nothing. -/
def execGetMeasurements (idx : Nat) (s : State) : Out :=
  .next (s.spdmAnswer (match idx with
    | 1 => .firmware s.boot.fwDigest
    | 2 => .firmware s.boot.mgmtDigest
    | 3 => .counters s.boot.rollback s.boot.geow
    | _ => .nothing))

end Sys2Proof.Machine
end

