-- ==== Sys2Proof/Machine/Geometry.lean ====
section
/-!
DEFINITION. Geometry (R157 to R175): GSET and GIDX, and the predicates with their filter, refine and exact stages. Results
are written at the commit of the slot and can be read when the instruction completes (R155, R168, R173).
-/

namespace Sys2Proof.Machine

/-! ### Filling a slot (R158, R159) -/

/-- Lane i of a coordinate vector. -/
def lane (v : VWord) (i : Nat) : Nat := elem 64 v.toNat i

/-- A coordinate widened to FP64; a NaN keeps its sign and payload and becomes quiet. -/
def widen (t : BitVec 4) (a : Nat) : Nat :=
  if t = 0xB then (if isNan fmt64 a then quiet fmt64 a else a) else (fpCvt fmt64 fmt32 .rne a).1

/-- The guard of lane i of a slot. -/
def State.laneOn (s : State) (pg : R5) (i : Nat) : Bool := act (s.rdP pg) 64 i

/-- The source element of lane i: the h-th half of a vector of 32-bit elements. -/
def laneSrc (wide : Bool) (h i : Nat) : Nat := if wide then i else 32 * h + i

/-- A coordinate vector after a guarded write. -/
def State.fillLanes (s : State) (o : VR) (old : VWord) (f : Nat → Nat) : VWord :=
  BitVec.ofNat 2048 (tabulate 64 32 fun i =>
    if s.laneOn o.pg i then f i else if o.zm = 1 then 0 else lane old i)

/-- Active lanes whose source element is poisoned. -/
def State.poisonLanes (s : State) (o : VR) (wide : Bool) (h : Nat) (regs : List R6) : List Nat :=
  (List.range 32).filter fun i => s.laneOn o.pg i && regs.any fun r => s.psE r o.t (laneSrc wide h i)

/-- GSET and GIDX: operand and poison traps, then the write of the slot. Where several apply, the order is illegal operand,
poisoned guard, which marks no lane, poisoned sources (log entry 97). -/
def State.fillSlot (s : State) (o : VR) (wide : Bool) (regs : List R6) (f : Nat → GSlot → GSlot) : Out :=
  let h := o.fx.toNat / 2
  let bad := s.poisonLanes o wide h regs
  if wide && h ≠ 0 then s.trap cIllegalOperand
  else if s.psP o.pg then s.trap cPoison
  else if bad ≠ [] then s.trap cPoison 0 ((bad.map fun i => 2 ^ i).sum)
  else
    let n := o.vd.toNat
    .next ((s.modRegs fun r => { r with g := r.g.setIfInBounds n (f h ((r.g[n]?).getD {})) }).pend (.g n) 2 false)

def execGset (o : VR) (s : State) : Out :=
  let wide := o.t = 0xB
  let xy := o.fx.getLsbD 0
  s.fillSlot o wide (if xy then [o.va, o.vb] else [o.va, o.vb, o.vc]) fun h g =>
    let src (r : R6) (i : Nat) : Nat := widen o.t (s.rdE r o.t (laneSrc wide h i))
    { g with x := s.fillLanes o g.x (src o.va), y := s.fillLanes o g.y (src o.vb),
             z := s.fillLanes o g.z (fun i => if xy then 0 else src o.vc i) }

def execGidx (o : VR) (s : State) : Out :=
  let wide := o.t = 0x7
  s.fillSlot o wide [o.va] fun h g => { g with idx := s.fillLanes o g.idx fun i => s.rdE o.va o.t (laneSrc wide h i) }

/-! ### Exact arithmetic: coordinates as integers in units of 2^-1074 -/

/-- A finite FP64 value in units of 2^-1074. -/
def unitsOf (a : Nat) : Int :=
  match decodeVal fmt64 a with
  | .fin n p q => let v : Int := (p * 2 ^ 1074 / q : Nat); if n then -v else v
  | _ => 0

/-- A row of a matrix without one column. -/
def dropAt (j : Nat) (l : List α) : List α := l.take j ++ l.drop (j + 1)

/-- The determinant of an n × n matrix, along its first row. -/
def detI : Nat → List (List Int) → Int
  | 0, _ => 1
  | _ + 1, [] => 1
  | n + 1, row :: rest =>
    ((List.range (n + 1)).map fun j =>
      (if j % 2 = 0 then 1 else -1) * row.getD j 0 * detI n (rest.map (dropAt j))).sum

/-- The sign of an integer as −1, 0 or 1. -/
def sgn (x : Int) : Int := if x < 0 then -1 else if x = 0 then 0 else 1

/-! ### The filter (R164) -/

/-- A value of the filter stage; `bad` once a rounding on the way has overflowed, come out tiny, or lost a nonzero value. -/
structure FV where
  v : Val
  bad : Bool
  exact : Bool
deriving DecidableEq, Repr

/-- Magnitude below 2^-1022. -/
def belowNormal (v : Val) : Bool := fracLt (magOf v) (1, 2 ^ 1022)

/-- One rounding to FP64. -/
def fRound (m : RMode) (bad : Bool) (x : Option Val) : FV :=
  match x with
  | some y =>
    let r := roundTo fmt64 m false y
    let v := decodeVal fmt64 r.1
    { v := v, exact := r.2 = 0,
      bad := bad || notFinite v || r.2 &&& fOF ≠ 0 || ((magOf v).1 ≠ 0 && belowNormal v) ||
        ((magOf v).1 = 0 && (magOf y).1 ≠ 0) }
  | none => { v := .fin false 0 1, bad := true, exact := false }

def fAdd (m : RMode) (a b : FV) : FV := fRound m (a.bad || b.bad) (addVal m a.v b.v)
def fSub (m : RMode) (a b : FV) : FV := fRound m (a.bad || b.bad) (addVal m a.v (negVal b.v))
def fMul (m : RMode) (a b : FV) : FV := fRound m (a.bad || b.bad) (mulVal a.v b.v)
def fAbs (a : FV) : FV := if isNeg a.v then { a with v := negVal a.v } else a
def fZero : FV := { v := .fin false 0 1, bad := false, exact := true }

/-- fdet of R164 with its subtraction as a parameter: perm replaces it by addition and rounds up. -/
def fdet (m : RMode) (sub : FV → FV → FV) : Nat → List (List FV) → FV
  | n + 1, row :: rest =>
    match n with
    | 1 =>
      let r2 := rest.headD []
      sub (fMul m (row.getD 0 fZero) (r2.getD 1 fZero)) (fMul m (row.getD 1 fZero) (r2.getD 0 fZero))
    | _ =>
      (List.range (n + 1)).foldl (fun acc j =>
        let t := fMul m (row.getD j fZero) (fdet m sub n (rest.map (dropAt j)))
        if j % 2 = 0 then fAdd m acc t else sub acc t) fZero
  | _, _ => fZero

/-- A point of a lane: its coordinates as patterns, and its index. -/
structure Pt where
  x : Nat
  y : Nat
  z : Nat
  idx : Nat
deriving DecidableEq, Repr

def Pt.coords (three : Bool) (p : Pt) : List Nat := if three then [p.x, p.y, p.z] else [p.x, p.y]

/-- The rounded differences of a point from the last. -/
def diffs (three : Bool) (p e : Pt) : List FV :=
  ((p.coords three).zip (e.coords three)).map fun c =>
    fRound .rne false (addVal .rne (decodeVal fmt64 c.1) (negVal (decodeVal fmt64 c.2)))

/-- The lifted entry: the rounded squares summed left to right. -/
def lifted (d : List FV) : FV :=
  match d.map fun x => fMul .rne x x with
  | [] => fZero
  | q :: qs => qs.foldl (fAdd .rne) q

/-- The shape of a determinant: whether it reads Z, whether it has a lifted column, and n. -/
structure Shape where
  three : Bool
  lift : Bool
  n : Nat
  cf : Nat
deriving DecidableEq, Repr

def shGor2 : Shape := ⟨false, false, 2, 50⟩
def shGor3 : Shape := ⟨true, false, 3, 49⟩
def shGinc : Shape := ⟨false, true, 3, 48⟩
def shGins : Shape := ⟨true, true, 4, 47⟩

/-- The rows of D: the differences, and the entries the filter uses. -/
def rowsD (sh : Shape) (pts : List Pt) : List (List FV × List FV) :=
  match pts.getLast? with
  | none => []
  | some e => pts.dropLast.map fun p =>
      let d := diffs sh.three p e
      (d, if sh.lift then d ++ [lifted d] else d)

/-- The filter's answer: a sign where it resolves the lane. -/
def filterStage (sh : Shape) (rows : List (List FV × List FV)) : Option Int :=
  let D := rows.map (·.2)
  let det := fdet .rne (fSub .rne) sh.n D
  let perm := fdet .rup (fAdd .rup) sh.n (D.map fun r => r.map fAbs)
  let B := fRound .rup perm.bad (mulVal (.fin false 1 (2 ^ sh.cf)) perm.v)
  if det.bad || B.bad then none
  else if fracLt (magOf B.v) (magOf det.v) then some (if isNeg det.v then -1 else 1)
  else none

/-- Whether refine resolves the lane (R165). -/
def refines (rows : List (List FV × List FV)) : Bool :=
  rows.all fun r => r.1.all fun d =>
    d.exact && !notFinite d.v &&
      ((magOf d.v).1 = 0 || (!fracLt (magOf d.v) (1, 2 ^ 190) && !fracLt (2 ^ 190, 1) (magOf d.v)))

/-! ### The exact value and its perturbation (R160, R166, R170) -/

/-- The row of M of a point, with integer entries: x, y, z in units of 2^-1074 and w in the unit's square. -/
def rowM (sh : Shape) (p : Pt) : List Int :=
  let c := (p.coords sh.three).map unitsOf
  c ++ (if sh.lift then [(c.map fun x => x * x).sum] else []) ++ [1]

/-- Λ up to a positive factor. -/
def lambda (sh : Shape) (pts : List Pt) : Int := detI (sh.n + 1) (pts.map (rowM sh))

/-- The entries of a term by its value (R170): pairs of row and column, numbered from zero. -/
def termEntries (n v : Nat) : List (Nat × Nat) :=
  ((List.range (n * (n + 1))).filter fun b => v.testBit b).map fun b => (b / n, n - 1 - b % n)

/-- At most one entry in each row and each column. -/
def termOk (es : List (Nat × Nat)) : Bool := (es.map (·.1)).Nodup && (es.map (·.2)).Nodup

/-- The coefficient of a term: rows replaced by unit rows. -/
def coefficient (n : Nat) (M : List (List Int)) (es : List (Nat × Nat)) : Int :=
  detI (n + 1) ((List.range (n + 1)).map fun j =>
    match es.find? fun e => e.1 = j with
    | some e => (List.range (n + 1)).map fun c => if c = e.2 then 1 else 0
    | none => M.getD j [])

/-- The value of the last term, the diagonal, whose coefficient is +1 (R171). -/
def lastTerm (n : Nat) : Nat := ((List.range n).map fun j => 2 ^ (n * j + (n - 1 - j))).sum

/-- The sign of the first nonzero coefficient in increasing order of value. -/
def perturbed (n : Nat) (M : List (List Int)) : Int :=
  match (List.range (lastTerm n + 1)).find? fun v =>
      let es := termEntries n v
      termOk es && coefficient n M es ≠ 0 with
  | some v => sgn (coefficient n M (termEntries n v))
  | none => 1

/-- Insertion of a point by increasing index, with the number of exchanges. -/
def insertPt (p : Pt) : List Pt → List Pt × Nat
  | [] => ([p], 0)
  | q :: qs =>
    if p.idx < q.idx then (p :: q :: qs, 0)
    else let r := insertPt p qs; (q :: r.1, r.2 + 1)

/-- The points by increasing index, and the sign of the reordering. -/
def sortPts (l : List Pt) : List Pt × Int :=
  l.foldr (fun p acc => let r := insertPt p acc.1; (r.1, if r.2 % 2 = 0 then acc.2 else -acc.2)) ([], 1)

/-! ### One lane -/

/-- What a lane's evaluation gives: result, zero bit, escalations, whether it reached exact, whether it left the filter, and
whether its indices were equal. -/
structure LaneRes where
  r : Int
  zb : Bool
  esc : Nat
  left : Bool
  exactStage : Bool
  deg : Bool := false
deriving DecidableEq, Repr

/-- A determinant through the stages (R164 to R167, R169); none where fast-only mode leaves it unresolved. -/
def stages (sh : Shape) (fast : Bool) (pts : List Pt) : Option LaneRes :=
  let rows := rowsD sh pts
  match filterStage sh rows with
  | some r => some { r := r, zb := false, esc := 0, left := false, exactStage := false }
  | none =>
    if fast then none
    else
      let x := lambda sh pts
      let ref := refines rows
      some { r := sgn x, zb := x = 0, esc := if ref then 1 else 2, left := true, exactStage := !ref }

/-- A lane of an orientation, in-circle or in-sphere test in its mode (R169, R170). -/
def evalDet (sh : Shape) (md : Nat) (pts : List Pt) : LaneRes :=
  match stages sh (md = 1) pts with
  | none => { r := 2, zb := false, esc := 0, left := false, exactStage := false }
  | some q =>
    if md = 2 && q.zb then
      if !(pts.map (·.idx)).Nodup then { q with r := 0, deg := true }
      else
        let o := sortPts pts
        { q with r := o.2 * perturbed sh.n (o.1.map (rowM sh)), esc := 2, exactStage := true }
    else q

/-- Lexicographic order of points in the plane. -/
def ptLt (a b : Pt) : Bool :=
  unitsOf a.x < unitsOf b.x || (unitsOf a.x = unitsOf b.x && unitsOf a.y < unitsOf b.y)
def ptEq (a b : Pt) : Bool := unitsOf a.x = unitsOf b.x && unitsOf a.y = unitsOf b.y
def ptMin (a b : Pt) : Pt := if ptLt b a then b else a
def ptMax (a b : Pt) : Pt := if ptLt a b then b else a

/-- The result of GSEG from the four orientation signs (R161). -/
def segResult (p q r t : Pt) (o1 o2 o3 o4 : Int) : Int :=
  if o1 * o2 < 0 && o3 * o4 < 0 then 1
  else if o1 = 0 && o2 = 0 && o3 = 0 && o4 = 0 then
    let lo := ptMax (ptMin p q) (ptMin r t)
    let hi := ptMin (ptMax p q) (ptMax r t)
    if ptLt hi lo then 0 else if ptEq lo hi then 2 else 3
  else if o1 * o2 ≤ 0 && o3 * o4 ≤ 0 then 2
  else 0

/-- A lane of GSEG. -/
def evalSeg (md : Nat) (pts : List Pt) : LaneRes :=
  match pts with
  | [p, q, r, t] =>
    let os := [[p, q, r], [p, q, t], [r, t, p], [r, t, q]].map (stages shGor2 (md = 1))
    match os with
    | [some a, some b, some c, some d] =>
      { r := segResult p q r t a.r b.r c.r d.r, zb := a.zb || b.zb || c.zb || d.zb,
        esc := a.esc + b.esc + c.esc + d.esc, left := a.left || b.left || c.left || d.left,
        exactStage := a.exactStage || b.exactStage || c.exactStage || d.exactStage }
    | _ => { r := 2, zb := false, esc := 0, left := false, exactStage := false }
  | _ => { r := 0, zb := false, esc := 0, left := false, exactStage := false }

/-! ### The instruction (R163, R168, R172) -/

/-- Point of lane i of a slot, as the bundle finds it. -/
def State.pt (s : State) (g : R3) (i : Nat) : Pt :=
  let q := (s.pre.r.g[g.toNat]?).getD {}
  { x := lane q.x i, y := lane q.y i, z := lane q.z i, idx := lane q.idx i }

/-- A lane with an infinite or NaN coordinate among those the predicate reads. -/
def nonFinite (three : Bool) (pts : List Pt) : Bool :=
  pts.any fun p => (p.coords three).any fun c => notFinite (decodeVal fmt64 c)

/-- The time of the lanes that reach exact: each takes a free time of at most `top` cycles (R168). -/
def State.exactTime (s : State) (top : Nat) : Nat → Nat × State
  | 0 => (0, s)
  | k + 1 =>
    let f := s.anyNat
    let r := State.exactTime f.2 top k
    (f.1 % (top + 1) + r.1, r.2)

/-- A predicate instruction over the slots of `gs`. Its counts, GNF and GDEG enter the registers at commit; an MTC of GESC or
STATUS that issues while it is outstanding is not held and overwrites or clears them (log entry 98). -/
def State.predicate (s : State) (o : VG) (three : Bool) (gs : List R3) (top : Nat) (eval : List Pt → LaneRes) : Out :=
  let on := (List.range 32).filter (s.laneOn o.pg)
  let pts (i : Nat) : List Pt := gs.map fun g => s.pt g i
  let bad := on.filter fun i => nonFinite three (pts i)
  if o.nf = 1 && bad ≠ [] then s.trap cGeometry 0 ((bad.map fun i => 2 ^ i).sum)
  else
    let res := on.map fun i => (i, if bad.contains i then none else some (eval (pts i)))
    let good := res.filterMap (·.2)
    let val (i : Nat) : Option (Int × Bool) := (res.find? fun x => x.1 = i).map fun x => match x.2 with
      | some q => (q.r, q.zb)
      | none => (-2, false)
    let t := s.exactTime top (good.filter (·.exactStage)).length
    let lat := if good.any (·.exactStage) then 52 + t.1 else if good.any (·.left) then 52 else 12
    let s := t.2
    let s := s.wrE o.vd 64 lat fun i => (val i).map fun x => (wrapN 64 x.1, s.psP o.pg)
    let pv := mergeP 64 (s.curP o.pd) fun i => (val i).map (·.2)
    let s := s.wrP o.pd pv (s.psP o.pg) lat
    let s := s.modCtl fun c =>
      { c with gnf := c.gnf || bad ≠ [], gdeg := c.gdeg || good.any (·.deg),
               gesc := c.gesc + BitVec.ofNat 64 ((good.map (·.esc)).sum) }
    .next ((s.pend .geo lat false).modCore fun c => { c with geoUntil := c.cycle + lat })

/-- The exact-stage bound by mode (R168). -/
def exactTop (md0 md2 : Nat) (md : BitVec 2) : Nat := if md = 2 then md2 else md0

def execGor2 (o : VG) (s : State) : Out :=
  s.predicate o false [o.ga, o.gb, o.gc] (exactTop 120 200 o.md) (evalDet shGor2 o.md.toNat)
def execGor3 (o : VG) (s : State) : Out :=
  s.predicate o true [o.ga, o.gb, o.gc, o.ge] (exactTop 400 1100 o.md) (evalDet shGor3 o.md.toNat)
def execGinc (o : VG) (s : State) : Out :=
  s.predicate o false [o.ga, o.gb, o.gc, o.ge] (exactTop 600 1600 o.md) (evalDet shGinc o.md.toNat)
def execGins (o : VG) (s : State) : Out :=
  s.predicate o true [o.ga, o.gb, o.gc, o.ge, o.gh] (exactTop 2400 9000 o.md) (evalDet shGins o.md.toNat)
def execGseg (o : VG) (s : State) : Out :=
  s.predicate o false [o.ga, o.gb, o.gc, o.ge] 480 (evalSeg o.md.toNat)

end Sys2Proof.Machine
end

