-- ==== Sys2Proof/Machine/Slots.lean ====
section
/-!
DEFINITION. The meaning of what a slot holds: that of its row (R57 to R69). The rows of the matrix and the engine class are
run from their row and fields (log entry 1).
-/

namespace Sys2Proof.Machine

/-- A row of the matrix class. -/
def execMat (m : MOp) (o : FM) (s : State) : Out :=
  match m with
  | .mcfg => execMcfg o s
  | .mfmt => execMfmt o s
  | .mgoFix => execMgoFix o s
  | .mgoLoop => execMgoLoop o s
  | .mldw => execMldw o s
  | .mrdz => execMrdz o s
  | .mrdb => execMrdb o s
  | .mcal => execMcal o s
  | .mzclr => execMzclr o s
  | .mav => execMav o s
  | .msig => execMsig o s

/-- A row of the engine class. -/
def execEng (e : EOp) (o : FE) (s : State) : Out :=
  match e with
  | .cpy => execCpy o s
  | .cpy2 => execCpy2 o s
  | .cpy3 => execCpy3 o s
  | .cpyxScale => execCpyxScale o s
  | .cpyxAdd => execCpyxAdd o s
  | .cpyxCast => execCpyxCast o s
  | .cpyxRadd => execCpyxRadd o s
  | .cpyxRmax => execCpyxRmax o s
  | .cpyh => execCpyh o s
  | .fcpy => execFcpy o s
  | .mxredStart => execMxredStart o s
  | .mxredRelay => execMxredRelay o s
  | .mxredFinish => execMxredFinish o s
  | .rsig => execRsig o s
  | .esig => execEsig o s
  | .pmap => execPmap o s
  | .pmq => execPmq o s
  | .launch => execLaunch o s

/-- A row of the scalar, control, vector or memory class; an event stands in no slot. -/
def execOp (i : Instr) (s : State) : Out :=
  match i with
  | .add d a b => execAdd d a b s
  | .sub d a b => execSub d a b s
  | .and d a b => execAnd d a b s
  | .or d a b => execOr d a b s
  | .xor d a b => execXor d a b s
  | .andn d a b => execAndn d a b s
  | .shl d a b => execShl d a b s
  | .shr d a b => execShr d a b s
  | .sar d a b => execSar d a b s
  | .rol d a b => execRol d a b s
  | .mul d a b => execMul d a b s
  | .mulh d a b => execMulh d a b s
  | .mulhn d a b => execMulhn d a b s
  | .div d a b => execDiv d a b s
  | .divn d a b => execDivn d a b s
  | .rem d a b => execRem d a b s
  | .remn d a b => execRemn d a b s
  | .min d a b => execMin d a b s
  | .max d a b => execMax d a b s
  | .minn d a b => execMinn d a b s
  | .maxn d a b => execMaxn d a b s
  | .clz d a => execClz d a s
  | .popc d a => execPopc d a s
  | .addImm d a imm => execAddImm d a imm s
  | .subImm d a imm => execSubImm d a imm s
  | .andImm d a imm => execAndImm d a imm s
  | .orImm d a imm => execOrImm d a imm s
  | .xorImm d a imm => execXorImm d a imm s
  | .andnImm d a imm => execAndnImm d a imm s
  | .shlImm d a k => execShlImm d a k s
  | .shrImm d a k => execShrImm d a k s
  | .sarImm d a k => execSarImm d a k s
  | .rolImm d a k => execRolImm d a k s
  | .mulImm d a imm => execMulImm d a imm s
  | .mulhImm d a imm => execMulhImm d a imm s
  | .mulhnImm d a imm => execMulhnImm d a imm s
  | .divImm d a imm => execDivImm d a imm s
  | .divnImm d a imm => execDivnImm d a imm s
  | .remImm d a imm => execRemImm d a imm s
  | .remnImm d a imm => execRemnImm d a imm s
  | .minImm d a imm => execMinImm d a imm s
  | .maxImm d a imm => execMaxImm d a imm s
  | .minnImm d a imm => execMinnImm d a imm s
  | .maxnImm d a imm => execMaxnImm d a imm s
  | .cmpEq d a b => execCmpEq d a b s
  | .cmpNe d a b => execCmpNe d a b s
  | .cmpLt d a b => execCmpLt d a b s
  | .cmpGe d a b => execCmpGe d a b s
  | .cmpLtn d a b => execCmpLtn d a b s
  | .cmpGen d a b => execCmpGen d a b s
  | .cmpEqImm d a imm => execCmpEqImm d a imm s
  | .cmpNeImm d a imm => execCmpNeImm d a imm s
  | .cmpLtImm d a imm => execCmpLtImm d a imm s
  | .cmpGeImm d a imm => execCmpGeImm d a imm s
  | .cmpLtnImm d a imm => execCmpLtnImm d a imm s
  | .cmpGenImm d a imm => execCmpGenImm d a imm s
  | .fadd d a b t m => execFadd d a b t m s
  | .fsub d a b t m => execFsub d a b t m s
  | .fmul d a b t m => execFmul d a b t m s
  | .fdiv d a b t m => execFdiv d a b t m s
  | .fsqrt d a t m => execFsqrt d a t m s
  | .fmin d a b t => execFmin d a b t s
  | .fmax d a b t => execFmax d a b t s
  | .fcmpEq d a b t => execFcmpEq d a b t s
  | .fcmpLt d a b t => execFcmpLt d a b t s
  | .fcmpLe d a b t => execFcmpLe d a b t s
  | .fcmpUn d a b t => execFcmpUn d a b t s
  | .cvtif d a t m u => execCvtif d a t m u s
  | .cvtfi d a t m u => execCvtfi d a t m u s
  | .cvtff d a t m u => execCvtff d a t m u s
  | .fmaF64 d a b c => execFmaF64 d a b c s
  | .fmaF32 d a b c => execFmaF32 d a b c s
  | .pand d a b => execPand d a b s
  | .por d a b => execPor d a b s
  | .pxor d a b => execPxor d a b s
  | .pandn d a b => execPandn d a b s
  | .pcmpEq d a b => execPcmpEq d a b s
  | .pcmpNe d a b => execPcmpNe d a b s
  | .pcmpLt d a b => execPcmpLt d a b s
  | .pcmpGe d a b => execPcmpGe d a b s
  | .pcmpLtn d a b => execPcmpLtn d a b s
  | .pcmpGen d a b => execPcmpGen d a b s
  | .movi d imm => execMovi d imm s
  | .movk d h k => execMovk d h k s
  | .addpc d imm => execAddpc d imm s
  | .pbr b off => execPbr b off s
  | .pbrr b a => execPbrr b a s
  | .br b pg => execBr b pg s
  | .brn b pg => execBrn b pg s
  | .call b pg => execCall b pg s
  | .chk b pg a => execChk b pg a s
  | .loop a off => execLoop a off s
  | .loopi n off => execLoopi n off s
  | .mfc d sel spc => execMfc d sel spc s
  | .mtc a sel spc => execMtc a sel spc s
  | .mtcRng a => execMtcRng a s
  | .mtcTrpb a => execMtcTrpb a s
  | .mtcTrpc a => execMtcTrpc a s
  | .mtcFpf a => execMtcFpf a s
  | .mtcFerec a => execMtcFerec a s
  | .mtcStatus a => execMtcStatus a s
  | .twait a sco tl all => execTwait a sco tl all s
  | .barArrive d id sco => execBarArrive d id sco s
  | .barWait a id sco => execBarWait a id sco s
  | .cut id => execCut id s
  | .prio c => execPrio c s
  | .trap code => execTrap code s
  | .tret rt p tb ra => execTret rt p tb ra s
  | .vadd o => execVadd o s
  | .vsub o => execVsub o s
  | .vadds o => execVadds o s
  | .vsubs o => execVsubs o s
  | .vmul o => execVmul o s
  | .vmulh o => execVmulh o s
  | .vmad o => execVmad o s
  | .vmin o => execVmin o s
  | .vmax o => execVmax o s
  | .vabs o => execVabs o s
  | .vneg o => execVneg o s
  | .vand o => execVand o s
  | .vor o => execVor o s
  | .vxor o => execVxor o s
  | .vandn o => execVandn o s
  | .vshl o => execVshl o s
  | .vshr o => execVshr o s
  | .vpopc o => execVpopc o s
  | .vclz o => execVclz o s
  | .vmov o => execVmov o s
  | .vaddS o => execVaddS o s
  | .vsubS o => execVsubS o s
  | .vaddsS o => execVaddsS o s
  | .vsubsS o => execVsubsS o s
  | .vmulS o => execVmulS o s
  | .vmulhS o => execVmulhS o s
  | .vmadS o => execVmadS o s
  | .vminS o => execVminS o s
  | .vmaxS o => execVmaxS o s
  | .vandS o => execVandS o s
  | .vorS o => execVorS o s
  | .vxorS o => execVxorS o s
  | .vandnS o => execVandnS o s
  | .vshlS o => execVshlS o s
  | .vshrS o => execVshrS o s
  | .vfadd o => execVfadd o s
  | .vfsub o => execVfsub o s
  | .vfmul o => execVfmul o s
  | .vfma o => execVfma o s
  | .vfnma o => execVfnma o s
  | .vfdiv o => execVfdiv o s
  | .vfsqrt o => execVfsqrt o s
  | .vfmin o => execVfmin o s
  | .vfmax o => execVfmax o s
  | .vfaddS o => execVfaddS o s
  | .vfsubS o => execVfsubS o s
  | .vfmulS o => execVfmulS o s
  | .vfmaS o => execVfmaS o s
  | .vfnmaS o => execVfnmaS o s
  | .vfdivS o => execVfdivS o s
  | .vfminS o => execVfminS o s
  | .vfmaxS o => execVfmaxS o s
  | .vfrcp o => execVfrcp o s
  | .vfrsq o => execVfrsq o s
  | .vfexp2 o => execVfexp2 o s
  | .vflog2 o => execVflog2 o s
  | .vcmp o => execVcmp o s
  | .vfcmp o => execVfcmp o s
  | .vcmpS o => execVcmpS o s
  | .vfcmpS o => execVfcmpS o s
  | .vsel o => execVsel o s
  | .vbcst o => execVbcst o s
  | .vcvt o => execVcvt o s
  | .vqnt o => execVqnt o s
  | .vqntScale o => execVqntScale o s
  | .vdqnt o => execVdqnt o s
  | .vxch o => execVxch o s
  | .vperm o => execVperm o s
  | .vcomp o => execVcomp o s
  | .vexp o => execVexp o s
  | .vsld o => execVsld o s
  | .vrsum o => execVrsum o s
  | .vrmax o => execVrmax o s
  | .vrmin o => execVrmin o s
  | .vrfsum o => execVrfsum o s
  | .vrfmax o => execVrfmax o s
  | .gset o => execGset o s
  | .gidx o => execGidx o s
  | .gor2 o => execGor2 o s
  | .gor3 o => execGor3 o s
  | .ginc o => execGinc o s
  | .gins o => execGins o s
  | .gseg o => execGseg o s
  | .ldI8 o => execLdI8 o s
  | .ldN8 o => execLdN8 o s
  | .ldI16 o => execLdI16 o s
  | .ldN16 o => execLdN16 o s
  | .ldI32 o => execLdI32 o s
  | .ldN32 o => execLdN32 o s
  | .ldI64 o => execLdI64 o s
  | .stN8 o => execStN8 o s
  | .stN16 o => execStN16 o s
  | .stN32 o => execStN32 o s
  | .stN64 o => execStN64 o s
  | .ldsI32 o => execLdsI32 o s
  | .ldsN32 o => execLdsN32 o s
  | .ldsI64 o => execLdsI64 o s
  | .ldaN32 o => execLdaN32 o s
  | .ldaI64 o => execLdaI64 o s
  | .stlN32 o => execStlN32 o s
  | .stlN64 o => execStlN64 o s
  | .aadd o => execAadd o s
  | .aand o => execAand o s
  | .aor o => execAor o s
  | .axor o => execAxor o s
  | .amin o => execAmin o s
  | .amax o => execAmax o s
  | .aswp o => execAswp o s
  | .acas o => execAcas o s
  | .vld o => execVld o s
  | .vst o => execVst o s
  | .vlds o => execVlds o s
  | .vsts o => execVsts o s
  | .vgth o => execVgth o s
  | .vsct o => execVsct o s
  | .pld o => execPld o s
  | .pst o => execPst o s
  | .drain o => execDrain o s
  | .clwb o => execClwb o s
  | .clinv o => execClinv o s
  | .clfl o => execClfl o s
  | .waita o => execWaita o s
  | .sown o => execSown o s
  | .srel o => execSrel o s
  | .sact o => execSact o s
  | .spre o => execSpre o s
  | .spreAll o => execSpreAll o s
  | .sref o => execSref o s
  | .sldx o => execSldx o s
  | .sstx o => execSstx o s
  | .blc => execBlc s
  | .lpop => execLpop s
  | .dorm => execDorm s
  | .exit => execExit s
  | _ => .next s

/-- What a slot holds runs. -/
def execSlot (x : Slot) (s : State) : Out :=
  match x with
  | .op i => execOp i s
  | .mat m o => execMat m o s
  | .eng e o => execEng e o s

end Sys2Proof.Machine
end

