-- ==== Sys2Proof/Machine/Issue.lean ====
section
/-!
DEFINITION. The issue stage: the next bundle of a context and its checks (R44 to R52), what keeps a bundle from issuing
(R53), the run of its slots (R10, R41), the transfer after them (R113, R114, R119), re-entry (R27, R131), the selection of a
primary and a partner (R54, R312), and a core's cycle.
-/

namespace Sys2Proof.Machine

/-! ### The next bundle (R44 to R52) -/

/-- A bundle: its address, header and length, and the values of its present slots with their numbers. -/
structure Bun where
  ba : W64
  hdr : Header
  len : Nat
  slots : List (Nat × Nat)
deriving DecidableEq, Repr

/-- What a slot value decodes to. -/
def decodeAt (x : Nat × Nat) : Except DecodeError Slot := decodeSlot (slotClass x.1) (x.1 == 3) x.2

/-- A TRET in a bundle with a slot above S2 is illegal (R131). -/
def tretBad (b : Bun) : Slot → Bool
  | .op (.tret _ _ _ _) => b.slots.any fun x => 2 < x.1
  | _ => false

/-- The instruction in a slot of a bundle; none where it is illegal (R51 step 4, R52). -/
def Bun.decode (b : Bun) (x : Nat × Nat) : Option Slot :=
  match decodeAt x with
  | .ok y => if tretBad b y then none else some y
  | .error _ => none

/-- The vector source fields of a slot with an assigned opcode: slot, port, register (R49). -/
def slotFields (x : Nat × Nat) : List (Nat × BitVec 3 × BitVec 6) :=
  match readSlot (slotClass x.1) (x.1 == 3) x.2 with
  | some r => r.1.vecSources.map fun f => (x.1, f.1, f.2)
  | none => []

/-- The lowest slot in a port failure (R50). -/
def Bun.badPort (b : Bun) : Option Nat :=
  let fs := b.slots.flatMap slotFields
  (fs.find? fun f => 6 ≤ f.2.1.toNat || fs.any fun g => g.2.1 = f.2.1 && g.2.2 ≠ f.2.2).map (·.1)

/-- The lowest S5 or S6 slot with a semaphore outside the grant (R60). -/
def State.badSem (s : State) (b : Bun) : Option Nat :=
  (b.slots.find? fun x =>
    (x.1 = 5 || x.1 = 6) && opcodeAssigned (slotClass x.1) (x.1 == 3) x.2 && !s.semsOk (readWaitSig x.2)).map (·.1)

/-- Steps 1 to 3 of R51 over a bundle at an address. SRES keeps its value. -/
def State.decodeCheck (s : State) (b : Bun) : Option Trap :=
  if b.hdr.rsv ≠ 0 || 64 < b.ba.toNat % 64 + b.len then some { cause := cIllegalBundle, slot := 0, sres := none }
  else
    match b.badPort with
    | some n => some { cause := cIllegalBundle, slot := n, sres := none }
    | none => (s.badSem b).map fun n => { cause := cSemRange, slot := n, sres := none }

/-- What the context acted on does next: nothing while the pads do not end, a trap of the bundle at an address, a bundle. -/
inductive NextBun where
  | none
  | trap (ba : W64) (t : Trap)
  | run (b : Bun)
deriving DecidableEq, Repr

/-- The bundle at an address that fetch has reached. -/
def State.bundleAt (s : State) (a : W64) (h : Nat) : NextBun :=
  let hd := readHeader h
  let len := bundleLength hd.mask
  match s.fetchPlace a with
  | .error d => .trap a { cause := cFetch, slot := 0, sres := Option.none, detail := d, faddr := a }
  | .ok (k, c) =>
    let b : Bun :=
      { ba := a, hdr := hd, len := len,
        slots := (slotValues (presentSlots hd.mask) ((s.fetchBytes k len c).drop 2)).getD [] }
    match s.decodeCheck b with
    | some t => .trap a t
    | Option.none => .run b

/-- The next bundle of the context acted on (R45, R46, R51). -/
def State.nextBundle (s : State) : NextBun :=
  match s.findBundle s.ctx.q.pc with
  | .held _ | .endless => .none
  | .fault a d => .trap a { cause := cFetch, slot := 0, sres := Option.none, detail := d, faddr := a }
  | .header a h => s.bundleAt a h

/-! ### Issuing (R10, R27, R41, R131) -/

/-- The lowest slot that runs: SRES suppresses the ones below it in a re-entered bundle (R27). -/
def Ctx.firstSlot (c : Ctx) : Nat := if c.q.reent.isSome then c.c.sres.toNat else 0

/-- The bundle holds a BLC that its run before a re-entry above slot 2 has committed: the boundary after it is a legal point (R27,
R323). -/
def Bun.closedLoop (b : Bun) (first : Nat) : Bool := 2 < first && b.slots.any fun x => x.1 = 2 && b.decode x = some (.op .blc)

/-- A bundle of the context acted on comes up: reads see the context as it stands now (R41). -/
def State.begin (s : State) (b : Bun) (ready : Bool) : State :=
  { s with pre := s.ctx,
           iss := { ba := b.ba, len := b.len, xfer := s.ctx.q.reent.join, rng := s.ctx.c.rng,
                    legal := b.hdr.ib || b.closedLoop s.ctx.firstSlot, ready := ready } }

/-- Slot instructions that read memory at commit (R282). -/
def instrReads : Instr → Bool
  | .ldI8 _ | .ldN8 _ | .ldI16 _ | .ldN16 _ | .ldI32 _ | .ldN32 _ | .ldI64 _ | .ldsI32 _ | .ldsN32 _ | .ldsI64 _
  | .ldaN32 _ | .ldaI64 _ | .aadd _ | .aand _ | .aor _ | .axor _ | .amin _ | .amax _ | .aswp _ | .acas _ | .vld _ | .vlds _
  | .vgth _ | .pld _ | .sldx _ => true
  | _ => false

def slotReads : Slot → Bool
  | .op i => instrReads i
  | _ => false

/-- Memory without the arrival of the own bundle. -/
def State.unarrive (s : State) (a : Arrived) : State :=
  { s with mem := writeRun s.mem a.key (toBytes 8 a.word.toNat),
           lineRecs := a.line.toList ++ s.lineRecs.filter fun r => r.key ≠ lineOf a.key,
           barRecs := a.bar :: s.barRecs.filter fun r => r.key ≠ a.key }

/-- An S7 read comes before the memory write of a BAR arrival in its own bundle (R282). -/
def State.execBefore (s : State) (y : Slot) : Out :=
  match s.iss.arrived with
  | none => execSlot y s
  | some a =>
    if slotReads y then
      match execSlot y (s.unarrive a) with
      | .next t => .next (t.arrive a.key a.sco)
      | o => o
    else execSlot y s

/-- The registers that an S6 row requires to be zero, set to zero in its fields (R196). -/
def clearZero (e : EOp) (o : FE) : FE :=
  match e with
  | .cpy | .cpy3 | .fcpy | .cpyxCast | .cpyxRadd | .cpyxRmax => { o with sd := 0 }
  | .mxredStart => { o with sc := 0 }
  | .rsig => { o with sd := 0, sc := 0 }
  | .launch => { o with sb := 0, sc := 0 }
  | .esig => { o with sd := 0, sa := 0, sb := 0, sc := 0 }
  | _ => o

/-- A poisoned register in an S6 slot that is illegal only for the registers it requires to be zero: it raises the poison-use trap
(R196; log entry 105). -/
def State.zeroPoison (s : State) (x : Nat × Nat) : Bool :=
  x.1 = 6 &&
    match readSlot .engine false x.2 with
    | some (.eng e o, rsv) => s.psE4 o && e.wf (clearZero e o) && rsv.all fun r => x.2 / 2 ^ r.1 % 2 ^ r.2 = 0
    | _ => false

/-- The instructions of slot 7 that write memory at commit. -/
def slotWrites : Slot → Bool
  | .op i =>
    match i with
    | .stN8 _ | .stN16 _ | .stN32 _ | .stN64 _ | .stlN32 _ | .stlN64 _ | .vst _ | .vsts _ | .vsct _ | .pst _ | .aadd _ | .aand _
    | .aor _ | .axor _ | .amin _ | .amax _ | .aswp _ | .acas _ => true
    | _ => false
  | _ => false

/-- Memory as the S7 access of the bundle leaves it, for a CPY3 in slot 6, which comes after it (R282). -/
def State.storedAhead (s : State) (b : Bun) (y : Slot) : Option (List Host.Cell) :=
  match y with
  | .eng .cpy3 _ =>
    match b.slots.find? fun x => x.1 = 7 with
    | none => none
    | some x =>
      match b.decode x with
      | none => none
      | some z =>
        if slotWrites z then
          match s.execBefore z with
          | .next t => if t.ctx.halted then none else some t.mem
          | _ => none
        else none
  | _ => none

/-- One slot of the bundle. Nothing runs once a slot has trapped, or waits for another device. The field checks cover the
suppressed slots too (R51). An S5 slot asks for the matrix holder before them, whatever its opcode (R67), when slot order has
reached it: the slots below have been checked and have committed (log entry 106). -/
def State.runSlot (s : State) (b : Bun) (x : Nat × Nat) : Out :=
  if s.ctx.halted then .next s
  else
    let s := s.modIss fun i => { i with slot := x.1 }
    if x.1 = 5 && !s.pre.c.mhold && s.pre.firstSlot ≤ 5 then s.trap cMatrixNotHeld
    else match b.decode x with
    | none =>
      if s.zeroPoison x && s.pre.firstSlot ≤ 6 then s.trap cPoison
      else .next (s.takeTrap { cause := cIllegalInstr, slot := x.1, sres := some x.1 })
    | some y =>
      if x.1 < s.pre.firstSlot then .next s
      else (s.modIss fun i => { i with later := s.storedAhead b y }).execBefore y

/-- Slots in slot order. -/
def State.runSlots (b : Bun) : List (Nat × Nat) → State → Out
  | [], s => .next s
  | x :: xs, s =>
    match s.runSlot b x with
    | .next t => State.runSlots b xs t
    | o => o

/-- The transfer of a bundle takes place, with its rotation and its stall (R113, R119); without one the PC moves on, past pads
(R46). -/
def State.advance (s : State) : State :=
  match s.iss.xfer with
  | some x =>
    let s := if x.rot then s.modCtl Ctl.rotate else s
    s.modSeq fun q => { q with pc := s.pastPads (asPc x.tgt), stallUntil := s.core.cycle + 1 + x.stall }
  | none => s.modSeq fun q => { q with pc := s.pastPads (asPc s.nextPc), stallUntil := s.core.cycle + 1 }

/-- Preparations as one more bundle has issued (R119). -/
def agePreps (v : Vector (Option Nat) 8) : Vector (Option Nat) 8 := v.map fun d => d.map (· + 1)

/-- Preparations after a bundle: TRET discards them (R119; log entry 99). -/
def Seqr.aged (q : Seqr) (discard : Bool) : Seqr :=
  if discard then { q with prep := Vector.replicate 8 none, cold := Vector.replicate 8 true } else { q with prep := agePreps q.prep }

/-- What stands after the commit: preparations, legal point, re-entry (R27, R119, R131, R323). -/
def State.settleSeq (s : State) : State :=
  s.modSeq fun q =>
    { q.aged s.iss.reent.isSome with legal := s.iss.legal, reent := s.iss.reent.map (·.2), counted := false, waitsOn := none }

/-- What the bundle that has committed does with its context: EXIT (true) or DORM in it, or in its run before a re-entry above
slot 2 (R128, R129). -/
def State.parting (s : State) : Option Bool :=
  let old := s.ctx.q.parting.bind fun p =>
    if p.1 = s.iss.ba && s.pre.q.reent.isSome && 2 < s.pre.firstSlot then some p.2 else none
  (s.iss.parting none).map (·.2) |>.orElse fun _ => old

/-- A context that has just become dormant is taken at once by a stop or a supply loss that it stood under; other requests are
dropped (R318, R320, R321). -/
def State.takeDormant (s : State) : State :=
  let h := s.ctx.sch
  if h.life ≠ .dormant then s
  else
    match (h.reqs ++ (if h.stopAt.isSome then [ReqKind.stop] else [])).find? fun k => k = .supplyLoss || k = .stop with
    | some k => s.startSave s.ctx.id k (h.stopAt.getD .saved)
    | none => s.modSched fun h => { h with reqs := [] }

/-- EXIT and DORM take effect (R128, R129). -/
def State.leave (s : State) : State :=
  match s.parting with
  | some true =>
    (s.modSeq fun q => { q with parting := none }).modSched fun h => { h with life := .retiring, reqs := [], stopAt := none }
  | some false =>
    let s := s.modSeq fun q => { q with parting := none }
    let q := s.freshSeq
    ((q.2.modSched fun h => { h with life := .dormant, dormAt := q.1 }).deliverOldest s.me s.rid).takeDormant
  | none => s

/-- A control target that R21 forbids; one with a bit of [59:48] set, which the PC cannot hold, is taken as outside the space and
meets the fetch fault at the transferring bundle (log entry 107). -/
def badTarget (x : Option Xfer) : Option W64 :=
  match x with
  | some t => if goodTarget t.tgt && spaceOk t.tgt then none else some t.tgt
  | none => none

/-- Every slot of the bundle has committed. -/
def State.finish (s : State) : State :=
  let s := if s.ctx.q.reent.isSome && !s.iss.sresSet then s.modCtl fun c => { c with sres := 0 } else s
  match badTarget s.iss.xfer with
  | some a => s.takeTrap { cause := cFetch, slot := 2, sres := none, ac := true, faddr := a }
  | none => s.advance.settleSeq.leave

/-- The bundle ends, unless a slot has trapped or waits for another device. -/
def State.finishIf (s : State) : State := if s.ctx.halted then s else s.finish

/-- A bundle that can issue, issues (R10). The PC names it, LIC its cycle (R312), and the translation of its line is held (R272). -/
def State.issue (s : State) (b : Bun) : Out :=
  let s := s.noteAddr b.ba
  let s := (s.begin b true).modSched fun h => { h with lic := (s.core.cycle : Int) }
  let s := s.modSeq fun q => { q with pc := b.ba }
  match State.runSlots b b.slots s with
  | .next t => .next t.finishIf
  | o => o

/-- A trap of the bundle that fetch or the decoder has found (R51). -/
def State.decodeTrap (s : State) (ba : W64) (t : Trap) : State :=
  let s := (s.modSeq fun q => { q with pc := ba }).modSched fun h => { h with lic := (s.core.cycle : Int) }
  ({ s with iss := { ba := ba, xfer := s.ctx.q.reent.join } } : State).takeTrap t

/-- EMPTY_BUNDLE: the context acted on issues an empty bundle (R46). -/
def execEmptyBundle (ib mi : Bool) (s : State) : Out :=
  if s.ctx.halted then .next s
  else s.issue { ba := s.ctx.q.pc, hdr := { mask := 0, mi := mi, ib := ib, rsv := 0 }, len := 2, slots := [] }

/-! ### Readiness (R53) -/

/-- What a context waits for whatever its next bundle is: its state, a taken transfer's stall (R119), another device's answer,
a DRAIN or a write-back (R186, R187), a trap that is to be entered (R261, R314), a request that lands here (R323). -/
def State.mayFetch (s : State) : Bool :=
  let c := s.ctx
  !c.halted && c.q.stallUntil ≤ s.core.cycle && c.q.guard = [] &&
    !((s.core :: s.cores).any fun k => k.flight.any fun f => c.q.drain.contains f.seq) && !(c.saveRank.isSome && c.atLegal)

/-- A geometry predicate (R173). -/
def isPredicate : Instr → Bool
  | .gor2 _ | .gor3 _ | .ginc _ | .gins _ | .gseg _ => true
  | _ => false

/-- The element type of a VFDIV or VFSQRT (R154). -/
def divType : Instr → Option (BitVec 4)
  | .vfdiv o | .vfdivS o | .vfsqrt o => some o.t
  | _ => none

/-- Whether a unit of the core holds a slot: the geometry unit (R173), a divider (R154). -/
def State.unitBusy (s : State) (n : Nat) (y : Slot) : Bool :=
  match y with
  | .op i =>
    (isPredicate i && s.core.cycle < s.core.geoUntil) ||
      (match divType i, vget s.core.divAt (n - 3) with
       | some t, some d => s.core.cycle < d + divRepeat t
       | _, _ => false)
  | _ => false

/-- A copy that a migration holds back (R308). -/
def State.heldByMove (s : State) (y : Slot) : Bool :=
  match y with
  | .eng e o => s.ctx.sch.target.isSome && eTimeline e = 0 && s.copiesHome s.ctx (s.readCmd e o)
  | _ => false

/-- Whether the wait of an S5 or S6 slot is not satisfied, whatever else the slot holds (R53, R60). -/
def State.waitHeld (s : State) (x : Nat × Nat) : Bool :=
  (x.1 = 5 || x.1 = 6) && opcodeAssigned (slotClass x.1) (x.1 == 3) x.2 && !s.waitOk (readWaitSig x.2)

/-- An SREL of the context has not completed, which holds its S7 slots (R262). -/
def State.releasing (s : State) : Bool := s.core.chans.any fun h => h.owner = some s.ctx.id && h.releasing

/-- Whether a slot of the bundle that has come up interlocks (R11, R53). -/
def State.slotHeld (s : State) (b : Bun) (x : Nat × Nat) : Bool :=
  (x.1 = 7 && s.releasing) ||
  match b.decode x with
  | none => false
  | some y => y.interlocked s.ctx s.core.cycle || s.unitBusy x.1 y || s.heldByMove y

/-- The slots that run (R27, R54). -/
def Bun.live (b : Bun) (first : Nat) : List (Nat × Nat) := b.slots.filter fun x => first ≤ x.1

/-- A slot is tried, for what only its own meaning knows: a wait, a full queue, a held access. -/
def State.trySlot (s : State) (b : Bun) (x : Nat × Nat) : Option State :=
  match b.decode x with
  | none => none
  | some y =>
    match execSlot y (s.modIss fun i => { i with slot := x.1 }) with
    | .next t => if t.iss.held then some { t with iss := {} } else none
    | _ => none

/-- The slots whose meanings can hold a bundle. -/
def mayHold (n : Nat) : Bool := n = 2 || 5 ≤ n

/-- The slots of a bundle that has come up whose own meaning holds it: the state that the first of them leaves. -/
def State.tries (s : State) (b : Bun) (first : Nat) : Option State :=
  ((b.live first).filter fun x => mayHold x.1).findSome? (s.trySlot b)

/-- The barrier at whose stalled wait the context stands, in the bundle that has come up, whatever else holds the bundle (R194,
R310). -/
def State.standsAt (s : State) (b : Bun) (first : Nat) : Option (BitVec 8) :=
  (b.live first).findSome? fun x =>
    match b.decode x with
    | some (.op (.barWait a id sco)) =>
      if !(Slot.interlocked s.ctx s.core.cycle (.op (.barWait a id sco))) && s.barWaitHeld a id then some id else none
    | _ => none

/-- Whether the bundle that comes next can issue in this cycle; the state notes what a bundle that waits has begun, and the barrier
whose wait it stands at. -/
def State.ready (s : State) : NextBun × State :=
  if s.ctx.halted then (.none, s)
  else
    match s.nextBundle with
    | .none => (.none, s)
    | .trap a t => (if s.mayFetch then .trap a t else .none, s)
    | .run b =>
      let first := s.ctx.firstSlot
      let s := s.modSeq fun q => { q with waitsOn := (s.begin b false).standsAt b first }
      let s' := s.begin b false
      if !s.mayFetch || (b.live first).any (s'.slotHeld b) then (.none, s)
      else
        match s'.tries b first with
        | some t => (.none, t)
        | none => (if (b.live first).any s'.waitHeld then .none else .run b, s)

/-! ### Selection (R54, R312) -/

/-- A context that can issue, with what orders it. -/
structure Cand where
  id : CtxId
  cls : Nat
  lic : Int
  bank : Nat
  next : NextBun
  first : Nat
deriving DecidableEq, Repr

/-- Whether a candidate comes before another. -/
def Cand.before (a b : Cand) : Bool :=
  b.cls < a.cls || (a.cls = b.cls && (a.lic < b.lic || (a.lic = b.lic && a.bank < b.bank)))

def insertCand (a : Cand) : List Cand → List Cand
  | [] => [a]
  | b :: bs => if a.before b then a :: b :: bs else b :: insertCand a bs

/-- The contexts that are resident on the core acted on. -/
def State.lodgers (s : State) : List CtxId :=
  (s.allCtxs.filter fun c => c.sch.life = .resident && c.core = s.core.num).map (·.id)

/-- What each of them can issue, with the state that their tries leave: what a stalled one waits for is noted (R194, R310). -/
def State.probe : List CtxId → State → List (CtxId × NextBun) × State
  | [], s => ([], s)
  | id :: rest, s =>
    match s.focus id with
    | none => State.probe rest s
    | some s1 =>
      let r := s1.ready
      let q := State.probe rest r.2
      ((id, r.1) :: q.1, q.2)

/-- A context that can issue as a candidate. -/
def State.cand (s : State) (x : CtxId × NextBun) : Option Cand :=
  match x.2, s.ctx? x.1 with
  | .none, _ => none
  | _, none => none
  | n, some c =>
    some { id := c.id, cls := s.classOf c, lic := c.sch.lic, bank := c.bank.toNat, next := n, first := c.firstSlot }

/-- The ready contexts in the order of R312, with the classes that stand once every context has been tried (R310). -/
def State.survey (ids : List CtxId) (s : State) : List Cand × State :=
  let r := State.probe ids s
  ((r.1.filterMap r.2.cand).foldr insertCand [], r.2)

/-- The effective mask and port set of a candidate (R54). -/
def Cand.slots (c : Cand) : List (Nat × Nat) :=
  match c.next with
  | .run b => b.live c.first
  | _ => []
def Cand.ports (c : Cand) : List (BitVec 3) := (c.slots.flatMap slotFields).map (·.2.1)
def Cand.merges (c : Cand) : Bool :=
  match c.next with
  | .run b => !b.hdr.mi
  | _ => false

/-- R54 for the bundles of two contexts. -/
def mergeable (p c : Cand) : Bool :=
  p.merges && c.merges && p.slots.all (fun x => c.slots.all fun y => x.1 ≠ y.1) && p.ports.all fun x => !c.ports.contains x

/-- A chosen context issues. -/
def State.issueCand (s : State) (c : Cand) : Out :=
  match s.focus c.id with
  | none => .next s
  | some s =>
    match c.next with
    | .none => .next s
    | .trap a t => .next (s.decodeTrap a t)
    | .run b => s.issue b

/-- In a merged cycle the partner's bundle counts for a context's preparations too (R119; log entry 99). -/
def State.agePartner (s : State) (id : CtxId) : State :=
  s.mapCtx (fun c => c.id = id) fun c => { c with q := { c.q with prep := agePreps c.q.prep } }

/-- Nothing that the primary has just done holds a partner's bundle: a release has nothing more to wait for (R286), what it reads is
still there (log entry 115). -/
def State.stillReady (s : State) (c : Cand) : Bool :=
  match s.focus c.id, c.next with
  | some u, .run b => ((u.begin b false).tries b c.first).isNone
  | _, _ => true

/-- The primary, and after it the first of the others whose bundle merges. -/
def State.issueCands (s : State) (l : List Cand) : Out :=
  match l with
  | [] => .next s
  | p :: rest =>
    match s.issueCand p with
    | .next t =>
      match rest.find? (mergeable p) with
      | some c =>
        if t.stillReady c then
          match t.issueCand c with
          | .next u => .next ((u.agePartner p.id).agePartner c.id)
          | o => o
        else .next t
      | none => .next t
    | o => o

/-! ### A core's cycle (R12, R253, R358) -/

/-- What is due by this cycle lands: results and flags (R155), signals (R206). -/
def State.landDue (s : State) : State :=
  let here (c : Ctx) : Bool := c.core = s.core.num && c.sch.life.holdsBank
  (s.mapCtx here (landCtx s.core.cycle)).landSigs

/-- The region and the role that a bank counts to in a cycle (R253). -/
def State.bankCount (s : State) (j : Nat) : Option (BitVec 32 × BitVec 2) :=
  let p := s.core.pool
  let role := vget p.roles j
  if p.moving.contains j then p.change.map fun ch => (ch.ctx.rid, role)
  else if role = 0 then
    (s.allCtxs.find? fun c => c.sch.life.holdsBank && c.core = s.core.num && c.bank.toNat = j).map fun c => (c.id.rid, 0)
  else (p.ownerOf j).map fun r => (r, role)

def Region.countBank (r : Region) (role : BitVec 2) : Region :=
  match role.toNat with
  | 0 => { r with bcReg := r.bcReg + 1 }
  | 1 => { r with bcCch := r.bcCch + 1 }
  | 2 => { r with bcScr := r.bcScr + 1 }
  | _ => { r with bcTile := r.bcTile + 1 }

def State.countBanks (s : State) : State :=
  if s.regions = [] then s
  else
    (allBanks.filterMap s.bankCount).foldl (fun s x => s.modRegion x.1 fun r => r.countBank x.2) s

/-- Time as a core's clock reaches a point: 1 ns in 5,000 of the way is slewed (R357). -/
def Time.reach (t : Time) (clock : Nat) : Time :=
  if clock ≤ t.raw then t
  else
    let d := clock - t.raw
    let m : Int := (d / 5000 : Nat)
    let k : Int := max (-m) (min m t.slew)
    { t with raw := clock, elapsed := ((t.elapsed + d : Nat) + k).toNat, slew := t.slew - k }

/-- The cycle of the core acted on ends. -/
def State.endCycle (s : State) : State :=
  let s := s.countBanks
  let clock := s.core.clock + Config.cycleUnits + s.time.stretch
  let s := s.modCore fun c => { c with cycle := c.cycle + 1, clock := clock }
  { s with time := s.time.reach clock }

/-- The effective class that each waiting context has in its queue, and since when (R309, R310). -/
def State.noteQueues (s : State) : State :=
  s.mapCtx Ctx.waiting fun c =>
    if c.sch.queueCls = s.classOf c then c
    else { c with sch := { c.sch with queueCls := s.classOf c, queueClsNs := s.time.elapsedNs } }

/-- ISSUE_CYCLE. -/
def execIssueCycle (core : BitVec 11) (s : State) : Out :=
  if Config.cores ≤ core.toNat then .fault .noSuchCore
  else if s.boot.fwerr || s.power.retained then .next s
  else
    let s := (s.focusCore core.toNat).landDue
    let r := State.survey s.lodgers s
    match r.2.noteQueues.issueCands r.1 with
    | .next t => .next (t.focusCore core.toNat).endCycle
    | o => o

/-! ### Results that arrive later (R155, R168, R180) -/

/-- VECTOR_RESULT_LAND: the results of a context that are due land, with their flags. -/
def execVectorResultLand (c : CtxId) (s : State) : Out :=
  match s.focus c with
  | none => .next s
  | some s => .next (s.modCtx (landCtx s.core.cycle))

/-- GEOMETRY_COMPLETE: a predicate instruction of a context has completed, and its results land. -/
def execGeometryComplete (c : CtxId) (s : State) : Out :=
  match s.focus c with
  | none => .next s
  | some s' =>
    if s'.ctx.board.any fun p => p.dst = .geo && p.due.any fun d => d ≤ s'.core.cycle then
      .next (s'.modCtx (landCtx s'.core.cycle))
    else .next s

/-- LOAD_DATA_RETURN: the answer to an S7 access that waits for another device. The access runs again with what has come, and
its bundle ends (R331, R335). One whose request has failed for want of a route goes on with the failure (R337). -/
def execLoadDataReturn (c : CtxId) (seq : Nat) (ans : Answer) (s : State) : Out :=
  match s.focus c with
  | none => .next s
  | some s' =>
    match s'.ctx.remote with
    | none => .next s
    | some r =>
      let p := s'.outstanding seq
      if r.seq ≠ seq || (p.isNone && !r.failed) then .next s
      else
        let r' := match p with
          | some x => r.answer x.body ans
          | none => r
        let s1 := (s'.dropSent seq).modCtx fun x => { x with remote := some r' }
        match execOp r.instr { s1 with pre := { s1.ctx with r := r.regs, c := r.ctl }, iss := r.iss } with
        | .next t => .next t.finishIf
        | o => o

end Sys2Proof.Machine
end

