-- ==== Sys2Proof/Machine/Dispatch.lean ====
section
/-!
DEFINITION. One arm for every row of the opcode table (R57 to R69 and the events).
-/

namespace Sys2Proof.Machine

/-- The meaning of every instruction and event. -/
def exec (i : Instr) (s : State) : Host.Outcome State Fault Refusal :=
  match i with
  | .add d a b => Sys2Proof.Machine.execAdd d a b s
  | .sub d a b => Sys2Proof.Machine.execSub d a b s
  | .and d a b => Sys2Proof.Machine.execAnd d a b s
  | .or d a b => Sys2Proof.Machine.execOr d a b s
  | .xor d a b => Sys2Proof.Machine.execXor d a b s
  | .andn d a b => Sys2Proof.Machine.execAndn d a b s
  | .shl d a b => Sys2Proof.Machine.execShl d a b s
  | .shr d a b => Sys2Proof.Machine.execShr d a b s
  | .sar d a b => Sys2Proof.Machine.execSar d a b s
  | .rol d a b => Sys2Proof.Machine.execRol d a b s
  | .mul d a b => Sys2Proof.Machine.execMul d a b s
  | .mulh d a b => Sys2Proof.Machine.execMulh d a b s
  | .mulhn d a b => Sys2Proof.Machine.execMulhn d a b s
  | .div d a b => Sys2Proof.Machine.execDiv d a b s
  | .divn d a b => Sys2Proof.Machine.execDivn d a b s
  | .rem d a b => Sys2Proof.Machine.execRem d a b s
  | .remn d a b => Sys2Proof.Machine.execRemn d a b s
  | .min d a b => Sys2Proof.Machine.execMin d a b s
  | .max d a b => Sys2Proof.Machine.execMax d a b s
  | .minn d a b => Sys2Proof.Machine.execMinn d a b s
  | .maxn d a b => Sys2Proof.Machine.execMaxn d a b s
  | .clz d a => Sys2Proof.Machine.execClz d a s
  | .popc d a => Sys2Proof.Machine.execPopc d a s
  | .addImm d a imm => Sys2Proof.Machine.execAddImm d a imm s
  | .subImm d a imm => Sys2Proof.Machine.execSubImm d a imm s
  | .andImm d a imm => Sys2Proof.Machine.execAndImm d a imm s
  | .orImm d a imm => Sys2Proof.Machine.execOrImm d a imm s
  | .xorImm d a imm => Sys2Proof.Machine.execXorImm d a imm s
  | .andnImm d a imm => Sys2Proof.Machine.execAndnImm d a imm s
  | .shlImm d a k => Sys2Proof.Machine.execShlImm d a k s
  | .shrImm d a k => Sys2Proof.Machine.execShrImm d a k s
  | .sarImm d a k => Sys2Proof.Machine.execSarImm d a k s
  | .rolImm d a k => Sys2Proof.Machine.execRolImm d a k s
  | .mulImm d a imm => Sys2Proof.Machine.execMulImm d a imm s
  | .mulhImm d a imm => Sys2Proof.Machine.execMulhImm d a imm s
  | .mulhnImm d a imm => Sys2Proof.Machine.execMulhnImm d a imm s
  | .divImm d a imm => Sys2Proof.Machine.execDivImm d a imm s
  | .divnImm d a imm => Sys2Proof.Machine.execDivnImm d a imm s
  | .remImm d a imm => Sys2Proof.Machine.execRemImm d a imm s
  | .remnImm d a imm => Sys2Proof.Machine.execRemnImm d a imm s
  | .minImm d a imm => Sys2Proof.Machine.execMinImm d a imm s
  | .maxImm d a imm => Sys2Proof.Machine.execMaxImm d a imm s
  | .minnImm d a imm => Sys2Proof.Machine.execMinnImm d a imm s
  | .maxnImm d a imm => Sys2Proof.Machine.execMaxnImm d a imm s
  | .cmpEq d a b => Sys2Proof.Machine.execCmpEq d a b s
  | .cmpNe d a b => Sys2Proof.Machine.execCmpNe d a b s
  | .cmpLt d a b => Sys2Proof.Machine.execCmpLt d a b s
  | .cmpGe d a b => Sys2Proof.Machine.execCmpGe d a b s
  | .cmpLtn d a b => Sys2Proof.Machine.execCmpLtn d a b s
  | .cmpGen d a b => Sys2Proof.Machine.execCmpGen d a b s
  | .cmpEqImm d a imm => Sys2Proof.Machine.execCmpEqImm d a imm s
  | .cmpNeImm d a imm => Sys2Proof.Machine.execCmpNeImm d a imm s
  | .cmpLtImm d a imm => Sys2Proof.Machine.execCmpLtImm d a imm s
  | .cmpGeImm d a imm => Sys2Proof.Machine.execCmpGeImm d a imm s
  | .cmpLtnImm d a imm => Sys2Proof.Machine.execCmpLtnImm d a imm s
  | .cmpGenImm d a imm => Sys2Proof.Machine.execCmpGenImm d a imm s
  | .fadd d a b t m => Sys2Proof.Machine.execFadd d a b t m s
  | .fsub d a b t m => Sys2Proof.Machine.execFsub d a b t m s
  | .fmul d a b t m => Sys2Proof.Machine.execFmul d a b t m s
  | .fdiv d a b t m => Sys2Proof.Machine.execFdiv d a b t m s
  | .fsqrt d a t m => Sys2Proof.Machine.execFsqrt d a t m s
  | .fmin d a b t => Sys2Proof.Machine.execFmin d a b t s
  | .fmax d a b t => Sys2Proof.Machine.execFmax d a b t s
  | .fcmpEq d a b t => Sys2Proof.Machine.execFcmpEq d a b t s
  | .fcmpLt d a b t => Sys2Proof.Machine.execFcmpLt d a b t s
  | .fcmpLe d a b t => Sys2Proof.Machine.execFcmpLe d a b t s
  | .fcmpUn d a b t => Sys2Proof.Machine.execFcmpUn d a b t s
  | .cvtif d a t m u => Sys2Proof.Machine.execCvtif d a t m u s
  | .cvtfi d a t m u => Sys2Proof.Machine.execCvtfi d a t m u s
  | .cvtff d a t m u => Sys2Proof.Machine.execCvtff d a t m u s
  | .fmaF64 d a b c => Sys2Proof.Machine.execFmaF64 d a b c s
  | .fmaF32 d a b c => Sys2Proof.Machine.execFmaF32 d a b c s
  | .pand d a b => Sys2Proof.Machine.execPand d a b s
  | .por d a b => Sys2Proof.Machine.execPor d a b s
  | .pxor d a b => Sys2Proof.Machine.execPxor d a b s
  | .pandn d a b => Sys2Proof.Machine.execPandn d a b s
  | .pcmpEq d a b => Sys2Proof.Machine.execPcmpEq d a b s
  | .pcmpNe d a b => Sys2Proof.Machine.execPcmpNe d a b s
  | .pcmpLt d a b => Sys2Proof.Machine.execPcmpLt d a b s
  | .pcmpGe d a b => Sys2Proof.Machine.execPcmpGe d a b s
  | .pcmpLtn d a b => Sys2Proof.Machine.execPcmpLtn d a b s
  | .pcmpGen d a b => Sys2Proof.Machine.execPcmpGen d a b s
  | .movi d imm => Sys2Proof.Machine.execMovi d imm s
  | .movk d h k => Sys2Proof.Machine.execMovk d h k s
  | .addpc d imm => Sys2Proof.Machine.execAddpc d imm s
  | .pbr b off => Sys2Proof.Machine.execPbr b off s
  | .pbrr b a => Sys2Proof.Machine.execPbrr b a s
  | .br b pg => Sys2Proof.Machine.execBr b pg s
  | .brn b pg => Sys2Proof.Machine.execBrn b pg s
  | .call b pg => Sys2Proof.Machine.execCall b pg s
  | .chk b pg a => Sys2Proof.Machine.execChk b pg a s
  | .loop a off => Sys2Proof.Machine.execLoop a off s
  | .loopi n off => Sys2Proof.Machine.execLoopi n off s
  | .mfc d sel spc => Sys2Proof.Machine.execMfc d sel spc s
  | .mtc a sel spc => Sys2Proof.Machine.execMtc a sel spc s
  | .mtcRng a => Sys2Proof.Machine.execMtcRng a s
  | .mtcTrpb a => Sys2Proof.Machine.execMtcTrpb a s
  | .mtcTrpc a => Sys2Proof.Machine.execMtcTrpc a s
  | .mtcFpf a => Sys2Proof.Machine.execMtcFpf a s
  | .mtcFerec a => Sys2Proof.Machine.execMtcFerec a s
  | .mtcStatus a => Sys2Proof.Machine.execMtcStatus a s
  | .twait a sco tl all => Sys2Proof.Machine.execTwait a sco tl all s
  | .barArrive d id sco => Sys2Proof.Machine.execBarArrive d id sco s
  | .barWait a id sco => Sys2Proof.Machine.execBarWait a id sco s
  | .cut id => Sys2Proof.Machine.execCut id s
  | .prio c => Sys2Proof.Machine.execPrio c s
  | .trap code => Sys2Proof.Machine.execTrap code s
  | .tret rt p tb ra => Sys2Proof.Machine.execTret rt p tb ra s
  | .vadd o => Sys2Proof.Machine.execVadd o s
  | .vsub o => Sys2Proof.Machine.execVsub o s
  | .vadds o => Sys2Proof.Machine.execVadds o s
  | .vsubs o => Sys2Proof.Machine.execVsubs o s
  | .vmul o => Sys2Proof.Machine.execVmul o s
  | .vmulh o => Sys2Proof.Machine.execVmulh o s
  | .vmad o => Sys2Proof.Machine.execVmad o s
  | .vmin o => Sys2Proof.Machine.execVmin o s
  | .vmax o => Sys2Proof.Machine.execVmax o s
  | .vabs o => Sys2Proof.Machine.execVabs o s
  | .vneg o => Sys2Proof.Machine.execVneg o s
  | .vand o => Sys2Proof.Machine.execVand o s
  | .vor o => Sys2Proof.Machine.execVor o s
  | .vxor o => Sys2Proof.Machine.execVxor o s
  | .vandn o => Sys2Proof.Machine.execVandn o s
  | .vshl o => Sys2Proof.Machine.execVshl o s
  | .vshr o => Sys2Proof.Machine.execVshr o s
  | .vpopc o => Sys2Proof.Machine.execVpopc o s
  | .vclz o => Sys2Proof.Machine.execVclz o s
  | .vmov o => Sys2Proof.Machine.execVmov o s
  | .vaddS o => Sys2Proof.Machine.execVaddS o s
  | .vsubS o => Sys2Proof.Machine.execVsubS o s
  | .vaddsS o => Sys2Proof.Machine.execVaddsS o s
  | .vsubsS o => Sys2Proof.Machine.execVsubsS o s
  | .vmulS o => Sys2Proof.Machine.execVmulS o s
  | .vmulhS o => Sys2Proof.Machine.execVmulhS o s
  | .vmadS o => Sys2Proof.Machine.execVmadS o s
  | .vminS o => Sys2Proof.Machine.execVminS o s
  | .vmaxS o => Sys2Proof.Machine.execVmaxS o s
  | .vandS o => Sys2Proof.Machine.execVandS o s
  | .vorS o => Sys2Proof.Machine.execVorS o s
  | .vxorS o => Sys2Proof.Machine.execVxorS o s
  | .vandnS o => Sys2Proof.Machine.execVandnS o s
  | .vshlS o => Sys2Proof.Machine.execVshlS o s
  | .vshrS o => Sys2Proof.Machine.execVshrS o s
  | .vfadd o => Sys2Proof.Machine.execVfadd o s
  | .vfsub o => Sys2Proof.Machine.execVfsub o s
  | .vfmul o => Sys2Proof.Machine.execVfmul o s
  | .vfma o => Sys2Proof.Machine.execVfma o s
  | .vfnma o => Sys2Proof.Machine.execVfnma o s
  | .vfdiv o => Sys2Proof.Machine.execVfdiv o s
  | .vfsqrt o => Sys2Proof.Machine.execVfsqrt o s
  | .vfmin o => Sys2Proof.Machine.execVfmin o s
  | .vfmax o => Sys2Proof.Machine.execVfmax o s
  | .vfaddS o => Sys2Proof.Machine.execVfaddS o s
  | .vfsubS o => Sys2Proof.Machine.execVfsubS o s
  | .vfmulS o => Sys2Proof.Machine.execVfmulS o s
  | .vfmaS o => Sys2Proof.Machine.execVfmaS o s
  | .vfnmaS o => Sys2Proof.Machine.execVfnmaS o s
  | .vfdivS o => Sys2Proof.Machine.execVfdivS o s
  | .vfminS o => Sys2Proof.Machine.execVfminS o s
  | .vfmaxS o => Sys2Proof.Machine.execVfmaxS o s
  | .vfrcp o => Sys2Proof.Machine.execVfrcp o s
  | .vfrsq o => Sys2Proof.Machine.execVfrsq o s
  | .vfexp2 o => Sys2Proof.Machine.execVfexp2 o s
  | .vflog2 o => Sys2Proof.Machine.execVflog2 o s
  | .vcmp o => Sys2Proof.Machine.execVcmp o s
  | .vfcmp o => Sys2Proof.Machine.execVfcmp o s
  | .vcmpS o => Sys2Proof.Machine.execVcmpS o s
  | .vfcmpS o => Sys2Proof.Machine.execVfcmpS o s
  | .vsel o => Sys2Proof.Machine.execVsel o s
  | .vbcst o => Sys2Proof.Machine.execVbcst o s
  | .vcvt o => Sys2Proof.Machine.execVcvt o s
  | .vqnt o => Sys2Proof.Machine.execVqnt o s
  | .vqntScale o => Sys2Proof.Machine.execVqntScale o s
  | .vdqnt o => Sys2Proof.Machine.execVdqnt o s
  | .vxch o => Sys2Proof.Machine.execVxch o s
  | .vperm o => Sys2Proof.Machine.execVperm o s
  | .vcomp o => Sys2Proof.Machine.execVcomp o s
  | .vexp o => Sys2Proof.Machine.execVexp o s
  | .vsld o => Sys2Proof.Machine.execVsld o s
  | .vrsum o => Sys2Proof.Machine.execVrsum o s
  | .vrmax o => Sys2Proof.Machine.execVrmax o s
  | .vrmin o => Sys2Proof.Machine.execVrmin o s
  | .vrfsum o => Sys2Proof.Machine.execVrfsum o s
  | .vrfmax o => Sys2Proof.Machine.execVrfmax o s
  | .gset o => Sys2Proof.Machine.execGset o s
  | .gidx o => Sys2Proof.Machine.execGidx o s
  | .gor2 o => Sys2Proof.Machine.execGor2 o s
  | .gor3 o => Sys2Proof.Machine.execGor3 o s
  | .ginc o => Sys2Proof.Machine.execGinc o s
  | .gins o => Sys2Proof.Machine.execGins o s
  | .gseg o => Sys2Proof.Machine.execGseg o s
  | .ldI8 o => Sys2Proof.Machine.execLdI8 o s
  | .ldN8 o => Sys2Proof.Machine.execLdN8 o s
  | .ldI16 o => Sys2Proof.Machine.execLdI16 o s
  | .ldN16 o => Sys2Proof.Machine.execLdN16 o s
  | .ldI32 o => Sys2Proof.Machine.execLdI32 o s
  | .ldN32 o => Sys2Proof.Machine.execLdN32 o s
  | .ldI64 o => Sys2Proof.Machine.execLdI64 o s
  | .stN8 o => Sys2Proof.Machine.execStN8 o s
  | .stN16 o => Sys2Proof.Machine.execStN16 o s
  | .stN32 o => Sys2Proof.Machine.execStN32 o s
  | .stN64 o => Sys2Proof.Machine.execStN64 o s
  | .ldsI32 o => Sys2Proof.Machine.execLdsI32 o s
  | .ldsN32 o => Sys2Proof.Machine.execLdsN32 o s
  | .ldsI64 o => Sys2Proof.Machine.execLdsI64 o s
  | .ldaN32 o => Sys2Proof.Machine.execLdaN32 o s
  | .ldaI64 o => Sys2Proof.Machine.execLdaI64 o s
  | .stlN32 o => Sys2Proof.Machine.execStlN32 o s
  | .stlN64 o => Sys2Proof.Machine.execStlN64 o s
  | .aadd o => Sys2Proof.Machine.execAadd o s
  | .aand o => Sys2Proof.Machine.execAand o s
  | .aor o => Sys2Proof.Machine.execAor o s
  | .axor o => Sys2Proof.Machine.execAxor o s
  | .amin o => Sys2Proof.Machine.execAmin o s
  | .amax o => Sys2Proof.Machine.execAmax o s
  | .aswp o => Sys2Proof.Machine.execAswp o s
  | .acas o => Sys2Proof.Machine.execAcas o s
  | .vld o => Sys2Proof.Machine.execVld o s
  | .vst o => Sys2Proof.Machine.execVst o s
  | .vlds o => Sys2Proof.Machine.execVlds o s
  | .vsts o => Sys2Proof.Machine.execVsts o s
  | .vgth o => Sys2Proof.Machine.execVgth o s
  | .vsct o => Sys2Proof.Machine.execVsct o s
  | .pld o => Sys2Proof.Machine.execPld o s
  | .pst o => Sys2Proof.Machine.execPst o s
  | .drain o => Sys2Proof.Machine.execDrain o s
  | .clwb o => Sys2Proof.Machine.execClwb o s
  | .clinv o => Sys2Proof.Machine.execClinv o s
  | .clfl o => Sys2Proof.Machine.execClfl o s
  | .waita o => Sys2Proof.Machine.execWaita o s
  | .sown o => Sys2Proof.Machine.execSown o s
  | .srel o => Sys2Proof.Machine.execSrel o s
  | .sact o => Sys2Proof.Machine.execSact o s
  | .spre o => Sys2Proof.Machine.execSpre o s
  | .spreAll o => Sys2Proof.Machine.execSpreAll o s
  | .sref o => Sys2Proof.Machine.execSref o s
  | .sldx o => Sys2Proof.Machine.execSldx o s
  | .sstx o => Sys2Proof.Machine.execSstx o s
  | .issueCycle core => Sys2Proof.Machine.execIssueCycle core s
  | .waitaWake c => Sys2Proof.Machine.execWaitaWake c s
  | .acknowledgment seq ans => Sys2Proof.Machine.execAcknowledgment seq ans s
  | .hostDoorbell tail => Sys2Proof.Machine.execHostDoorbell tail s
  | .loadDataReturn c seq ans => Sys2Proof.Machine.execLoadDataReturn c seq ans s
  | .performAtHome core k => Sys2Proof.Machine.execPerformAtHome core k s
  | .mcfg o => Sys2Proof.Machine.execMcfg o s
  | .mfmt o => Sys2Proof.Machine.execMfmt o s
  | .mgoFix o => Sys2Proof.Machine.execMgoFix o s
  | .mgoLoop o => Sys2Proof.Machine.execMgoLoop o s
  | .mldw o => Sys2Proof.Machine.execMldw o s
  | .mrdz o => Sys2Proof.Machine.execMrdz o s
  | .mrdb o => Sys2Proof.Machine.execMrdb o s
  | .mcal o => Sys2Proof.Machine.execMcal o s
  | .mzclr o => Sys2Proof.Machine.execMzclr o s
  | .mav o => Sys2Proof.Machine.execMav o s
  | .msig o => Sys2Proof.Machine.execMsig o s
  | .cpy o => Sys2Proof.Machine.execCpy o s
  | .cpy2 o => Sys2Proof.Machine.execCpy2 o s
  | .cpy3 o => Sys2Proof.Machine.execCpy3 o s
  | .cpyxScale o => Sys2Proof.Machine.execCpyxScale o s
  | .cpyxAdd o => Sys2Proof.Machine.execCpyxAdd o s
  | .cpyxCast o => Sys2Proof.Machine.execCpyxCast o s
  | .cpyxRadd o => Sys2Proof.Machine.execCpyxRadd o s
  | .cpyxRmax o => Sys2Proof.Machine.execCpyxRmax o s
  | .cpyh o => Sys2Proof.Machine.execCpyh o s
  | .fcpy o => Sys2Proof.Machine.execFcpy o s
  | .mxredStart o => Sys2Proof.Machine.execMxredStart o s
  | .mxredRelay o => Sys2Proof.Machine.execMxredRelay o s
  | .mxredFinish o => Sys2Proof.Machine.execMxredFinish o s
  | .rsig o => Sys2Proof.Machine.execRsig o s
  | .esig o => Sys2Proof.Machine.execEsig o s
  | .pmap o => Sys2Proof.Machine.execPmap o s
  | .pmq o => Sys2Proof.Machine.execPmq o s
  | .launch o => Sys2Proof.Machine.execLaunch o s
  | .emptyBundle ib mi => Sys2Proof.Machine.execEmptyBundle ib mi s
  | .vectorResultLand c => Sys2Proof.Machine.execVectorResultLand c s
  | .geometryComplete c => Sys2Proof.Machine.execGeometryComplete c s
  | .waitaTimeout c => Sys2Proof.Machine.execWaitaTimeout c s
  | .sownComplete core ch => Sys2Proof.Machine.execSownComplete core ch s
  | .srelComplete core ch => Sys2Proof.Machine.execSrelComplete core ch s
  | .guardRefresh core ch => Sys2Proof.Machine.execGuardRefresh core ch s
  | .remoteStoreFault c ba addr => Sys2Proof.Machine.execRemoteStoreFault c ba addr s
  | .matrixEntryStart c => Sys2Proof.Machine.execMatrixEntryStart c s
  | .tileOperation c num => Sys2Proof.Machine.execTileOperation c num s
  | .nestComplete c num => Sys2Proof.Machine.execNestComplete c num s
  | .mldwComplete c num => Sys2Proof.Machine.execMldwComplete c num s
  | .mcalComplete c num => Sys2Proof.Machine.execMcalComplete c num s
  | .engineQueueRelease c => Sys2Proof.Machine.execEngineQueueRelease c s
  | .engineOpComplete c tl num => Sys2Proof.Machine.execEngineOpComplete c tl num s
  | .engineOpFailure c tl num why done => Sys2Proof.Machine.execEngineOpFailure c tl num why done s
  | .pageFaultReplay c tl num => Sys2Proof.Machine.execPageFaultReplay c tl num s
  | .arrivalDelivery core k => Sys2Proof.Machine.execArrivalDelivery core k s
  | .poolChangeComplete core => Sys2Proof.Machine.execPoolChangeComplete core s
  | .cacheEviction core line => Sys2Proof.Machine.execCacheEviction core line s
  | .hostSnoop core line => Sys2Proof.Machine.execHostSnoop core line s
  | .patrolScrub core ch unit => Sys2Proof.Machine.execPatrolScrub core ch unit s
  | .seamChannelFailMark core ch => Sys2Proof.Machine.execSeamChannelFailMark core ch s
  | .trapEntry c => Sys2Proof.Machine.execTrapEntry c s
  | .pendingRecordWrite c => Sys2Proof.Machine.execPendingRecordWrite c s
  | .dispRetry c => Sys2Proof.Machine.execDispRetry c s
  | .dispDivert c => Sys2Proof.Machine.execDispDivert c s
  | .dispEnd c => Sys2Proof.Machine.execDispEnd c s
  | .preemptionRequest c kind => Sys2Proof.Machine.execPreemptionRequest c kind s
  | .preemptionLand c => Sys2Proof.Machine.execPreemptionLand c s
  | .saveComplete c => Sys2Proof.Machine.execSaveComplete c s
  | .saveAbandoned c why => Sys2Proof.Machine.execSaveAbandoned c why s
  | .placement c => Sys2Proof.Machine.execPlacement c s
  | .migrationDecision c => Sys2Proof.Machine.execMigrationDecision c s
  | .classPreemptRequest c => Sys2Proof.Machine.execClassPreemptRequest c s
  | .temperatureRefresh cluster temps => Sys2Proof.Machine.execTemperatureRefresh cluster temps s
  | .contextRetire c => Sys2Proof.Machine.execContextRetire c s
  | .launchDecision c => Sys2Proof.Machine.execLaunchDecision c s
  | .regionStart rid => Sys2Proof.Machine.execRegionStart rid s
  | .regionConditionEval rid => Sys2Proof.Machine.execRegionConditionEval rid s
  | .regionComplete rid => Sys2Proof.Machine.execRegionComplete rid s
  | .regionBlockUpdate rid energy => Sys2Proof.Machine.execRegionBlockUpdate rid energy s
  | .remoteStorePacket src seq addr data mask => Sys2Proof.Machine.execRemoteStorePacket src seq addr data mask s
  | .remoteAtomicPacket src seq op w addr b c => Sys2Proof.Machine.execRemoteAtomicPacket src seq op w addr b c s
  | .remoteSignalPacket src seq addr addend => Sys2Proof.Machine.execRemoteSignalPacket src seq addr addend s
  | .copyDataPacket src seq write addr data len => Sys2Proof.Machine.execCopyDataPacket src seq write addr data len s
  | .mxReducePacket src seq addr data => Sys2Proof.Machine.execMxReducePacket src seq addr data s
  | .packetForward dst body => Sys2Proof.Machine.execPacketForward dst body s
  | .flitReplay port => Sys2Proof.Machine.execFlitReplay port s
  | .lanePause port lane => Sys2Proof.Machine.execLanePause port lane s
  | .laneResume port lane => Sys2Proof.Machine.execLaneResume port lane s
  | .linkRetrain port => Sys2Proof.Machine.execLinkRetrain port s
  | .retrainAttemptFail port => Sys2Proof.Machine.execRetrainAttemptFail port s
  | .linkUp port => Sys2Proof.Machine.execLinkUp port s
  | .linkDown port => Sys2Proof.Machine.execLinkDown port s
  | .routeFailure seq => Sys2Proof.Machine.execRouteFailure seq s
  | .portEnable port => Sys2Proof.Machine.execPortEnable port s
  | .portDisable port => Sys2Proof.Machine.execPortDisable port s
  | .eventQueueDrain head => Sys2Proof.Machine.execEventQueueDrain head s
  | .hcqbWrite v => Sys2Proof.Machine.execHcqbWrite v s
  | .evqbWrite v => Sys2Proof.Machine.execEvqbWrite v s
  | .devidWrite v => Sys2Proof.Machine.execDevidWrite v s
  | .thermWrite v => Sys2Proof.Machine.execThermWrite v s
  | .preqWrite v => Sys2Proof.Machine.execPreqWrite v s
  | .tlbInvalidatePage va rid => Sys2Proof.Machine.execTlbInvalidatePage va rid s
  | .tlbInvalidateRegion rid => Sys2Proof.Machine.execTlbInvalidateRegion rid s
  | .atsInvalidation pasid addr size => Sys2Proof.Machine.execAtsInvalidation pasid addr size s
  | .pgrantWrite v => Sys2Proof.Machine.execPgrantWrite v s
  | .tctlWrite v => Sys2Proof.Machine.execTctlWrite v s
  | .tsetWrite v => Sys2Proof.Machine.execTsetWrite v s
  | .ptpExchange offset => Sys2Proof.Machine.execPtpExchange offset s
  | .registerWrite off size v => Sys2Proof.Machine.execRegisterWrite off size v s
  | .warmResume r => Sys2Proof.Machine.execWarmResume r s
  | .coldStart r => Sys2Proof.Machine.execColdStart r s
  | .warmStart r => Sys2Proof.Machine.execWarmStart r s
  | .shockLatch milliG => Sys2Proof.Machine.execShockLatch milliG s
  | .challenge nonce => Sys2Proof.Machine.execChallenge nonce s
  | .getMeasurements idx => Sys2Proof.Machine.execGetMeasurements idx s
  | .sourceReadsFinished c tl num => Sys2Proof.Machine.execSourceReadsFinished c tl num s
  | .hostLinkChange up report => Sys2Proof.Machine.execHostLinkChange up report s
  | .blc => Sys2Proof.Machine.execBlc s
  | .lpop => Sys2Proof.Machine.execLpop s
  | .dorm => Sys2Proof.Machine.execDorm s
  | .exit => Sys2Proof.Machine.execExit s
  | .hostCmdLaunch => Sys2Proof.Machine.execHostCmdLaunch s
  | .hostCmdStop => Sys2Proof.Machine.execHostCmdStop s
  | .hostCmdNop => Sys2Proof.Machine.execHostCmdNop s
  | .tlbInvalidateAll => Sys2Proof.Machine.execTlbInvalidateAll s
  | .invalidationComplete => Sys2Proof.Machine.execInvalidationComplete s
  | .transportRequest => Sys2Proof.Machine.execTransportRequest s
  | .warmStartRequest => Sys2Proof.Machine.execWarmStartRequest s
  | .droopOnset => Sys2Proof.Machine.execDroopOnset s
  | .droopEnd => Sys2Proof.Machine.execDroopEnd s
  | .supplyLoss => Sys2Proof.Machine.execSupplyLoss s
  | .poolImageRetention => Sys2Proof.Machine.execPoolImageRetention s
  | .idleEntry => Sys2Proof.Machine.execIdleEntry s
  | .idleExit => Sys2Proof.Machine.execIdleExit s
  | .getVersion => Sys2Proof.Machine.execGetVersion s
  | .getCapabilities => Sys2Proof.Machine.execGetCapabilities s
  | .negotiateAlgorithms => Sys2Proof.Machine.execNegotiateAlgorithms s
  | .getDigests => Sys2Proof.Machine.execGetDigests s
  | .getCertificate => Sys2Proof.Machine.execGetCertificate s

end Sys2Proof.Machine
end

