-- ==== Sys2Proof/Machine/Driver.lean ====
section
/-!
DEFINITION. Which event comes next where the agenda names none (log entry 3): the first of a fixed list of internal events
whose conditions are met, else a cycle of the busy core whose clock is behind. And how a program is laid down to run
(log entry 21).
-/

namespace Sys2Proof.Machine

/-- What can come about of itself in a context, without its commands. -/
def ctxEvents (c : Ctx) : List (State → Out) :=
  [execTrapEntry c.id, execPreemptionLand c.id, execSaveComplete c.id, execSaveAbandoned c.id .page,
   execSaveAbandoned c.id .permission, execPendingRecordWrite c.id, execDispRetry c.id, execDispDivert c.id,
   execDispEnd c.id, execWaitaTimeout c.id, execLaunchDecision c.id, execMatrixEntryStart c.id,
   execEngineQueueRelease c.id, execContextRetire c.id, execMigrationDecision c.id, execPreemptionRequest c.id .migration,
   execPlacement c.id, execClassPreemptRequest c.id] ++
  (match c.watch with
   | some w => if w.seen.isSome then [execWaitaWake c.id] else []
   | none => []) ++
  (match c.remote with
   | some r => if r.failed then [execLoadDataReturn c.id r.seq .fault] else []
   | none => [])

/-- What can come about of itself in the queues of a context. -/
def cmdEvents (c : Ctx) : List (State → Out) :=
  (c.mx.queue.flatMap fun e =>
    [execTileOperation c.id e.num, execSourceReadsFinished c.id 1 e.num, execNestComplete c.id e.num,
     execMcalComplete c.id e.num]) ++
  ((c.mx.loads.filter fun l => !l.isSig).flatMap fun l =>
    [execSourceReadsFinished c.id 1 l.num, execMldwComplete c.id l.num]) ++
  c.running.flatMap fun x =>
    [execSourceReadsFinished c.id x.tl x.num, execEngineOpComplete c.id x.tl x.num, execPageFaultReplay c.id x.tl x.num,
     execEngineOpFailure c.id x.tl x.num .route 0, execEngineOpFailure c.id x.tl x.num .remote 0]

/-- What can come about of itself on a core. -/
def coreEvents (c : Core) : List (State → Out) :=
  ((List.range c.flight.length).map fun k => execPerformAtHome c.num k) ++
  ((List.range 8).flatMap fun n =>
    let ch := BitVec.ofNat 3 n
    if (c.chan ch).owner.isSome then [execSownComplete c.num ch, execSrelComplete c.num ch, execGuardRefresh c.num ch]
    else []) ++
  ((List.range c.arrivals.length).map fun k => execArrivalDelivery c.num k) ++
  (if c.pool.change.isSome then [execPoolChangeComplete c.num] else [])

/-- What can come about of itself in a region. The block of a running one is written again before a millisecond has passed since
the last write (R296; log entry 109). -/
def regionEvents (now : Nat) (r : Region) : List (State → Out) :=
  [execRegionStart r.rid, execRegionConditionEval r.rid, execRegionComplete r.rid] ++
  (if r.st = 2 && r.wroteNs + 990000 ≤ now then [execRegionBlockUpdate r.rid ⟨0, 0⟩] else [])

/-- What can come about of itself in the package: a packet without a route fails, the host's commands are taken, and so on. -/
def packageEvents (s : State) : List (State → Out) :=
  (s.fab.out.filter fun p => p.port.isNone).map (fun p => execRouteFailure p.seq) ++
  ((List.range 18).filter fun p => s.fab.portState (BitVec.ofNat 5 p) = 1 || s.fab.portState (BitVec.ofNat 5 p) = 3).map
    (fun p => execLinkDown (BitVec.ofNat 5 p)) ++
  [execHostCmdLaunch, execHostCmdStop, execHostCmdNop, execInvalidationComplete, execPoolImageRetention] ++
  (if s.power.idle = 0 then [execIdleEntry] else if s.isIdle then [] else [execIdleExit])

/-- Every internal event that the state has a name for, in the order in which they are tried. -/
def State.events (s : State) : List (State → Out) :=
  if s.boot.fwerr || s.power.retained then []
  else
    let cs := s.allCtxs.filter fun c => c.sch.life ≠ Life.none
    (cs.flatMap ctxEvents) ++ (cs.flatMap cmdEvents) ++ ((s.core :: s.cores).flatMap coreEvents) ++
      (s.regions.flatMap (regionEvents s.time.elapsedNs)) ++ packageEvents s

/-- The first event that does something: one whose conditions are not met leaves the state as it is. -/
def State.firstOf (s : State) : List (State → Out) → Option State
  | [] => none
  | f :: fs =>
    match f s with
    | .next t => if t = s then s.firstOf fs else some t
    | _ => s.firstOf fs

/-- Cores that have something to do in a cycle. -/
def State.busyCores (s : State) : List Nat :=
  ((s.allCtxs.filter fun c => c.sch.life.holdsBank).map fun c => c.core.toNat) ++
    (((s.core :: s.cores).map fun c => c.num.toNat).filter s.busyCore)

/-- Of two cores, the one whose clock is behind, ties to the lower number. -/
def State.slower (s : State) (a b : Nat) : Nat :=
  let x := (s.coreAt a).clock
  let y := (s.coreAt b).clock
  if x < y || (x = y && a ≤ b) then a else b

/-- The core whose cycle comes next. -/
def State.nextCore (s : State) : Nat :=
  match s.busyCores with
  | [] => 0
  | n :: rest => rest.foldl s.slower n

/-- The next event of itself, else a cycle. -/
def State.drive (s : State) : Out :=
  match s.firstOf s.events with
  | some t => .next t
  | none => execIssueCycle (BitVec.ofNat 11 s.nextCore) s

/-! ### A program laid down (log entry 21) -/

/-- The virtual and the physical address of its first bundle, and its page tables: one entry to a table of level 1, whose one
entry maps the first GiB with every permission (R269, R270). -/
def progVa : W64 := 0x2000000000010000
def progPa : Nat := 0x10000
def progRoot : BitVec 28 := 1
def progTables : List (Nat × Nat) := [(0x1000, 0x2001), (0x2000, 0x1F)]

/-- The region that runs it: one context, no budget beyond the owned REG bank, its own domain. -/
def progRegion (rid : BitVec 32) : Region :=
  { rid := rid, block := 0x2000000000004000, bkey := seamKey 0x4000,
    lim := { cmax := 1, rmax := 1, kcnt := 0, bcch := 0, bscr := 0, btile := 0, ebud := 0, plo := 0, phi := 3,
             expok := true, lnok := true, migok := false },
    work := { kind := 0, rmt := false, geom := false, strict := false, npred := 0, entry := progVa, arg := 0, nsel := 0,
              holdn := 1, nctx := 1, savb := 0x2000000000100000, trb := 0x2000000000020004, seed := 0, barb := 0, sgen := 0,
              nbar := 0, succ := [], clmask := 0 },
    dom := { own := rid, fdom := 0, fpol := 0, root := progRoot, pasid := 0 },
    parent := none, launcher := none, tag := 0, sig := none, st := 2, visited := [0] }

/-- Its context 0, resident on core 0. -/
def progCtx (rid : BitVec 32) : Ctx :=
  { id := { rid := rid, num := 0 }, c := { mhold := true, trpb := 0x2000000000020004 }, q := { pc := progVa },
    sch := { life := .resident, block := 0x2000000000004000, saveArea := 0x2000000000100000 } }

/-- A program's bytes and its tables stand in the seam of core 0, its region runs, its context is resident on core 0, and a
cycle of core 0 comes next. The header of an empty bundle stands after the bytes, so that they are not followed by pads up to
the end of the page (R46). -/
def State.layProgram (s : State) (bs : List Byte) : State :=
  let rid := s.nextRid
  let s := progTables.foldl (fun s e => s.poke (seamKey e.1) (toBytes 8 e.2)) (s.focusCore 0)
  let s := s.poke (seamKey progPa) (bs ++ [0x00, 0x02])
  { s with ctx := progCtx rid, ctxs := if s.ctx.sch.life = Life.none then s.ctxs else s.ctx :: s.ctxs,
           regions := progRegion rid :: s.regions, nextRid := rid + 1, agenda := [.issueCycle 0] }

/-- The bundle of one slot that holds a table word: its slot by the word's length (log entry 9). -/
def wordBundle (nbits w : Nat) : List Byte :=
  if nbits ≤ 32 then bundleBytes (tableSlot (w % 2 ^ 32)) (w % 2 ^ 32)
  else if nbits ≤ 64 then bundleBytes 7 w
  else bundleBytes 6 w

end Sys2Proof.Machine
end

