-- ==== Sys2Proof/Machine/Step.lean ====
section
/-!
DEFINITION. One step of the machine: the event the agenda names, else the one the driver picks (log entry 3).
-/

namespace Sys2Proof.Machine

/-- One step. -/
def step (s : State) : Host.Outcome State Fault Refusal :=
  match s.agenda with
  | i :: rest => exec i { s with agenda := rest }
  | [] => s.drive

/-- The state in which the next step is the cycle in which a resident context of core 0 fetches and runs the bundle of one
slot that holds the word (log entries 9 and 21). -/
def State.withFetchWord (s : State) (nbits w : Nat) : State := s.layProgram (wordBundle nbits w)

end Sys2Proof.Machine
end

