-- ==== Sys2Proof/Safety.lean ====
section
/-!
DEFINITION. What counts as a safe run, the invariant of the model's memory, and the words in which statements say what an
instruction changes and what it leaves as it was.
-/

namespace Sys2Proof.Machine

/-! ### Safe runs -/

/-- n steps from a state all answer a next state: the machine neither faults nor refuses. -/
def SafeFor : Nat → State → Prop
  | 0, _ => True
  | n + 1, s => ∃ t, step s = .next t ∧ SafeFor n t

/-- A state from which every run is safe. -/
def Safe (s : State) : Prop := ∀ n, SafeFor n s

/-- Memory stands in its canonical form: keys rise, and no entry equals what an unlisted byte reads as. -/
def MemoryCanonical (s : State) : Prop := Memory.wf s.mem = true

/-! ### Registers as they stand now -/

/-- A scalar register; s0 reads zero (R14). -/
def State.sNow (s : State) (n : R6) : W64 := if n = 0 then 0 else vget s.ctx.r.s n.toNat
def State.sPoison (s : State) (n : R6) : Bool := n ≠ 0 && s.ctx.r.sp.getLsbD n.toNat
/-- A physical vector register and the poison of its lane groups. -/
def State.vNow (s : State) (k : Nat) : VWord := vget s.ctx.r.v k
def State.vPoison (s : State) (k : Nat) : W32 := vget s.ctx.r.vp k
/-- A physical predicate register; p0 reads ones (R14). -/
def State.pNow (s : State) (k : Nat) : PWord := if k = 0 then BitVec.allOnes 256 else vget s.ctx.r.p k
def State.pPoison (s : State) (k : Nat) : Bool := k ≠ 0 && s.ctx.r.pp.getLsbD k
/-- A branch-target register. -/
def State.bNow (s : State) (n : R3) : W64 := vget s.ctx.r.b n.toNat

/-! ### What stays as it was -/

/-- Every byte of memory, and what the homes keep of lines, units, barriers and dispositions. -/
structure SameMemory (s t : State) : Prop where
  bytes : ∀ k, readByte t.mem k = readByte s.mem k
  bad : t.bad = s.bad
  lines : t.lineRecs = s.lineRecs
  disps : t.disps = s.disps
  bars : t.barRecs = s.barRecs

/-- The package outside memory, cores and contexts. -/
structure SamePackage (s t : State) : Prop where
  regions : t.regions = s.regions
  nextRid : t.nextRid = s.nextRid
  trans : t.trans = s.trans
  time : t.time = s.time
  power : t.power = s.power
  mgmt : t.mgmt = s.mgmt
  fab : t.fab = s.fab
  boot : t.boot = s.boot
  hot : t.hot = s.hot
  temps : t.temps = s.temps

/-- Everything but the context acted on and what its bundle carries. -/
structure SameWorld (s t : State) : Prop where
  memory : SameMemory s t
  package : SamePackage s t
  others : t.ctxs = s.ctxs
  core : t.core = s.core
  cores : t.cores = s.cores
  agenda : t.agenda = s.agenda

/-- The context's state outside its register files, control registers, sequencer and outstanding results. -/
structure SameUnits (s t : State) : Prop where
  id : t.ctx.id = s.ctx.id
  core : t.ctx.core = s.ctx.core
  bank : t.ctx.bank = s.ctx.bank
  es : t.ctx.es = s.ctx.es
  tlc : t.ctx.tlc = s.ctx.tlc
  tlm : t.ctx.tlm = s.ctx.tlm
  tlf : t.ctx.tlf = s.ctx.tlf
  mx : t.ctx.mx = s.ctx.mx
  queue : t.ctx.queue = s.ctx.queue
  running : t.ctx.running = s.ctx.running
  watch : t.ctx.watch = s.ctx.watch
  remote : t.ctx.remote = s.ctx.remote
  launches : t.ctx.launches = s.ctx.launches
  sch : t.ctx.sch = s.ctx.sch

/-- Scalar registers other than one. -/
def SameScalars (s t : State) (d : R6) : Prop :=
  ∀ n : R6, n ≠ d ∨ n = 0 → t.sNow n = s.sNow n ∧ t.sPoison n = s.sPoison n

/-- Vector registers other than one, by physical number. -/
def SameVectors (s t : State) (d : Nat) : Prop := ∀ k, k ≠ d → t.vNow k = s.vNow k ∧ t.vPoison k = s.vPoison k

/-- Predicate registers other than one, by physical number. -/
def SamePreds (s t : State) (d : Nat) : Prop := ∀ k, k ≠ d ∨ k = 0 → t.pNow k = s.pNow k ∧ t.pPoison k = s.pPoison k

/-- The register files that only special instructions write. -/
structure SameSpecial (s t : State) : Prop where
  b : t.ctx.r.b = s.ctx.r.b
  g : t.ctx.r.g = s.ctx.r.g
  f : t.ctx.r.f = s.ctx.r.f
  ft : t.ctx.r.ft = s.ctx.r.ft

/-- A number that names no vector or predicate register: the frame of an instruction that writes none. -/
def noReg : Nat := 64

/-- Only scalar register d changes, with the results that are outstanding for it and the flags on their way to FPF and FEREC
(R97). -/
structure OnlyScalar (d : R6) (s t : State) : Prop where
  world : SameWorld s t
  units : SameUnits s t
  control : t.ctx.c = s.ctx.c
  sequencer : t.ctx.q = s.ctx.q
  special : SameSpecial s t
  scalars : SameScalars s t d
  vectors : SameVectors s t noReg
  preds : SamePreds s t noReg
  events : s.ctx.events <+: t.ctx.events
  board : ∀ p : Pend, p.dst ≠ Dest.s d.toNat → (p ∈ t.ctx.board ↔ p ∈ s.ctx.board)
  bundle : t.iss = s.iss
  free : t.nfree = s.nfree

/-- Only predicate register d, by physical number, changes, with flags on their way. -/
structure OnlyPred (d : Nat) (s t : State) : Prop where
  world : SameWorld s t
  units : SameUnits s t
  control : t.ctx.c = s.ctx.c
  sequencer : t.ctx.q = s.ctx.q
  special : SameSpecial s t
  scalars : SameScalars s t 0
  vectors : SameVectors s t noReg
  preds : SamePreds s t d
  events : s.ctx.events <+: t.ctx.events
  board : ∀ p : Pend, p.dst ≠ Dest.p d → (p ∈ t.ctx.board ↔ p ∈ s.ctx.board)
  bundle : t.iss = s.iss
  free : t.nfree = s.nfree

/-- Only vector register d, by physical number, changes, with the flags on their way to FPF and FEREC (R97, R156), the
generator's state (R31) and what the bundle carries of it. -/
structure OnlyVector (d : Nat) (s t : State) : Prop where
  world : SameWorld s t
  units : SameUnits s t
  control : t.ctx.c = { s.ctx.c with rng := t.ctx.c.rng }
  sequencer : t.ctx.q = s.ctx.q
  special : SameSpecial s t
  scalars : SameScalars s t 0
  vectors : SameVectors s t d
  preds : SamePreds s t noReg
  events : s.ctx.events <+: t.ctx.events
  board : ∀ p : Pend, p.dst ≠ Dest.v d → (p ∈ t.ctx.board ↔ p ∈ s.ctx.board)
  bundle : t.iss = { s.iss with rng := t.iss.rng }
  free : t.nfree = s.nfree

/-! ### Scalar class (R100 to R112) -/

/-- The instruction completes: it writes the value v with poison p to sd, raises no flag, and changes nothing else. -/
def ScalarDone (i : Instr) (s : State) (d : R6) (v : W64) (p : Bool) : Prop :=
  ∃ t, exec i s = .next t ∧ (d ≠ 0 → t.sNow d = v ∧ t.sPoison d = p) ∧ OnlyScalar d s t ∧ t.ctx.events = s.ctx.events

/-- SR and SI forms of an integer instruction, with the result of R102 and R103 for the operand values a and b. -/
def intTable : List ((R6 → R6 → R6 → Instr) × (R6 → R6 → BitVec 12 → Instr) × (W64 → W64 → W64)) :=
  [(.add, .addImm, fun a b => a + b), (.sub, .subImm, fun a b => a - b), (.and, .andImm, fun a b => a &&& b),
   (.or, .orImm, fun a b => a ||| b), (.xor, .xorImm, fun a b => a ^^^ b), (.andn, .andnImm, fun a b => a &&& ~~~b),
   (.mul, .mulImm, fun a b => a * b),
   (.mulh, .mulhImm, fun a b => (a.signExtend 128 * b.signExtend 128).extractLsb' 64 64),
   (.mulhn, .mulhnImm, fun a b => (a.setWidth 128 * b.setWidth 128).extractLsb' 64 64),
   (.div, .divImm, fun a b => if b = 0 then BitVec.allOnes 64 else a.sdiv b),
   (.divn, .divnImm, fun a b => if b = 0 then BitVec.allOnes 64 else a / b),
   (.rem, .remImm, fun a b => if b = 0 then a else a.srem b), (.remn, .remnImm, fun a b => if b = 0 then a else a % b),
   (.min, .minImm, fun a b => if a.sle b then a else b), (.max, .maxImm, fun a b => if a.sle b then b else a),
   (.minn, .minnImm, fun a b => if a ≤ b then a else b), (.maxn, .maxnImm, fun a b => if a ≤ b then b else a)]

/-- Shifts and rotation, with the result of R102 for the count k. -/
def shiftTable : List ((R6 → R6 → R6 → Instr) × (R6 → R6 → BitVec 6 → Instr) × (W64 → Nat → W64)) :=
  [(.shl, .shlImm, fun a k => BitVec.ofNat 64 (a.toNat * 2 ^ k)), (.shr, .shrImm, fun a k => BitVec.ofNat 64 (a.toNat / 2 ^ k)),
   (.sar, .sarImm, fun a k => BitVec.ofInt 64 (a.toInt / 2 ^ k)), (.rol, .rolImm, fun a k => (a <<< k) ||| (a >>> (64 - k)))]

/-- CMP, its SI form and PCMP, with the condition of R104. -/
def cmpTable : List ((R6 → R6 → R6 → Instr) × (R6 → R6 → BitVec 12 → Instr) × (R5 → R6 → R6 → Instr) × (W64 → W64 → Bool)) :=
  [(.cmpEq, .cmpEqImm, .pcmpEq, fun a b => a == b), (.cmpNe, .cmpNeImm, .pcmpNe, fun a b => a != b),
   (.cmpLt, .cmpLtImm, .pcmpLt, fun a b => a.slt b), (.cmpGe, .cmpGeImm, .pcmpGe, fun a b => b.sle a),
   (.cmpLtn, .cmpLtnImm, .pcmpLtn, fun a b => a.ult b), (.cmpGen, .cmpGenImm, .pcmpGen, fun a b => b.ule a)]

/-- The instruction completes: it writes v with poison p to pd, and changes nothing else. -/
def PredDone (i : Instr) (s : State) (d : R5) (v : PWord) (p : Bool) : Prop :=
  ∃ t, exec i s = .next t ∧
    (d ≠ 0 → t.pNow (physP s.pre.c d) = v ∧ t.pPoison (physP s.pre.c d) = p) ∧
    OnlyPred (physP s.pre.c d) s t ∧ t.ctx.events = s.ctx.events

/-! ### Floating point (R79, R89, R93, R106 to R110) -/

/-- The flags sent on their way to FPF and FEREC: one event of the issuing slot, of its bundle and cycle. A slot of the vector
or scalar classes sends it whether or not a flag is raised (R28, R97, R156). -/
def FlagsSent (s t : State) (fl : BitVec 5) : Prop :=
  if fl = 0 ∧ 5 ≤ s.iss.slot then t.ctx.events = s.ctx.events
  else ∃ due, s.core.cycle < due ∧
    t.ctx.events = s.ctx.events ++ [{ due := due, slot := s.iss.slot, ba := s.iss.ba, fl := fl, at0 := s.core.cycle }]

/-- The instruction completes: it writes a pattern of w bits, zero-extended, to sd with poison p, sends its flags, and changes
nothing else. -/
def FloatDone (i : Instr) (s : State) (d : R6) (w : Nat) (r : Nat × BitVec 5) (p : Bool) : Prop :=
  ∃ t, exec i s = .next t ∧ (d ≠ 0 → t.sNow d = BitVec.ofNat 64 (r.1 % 2 ^ w) ∧ t.sPoison d = p) ∧ OnlyScalar d s t ∧
    FlagsSent s t r.2

/-- Binary floating instructions with a rounding mode. -/
def floatTable : List ((R6 → R6 → R6 → BitVec 2 → BitVec 2 → Instr) × (Fmt → RMode → Nat → Nat → Nat × BitVec 5)) :=
  [(.fadd, fpAdd), (.fsub, fpSub), (.fmul, fpMul), (.fdiv, fpDiv)]

/-- FMIN and FMAX, and the floating compares with their relation and whether every NaN sets NV (R107, R108). -/
def floatMinMax : List ((R6 → R6 → R6 → BitVec 2 → Instr) × Bool) := [(.fmin, true), (.fmax, false)]
def floatCompares : List ((R6 → R6 → R6 → BitVec 2 → Instr) × Bool × (Val → Val → Bool)) :=
  [(.fcmpEq, false, valEq), (.fcmpLt, true, valLt), (.fcmpLe, true, fun a b => valLt a b || valEq a b),
   (.fcmpUn, false, fun a b => a == .nan || b == .nan)]

/-- The exact number of a finite value. -/
def Val.exact : Val → ℚ
  | .fin neg num den => (if neg then -1 else 1) * ((num : ℚ) / den)
  | _ => 0

def Val.finite : Val → Prop
  | .fin _ _ den => den ≠ 0
  | _ => False

/-- A value that is no NaN, among the extended reals. -/
noncomputable def Val.extended : Val → EReal
  | .inf neg => if neg then ⊥ else ⊤
  | x => ((x.exact : ℝ) : EReal)

def ieeeFmts : List Fmt := [fmt64, fmt32, fmt16, fmtB16]

/-- A format that instructions round into: of R79, or of a valid descriptor (R81). -/
def RoundFmt (f : Fmt) : Prop := f ∈ ieeeFmts ∨ ∃ d : W32, descValid d = true ∧ f = descFmt d

/-- The largest finite value of a format. -/
def Fmt.maxQ (f : Fmt) : ℚ := (f.maxf.1 : ℚ) / f.maxf.2

/-- The grid point that a mode selects for num/den on the grid of step 2^e (GridRounding), without its sign. -/
def gridPoint (m : RMode) (neg : Bool) (num den : Nat) (e : Int) : ℚ := (roundGrid m neg num den e).1 * 2 ^ e

/-- Modes that overflow to infinity where the format allows it (R89). -/
def overflowsToInf (m : RMode) (neg : Bool) : Prop :=
  m = .rne ∨ (∃ rb, m = .sr rb) ∨ (m = .rup ∧ neg = false) ∨ (m = .rdn ∧ neg = true)

/-- The y that R91 calls tiny: rounded without a lower bound of the exponents (l is the binade), under SR the value of R90. -/
def unboundedPoint (f : Fmt) (m : RMode) (neg : Bool) (num den : Nat) (l : Int) : ℚ :=
  match m with
  | .sr _ => gridPoint m neg num den (ulpExp f num den)
  | _ => gridPoint m neg num den (l - f.prec + 1)

/-- What an approximation delivers of a number z > 0 and a sign (R145): z truncated to min(P, 12) significant bits, below 2^emin to the
subnormal grid, with NX, and UF below 2^emin, where that is not z; an infinity with OF and NX from 2^(emax+1) on. -/
def Truncated (f : Fmt) (neg : Bool) (z : ℝ) (r : Nat × BitVec 5) : Prop :=
  ((2 : ℝ) ^ (f.bias + 1) ≤ z → r = (infPat f neg, fOF ||| fNX)) ∧
  ∀ l : ℤ, (2 : ℝ) ^ l ≤ z → z < (2 : ℝ) ^ (l + 1) → l ≤ f.bias →
    let e : ℤ := if l < f.emin then f.emin - f.prec + 1 else l - min f.prec 12 + 1
    let y : ℝ := ⌊z / 2 ^ e⌋ * 2 ^ e
    (decodeVal f r.1).finite ∧ ((decodeVal f r.1).exact : ℝ) = (if neg then -1 else 1) * y ∧
    (y = 0 → r.1 = if neg then 2 ^ (f.w - 1) else 0) ∧
    (y = z → r.2 = 0) ∧ (y ≠ z → r.2 = if l < f.emin then fNX ||| fUF else fNX)

/-! ### Control class (R113 to R131, R191) -/

/-- The instruction completes with a given next state. -/
def Gives (i : Instr) (s t : State) : Prop := exec i s = .next t

/-- The stall of a transfer through a branch-target register by its preparation distance d (R119): the first after a restore or a
TRET (`cold`) counts as 1. -/
def stallOf : Bool → Option Nat → Nat
  | true, _ => 2
  | false, none => 0
  | false, some d => 3 - min 3 (max 1 d)

/-- The state with the bundle's transfer decided (R113): it takes place after the last slot. -/
def State.deciding (s : State) (tgt : W64) (rot : Bool) (stall : Nat) : State :=
  { s with iss := { s.iss with xfer := some { tgt := tgt, rot := rot, stall := stall } } }

/-- The transfer through a branch-target register is decided; it is the first one no more. -/
def State.through (s : State) (n : R3) : State :=
  let t := s.deciding (s.rdB n) false (stallOf (vget s.pre.q.cold n.toNat) (vget s.pre.q.prep n.toNat))
  { t with ctx := { t.ctx with q := { t.ctx.q with cold := vset t.ctx.q.cold n.toNat false } } }

/-- Only a branch-target register changes, whose preparation starts (R119). -/
structure OnlyTarget (n : R3) (s t : State) : Prop where
  rest : t = { s with ctx := { s.ctx with r := { s.ctx.r with b := t.ctx.r.b }
                                          q := { s.ctx.q with prep := t.ctx.q.prep, cold := t.ctx.q.cold } } }
  others : ∀ k, k ≠ n → t.bNow k = s.bNow k ∧ vget t.ctx.q.prep k.toNat = vget s.ctx.q.prep k.toNat ∧
    vget t.ctx.q.cold k.toNat = vget s.ctx.q.cold k.toNat
  starts : vget t.ctx.q.prep n.toNat = some 0 ∧ vget t.ctx.q.cold n.toNat = false

/-- Only the loop stack changes, and what the bundle carries of a transfer and of a legal point. -/
structure OnlyLoops (s t : State) : Prop where
  rest : t = { s with ctx := { s.ctx with q := { s.ctx.q with loops := t.ctx.q.loops } },
                      iss := { s.iss with xfer := t.iss.xfer, legal := t.iss.legal } }

/-- The address after the bundle (R44). -/
def State.after (s : State) : W64 := s.iss.ba + BitVec.ofNat 64 s.iss.len

/-! ### Barriers, cut points and traps (R34, R126, R130, R193, R194, R314 to R317) -/

/-- Every byte outside n bytes from key k on reads as before. -/
def BytesKept (s t : State) (k n : Nat) : Prop :=
  ∀ j, (j < k ∨ k + n ≤ j) → readByte t.mem j = readByte s.mem j

/-- The trap of an instruction (R10, R314): its cause and detail, the slot in execution, which SRES takes. -/
def Traps (i : Instr) (s : State) (cause : Nat) (detail : Nat := 0) : Prop :=
  Gives i s (s.takeTrap { cause := cause, slot := s.iss.slot, sres := some s.iss.slot, detail := detail })

/-- A trap has been entered (R314, R316, R317): the context's save has begun, which ends held unless a stop has been noted; the
record stands at key k of address a with all the fields of R316; PIDX has risen. -/
structure Entered (s t : State) (x : Trapped) (sres : Nat) (a : W64) (k : Nat) : Prop where
  life : t.ctx.sch.life = .saving ∧ t.ctx.sch.saveEnd = s.ctx.sch.stopAt.getD .held ∧ t.ctx.q.trapped = none
  ring : t.ctx.c.pidx = s.ctx.c.pidx + 1
  holds : t.ctx.sch.hold.map (fun h : HoldRec => (h.addr, h.prec, h.ac, h.pt, h.ba, h.tgt)) =
    some (a, true, x.t.ac, x.xfer.isSome, x.ba, (x.xfer.map Xfer.tgt).getD 0)
  record :
    let r := leNat (t.peek k 64)
    bits r 63 56 = x.t.cause ∧ bits r 55 53 = x.t.slot ∧ bits r 52 50 = sres ∧ bits r 49 49 = 1 ∧
      bits r 48 48 = (if x.xfer.isSome then 1 else 0) ∧ bits r 46 46 = (if x.t.ac then 1 else 0) ∧
      bits r 31 0 = x.t.detail ∧ bits r 127 64 = x.ba.toNat ∧ bits r 191 128 = x.t.faddr.toNat ∧
      bits r 255 192 = ((x.xfer.map Xfer.tgt).getD 0).toNat ∧
      bits r 287 256 = x.t.lmask % 2 ^ 32 ∧ bits r 319 288 = s.ctx.id.rid.toNat ∧ bits r 362 352 = s.ctx.core.toNat ∧
      bits r 364 363 = 3 ∧ bits r 383 368 = s.ctx.id.num.toNat ∧ bits r 447 384 = s.time.now.toNat

/-- A number has the fields that R316 gives the record r of a context, made at a time, with an empty DISP. -/
def RecordSays (w : Nat) (c : Ctx) (time : W64) (r : Rec) : Prop :=
  bits w 63 56 = r.cause ∧ bits w 55 53 = r.slot ∧ bits w 52 50 = r.sres.toNat ∧ bits w 49 49 = (if r.prec then 1 else 0) ∧
  bits w 48 48 = (if r.pt then 1 else 0) ∧ bits w 47 47 = (if r.rt then 1 else 0) ∧ bits w 46 46 = (if r.ac then 1 else 0) ∧
  bits w 45 32 = 0 ∧ bits w 31 0 = r.detail ∧ bits w 127 64 = r.ba.toNat ∧ bits w 191 128 = r.faddr.toNat ∧
  bits w 255 192 = r.tgt.toNat ∧ bits w 287 256 = r.lmask ∧ bits w 319 288 = c.id.rid.toNat ∧ bits w 351 320 = 0 ∧
  bits w 362 352 = c.core.toNat ∧ bits w 364 363 = r.tl ∧ bits w 367 365 = 0 ∧ bits w 383 368 = c.id.num.toNat ∧
  bits w 447 384 = time.toNat ∧ bits w 511 448 = 0

/-! ### Vector class (R133 to R153) -/

/-- Vector register d, by physical number, after a write at width w (R18, R135, R136): element i takes the number f gives,
modulo 2^w, or stays; a lane group is poisoned where a written element of it is, or an element stays and it was. -/
def VectorWrites (s t : State) (d w : Nat) (f : Nat → Option (Nat × Bool)) : Prop :=
  (∀ i < 2048 / w, elem w (t.vNow d).toNat i = match f i with
    | some x => x.1 % 2 ^ w
    | none => elem w (s.vNow d).toNat i) ∧
  ∀ j < 32, (t.vPoison d).getLsbD j = true ↔ ∃ i < 2048 / w, i * w / 64 = j ∧ match f i with
    | some x => x.2 = true
    | none => (s.vPoison d).getLsbD j = true

/-- The instruction completes: it writes vd so, raises no flag, draws nothing, and changes nothing else. -/
def VectorDone (i : Instr) (s : State) (vd : R6) (w : Nat) (f : Nat → Option (Nat × Bool)) : Prop :=
  ∃ t, Gives i s t ∧ OnlyVector (physV s.pre.c vd) s t ∧ VectorWrites s t (physV s.pre.c vd) w f ∧
    t.ctx.events = s.ctx.events ∧ t.ctx.c = s.ctx.c ∧ t.iss = s.iss

/-- A guarded element (R135, R136): active ones take a value and its poison, inactive ones zero under zm or nothing. -/
def guarded (s : State) (o : VR) (val : Nat → Nat) (ps : Nat → Bool) (i : Nat) : Option (Nat × Bool) :=
  if (s.rdP o.pg).getLsbD (i * (tyWidth o.t / 8)) then some (val i, ps i || s.psP o.pg)
  else if o.zm = 1 then some (0, s.psP o.pg) else none

/-- Element i of the A, B and C operands as patterns, and whether it lies in a poisoned group; B is sb in a VS form (R134). -/
def aE (s : State) (o : VR) (i : Nat) : Nat := elem (tyWidth o.t) (s.rdV o.va).toNat i
def bE (s : State) (o : VR) (vs : Bool) (i : Nat) : Nat :=
  if vs then (s.rdS o.vb).toNat % 2 ^ tyWidth o.t else elem (tyWidth o.t) (s.rdV o.vb).toNat i
def cE (s : State) (o : VR) (i : Nat) : Nat := elem (tyWidth o.t) (s.rdV o.vc).toNat i
def aP (s : State) (o : VR) (i : Nat) : Bool := (s.psV o.va).getLsbD (i * tyWidth o.t / 64)
def bP (s : State) (o : VR) (vs : Bool) (i : Nat) : Bool :=
  if vs then s.psS o.vb else (s.psV o.vb).getLsbD (i * tyWidth o.t / 64)
def cP (s : State) (o : VR) (i : Nat) : Bool := (s.psV o.vc).getLsbD (i * tyWidth o.t / 64)

/-- A number as a pattern of w bits. -/
def pat (w : Nat) (x : Int) : Nat := (x % 2 ^ w).toNat

/-- Binary instructions on numbers of the type, in both forms (R141). -/
def vIntTable : List ((VR → Instr) × (VR → Instr) × (BitVec 4 → Int → Int → Int)) :=
  [(.vadd, .vaddS, fun _ a b => a + b), (.vsub, .vsubS, fun _ a b => a - b),
   (.vadds, .vaddsS, fun t a b => max (tyMin t) (min (tyMax t) (a + b))),
   (.vsubs, .vsubsS, fun t a b => max (tyMin t) (min (tyMax t) (a - b))),
   (.vmul, .vmulS, fun _ a b => a * b), (.vmulh, .vmulhS, fun t a b => a * b / 2 ^ tyWidth t),
   (.vmin, .vminS, fun _ a b => min a b), (.vmax, .vmaxS, fun _ a b => max a b)]

/-- Logic on patterns, in both forms (R142): a bit of the result from the bits of the operands. -/
def vLogicTable : List ((VR → Instr) × (VR → Instr) × (Bool → Bool → Bool)) :=
  [(.vand, .vandS, fun a b => a && b), (.vor, .vorS, fun a b => a || b), (.vxor, .vxorS, fun a b => a != b),
   (.vandn, .vandnS, fun a b => a && !b)]

/-- Unary instructions (R142). -/
def vUnTable : List ((VR → Instr) × (BitVec 4 → Nat → Nat)) :=
  [(.vabs, fun t a => (tyVal t a).natAbs), (.vneg, fun t a => pat (tyWidth t) (-tyVal t a)),
   (.vpopc, fun t a => (List.range (tyWidth t)).countP fun k => a.testBit k),
   (.vclz, fun t a => tyWidth t - Nat.size a), (.vmov, fun _ a => a)]

/-! ### Vector instructions with flags and rounding (R31, R90, R137, R138, R143 to R153) -/

/-- Element i is active at width w (R135). -/
def onE (s : State) (o : VR) (w i : Nat) : Bool := (s.rdP o.pg).getLsbD (i * (w / 8))

/-- The mode of each of n operation elements (R138): fixed, or under SR the rounding bits of the draw that the element takes,
the active elements drawing in lane order (R31, R90). `sr` says that the instruction draws. -/
def ModesOf (s : State) (o : VR) (n : Nat) (on : Nat → Bool) (m : Nat → RMode) (sr : Bool) : Prop :=
  let d := vget s.pre.r.f o.fr.toNat
  o.rm.toNat < 6 ∧ (o.rm = 5 → descValid d = true) ∧
    sr = (o.rm == 4 || (o.rm == 5 && descRnd d == 2)) ∧
    ∀ i < n, m i =
      if sr then .sr (((rngStep^[(List.range i).countP on + 1]) s.iss.rng).toNat / 2 ^ 40)
      else if o.rm = 5 then (if descRnd d = 0 then .rne else .rtz) else modeOf o.rm.toNat

/-- The instruction completes: of n operation elements, the active ones take the pattern f gives under their mode, at element
base + j of vd and width w, and the flags sent are the OR of theirs; a draw for each active element under SR; nothing else
changes, but for the cycle noted for a division (R154). -/
def RoundsDone (i : Instr) (s : State) (o : VR) (n w base : Nat) (div : Bool) (on : Nat → Bool)
    (f : RMode → Nat → Nat × BitVec 5) (ps : Nat → Bool) : Prop :=
  ∀ (m : Nat → RMode) (sr : Bool), ModesOf s o n on m sr →
    ∃ (t u : State) (fl : BitVec 5), Gives i s t ∧
      t = (if div then { u with core := { u.core with divAt := t.core.divAt } } else u) ∧
      OnlyVector (physV s.pre.c o.vd) s u ∧
      VectorWrites s t (physV s.pre.c o.vd) w (fun k =>
        if k < base ∨ base + n ≤ k then none
        else if on (k - base) then some ((f (m (k - base)) (k - base)).1, ps (k - base) || s.psP o.pg)
        else if o.zm = 1 then some (0, s.psP o.pg) else none) ∧
      FlagsSent s t fl ∧ (∀ b, fl.getLsbD b = true ↔ ∃ j < n, on j = true ∧ (f (m j) j).2.getLsbD b = true) ∧
      t.iss.rng = (rngStep^[if sr then (List.range n).countP on else 0]) s.iss.rng ∧
      t.ctx.c.rng = if s.iss.rngSet ∨ sr = false ∨ (List.range n).countP on = 0 then s.ctx.c.rng else t.iss.rng

/-- The instruction completes: it writes vd so, sends flags, draws nothing, and changes nothing else. -/
def VectorFlags (i : Instr) (s : State) (vd : R6) (w : Nat) (fl : BitVec 5) (f : Nat → Option (Nat × Bool)) : Prop :=
  ∃ t, Gives i s t ∧ OnlyVector (physV s.pre.c vd) s t ∧ VectorWrites s t (physV s.pre.c vd) w f ∧ FlagsSent s t fl ∧
    t.ctx.c = s.ctx.c

/-- Binary rounded instructions, in both forms; whether they divide. -/
def vFloatTable : List ((VR → Instr) × (VR → Instr) × Bool × (Fmt → RMode → Nat → Nat → Nat × BitVec 5)) :=
  [(.vfadd, .vfaddS, false, fpAdd), (.vfsub, .vfsubS, false, fpSub), (.vfmul, .vfmulS, false, fpMul), (.vfdiv, .vfdivS, true, fpDiv)]

/-- The approximations (R145). -/
def vApproxTable : List ((VR → Instr) × (Fmt → Nat → Nat × BitVec 5)) :=
  [(.vfrcp, fpRcp), (.vfrsq, fpRsq), (.vfexp2, fpExp2), (.vflog2, fpLog2)]

/-- A vector compare (R140, R146) completes: each active element fills its byte group of pd with its condition. -/
def VectorCompares (i : Instr) (s : State) (o : VR) (vs : Bool) (f : Nat → Bool × BitVec 5) : Prop :=
  let pd : R5 := o.vd.setWidth 5
  let w := tyWidth o.t
  let p := physP s.pre.c pd
  ∃ (t : State) (fl : BitVec 5), Gives i s t ∧ OnlyPred p s t ∧
    (pd ≠ 0 →
      (∀ j < tyCount o.t, ∀ b < w / 8, (t.pNow p).getLsbD (j * (w / 8) + b) =
        if onE s o w j then (f j).1 else if o.zm = 1 then false else (s.pNow p).getLsbD (j * (w / 8) + b)) ∧
      (t.pPoison p = true ↔ ∃ j < tyCount o.t, if onE s o w j then aP s o j ∨ bP s o vs j ∨ s.psP o.pg
        else if o.zm = 1 then s.psP o.pg else s.pPoison p)) ∧
    FlagsSent s t fl ∧ ∀ b, fl.getLsbD b = true ↔ ∃ j < tyCount o.t, onE s o w j = true ∧ (f j).2.getLsbD b = true

/-- The conditions of VCMP, and of VFCMP with whether every NaN sets NV (R146). -/
def vcmpTable : List (Nat × (Int → Int → Bool)) :=
  [(0, fun a b => a == b), (1, fun a b => a != b), (2, fun a b => decide (a < b)), (3, fun a b => decide (b ≤ a)),
   (4, fun a b => decide (b < a)), (5, fun a b => decide (a ≤ b))]
def vfcmpTable : List (Nat × Bool × (Val → Val → Bool)) :=
  [(0, false, valEq), (1, false, fun a b => !valEq a b), (2, true, valLt), (3, true, fun a b => valLt b a || valEq a b),
   (4, true, fun a b => valLt b a), (5, true, fun a b => valLt a b || valEq a b),
   (6, false, fun a b => a == .nan || b == .nan), (7, false, fun a b => !(a == .nan || b == .nan))]

/-- The fixed pairwise tree of R98 over 2^k elements, element by element, with its flags. -/
def treeAt (op : Nat → Nat → Nat × BitVec 5) (e : Nat → Nat) : Nat → Nat → Nat × BitVec 5
  | 0, i => (e i, 0)
  | k + 1, i =>
    let a := treeAt op e k (2 * i)
    let b := treeAt op e k (2 * i + 1)
    ((op a.1 b.1).1, a.2 ||| b.2 ||| (op a.1 b.1).2)

/-! ### Geometry (R157 to R172) -/

/-- The point slot acted on, as it stands. -/
def State.gNow (s : State) (n : Nat) : GSlot := (s.ctx.r.g[n]?).getD {}

/-- Only point slot n changes, with the results outstanding for it. -/
structure OnlySlot (n : Nat) (s t : State) : Prop where
  rest : t = { s with ctx := { s.ctx with r := { s.ctx.r with g := t.ctx.r.g }, board := t.ctx.board } }
  others : ∀ k, k ≠ n → t.gNow k = s.gNow k
  board : ∀ p : Pend, p.dst ≠ .g n → (p ∈ t.ctx.board ↔ p ∈ s.ctx.board)

/-- Λ of R160: the determinant of the matrix of the points, its entries exact in units of 2^-1074 and their square. -/
def lambdaDet (sh : Shape) (pts : List Pt) : ℤ :=
  Matrix.det (Matrix.of fun j c : Fin (sh.n + 1) => ((pts.map (rowM sh)).getD j []).getD c 0)

/-- A term of R170: entries of the matrix, at most one in each row and in each column, its value, and its coefficient: the
determinant with each row of the term replaced by the unit row of its column. -/
def IsTerm {n : Nat} (T : Finset (Fin (n + 1) × Fin n)) : Prop := ∀ e ∈ T, ∀ f ∈ T, e.1 = f.1 ∨ e.2 = f.2 → e = f
def termValue {n : Nat} (T : Finset (Fin (n + 1) × Fin n)) : Nat := ∑ e ∈ T, 2 ^ (n * e.1.val + (n - 1 - e.2.val))
def termDet {n : Nat} (M : Fin (n + 1) → Fin (n + 1) → ℤ) (T : Finset (Fin (n + 1) × Fin n)) : ℤ :=
  Matrix.det (Matrix.of fun j c => if ∃ e ∈ T, e.1 = j then (if ∃ e ∈ T, e.1 = j ∧ e.2.castSucc = c then 1 else 0) else M j c)

/-- The sign that tie-break gives to points with distinct indices (R170): of the first nonzero coefficient, by increasing value,
of the matrix whose rows are reordered by σ so that the indices rise, times the sign of the reordering. -/
def TieSign (sh : Shape) (pts : List Pt) (r : Int) : Prop :=
  ∃ σ : Equiv.Perm (Fin (sh.n + 1)), (StrictMono fun j : Fin (sh.n + 1) => ((pts.map (·.idx)).getD (σ j) 0)) ∧
    let M (j c : Fin (sh.n + 1)) : ℤ := ((pts.map (rowM sh)).getD (σ j) []).getD c 0;
    ∃ T : Finset (Fin (sh.n + 1) × Fin sh.n), IsTerm T ∧ termDet M T ≠ 0 ∧
      (∀ U, IsTerm U → termValue U < termValue T → termDet M U = 0) ∧ r = (Equiv.Perm.sign σ : ℤ) * (termDet M T).sign

/-- What a lane gives: its result, its zero bit, its escalations, and whether two of its indices were found equal. -/
structure LaneOut where
  r : Int
  zb : Bool
  esc : Nat := 0
  deg : Bool := false

/-- An orientation, in-circle or in-sphere lane of finite points (R164 to R167, R169, R170). -/
def LaneGives (sh : Shape) (md : Nat) (pts : List Pt) (o : LaneOut) : Prop :=
  match filterStage sh (rowsD sh pts) with
  | some x => o = { r := x, zb := false }
  | none =>
    if md = 1 then o = { r := 2, zb := false }
    else
      let esc := if refines (rowsD sh pts) then 1 else 2
      if lambdaDet sh pts ≠ 0 then o = { r := (lambdaDet sh pts).sign, zb := false, esc := esc }
      else if md ≠ 2 then o = { r := 0, zb := true, esc := esc }
      else if ¬(pts.map (·.idx)).Nodup then o = { r := 0, zb := true, esc := esc, deg := true }
      else ∃ r, TieSign sh pts r ∧ o = { r := r, zb := true, esc := 2 }

/-- A point of the closed segment p–q (R161). -/
def OnSegment (p q : Pt) (z : ℚ × ℚ) : Prop :=
  ∃ u : ℚ, 0 ≤ u ∧ u ≤ 1 ∧ z.1 = unitsOf p.x + u * (unitsOf q.x - unitsOf p.x) ∧
    z.2 = unitsOf p.y + u * (unitsOf q.y - unitsOf p.y)

/-- A GSEG lane (R161, R166, R167, R169): its result from the four orientations, and where all are zero from the points that the
segments have in common. -/
def SegGives (md : Nat) (pts : List Pt) (o : LaneOut) : Prop :=
  ∀ p q a b, pts = [p, q, a, b] →
    ∃ o1 o2 o3 o4 : LaneOut, LaneGives shGor2 (if md = 1 then 1 else 0) [p, q, a] o1 ∧
      LaneGives shGor2 (if md = 1 then 1 else 0) [p, q, b] o2 ∧ LaneGives shGor2 (if md = 1 then 1 else 0) [a, b, p] o3 ∧
      LaneGives shGor2 (if md = 1 then 1 else 0) [a, b, q] o4 ∧
      let both (z : ℚ × ℚ) : Prop := OnSegment p q z ∧ OnSegment a b z
      if md = 1 ∧ (o1.r = 2 ∨ o2.r = 2 ∨ o3.r = 2 ∨ o4.r = 2) then o = { r := 2, zb := false }
      else o.zb = (o1.zb || o2.zb || o3.zb || o4.zb) ∧ o.esc = o1.esc + o2.esc + o3.esc + o4.esc ∧ o.deg = false ∧
        if o1.r * o2.r < 0 ∧ o3.r * o4.r < 0 then o.r = 1
        else if o1.r = 0 ∧ o2.r = 0 ∧ o3.r = 0 ∧ o4.r = 0 then
          (o.r = 0 ↔ ∀ z, ¬both z) ∧ (o.r = 3 ↔ ∃ y z, y ≠ z ∧ both y ∧ both z) ∧ (o.r = 0 ∨ o.r = 2 ∨ o.r = 3)
        else o.r = if o1.r * o2.r ≤ 0 ∧ o3.r * o4.r ≤ 0 then 2 else 0

/-- The predicates: the point slots they read, whether they read Z, and what a lane gives. -/
def geoTable (o : VG) : List (Instr × Bool × List R3 × (List Pt → LaneOut → Prop)) :=
  [(.gor2 o, false, [o.ga, o.gb, o.gc], LaneGives shGor2 o.md.toNat),
   (.gor3 o, true, [o.ga, o.gb, o.gc, o.ge], LaneGives shGor3 o.md.toNat),
   (.ginc o, false, [o.ga, o.gb, o.gc, o.ge], LaneGives shGinc o.md.toNat),
   (.gins o, true, [o.ga, o.gb, o.gc, o.ge, o.gh], LaneGives shGins o.md.toNat),
   (.gseg o, false, [o.ga, o.gb, o.gc, o.ge], SegGives o.md.toNat)]

/-! ### Scalar memory (R123, R176 to R181, R185, R287) -/

/-- The effective address of a scalar access (R63, R181). -/
def addrLS (s : State) (o : LS) : W64 := s.rdS o.sa + (s.rdS o.sx <<< o.sh.toNat) + o.off.signExtend 64

/-- The walk of an address can be made now: nothing holds it, or the whole bundle has been found able to issue (R53, R190). -/
def Walks (s : State) (a : W64) : Prop := s.iss.ready = true ∨ s.heldWalk s.me s.rid a = false

/-- An access that fails does so now: its walk can be made, or the check that it fails comes before translation (R176, R190). -/
def Checked (s : State) (a : W64) (f : Failed) : Prop := f.rank < 3 ∨ Walks s a

/-- A read that a bundle can make now: nothing holds its place, or the whole bundle has been found able to issue (R53). -/
def Free (s : State) (p : Place) (n : Nat) : Prop := s.iss.ready = true ∨ s.heldRead p n = false

/-- The register value of n bytes x of a signed or an unsigned type. -/
def loaded (n : Nat) (signed : Bool) (x : Nat) : W64 :=
  if signed then (BitVec.ofNat (8 * n) x).signExtend 64 else BitVec.ofNat 64 x

/-- Scalar loads, speculative loads and loads with acquire, by size and sign (R123, R181). -/
def loadTable : List ((LS → Instr) × Nat × Bool) :=
  [(.ldI8, 1, true), (.ldN8, 1, false), (.ldI16, 2, true), (.ldN16, 2, false), (.ldI32, 4, true), (.ldN32, 4, false),
   (.ldI64, 8, true)]
def specTable : List ((LS → Instr) × Nat × Bool) := [(.ldsI32, 4, true), (.ldsN32, 4, false), (.ldsI64, 8, true)]
def acqTable : List ((LS → Instr) × Nat × Bool) := [(.ldaN32, 4, false), (.ldaI64, 8, true)]
def storeTable : List ((LS → Instr) × Nat) := [(.stN8, 1), (.stN16, 2), (.stN32, 4), (.stN64, 8)]
def relTable : List ((LS → Instr) × Nat) := [(.stlN32, 4), (.stlN64, 8)]

/-- Nothing of the context but its watch changes, nor the bundle but for the store it has in flight; an access that waits for another
device keeps the bytes of its line that have left (R285). -/
structure SameContext (s t : State) : Prop where
  ctx : t.ctx = { s.ctx with watch := t.ctx.watch, remote := t.ctx.remote }
  waits : t.ctx.remote.map (fun r : Remote => { r with left := [] }) = s.ctx.remote.map fun r : Remote => { r with left := [] }
  bundle : t.iss = { s.iss with flown := t.iss.flown }
  package : t.regions = s.regions ∧ t.time = s.time ∧ t.power = s.power ∧ t.boot = s.boot ∧
    t.mgmt = { s.mgmt with ats := t.mgmt.ats }

/-- The low n bytes of x stand at key k, and every other byte is as it was. -/
def Stored (s t : State) (k n x : Nat) : Prop := leNat (t.peek k n) = x % 2 ^ (8 * n) ∧ BytesKept s t k n

/-- n bytes of x, as part of the data and mask of a line, at a key. -/
def InLine (d : BitVec 512) (m : BitVec 64) (k n x : Nat) : Prop :=
  ∀ i < n, m.getLsbD (k % 64 + i) = true ∧ lineByte d (k % 64 + i) = BitVec.ofNat 8 (x / 2 ^ (8 * i))

/-- What comes before a store at a key (R279, R332): other names of the line go home, and for a store past the cache role the line
itself. -/
def State.beforeStore (s : State) (k : Nat) (past : Bool) : State :=
  let u := s.unalias s.me (lineOf k)
  if past then u.evict s.me (lineOf k) else u

/-- A store is in flight to key k: n bytes of x, of the context, with its mark. -/
def Flies (u t : State) (k n x : Nat) (mark : Option Mark) : Prop :=
  t.mem = u.mem ∧ ∃ f, t.core.flight = u.core.flight ++ [f] ∧ f.key = lineOf k ∧ f.ctx = u.ctx.id ∧ f.wb = false ∧
    f.mark = mark ∧ InLine f.data f.mask k n x ∧
    (f.sent.isSome ↔ (k / 2 ^ 60 = 4 ∧ devOf (BitVec.ofNat 64 k) ≠ u.mgmt.devid) ∧
      ∀ g ∈ u.core.flight, g.ctx = u.ctx.id ∨ g.wb = true → u.homeOf g.key ≠ u.homeOf (lineOf k))

/-- What a store of n bytes of x does at its place (R178, R278, R283, R284): in a scratchpad it stands at once; through the
cache role it stands in the line, dirty; past it, it sets out and stays in flight. -/
def StoreAt (s t : State) (p : Place) (n x : Nat) (mark : Option Mark) : Prop :=
  match p with
  | .pool _ k => Stored s t k n x ∧ t.core.flight = s.core.flight ∧ t.core.cache = s.core.cache
  | .home k true =>
    let u := s.beforeStore k false
    ∃ l, t.core.findLine (lineOf k) = some l ∧ InLine l.data l.held k n x ∧ InLine l.data l.dirty k n x ∧
      (mark.isSome → l.mark = mark) ∧ ((u.core.findLine (lineOf k)).isSome → t.mem = u.mem)
  | .far k | .home k false => Flies (s.beforeStore k true) t k n x mark

/-- Bytes that set out for a key's home now perform there at once (R190, R265, R279, R284, R333). -/
def State.clearWay (s : State) (core k : Nat) : Prop :=
  s.stands k = false ∧
    (∀ f ∈ (s.coreAt core).flight, s.homeOf f.key ≠ s.homeOf k) ∧ s.awayOrRefused k = false

/-- The key of a place. -/
def Place.key : Place → Nat
  | .pool _ k | .far k | .home k _ => k

/-! ### Vector memory, atomics, fences, cache lines and the watch (R182 to R188, R285 to R291) -/

/-- The active elements of a vector access with their addresses (R182, R184). -/
def elemsAt (s : State) (pg : R5) (t : BitVec 4) (addr : Nat → W64) : List Elem :=
  ((List.range (tyCount t)).filter fun i => (s.rdP pg).getLsbD (i * (tyWidth t / 8))).map fun i => { i := i, addr := addr i }

/-- The addresses of VLD and VST, of VLDS and VSTS, and of VGTH and VSCT. -/
def unitAddr (s : State) (o : LV) (i : Nat) : W64 :=
  s.rdS o.sa + s.rdS o.sx + o.off.signExtend 64 + BitVec.ofNat 64 (i * (tyWidth o.t / 8))
def strideAddr (s : State) (o : LV) (i : Nat) : W64 := s.rdS o.sa + o.off.signExtend 64 + BitVec.ofNat 64 i * s.rdS o.sx
def indexAddr (s : State) (o : LG) (i : Nat) : W64 :=
  s.rdS o.sa + BitVec.ofInt 64 (tyVal o.t (elem (tyWidth o.t) (s.rdV o.vb).toNat i) * (tyWidth o.t / 8 : Nat))

/-- The reads of a list of elements, one after another (R10), each inside its place. -/
inductive Reads (n : Nat) : List (Elem × Place) → State → List (Nat × Nat × Bool) → State → Prop
  | done (s) : Reads n [] s [] s
  | next (e p rest s x bad s1 vs s2) : s.readPlace p e.addr n = (.val x bad, s1) → Reads n rest s1 vs s2 →
      Reads n ((e, p) :: rest) s ((e.i, x, bad) :: vs) s2

/-- Every element passes its checks, at its place. -/
def AllPass (s : State) (acc : Access) (n : Nat) (ps : List (Elem × Place)) : Prop :=
  ∀ x ∈ ps, s.resolve s.me s.rid x.1.addr n acc = .ok x.2

/-- The check that an element fails, if it fails one; a skewed base or stride fails the alignment of all (R182). -/
def elemFail (s : State) (acc : Access) (n : Nat) (skew : Bool) (e : Elem) : Option Failed :=
  match s.resolve s.me s.rid e.addr n acc with
  | .ok _ => if skew then some fAlign else none
  | .error x => some (if skew && 1 < x.rank then fAlign else x)

/-- Nothing holds the places of a store. -/
def FreeStores (s : State) (ps : List (Elem × Place)) : Prop :=
  s.iss.ready = true ∨ ∀ x ∈ ps, s.heldWrite x.2 = false ∧ s.heldWalk s.me s.rid x.1.addr = false

/-- The elements of a vector store whose places are scratchpad bytes: each stands in memory, unless a later one covers it, and
every other byte is as it was. -/
def StoredAll (s t : State) (n : Nat) (ps : List (Elem × Place)) (val : Nat → Nat) : Prop :=
  (∀ x ∈ ps, ∃ c k, x.2 = .pool c k) →
    (∀ j, (∀ x ∈ ps, j < x.2.key ∨ x.2.key + n ≤ j) → readByte t.mem j = readByte s.mem j) ∧
    ∀ l e p r, ps = l ++ (e, p) :: r → (∀ x ∈ r, x.2.key + n ≤ p.key ∨ p.key + n ≤ x.2.key) →
      leNat (t.peek p.key n) = val e.i % 2 ^ (8 * n)

/-- A vector store element by element, each as a store of its own, so that the highest wins (R10, R182). -/
inductive Writes (n : Nat) (val : Nat → Nat) : List (Elem × Place) → State → State → Prop
  | done (s) : Writes n val [] s s
  | next (e p rest s s1 t) : StoreAt s s1 p n (val e.i) none → Writes n val rest s1 t → Writes n val ((e, p) :: rest) s t

/-- The bytes of a mask are written to the line at a key; every other byte of memory stands (R278). -/
def LineWritten (s t : State) (k : Nat) (d : BitVec 512) (mask : BitVec 64) : Prop :=
  ∀ j, readByte t.mem j =
    if k ≤ j ∧ j < k + 64 ∧ mask.getLsbD (j - k) = true then d.extractLsb' (8 * (j - k)) 8 else readByte s.mem j

/-- The dirty bytes of a line of a core's cache role go home (R278, R280, R284): nothing where there are none; they stand at the
home where the way is clear, and are in flight, all of them with their mark, where it is not. -/
def LineGoesHome (s t : State) (core : Nat) (l : Line) : Prop :=
  let same : Prop := (t.coreAt core).flight = (s.coreAt core).flight
  (l.dirty = 0 → t.mem = s.mem ∧ same) ∧
  (l.dirty ≠ 0 → s.clearWay core l.key → LineWritten s t (s.homeOf l.key) l.data l.dirty ∧ same) ∧
  (l.dirty ≠ 0 → ¬s.clearWay core l.key → t.mem = s.mem ∧ ∃ f, (t.coreAt core).flight = (s.coreAt core).flight ++ [f] ∧
    f.key = l.key ∧ f.wb = true ∧ f.data = l.data ∧ f.mask = l.dirty)

/-- The codes of the atomics' packets (R331). -/
def atomicOps : List ((LA → Instr) × BitVec 3) :=
  [(.aadd, 0), (.aand, 1), (.aor, 2), (.axor, 3), (.amin, 4), (.amax, 5), (.aswp, 6), (.acas, 7)]

/-- What an atomic writes, by mnemonic (R185): from the old value, sb and sc, all of n bytes. -/
def atomicTable : List ((LA → Instr) × (Nat → Nat → Nat → Nat → Nat)) :=
  let sv (n x : Nat) : Int := (BitVec.ofNat (8 * n) x).toInt
  [(.aadd, fun n old b _ => (old + b) % 2 ^ (8 * n)), (.aand, fun _ old b _ => old &&& b), (.aor, fun _ old b _ => old ||| b),
   (.axor, fun _ old b _ => old ^^^ b), (.amin, fun n old b _ => if sv n old < sv n b then old else b),
   (.amax, fun n old b _ => if sv n old < sv n b then b else old), (.aswp, fun _ _ b _ => b),
   (.acas, fun _ old b c => if old = c then b else old)]

/-! ### The exposed seam (R189, R190, R254 to R262) -/

/-- The channel of an exposed command as it stands, and a bank of it. -/
def chanOfLX (s : State) (o : LX) : Chan := (s.core.chans[o.ch.toNat]?).getD {}
def bankOf (h : Chan) (b : Nat) : DBank := (h.banks[b]?).getD {}

/-- The unit a command names (R189), its row, and the key of its eight bytes (R255). -/
def unitNo (s : State) (o : LX) : Nat := (s.rdS o.sa).toNat + (s.rdS o.sb).toNat + o.imm.toNat % 2 ^ 23
def seamRow (c : Nat) : Nat := c / 2 ^ 8 % 2 ^ 11
def unitAt (s : State) (o : LX) (c : Nat) : Nat :=
  2 ^ 61 + s.core.num.toNat * 2 ^ 29 + seamRow c * (if s.seamState s.me = 1 then 2 ^ 17 else 2 ^ 18) +
    c / 2 ^ 19 * (if s.seamState s.me = 1 then 2 ^ 13 else 2 ^ 14) + o.ch.toNat * 2 ^ 11 + c % 2 ^ 8 * 8

/-- The minimums of R257 have passed for a command in cycle t. -/
def MinimumsPassed (h : Chan) (k : XKind) (b t : Nat) : Prop :=
  let since (x : Option Nat) (d : Nat) : Prop := ∀ y, x = some y → y + d ≤ t
  let closable (j : Nat) : Prop := since (bankOf h j).opened 68 ∧ since (bankOf h j).rd 8 ∧ since (bankOf h j).wr 32
  since h.sref 440 ∧
    match k with
    | .act => since (bankOf h b).pre 30 ∧ (∀ j < 16, j ≠ b → since (bankOf h j).act 8) ∧
        ∀ w x y z, h.acts = [w, x, y, z] → w + 40 ≤ t
    | .pre => closable b
    | .preAll => ∀ j < 16, (bankOf h j).row.isSome → closable j
    | .rd => since (bankOf h b).act 30 ∧ since h.lastRd 2 ∧ since h.lastWr 12
    | .wr => since (bankOf h b).act 30 ∧ since h.lastRd 2 ∧ since h.lastWr 2
    | .ref | .rel => True

/-- The unit of a command: of those that name none, 0. -/
def unitX (s : State) (o : LX) (k : XKind) : Nat :=
  if k = .act ∨ k = .pre ∨ k = .rd ∨ k = .wr then unitNo s o else 0

/-- The checks of R190 in their order: clean operands, the unit's range, the owner, and that nothing holds the channel; the row
(R259); the time (R257, R260). -/
def XClean (s : State) (o : LX) (k : XKind) : Prop := s.psS o.sa = false ∧ s.psS o.sb = false ∧ (k = .wr → s.psS o.sd = false)
def XOwns (s : State) (o : LX) : Prop := s.ctx.es.held.getLsbD o.ch.toNat = true
def XOpen (s : State) (o : LX) : Prop :=
  let h := chanOfLX s o
  h.owning = none ∧ h.releasing = false ∧ h.lent = false ∧ h.busy ≤ s.core.cycle
def XRow (s : State) (o : LX) (k : XKind) (c : Nat) : Prop :=
  let h := chanOfLX s o
  (k = .rd ∨ k = .wr → (bankOf h (c / 2 ^ 19)).row = some (seamRow c)) ∧
    (k = .act → (bankOf h (c / 2 ^ 19)).row = none ∨ (bankOf h (c / 2 ^ 19)).row = some (seamRow c)) ∧
    (k = .ref → ∀ b < 16, (bankOf h b).row = none)
def XTime (s : State) (o : LX) (k : XKind) (c : Nat) : Prop :=
  MinimumsPassed (chanOfLX s o) k (c / 2 ^ 19) s.core.cycle ∧
    (k = .act ∨ k = .rd ∨ k = .wr ∨ k = .rel → s.time.elapsedNs ≤ (chanOfLX s o).refresh + 3900)

/-- An exposed command may run (R190). -/
def MayIssue (s : State) (o : LX) (k : XKind) (c : Nat) : Prop :=
  c = unitX s o k ∧ XClean s o k ∧ c < 2 ^ 23 ∧ XOwns s o ∧ XOpen s o ∧ XRow s o k c ∧ XTime s o k c

/-- The exposed commands by their kind. -/
def exposedTable (o : LX) : List (Instr × XKind) :=
  [(.sact o, .act), (.spre o, .pre), (.spreAll o, .preAll), (.sref o, .ref), (.sldx o, .rd), (.sstx o, .wr), (.srel o, .rel)]

/-- Only the command's channel changes, and that its wait is no longer counted. -/
structure OnlyChannel (o : LX) (s t : State) : Prop where
  rest : t = { s with core := { s.core with chans := t.core.chans }
                      ctx := { s.ctx with q := { s.ctx.q with counted := false } } }
  others : ∀ n, n ≠ o.ch.toNat → (t.core.chans[n]?).getD {} = (s.core.chans[n]?).getD {}

/-! ### The matrix class (R20, R23, R208 to R235) -/

/-- The wait half of a block lets its bundle issue (R24, R60): the bundle has been found able to issue, or the semaphores it
names are granted and the one it waits for has reached its threshold. -/
def Passes (s : State) (w : WaitSig) : Prop := s.iss.ready = true ∨ (s.semsOk w = true ∧ s.waitOk w = true)

/-- The signal of a block, once (R24, R60): the semaphore of the region's grant rises by the increment; without a grant
nothing is signalled. -/
structure Signals (s t : State) (w : WaitSig) : Prop where
  granted : ∀ g, s.core.grantOf s.rid = some g → g.reserved = false →
    t.mem = s.mem ∧ t.core = { s.core with k := t.core.k } ∧ ∀ n < 256,
      vget t.core.k n = vget s.core.k n + if w.se = 1 ∧ w.spt.toNat < 2 ∧ n = w.ss.toNat then w.si.setWidth 16 else 0
  without : s.core.grantOf s.rid = none → t.mem = s.mem ∧ t.core = s.core

/-- Only the context's matrix part and its timeline M change. -/
structure OnlyMatrix (s t : State) : Prop where
  rest : t = { s with ctx := { s.ctx with mx := t.ctx.mx, tlm := t.ctx.tlm } }
  tiles : t.ctx.mx.val = s.ctx.mx.val ∧ t.ctx.mx.bnd = s.ctx.mx.bnd ∧ t.ctx.mx.stat = s.ctx.mx.stat

/-- A number of timeline M is taken (R23). -/
def TakesNumber (s t : State) : Prop := t.ctx.tlm = { s.ctx.tlm with issued := s.ctx.tlm.issued + 1 }

/-- A nest enters the queue: it captures the set, the descriptors of its format-table entry, and va with its poison where the
set's A comes from va. -/
def QueuesNest (i : Instr) (o : FM) (s : State) (af wf out : W32) : Prop :=
  ∃ t e, Gives i s t ∧ OnlyMatrix s t ∧ TakesNumber s t ∧ t.ctx.mx.queue = s.ctx.mx.queue ++ [e] ∧
    t.ctx.mx.active = s.ctx.mx.shadow ∧ t.ctx.mx.shadow = s.ctx.mx.shadow ∧ t.ctx.mx.loads = s.ctx.mx.loads ∧
    e.kind = .nest ∧ e.num = s.ctx.tlm.issued + 1 ∧ e.cfg = s.ctx.mx.shadow ∧ e.af = af ∧ e.wf = wf ∧ e.outf = out ∧
    e.w = o.w ∧ e.ba = s.iss.ba ∧ e.at0 = s.core.cycle ∧ e.started = none ∧ e.runs = [] ∧ e.step = 0 ∧
    ((readCfg s.ctx.mx.shadow).asrc = 1 → e.va = s.rdV o.va ∧ e.vap = s.psV o.va)

/-! ### Matrix arithmetic and the events of the matrix class (R209, R212 to R217, R221 to R234) -/

/-- The sum of the signed products of two aligned blocks (R213). -/
def signedProducts (a w : List QElem) : Int :=
  ((a.zip w).map fun p => (if p.1.neg = p.2.neg then 1 else -1) * (p.1.q * p.2.q : Int)).sum

/-- The rank of an index vector in the lexicographic order of a nest (R209). -/
def rankOf (l : List (Nat × MLevel)) : Nat := l.foldl (fun m x => m * (x.2.cnt + 1) + x.1) 0

/-- The value n · 2^e of a reading. -/
def Reading214.value (r : Reading214) : ℚ := r.n * (2 : ℚ) ^ r.e

/-- What an operation of timeline M leaves when it completes: its number is complete, and tiles and registers stand. -/
structure Finishes (u t : State) (num : W64) : Prop where
  line : t.ctx.tlm = u.ctx.tlm.complete num
  regs : t.ctx.r = u.ctx.r ∧ t.ctx.q = u.ctx.q ∧ t.ctx.queue = u.ctx.queue
  queue : t.ctx.mx.queue = u.ctx.mx.queue.filter fun e => e.num ≠ num

/-! ### The engine class (R192, R195 to R207) -/

/-- The command of a row enters the queue (R195): its operands as read, with the next number of its timeline; ESIG takes none. -/
def QueuesCommand (i : Instr) (op : EOp) (o : FE) (s : State) (desc : List W64) : Prop :=
  ∃ t x, Gives i s t ∧ t.ctx.queue = s.ctx.queue ++ [x] ∧ x.op = op ∧ x.o = o ∧ x.desc = desc ∧
    x.sd = s.rdS o.sd ∧ x.sa = s.rdS o.sa ∧ x.sb = s.rdS o.sb ∧ x.sc = s.rdS o.sc ∧ x.ba = s.iss.ba ∧
    x.at0 = s.core.cycle ∧ x.engine = none ∧ x.src = none ∧ x.wrote = false ∧ x.waiting = false ∧
    (match x.tl.toNat with
      | 0 => x.num = s.ctx.tlc.issued + 1 ∧ t.ctx.tlc = { s.ctx.tlc with issued := s.ctx.tlc.issued + 1 } ∧ t.ctx.tlf = s.ctx.tlf
      | 2 => x.num = s.ctx.tlf.issued + 1 ∧ t.ctx.tlf = { s.ctx.tlf with issued := s.ctx.tlf.issued + 1 } ∧ t.ctx.tlc = s.ctx.tlc
      | _ => t.ctx.tlc = s.ctx.tlc ∧ t.ctx.tlf = s.ctx.tlf) ∧
    x.tl.toNat = (match op with
      | .fcpy | .mxredStart | .mxredRelay | .mxredFinish | .rsig => 2
      | .esig => 3
      | _ => 0) ∧
    t.ctx.tlm = s.ctx.tlm ∧ t.ctx.r = s.ctx.r ∧ t.ctx.q = s.ctx.q ∧ t.mem = s.mem ∧ t.core = s.core ∧
    if isX op ∧ o.xRm = 4 then x.seed = rngStep s.iss.rng ∧ t.iss.rng = x.seed ∧
      t.ctx.c.rng = (if s.iss.rngSet then s.ctx.c.rng else x.seed)
    else t.ctx.c = s.ctx.c ∧ t.iss = s.iss

/-- A well-formed address in one of some spaces. -/
def InSpace (a : W64) (l : List Nat) : Prop := spaceOk a = true ∧ a.toNat / 2 ^ 60 ∈ l

/-- The four operands of a command and what each row asks of them (R196 to R204): the spaces of its addresses, and its
limits. -/
def SpacesOf (s : State) (op : EOp) (o : FE) : Prop :=
  let sa := s.rdS o.sa
  let sb := s.rdS o.sb
  let sc := s.rdS o.sc
  match op with
  | .cpy | .cpy2 | .cpy3 => InSpace sa [0, 1, 2, 3] ∧ InSpace sb [0, 1, 2, 3]
  | .cpyxScale | .cpyxAdd | .cpyxCast | .cpyxRadd | .cpyxRmax => InSpace sa [0, 1, 2] ∧ InSpace sb [0, 1, 2, 3]
  | .cpyh => InSpace sa [0, 1] ∧ InSpace sb [0, 1, 2, 3]
  | .fcpy => (InSpace sa [4] ∧ InSpace sb [0, 2, 3]) ∨ (InSpace sb [4] ∧ InSpace sa [0, 2, 3])
  | .mxredStart => InSpace sa [0, 2, 4] ∧ InSpace sb [0, 2]
  | .mxredRelay => InSpace sa [0, 2, 4] ∧ InSpace sb [0, 2] ∧ InSpace sc [0, 2]
  | .mxredFinish => InSpace sa [0, 2] ∧ InSpace sb [0, 2] ∧ InSpace sc [0, 2]
  | .rsig => InSpace sa [2, 3, 4]
  | _ => True

def LimitsOf (s : State) (op : EOp) (o : FE) : Prop :=
  let n (r : R6) : Nat := (s.rdS r).toNat
  let count := n o.sd % 32 = 0 ∧ 32 ≤ n o.sd ∧ n o.sd ≤ 2 ^ 24
  match op with
  | .cpy | .fcpy => n o.sc ≤ 2 ^ 32
  | .cpy2 => n o.sc / 2 ^ 32 * (n o.sc % 2 ^ 32) ≤ 2 ^ 32
  | .cpyxScale | .cpyxAdd | .cpyxRadd | .cpyxRmax =>
    let k := tyWidth o.xT / 8
    n o.sc ≤ 2 ^ 32 ∧ n o.sa % k = 0 ∧ n o.sb % k = 0 ∧ n o.sc % k = 0
  | .cpyxCast =>
    let k := tyWidth o.xT / 8
    n o.sc ≤ 2 ^ 32 ∧ n o.sa % (tyWidth o.xU / 8) = 0 ∧ n o.sb % k = 0 ∧ n o.sc % k = 0
  | .cpyh => n o.sc ≤ 2 ^ 32 ∧ n o.sd % 2 = 0 ∧ InSpace (s.rdS o.sd) [2]
  | .mxredStart => count ∧ n o.sa % 32 = 0 ∧ n o.sb % 4 = 0
  | .mxredRelay => count ∧ n o.sa % 32 = 0 ∧ n o.sb % 4 = 0 ∧ n o.sc % 32 = 0
  | .mxredFinish => count ∧ n o.sa % 4 = 0 ∧ n o.sb % 4 = 0 ∧ n o.sc % 32 = 0
  | .rsig => n o.sa % 8 = 0
  | _ => True

/-- A copy fault at an address. -/
def CopyTrap (i : Instr) (s : State) (a : W64) : Prop :=
  Gives i s (s.takeTrap { cause := 0x0D, slot := s.iss.slot, sres := some s.iss.slot, faddr := a })

/-- The n bytes at b lie within a range of operands. -/
def Covers (x : Span) (b : W64) (n : Nat) : Prop :=
  ∃ lo hi d : Int, x.reach = some (lo, hi) ∧ lo ≤ d ∧ d + n ≤ hi + 1 ∧ b = x.base + BitVec.ofInt 64 d

/-- The rows of the engine queue but for CPY3. -/
def IsCommand (op : EOp) (o : FE) (i : Instr) : Prop :=
  (op = .cpy ∧ i = .cpy o) ∨ (op = .cpy2 ∧ i = .cpy2 o) ∨ (op = .cpyxScale ∧ i = .cpyxScale o) ∨
  (op = .cpyxAdd ∧ i = .cpyxAdd o) ∨ (op = .cpyxCast ∧ i = .cpyxCast o) ∨ (op = .cpyxRadd ∧ i = .cpyxRadd o) ∨
  (op = .cpyxRmax ∧ i = .cpyxRmax o) ∨ (op = .cpyh ∧ i = .cpyh o) ∨ (op = .fcpy ∧ i = .fcpy o) ∨
  (op = .mxredStart ∧ i = .mxredStart o) ∨ (op = .mxredRelay ∧ i = .mxredRelay o) ∨
  (op = .mxredFinish ∧ i = .mxredFinish o) ∨ (op = .rsig ∧ i = .rsig o) ∨ (op = .esig ∧ i = .esig o)

/-- An operand register of a command is poisoned. -/
def PoisonedOperand (s : State) (o : FE) : Prop :=
  s.psS o.sd = true ∨ s.psS o.sa = true ∨ s.psS o.sb = true ∨ s.psS o.sc = true

/-- Only the core's pool, cache role and accesses in flight, memory and the homes' records change, beside sd. -/
structure OnlyPool (d : R6) (s t : State) : Prop where
  scalars : SameScalars s t d
  seq : t.ctx.q = s.ctx.q
  control : t.ctx.c = s.ctx.c
  lines : t.ctx.tlc = s.ctx.tlc ∧ t.ctx.tlm = s.ctx.tlm ∧ t.ctx.tlf = s.ctx.tlf
  queue : t.ctx.queue = s.ctx.queue
  regions : t.regions = s.regions

/-! ### The events of the engine class and arrivals (R60, R128, R192, R195 to R204, R311, R340) -/

/-- The semaphores of the region's grant on the core acted on stand in the core. -/
def GrantLive (s : State) : Prop := ∀ g, s.core.grantOf s.rid = some g → g.reserved = false

/-- Runs of bytes that share none. -/
def Apart (rs : List Run) : Prop := rs.Pairwise fun a b => a.key + a.n ≤ b.key ∨ b.key + b.n ≤ a.key

/-- The bytes of runs, one after the other, as memory holds them. -/
def bytesAt (s : State) (rs : List Run) : List Byte := rs.flatMap fun r => s.peek r.key r.n

/-- A dormant context woken at a handler with three values (R128, R201). -/
def Woken (d : Ctx) (a : Arrival) : Ctx :=
  let f (r : Regs) (n : Nat) (v : W64) : Regs := { r with s := vset r.s n v, sp := r.sp &&& ~~~((1 : W64) <<< n) }
  { d with sch := { d.sch with life := .resident, wasDormant := false }, c := { d.c with sres := 0 },
           q := { d.q with pc := (a.handler &&& 0x0000FFFFFFFFFFFE) ||| 0x2000000000000000 },
           r := f (f (f d.r 1 a.s1) 2 a.s2) 3 a.s3 }

/-- The dormant contexts of a region on a core. -/
def SleepsOn (s : State) (core : Nat) (rid : BitVec 32) (c : Ctx) : Prop :=
  c ∈ s.allCtxs ∧ c.sch.life = .dormant ∧ c.core.toNat = core ∧ c.id.rid = rid

/-- An arrival is handed over (R201, R311): it wakes the context of its region on the core that has been dormant longest, or
joins the queue of 32 entries. -/
def HandsOver (s t : State) (core : Nat) (a : Arrival) : Prop :=
  ((∀ c, ¬SleepsOn s core a.rid c) → (s.coreAt core).arrivals.length < 32 ∧
    (t.coreAt core).arrivals = (s.coreAt core).arrivals ++ [a] ∧ t.allCtxs = s.allCtxs) ∧
  ((∃ c, SleepsOn s core a.rid c) → ∃ d, SleepsOn s core a.rid d ∧
    (∀ c, SleepsOn s core a.rid c → d.sch.dormAt < c.sch.dormAt ∨ (d.sch.dormAt = c.sch.dormAt ∧ d.bank.toNat ≤ c.bank.toNat)) ∧
    t.allCtxs = s.allCtxs.map (fun c => if c.id = d.id then Woken c a else c) ∧
    (t.coreAt core).arrivals = (s.coreAt core).arrivals)

/-- A started command that goes on here and now: nothing of it waits or is remote, and its least time is over. -/
structure Runs (u : State) (x : Cmd) (tl : BitVec 2) (num : W64) : Prop where
  found : u.ctx.cmd? tl num = some x
  named : x.tl = tl ∧ x.num = num
  going : x.waiting = false ∧ x.wrote = false ∧ x.src = none ∧ x.at0 + x.minCycles ≤ u.core.cycle
  here : x.remoteSrc u = false ∧ x.remoteDst u = false

/-- The command has left, and its timeline has passed it. -/
structure Ended (u t : State) (tl : BitVec 2) (num : W64) : Prop where
  line : t.ctx.tl tl = (u.ctx.tl tl).complete num
  gone : t.ctx.running = u.ctx.running.filter fun x => !(x.tl = tl && x.num = num)
  regs : t.ctx.r = u.ctx.r ∧ t.ctx.queue = u.ctx.queue ∧ t.ctx.mx = u.ctx.mx

/-! ### Events of contexts (R97, R155, R156, R174, R188, R261, R317 to R327) -/

/-- FEREC takes e when the event f lands first of those that raise a flag (R29, R97, R156): an engine event stands alone; of a vector
event, b is the flagged one that was issued first and has not landed (log entry 117), else b is f; e is the flagged event of b's
bundle of the lowest slot. -/
def Recorded (all : List FlagEv) (f e : FlagEv) : Prop :=
  (f.eng.isSome = true → e = f) ∧
  (f.eng = none → ∃ b ∈ all, b.fl ≠ 0 ∧
    (if vecSlot f.slot then vecSlot b.slot = true ∧ ∀ x ∈ all, vecSlot x.slot = true → x.fl ≠ 0 → b.at0 ≤ x.at0 else b = f) ∧
    e.eng = none ∧ e.at0 = b.at0 ∧ e.fl ≠ 0 ∧ ∀ x ∈ all, x.eng = none → x.at0 = b.at0 → x.fl ≠ 0 → e.slot ≤ x.slot)

/-- One event lands before another (R97, R156): by its cycle; then the lower slot, S3 and S4 in the order in which their bundles
issued; then a copy before a fabric command, and the lower number. -/
def LandsBefore (a b : FlagEv) : Prop :=
  let rank (e : FlagEv) : List Nat :=
    [e.due, if e.slot = 4 then 3 else e.slot, (e.eng.map fun x => x.1.toNat).getD 0, (e.eng.map fun x => x.2.toNat).getD 0,
      e.at0, e.slot]
  rank a < rank b

/-- The results and flags of a context that are due by a cycle land (R29, R97, R155, R156): the others stay outstanding, FPF gathers
the flags by slot, and FEREC, where it is armed, takes what `Recorded` says of the first event that raises a flag. -/
structure Lands (cycle : Nat) (c d : Ctx) : Prop where
  rest : d = { c with c := { c.c with fpf := d.c.fpf, ferec := d.c.ferec }, events := d.events, board := d.board }
  board : ∀ p, p ∈ d.board ↔ p ∈ c.board ∧ ∀ n, p.due = some n → cycle < n
  events : ∀ e, e ∈ d.events ↔ e ∈ c.events ∧ cycle < e.due
  fpf : ∀ i < 64, d.c.fpf.getLsbD i = true ↔ c.c.fpf.getLsbD i = true ∨
    ∃ e ∈ c.events, e.due ≤ cycle ∧ 5 * e.slot ≤ i ∧ i < 5 * e.slot + 5 ∧ e.fl.getLsbD (i - 5 * e.slot) = true
  idle : ¬(c.c.ferec.getLsbD 63 = true ∧ c.c.ferec.getLsbD 62 = false) → d.c.ferec = c.c.ferec
  armed : c.c.ferec.getLsbD 63 = true → c.c.ferec.getLsbD 62 = false →
    (∀ e ∈ c.events, e.slot < 8 ∧ (vecSlot e.slot = true → e.eng = none)) →
    (d.c.ferec = c.c.ferec ∧ ∀ e ∈ c.events, e.due ≤ cycle → e.fl = 0) ∨
    ∃ f ∈ c.events, ∃ e ∈ c.events, f.due ≤ cycle ∧ f.fl ≠ 0 ∧
      (∀ x ∈ c.events, x.due ≤ cycle → x.fl ≠ 0 → ¬LandsBefore x f) ∧ Recorded c.events f e ∧
      bits d.c.ferec.toNat 63 62 = 3 ∧ bits d.c.ferec.toNat 61 59 = e.slot ∧ bits d.c.ferec.toNat 58 54 = e.fl.toNat ∧
      bits d.c.ferec.toNat 47 0 = e.ba.toNat % 2 ^ 48 / 2 * 2

/-- The result that an event brings of an instruction (R41): the scalar takes it and waits no more, unless a later instruction has
written it. -/
structure Brought (c d : Ctx) (n : R6) (tag : Nat) (v : W64) : Prop where
  value : n ≠ 0 → c.awaits n tag = true → vget d.r.s n.toNat = v ∧ d.r.sp.getLsbD n.toNat = false ∧
    ∀ p ∈ d.board, p.dst = .s n.toNat → p.due ≠ none
  stands : c.awaits n tag = false → d.r = c.r ∧ d.board = c.board
  others : ∀ m : R6, m ≠ n → vget d.r.s m.toNat = vget c.r.s m.toNat ∧ d.r.sp.getLsbD m.toNat = c.r.sp.getLsbD m.toNat

/-- A watch ends with a code (R188): sd receives it, the watch is gone, and the context acquires. -/
structure WatchEnds (u t : State) (w : Watch) (code : W64) : Prop where
  gone : t.ctx.watch = none
  value : Brought u.ctx t.ctx w.sd w.tag code
  memory : t.mem = u.mem
  acquires : t.core = (u.acquire w.sco).core

/-! ### Saves, placement and the schedulers (R24, R42, R129, R305 to R309, R321 to R326) -/

/-- A retired context (R129, R319): its queued commands are gone and its timelines are closed. -/
structure Retired (x y : Ctx) : Prop where
  life : y.sch.life = .retired
  queues : y.queue = [] ∧ y.running = [] ∧ y.mx.queue = [] ∧ y.launches = []
  lines : y.tlc.mark = x.tlc.issued ∧ y.tlm.mark = x.tlm.issued ∧ y.tlf.mark = x.tlf.issued
  held : y.es.held = 0

/-- The core writes no save, or that of a context that is being saved. -/
def FreeForNext (t : State) : Prop :=
  t.core.saving = none ∨ ∃ d ∈ t.allCtxs, d.sch.life = .saving ∧ t.core.saving = some d.id

/-! ### Events of the seam, the pool, cache roles and stores in flight (R176, R242 to R249, R256, R261 to R267, R278 to R290) -/

/-- A channel of a core (R256). -/
def chanAt (s : State) (core : BitVec 11) (n : Nat) : Chan := ((s.coreAt core.toNat).chans[n]?).getD {}

/-- The other channels of a core stand. -/
def OtherChannels (s t : State) (core : BitVec 11) (ch : BitVec 3) : Prop :=
  ∀ n, n ≠ ch.toNat → chanAt t core n = chanAt s core n

/-- The key of a byte of a pool bank (R240). -/
def bankKey (core bank off : Nat) : Nat := 2 ^ 60 + core * 2 ^ 32 + bank * 2 ^ 15 + off

/-- A line leaves a core's cache role (R248, R280): its dirty bytes go home first, wherever that is; one of a leaving bank stays,
clean, until they have performed. -/
structure LineLeaves (s t : State) (core : BitVec 11) (line : Nat) : Prop where
  gone : s.leavingLine core.toNat line = false → (t.coreAt core.toNat).findLine line = none
  stays : s.leavingLine core.toNat line = true → ((t.coreAt core.toNat).findLine line).map Line.dirty = some 0
  others : ∀ k, k ≠ line → (t.coreAt core.toNat).findLine k = (s.coreAt core.toNat).findLine k
  regs : t.ctx.r = s.ctx.r
  absent : (s.coreAt core.toNat).findLine line = none → t.mem = s.mem ∧ t.core = s.core ∧ t.cores = s.cores
  bytes : ∀ l, (s.coreAt core.toNat).findLine line = some l → LineGoesHome s t core.toNat l

/-- A watch of a core's contexts on a line has observed something. -/
def WatchesSeen (t : State) (core : BitVec 11) (line : Nat) : Prop :=
  ∀ x ∈ t.allCtxs, x.core = core → ∀ w, x.watch = some w → w.line = line → w.seen.isSome

/-! ### Regions, events for the host and the host's commands (R207, R253, R295 to R304, R345, R346) -/

/-- An event is posted (R290, R342, R346): written to the next entry of the event queue with SEQ = TAIL as a release of the device,
the MSI-X vector raised; held while the queue is full, refused by the host, or others are held; dropped, and marked lost, beyond
64. Nothing happens while the queue is off. -/
def Posts (s t : State) (e : HostEvent) : Prop :=
  let q := s.mgmt.evq
  let goes (k : Nat) : Prop := s.mgmt.held = [] ∧ q.full = false ∧ s.ringKey q q.tail Access.store = some k
  (q.enabled = false → t.mgmt = s.mgmt ∧ t.mem = s.mem) ∧
  (∀ k, q.enabled = true → goes k →
    Stored s t k 64 (q.tail.toNat + e.1.toNat * 2 ^ 32 + e.2.1.toNat * 2 ^ 64 + e.2.2.1.toNat * 2 ^ 128 +
      e.2.2.2.toNat * 2 ^ 192) ∧
    t.lineRecs.find? (fun r => r.key = k) = some { key := k, sco := 3, org := none, data := ofBytes 512 (t.peek k 64) } ∧
    t.mgmt = { s.mgmt with evq := { q with tail := q.tail + 1 }, msix := s.mgmt.msix + 1 }) ∧
  (q.enabled = true → (∀ k, ¬goes k) → s.mgmt.held.length < 64 →
    t.mgmt = { s.mgmt with held := s.mgmt.held ++ [e] } ∧ t.mem = s.mem) ∧
  (q.enabled = true → (∀ k, ¬goes k) → 64 ≤ s.mgmt.held.length →
    t.mgmt = { s.mgmt with evq := { q with lost := true } } ∧ t.mem = s.mem)

/-- A meter takes a charge and a credit (R356): it never leaves its 64 bits, and a credit leaves it at no less than what has been
charged since the last one. -/
def BilledTo (m n : Meter) (charge credit : Nat) : Prop :=
  let v := min (m.value.toNat + charge) (2 ^ 64 - 1)
  let since := min (m.since.toNat + charge) (2 ^ 64 - 1);
  (credit = 0 → n.value.toNat = v ∧ n.since.toNat = since) ∧ (credit ≠ 0 → n.value.toNat = max (v - credit) since ∧ n.since = 0)

/-- A context of a region at its creation (R14, R299). -/
structure Created (r : Region) (i : Nat) (c : Ctx) : Prop where
  id : c.id = { rid := r.rid, num := BitVec.ofNat 16 i }
  life : c.sch.life = .pending
  pc : c.q.pc.toNat = 2 * 2 ^ 60 + r.work.entry.toNat % 2 ^ 48 / 2 * 2
  args : vget c.r.s 1 = BitVec.ofNat 64 i ∧ vget c.r.s 2 = r.work.arg ∧ vget c.r.s 3 = r.block
  zeros : (∀ n, n ≠ 1 → n ≠ 2 → n ≠ 3 → vget c.r.s n = 0) ∧ c.r.sp = 0 ∧ c.r.pp = 0 ∧ c.q.loops = []
  holder : c.c.mhold = true ↔ i < r.work.holdn.toNat
  cls : c.c.base = r.lim.plo ∧ c.es.strict = r.work.strict
  seed : c.c.rng = if r.work.seed + BitVec.ofNat 64 i * 0x9E3779B97F4A7C15 = 0 then 0x9E3779B97F4A7C15
    else r.work.seed + BitVec.ofNat 64 i * 0x9E3779B97F4A7C15
  area : c.sch.saveArea = r.work.savb + BitVec.ofNat 64
    (if i < r.work.holdn.toNat then i * 0x50000 else r.work.holdn.toNat * 0x50000 + (i - r.work.holdn.toNat) * 0x8000)

/-- The same contexts, but for what a watch has seen (R188). -/
def SameButWatches (a b : List Ctx) : Prop :=
  (a.map fun (c : Ctx) => { c with watch := none }) = b.map fun (c : Ctx) => { c with watch := none }

/-- A region has reached STATE 2 (R302): its contexts have been created. -/
def Started (s t : State) (r : Region) : Prop :=
  t.region? r.rid = some { r with st := 2, wroteNs := s.time.elapsedNs } ∧ ∃ old new : List Ctx, t.ctxs = old ++ new ∧ SameButWatches old s.ctxs ∧ new.length = r.work.nctx.toNat ∧
    ∀ (i : Nat) c, new[i]? = some c → Created r i c

/-- A block is accepted (R295, R298, R302): a live region of a new id stands for it, and its words say so; it starts at once
where no predecessor is missing. -/
def Accepted (s t : State) (parent : Option (BitVec 32)) (addr : W64) (k : Nat) : Prop :=
  ∃ r, r.rid ≠ 0 ∧ s.region? r.rid = none ∧ r.block = addr ∧ r.bkey = k ∧ r.parent = parent ∧ r.st = 1 ∧
    r.work = (readBlockAt s k).work ∧
    (leNat (s.peek (k + 0xC8) 2) < r.work.npred.toNat →
      t.region? r.rid = some { r with wroteNs := s.time.elapsedNs } ∧ SameButWatches t.ctxs s.ctxs ∧
      leNat (t.peek (k + 0xC0) 8) = 1 * 2 ^ 48 + r.rid.toNat) ∧
    (r.work.npred.toNat ≤ leNat (s.peek (k + 0xC8) 2) → Started s t r ∧ leNat (t.peek (k + 0xC0) 8) = 2 * 2 ^ 48 + r.rid.toNat)

/-- The child-table entry that a condition value selects (R301). -/
def Selects (w : Work) (v : Nat) (iter : W64) : Option Nat :=
  if w.kind = 1 then some (if v = 0 then 1 else 0)
  else if w.kind = 3 then (if v < w.nsel.toNat then some v else none)
  else if v ≠ 0 ∧ (w.nsel = 0 ∨ iter.toNat < w.nsel.toNat) then some 0 else none

/-! ### Packets and ports (R180, R275, R329 to R338) -/

/-- A request is answered once (R334): its number is noted and the answer given, or kept while its lane is paused or its port trains
(R330, R336), and an exit from an idle state begins (R355);
what a watch has seen apart, no context, core or region changes. -/
structure Answered (s t : State) (src : BitVec 12) (lane seq : Nat) (a : Answer) (bs : List Byte) : Prop where
  fabric : t.fab = { s.fab with seen := (src, lane, seq) :: s.fab.seen, answers := t.fab.answers, owed := t.fab.owed }
  goes : s.fab.route src 1 ≠ .wait → t.fab.answers = (src, seq, a, bs) :: s.fab.answers ∧ t.fab.owed = s.fab.owed
  waits : s.fab.route src 1 = .wait → t.fab.answers = s.fab.answers ∧ t.fab.owed = s.fab.owed ++ [(src, seq, a, bs)]
  context : t.ctx = { s.ctx with watch := t.ctx.watch }
  rest : t.core = s.core ∧ t.cores = s.cores ∧ t.regions = s.regions ∧ t.mgmt = s.mgmt ∧ t.power = { s.power with idle := 0 }

/-- The record of one of some runs' lines does not cover another device (R6, R290). -/
def NotCovered (s : State) (rs : List Run) : Prop :=
  ∃ r ∈ s.lineRecs, r.sco ≠ 3 ∧ ∃ x ∈ rs, r.key < x.key + x.n ∧ x.key < r.key + 64

/-- The line of a key carries a release of the sending device at SYSTEM scope (R290, R293). -/
def DeviceRecord (t : State) (k : Nat) : Prop :=
  t.lineRecs.find? (fun r => r.key = lineOf k) =
    some { key := lineOf k, sco := 3, org := none, data := ofBytes 512 (t.peek (lineOf k) 64) }

/-- A channel holds a piece of a range, or the tables of its page (R190). -/
def RangeHeld (s : State) (src : BitVec 12) (addr : W64) (n : Nat) : Prop :=
  ∃ p ∈ pieces (n / 2048 + 2) addr n, s.heldRequest src p.1.toNat s.fab.nextSeq = true

/-- A request that is new and for this device. -/
def Fresh (s : State) (src : BitVec 12) (lane seq : Nat) (addr : W64) : Prop :=
  addr.extractLsb' 48 12 = s.mgmt.devid ∧ (src, lane, seq) ∉ s.fab.seen

/-- The bytes stand in the runs, and every other byte is as it was. -/
def RunsWritten (s t : State) (rs : List Run) (bs : List Byte) : Prop :=
  (Apart rs → bytesAt t rs = bs) ∧ ∀ j, (∀ r ∈ rs, j < r.key ∨ r.key + r.n ≤ j) → readByte t.mem j = readByte s.mem j

/-- What an answer does to a command that asked for it (R331). -/
def CmdAnswered (x y : Cmd) (seq : Nat) (ans : Answer) : Prop :=
  (seq ∈ x.seqs → y = if ans = .fault then { x with failed := true } else { x with seqs := x.seqs.filter (· ≠ seq) }) ∧
  (seq ∉ x.seqs → (∀ a ∈ x.asked, a.1 ≠ seq) → y = x) ∧
  ∀ a, seq ∉ x.seqs → x.asked.find? (fun q => q.1 = seq) = some a →
    (∀ d u m, ans = .data d u m → y = { x with got := x.got ++ [(a.2, d, u)] }) ∧
    ((∀ d u m, ans ≠ .data d u m) → y = { x with failed := true })

/-- A port; one beyond the eighteen reads as disabled. -/
def portAt (s : State) (p : BitVec 5) : Port := (s.fab.ports[p.toNat]?).getD { state := 4, en := false }

/-- Only a port changes, from x to y. -/
structure OnlyPort (s t : State) (p : BitVec 5) (y : Port) : Prop where
  port : portAt t p = y
  others : ∀ q, q ≠ p → portAt t q = portAt s q
  rest : t = { s with fab := { s.fab with ports := t.fab.ports } }

/-- Packets that wait, and those of a failed port, take the route that the tables give now; a forwarded packet that leaves, or
has no route, is no longer kept (R332, R337); answers whose lane they waited for are given, in their order (R330). -/
def Rerouted (s t : State) (failed : Option (BitVec 5)) : Prop :=
  t.fab.owed = (s.fab.owed.filter fun a => decide (t.fab.route a.1 1 = .wait)) ∧
  t.fab.answers = (s.fab.owed.filter fun a => decide (t.fab.route a.1 1 ≠ .wait)).reverse ++ s.fab.answers ∧
  t.fab.out = (s.fab.out.map fun x =>
      if x.port = none ∨ (failed ≠ none ∧ x.port = failed) then { x with port := (t.fab.route x.dst x.body.lane).out } else x).filter fun x =>
    match x.body with
    | .forward _ _ => decide (t.fab.route x.dst x.body.lane ≠ .none ∧ x.port = none)
    | _ => true

/-- The state but for what rerouting changes. -/
def State.routedAs (v t : State) : State :=
  { v with fab := { v.fab with out := t.fab.out, answers := t.fab.answers, owed := t.fab.owed } }

/-! ### The host link, the management registers, time and translation (R272 to R274, R342 to R348, R357) -/

/-- The bytes of an event queue's entry with SEQ n (R346), as a number. -/
def eventWord (n : W32) (e : HostEvent) : Nat :=
  (n.toNat + e.1.toNat * 2 ^ 32) % 2 ^ 64 + e.2.1.toNat * 2 ^ 64 + e.2.2.1.toNat * 2 ^ 128 + e.2.2.2.toNat * 2 ^ 192

/-- Held events are written, oldest first, each as a release of the device that raises the MSI-X vector, while the queue q has room
and the host accepts their place; the others stay held (R290, R342, R346). -/
def Flushes (s t : State) (q : Ring) : Prop :=
  (q.enabled = false → t = { s with mgmt := { s.mgmt with evq := q } }) ∧
  (q.enabled = true → (q.tail - q.head).toNat ≤ q.entries →
    let key (i : Nat) : Option Nat := s.ringKey q (q.tail + BitVec.ofNat 32 i) Access.store
    ∃ n, n ≤ s.mgmt.held.length ∧ n ≤ q.entries - (q.tail - q.head).toNat ∧ (∀ i < n, (key i).isSome = true) ∧
      (n < s.mgmt.held.length → n = q.entries - (q.tail - q.head).toNat ∨ key n = none) ∧
      t.mgmt = { s.mgmt with
        evq := { q with tail := q.tail + BitVec.ofNat 32 n }
        held := s.mgmt.held.drop n
        msix := s.mgmt.msix + n } ∧
      (∀ i < n, ∀ e k, s.mgmt.held[i]? = some e → key i = some k → (∀ j < n, i < j → key j ≠ some k) →
        leNat (t.peek k 64) = eventWord (q.tail + BitVec.ofNat 32 i) e ∧ DeviceRecord t k) ∧
      ∀ k, (∀ i < n, ∀ x, key i = some x → k < x ∨ x + 64 ≤ k) → readByte t.mem k = readByte s.mem k)

/-- TIME as a number of nanoseconds that does not wrap (R38, R357). -/
def State.timeNs (s : State) : Nat := s.time.elapsed / 105000 + s.time.steps

/-- An offset d of the source ahead of TIME is measured (R357): OFS shows it, saturated; one ahead by more than 1 ms is stepped
over at once, any other is slewed. An exit from an idle state begins (R355). -/
structure Measured (s t : State) (d : Int) : Prop where
  rest : t = { s with power := { s.power with idle := 0 }, time := { s.time with ofs := t.time.ofs, near := t.time.near, steps := t.time.steps, slew := t.time.slew } }
  ofs : t.time.ofs.toInt = max (-2 ^ 31) (min (2 ^ 31 - 1) d)
  near : t.time.near = if d.natAbs ≤ 20 then some (s.time.near.getD (s.time.elapsed / 105000)) else none
  ahead : 1000000 < d → (t.timeNs : Int) = s.timeNs + d ∧ t.time.slew = 0
  slews : d ≤ 1000000 → t.timeNs = s.timeNs ∧ t.time.slew = 105000 * d

/-- An invalidation of a kind takes place (R273): of the translations that are held, those that it covers go, and no other: for
KIND 0 those of the region whose page contains the address, for KIND 1 those of the region, for KIND 2 all. -/
def Invalidates (s t : State) (kind : Nat) (rid : BitVec 32) (va : Nat) : Prop :=
  ∀ x, x ∈ t.trans ↔ x ∈ s.trans ∧
    (kind = 0 → ¬(x.rid = rid ∧ x.va ≤ va ∧ va < x.va + x.size)) ∧ (kind = 1 → x.rid ≠ rid) ∧ kind ≠ 2

/-- A store in flight may have used a translation that an invalidation covers (R273): for KIND 0, one of the region in the GiB of the
address, since the page that it used may have been of any size. -/
def UsedCovered (s : State) (kind : Nat) (rid : BitVec 32) (va : Nat) : Prop :=
  ∃ c ∈ s.core :: s.cores, ∃ f ∈ c.flight, f.addr.toNat / 2 ^ 60 = 2 ∧
    (kind = 0 → f.ctx.rid = rid ∧ f.addr.toNat % 2 ^ 48 / 2 ^ 30 = va / 2 ^ 30) ∧ (kind = 1 → f.ctx.rid = rid)

/-- What a write of TICTL with GO leaves (R273): KIND and REGION are kept, and an invalidation starts unless one is in progress. It
begins an exit from an idle state (R355). -/
def State.going (s : State) (kind : BitVec 2) (rid : BitVec 32) : State :=
  { s with
    power := { s.power with idle := 0 }
    mgmt := { s.mgmt with
      tikind := kind
      tiregion := rid
      tiJob := if s.mgmt.tiJob.isSome then s.mgmt.tiJob else some (kind, rid, s.mgmt.tiaddr &&& 0x0000FFFFFFFF0000) } }

/-! ### Supply, idle states, starts and identity (R351 to R362) -/

/-- The answer of the responder stands first among those given; only the counter of free values may move beside it. -/
def Responds (i : Instr) (s : State) (x : SpdmAnswer) : Prop :=
  ∃ t, Gives i s t ∧ t = { s with boot := { s.boot with spdm := x :: s.boot.spdm }, nfree := t.nfree }

/-- The state of a core's seam that a start finds (R267): code 3 counts as retired; where channels of it are marked as failing, a full
one gives up to four of them and is narrowed, and any other is retired. -/
def foundSeam (s : State) (r : StartReport) (n : Nat) : BitVec 2 :=
  let st : BitVec 2 := if assocD (0 : BitVec 2) n r.seams = 3 then 2 else assocD 0 n r.seams
  let marks := (s.boot.failing.filter fun f => f.1 = n).length
  if marks = 0 then st else if s.seamState n = 0 ∧ marks ≤ 4 ∧ st ≠ 2 then 1 else 2

/-- Who keeps the pool images of retired seams after a start (R352): a partner stays while the seam stays retired; a newly retired one
gets the lowest core of its cluster with a full seam that is no partner yet, or none where there is none. -/
structure PartnersGiven (s t : State) : Prop where
  stays : ∀ p ∈ s.boot.partners, t.seamState p.1 = 2 → p ∈ t.boot.partners
  given : ∀ p ∈ t.boot.partners, p ∉ s.boot.partners → s.seamState p.1 ≠ 2 ∧ t.seamState p.1 = 2 ∧ p.2 / 48 = p.1 / 48 ∧
    t.seamState p.2 = 0 ∧ ∀ n < p.2, n / 48 = p.1 / 48 → t.seamState n = 0 → ∃ q ∈ t.boot.partners, q.2 = n
  none : ∀ n < 1152, s.seamState n ≠ 2 → t.seamState n = 2 → (∀ p ∈ t.boot.partners, p.1 ≠ n) →
    ∀ k, k / 48 = n / 48 → t.seamState k = 0 → ∃ q ∈ t.boot.partners, q.2 = k

/-- A start has come to its end (R359 to R361): its kind, 3 where it was an extended one; the transport flag falls only with tests
that pass; nothing waits for a start; the fused counter stands; event 21 reports an extended start and event 16 every one. -/
structure StartDone (s t : State) (kind : BitVec 4) (r : StartReport) : Prop where
  phase : t.boot.phase = 15 ∧ t.boot.fwerr = false ∧ t.boot.wreq = false ∧ t.boot.failing = [] ∧ t.boot.images = [] ∧ t.boot.lost = []
  kind : t.boot.kind = if s.boot.tflag then 3 else kind
  flag : t.boot.tflag = (s.boot.tflag && !r.testsOk)
  counter : t.boot.rollback = s.boot.rollback
  partners : PartnersGiven s t
  report : ∃ u v, Posts v t (16, 0, BitVec.ofNat 64 (t.boot.kind.toNat * 2 ^ 56), 0) ∧
    (s.boot.tflag = true → Posts u v (21, 0, if r.testsOk then 0 else BitVec.ofNat 64 (2 ^ 56), t.boot.geow)) ∧
    (s.boot.tflag = false → u = v) ∧ u.boot = t.boot

/-- The image verifies and its version is not below the fused counter (R361). -/
def Verified (s : State) (r : StartReport) : Prop := r.sigOk = true ∧ s.boot.rollback.toNat ≤ r.version

/-- Firmware that does not verify does not run (R361). -/
def FirmwareStops (t : State) : Prop := t.boot.fwerr = true ∧ t.boot.phase = 1 ∧ t.boot.wreq = false

/-- After a warm start a core's calibrations are the valid ones whose bank has stayed within 8 °C of them, and new ones at the
temperature of now (R233, R359). -/
def Recalibrated (s t : State) : Prop :=
  (∀ c ∈ s.core.pool.cals, c.stray = false → c ∈ t.core.pool.cals) ∧
  ∀ c ∈ t.core.pool.cals, c.stray = false ∧ (c ∈ s.core.pool.cals ∨ c.at_ = s.bankTemp s.core.num.toNat)

/-! ### Issue, encodings, memory and reset (R10, R41, R44 to R69, R240, R312, R344) -/

/-- The bytes of a slot of a class (R44). -/
def wordBits : SlotClass → Nat
  | .scalar | .control => 32
  | .vector | .memory => 64
  | .matrix | .engine => 96

/-- A wait/signal block that neither waits nor signals (R60). -/
def noWait : WaitSig := { we := 0, ws := 0, wt := 0, se := 0, ss := 0, si := 0, spt := 0 }

/-- The rows that stand in no slot: what the machine and its surroundings do on their own. -/
def isEvent : Instr → Bool
  | .issueCycle _ | .waitaWake _ | .acknowledgment _ _ | .hostDoorbell _ | .loadDataReturn _ _ _ | .performAtHome _ _
  | .emptyBundle _ _ | .vectorResultLand _ | .geometryComplete _ | .waitaTimeout _ | .sownComplete _ _ | .srelComplete _ _
  | .guardRefresh _ _ | .remoteStoreFault _ _ _ | .matrixEntryStart _ | .tileOperation _ _ | .nestComplete _ _
  | .mldwComplete _ _ | .mcalComplete _ _ | .engineQueueRelease _ | .engineOpComplete _ _ _ | .engineOpFailure _ _ _ _ _
  | .pageFaultReplay _ _ _ | .arrivalDelivery _ _ | .poolChangeComplete _ | .cacheEviction _ _ | .hostSnoop _ _
  | .patrolScrub _ _ _ | .seamChannelFailMark _ _ | .trapEntry _ | .pendingRecordWrite _ | .dispRetry _ | .dispDivert _
  | .dispEnd _ | .preemptionRequest _ _ | .preemptionLand _ | .saveComplete _ | .saveAbandoned _ _ | .placement _
  | .migrationDecision _ | .classPreemptRequest _ | .temperatureRefresh _ _ | .contextRetire _ | .launchDecision _
  | .regionStart _ | .regionConditionEval _ | .regionComplete _ | .regionBlockUpdate _ _ | .remoteStorePacket _ _ _ _ _
  | .remoteAtomicPacket _ _ _ _ _ _ _ | .remoteSignalPacket _ _ _ _ | .copyDataPacket _ _ _ _ _ _ | .mxReducePacket _ _ _ _
  | .packetForward _ _ | .flitReplay _ | .lanePause _ _ | .laneResume _ _ | .linkRetrain _ | .retrainAttemptFail _
  | .linkUp _ | .linkDown _ | .routeFailure _ | .portEnable _ | .portDisable _ | .eventQueueDrain _ | .hcqbWrite _
  | .evqbWrite _ | .devidWrite _ | .thermWrite _ | .preqWrite _ | .tlbInvalidatePage _ _ | .tlbInvalidateRegion _
  | .atsInvalidation _ _ _ | .pgrantWrite _ | .tctlWrite _ | .tsetWrite _ | .ptpExchange _ | .registerWrite _ _ _
  | .warmResume _ | .coldStart _ | .warmStart _ | .shockLatch _ | .challenge _ | .getMeasurements _
  | .sourceReadsFinished _ _ _ | .hostLinkChange _ _ | .hostCmdLaunch | .hostCmdStop | .hostCmdNop | .tlbInvalidateAll
  | .invalidationComplete | .transportRequest | .warmStartRequest | .droopOnset | .droopEnd | .supplyLoss | .poolImageRetention
  | .idleEntry | .idleExit | .getVersion | .getCapabilities | .negotiateAlgorithms | .getDigests | .getCertificate => true
  | _ => false

/-- The major opcodes that a class assigns (R64 to R69), as ranges; those of the geometry unit in slot 3 only (R66). -/
def opcodeRanges (c : SlotClass) (s3 : Bool) : List (Nat × Nat) :=
  match c with
  | .scalar => [(0x00, 0x16), (0x18, 0x1D), (0x20, 0x34), (0x38, 0x3D), (0x40, 0x46), (0x48, 0x4E), (0x50, 0x51), (0x58, 0x5B),
      (0x60, 0x65), (0x70, 0x72)]
  | .control => [(0x00, 0x05), (0x08, 0x0A), (0x10, 0x13), (0x18, 0x1D)]
  | .vector => [(0x00, 0x13), (0x20, 0x2C), (0x30, 0x33), (0x38, 0x3A), (0x40, 0x44), (0x48, 0x4C), (0x80, 0x88), (0x8B, 0x90),
      (0xA0, 0xA5), (0xA7, 0xA8), (0xB0, 0xB1)] ++ if s3 then [(0xC0, 0xC1), (0xC4, 0xC8)] else []
  | .matrix => [(0x00, 0x08), (0x0F, 0x0F)]
  | .engine => [(0x00, 0x04), (0x08, 0x0A), (0x10, 0x13)]
  | .memory => [(0x00, 0x06), (0x08, 0x0E), (0x10, 0x13), (0x18, 0x1F), (0x20, 0x27), (0x30, 0x34), (0x38, 0x3E)]

/-- The context as its bundle comes up, with slot n in execution (R10, R41, R312): reads see it as it stood before. -/
def State.upWith (u : State) (b : Bun) (n : Nat) : State :=
  { u with
    pre := u.ctx
    ctx := { u.ctx with q := { u.ctx.q with pc := b.ba }, sch := { u.ctx.sch with lic := (u.core.cycle : Int) } }
    iss := { ba := b.ba, len := b.len, slot := n, xfer := u.ctx.q.reent.join, rng := u.ctx.c.rng,
             legal := b.hdr.ib || b.closedLoop u.ctx.firstSlot, ready := true } }

/-- The pool of a core stands as the reset map has it (R240): 8 REG, 8 CCH, 48 SCR and 32 TILE banks, all unowned, the SCR banks
zero, the cache lines invalid, the tiles empty. -/
structure ResetMap (t : State) (n : Nat) : Prop where
  roles : ∀ j < 96, (t.coreAt n).pool.role j = if j < 8 then 0 else if j < 16 then 1 else if j < 64 then 2 else 3
  owners : ∀ j, (t.coreAt n).pool.ownerOf j = none
  scr : ∀ j, 16 ≤ j → j < 64 → ∀ off < 2 ^ 15, readByte t.mem (bankKey n j off) = 0
  cch : (t.coreAt n).cache = []
  tiles : (t.coreAt n).pool.tiles = []

end Sys2Proof.Machine
end

