-- ==== Sys2Proof/Certificates/Slice0/Obligations.lean ====
section
/-!
DEFINITION. The statements for the provers. Each names the rules of the manual that it formalises. A statement says that
`exec` answers a next state and what that state holds; sources are read as they stood before the bundle (`rdS`, `psS` and the
like, R41), destinations as they stand afterwards (`sNow`, `vNow`, `pNow`). A statement of several parts names each part as a
rule of its own. The words they are written in stand in Sys2Proof/Safety.lean.
-/

open Sys2Proof Sys2Proof.Machine

/-- R102, R103, R100, R41: every integer instruction with a 12-bit immediate form, in both forms, writes its result, poisoned
if and only if a source is, and changes nothing else; a write of s0 is discarded. -/
def Sys2Proof.Machine.IntegerResultsRule : Prop :=
  ∀ e ∈ intTable, ∀ (s : State) (d a b : R6) (imm : BitVec 12),
    ScalarDone (e.1 d a b) s d (e.2.2 (s.rdS a) (s.rdS b)) (s.psS a || s.psS b) ∧
    ScalarDone (e.2.1 d a imm) s d (e.2.2 (s.rdS a) (imm.signExtend 64)) (s.psS a)

/-- R102: shifts and rotation by the low six bits of sb or by the immediate. -/
def Sys2Proof.Machine.ShiftResultsRule : Prop :=
  ∀ e ∈ shiftTable, ∀ (s : State) (d a b k : R6),
    ScalarDone (e.1 d a b) s d (e.2.2 (s.rdS a) ((s.rdS b).toNat % 64)) (s.psS a || s.psS b) ∧
    ScalarDone (e.2.1 d a k) s d (e.2.2 (s.rdS a) k.toNat) (s.psS a)

/-- R102: CLZ counts the zero bits above the highest one bit, POPC the one bits. -/
def Sys2Proof.Machine.BitCountsRule : Prop :=
  ∀ (s : State) (d a : R6),
    (∃ n ≤ 64, ScalarDone (.clz d a) s d (BitVec.ofNat 64 n) (s.psS a) ∧
      (∀ i, 64 - n ≤ i → (s.rdS a).getLsbD i = false) ∧ (n < 64 → (s.rdS a).getLsbD (63 - n) = true)) ∧
    ScalarDone (.popc d a) s d (BitVec.ofNat 64 ((List.finRange 64).countP fun i => (s.rdS a).getLsbD i)) (s.psS a)

/-- R104, R112: CMP writes 1 or 0 to sd, PCMP fills or clears all 256 bits of pd, by the same six conditions. -/
def Sys2Proof.Machine.CompareResultsRule : Prop :=
  ∀ e ∈ cmpTable, ∀ (s : State) (d a b : R6) (imm : BitVec 12) (pd : R5),
    ScalarDone (e.1 d a b) s d (if e.2.2.2 (s.rdS a) (s.rdS b) then 1 else 0) (s.psS a || s.psS b) ∧
    ScalarDone (e.2.1 d a imm) s d (if e.2.2.2 (s.rdS a) (imm.signExtend 64) then 1 else 0) (s.psS a) ∧
    PredDone (e.2.2.1 pd a b) s pd (if e.2.2.2 (s.rdS a) (s.rdS b) then BitVec.allOnes 256 else 0) (s.psS a || s.psS b)

/-- R111: the predicate instructions combine all 256 bits. -/
def Sys2Proof.Machine.PredicateResultsRule : Prop :=
  ∀ (s : State) (d a b : R5),
    PredDone (.pand d a b) s d (s.rdP a &&& s.rdP b) (s.psP a || s.psP b) ∧
    PredDone (.por d a b) s d (s.rdP a ||| s.rdP b) (s.psP a || s.psP b) ∧
    PredDone (.pxor d a b) s d (s.rdP a ^^^ s.rdP b) (s.psP a || s.psP b) ∧
    PredDone (.pandn d a b) s d (s.rdP a &&& ~~~s.rdP b) (s.psP a || s.psP b)

/-- R16, R41, R100, R104, R111, R112: CMP writes 1 or 0, PCMP fills or clears a predicate, and the predicate logic works on
all 256 bits. -/
def Obligations.ComparesAndPredicates : Prop := CompareResultsRule ∧ PredicateResultsRule

/-- R105: MOVI, MOVK and ADDPC. MOVK replaces one 16-bit part of sd, which is a source. -/
def Sys2Proof.Machine.LongImmediatesRule : Prop :=
  ∀ (s : State) (d : R6) (imm : BitVec 18) (h : BitVec 2) (k : BitVec 16),
    ScalarDone (.movi d imm) s d (imm.signExtend 64) false ∧
    ScalarDone (.addpc d imm) s d (s.iss.ba + 2 * imm.signExtend 64) false ∧
    ∃ v : W64, ScalarDone (.movk d h k) s d v (s.psS d) ∧
      ∀ i, v.getLsbD i = if 16 * h.toNat ≤ i ∧ i < 16 * h.toNat + 16 then k.getLsbD (i - 16 * h.toNat)
        else (s.rdS d).getLsbD i

/-- R14, R18, R41, R100, R102, R103, R105: every scalar integer instruction writes the result of its rule to sd and changes
nothing else. -/
def Obligations.IntegerResults : Prop := IntegerResultsRule ∧ ShiftResultsRule ∧ BitCountsRule ∧ LongImmediatesRule

/-- R100, R106 to R110: every scalar floating instruction takes its operands from the low bits of its sources, writes the
pattern its operation gives, zero-extended, and sends the operation's flags for its slot. FloatingArithmetic
says what the operations give. -/
def Obligations.ScalarFloating : Prop :=
  ∀ (s : State) (d a b c : R6) (t m u : BitVec 2) (n : BitVec 1),
    (∀ e ∈ floatTable, FloatDone (e.1 d a b t m) s d (scalarFmt t).w
      (e.2 (scalarFmt t) (modeOf m.toNat) (s.rdF a (scalarFmt t).w) (s.rdF b (scalarFmt t).w)) (s.psS a || s.psS b)) ∧
    FloatDone (.fsqrt d a t m) s d (scalarFmt t).w (fpSqrt (scalarFmt t) (modeOf m.toNat) (s.rdF a (scalarFmt t).w))
      (s.psS a) ∧
    (∀ e ∈ floatMinMax, FloatDone (e.1 d a b t) s d (scalarFmt t).w
      (fpMinMax (scalarFmt t) e.2 (s.rdF a (scalarFmt t).w) (s.rdF b (scalarFmt t).w)) (s.psS a || s.psS b)) ∧
    (∀ e ∈ floatCompares,
      let r := fpCmp (scalarFmt t) e.2.1 e.2.2 (s.rdF a (scalarFmt t).w) (s.rdF b (scalarFmt t).w)
      FloatDone (e.1 d a b t) s d 64 (if r.1 then 1 else 0, r.2) (s.psS a || s.psS b)) ∧
    FloatDone (.cvtif d a t m n) s d (scalarFmt t).w
      (roundTo (scalarFmt t) (modeOf m.toNat) false (ofInt (if n = 1 then (s.rdS a).toNat else (s.rdS a).toInt))) (s.psS a) ∧
    (let r := toIntRange (modeOf m.toNat) (if n = 1 then 0 else -2 ^ 63) (if n = 1 then 2 ^ 64 - 1 else 2 ^ 63 - 1)
        (decodeVal (scalarFmt t) (s.rdF a (scalarFmt t).w));
      FloatDone (.cvtfi d a t m n) s d 64 ((BitVec.ofInt 64 r.1).toNat, r.2) (s.psS a)) ∧
    FloatDone (.cvtff d a t m u) s d (scalarFmt t).w
      (fpCvt (scalarFmt t) (scalarFmt u) (modeOf m.toNat) (s.rdF a (scalarFmt u).w)) (s.psS a) ∧
    FloatDone (.fmaF64 d a b c) s d 64 (fpFma fmt64 .rne false (s.rdF a 64) (s.rdF b 64) (s.rdF c 64))
      (s.psS a || s.psS b || s.psS c) ∧
    FloatDone (.fmaF32 d a b c) s d 32 (fpFma fmt32 .rne false (s.rdF a 32) (s.rdF b 32) (s.rdF c 32))
      (s.psS a || s.psS b || s.psS c)

/-- R79, R106, R109, R110: on finite operands the four operations and the fused product round the exact number once: a sum,
a difference, a product, a quotient by a divisor that is not zero; an IEEE pattern decodes to the number its fields give. -/
def Sys2Proof.Machine.FloatingExactRule : Prop :=
  (∀ (m : RMode) (x y : Val), x.finite → y.finite →
    (∃ v, addVal m x y = some v ∧ v.finite ∧ v.exact = x.exact + y.exact) ∧
    (∃ v, addVal m x (negVal y) = some v ∧ v.finite ∧ v.exact = x.exact - y.exact) ∧
    (∃ v, mulVal x y = some v ∧ v.finite ∧ v.exact = x.exact * y.exact) ∧
    (y.exact ≠ 0 → ∃ v, divVal x y = some (v, false) ∧ v.finite ∧ v.exact = x.exact / y.exact)) ∧
  ∀ f ∈ [fmt64, fmt32, fmt16, fmtB16], ∀ (sg : Bool) (e k : Nat), e < 2 ^ f.eb - 1 → k < 2 ^ f.mb →
    let v := decodeVal f ((if sg then 2 ^ (f.w - 1) else 0) + e * 2 ^ f.mb + k)
    v.finite ∧ v.exact = (if sg then -1 else 1) *
      (if e = 0 then (k : ℚ) * 2 ^ (1 - f.bias - f.mb) else ((2 : ℚ) ^ f.mb + k) * 2 ^ ((e : ℤ) - f.bias - f.mb))

/-- R89, step 1, and R90: the multiple of the grid step that each mode selects for a positive number, by its sign: to the
nearest with ties to the even multiple, toward zero, up, down, and under SR by the 24 rounding bits; a number on the grid
stays. -/
def Sys2Proof.Machine.GridRoundingRule : Prop :=
  ∀ (num den : Nat) (e : Int) (neg : Bool), 0 < num → 0 < den →
    let x : ℚ := (num : ℚ) / den
    let u : ℚ := 2 ^ e
    let y (m : RMode) : ℚ := (roundGrid m neg num den e).1 * u
    (∀ m, ((roundGrid m neg num den e).2 = true ↔ ∃ q : Nat, x = q * u)) ∧
    (∀ m, (∀ rb, m = .sr rb → rb < 2 ^ 24) → (∃ q : Nat, x = q * u) → y m = x) ∧
    (2 * |x - y .rne| ≤ u ∧ (2 * |x - y .rne| = u → Even (roundGrid .rne neg num den e).1)) ∧
    (y .rtz ≤ x ∧ x < y .rtz + u) ∧
    (if neg then y .rup = y .rtz ∧ x ≤ y .rdn ∧ y .rdn < x + u else y .rdn = y .rtz ∧ x ≤ y .rup ∧ y .rup < x + u) ∧
    ∀ rb, rb < 2 ^ 24 → y (.sr rb) = ((⌊x * 2 ^ 24 / u⌋₊ + rb) / 2 ^ 24 : Nat) * u

/-- R93: an operand that is a NaN gives the first of them with its quiet bit set, and NV where one is signalling; an
operation that makes a NaN from other operands gives the canonical one and NV. FMIN and FMAX give the other operand (R107). -/
def Sys2Proof.Machine.NanOperandsRule : Prop :=
  ∀ f ∈ [fmt64, fmt32, fmt16, fmtB16], ∀ (m : RMode) (a b : Nat), a < 2 ^ f.w → b < 2 ^ f.w →
    let nv : BitVec 5 := if isSnan f a || isSnan f b then fNV else 0
    (∀ op ∈ [fpAdd, fpSub, fpMul, fpDiv],
      (isNan f a → op f m a b = (a ||| 2 ^ (f.mb - 1), nv)) ∧
      (isNan f a = false → isNan f b → op f m a b = (b ||| 2 ^ (f.mb - 1), nv))) ∧
    (∀ less, (isNan f a = false → isNan f b → fpMinMax f less a b = (a, nv)) ∧
      (isNan f a → isNan f b = false → fpMinMax f less a b = (b, nv)) ∧
      (isNan f a → isNan f b → fpMinMax f less a b = (a ||| 2 ^ (f.mb - 1), nv))) ∧
    fpSub f m (infPat f false) (infPat f false) = (qnan f, fNV) ∧ fpAdd f m (infPat f false) (infPat f true) = (qnan f, fNV) ∧
    fpMul f m 0 (infPat f false) = (qnan f, fNV) ∧ fpDiv f m 0 0 = (qnan f, fNV) ∧
    fpDiv f m (infPat f false) (infPat f true) = (qnan f, fNV) ∧
    (isNan f a = false → (∃ n d, decodeVal f a = .fin true n d ∧ n ≠ 0) ∨ decodeVal f a = .inf true →
      fpSqrt f m a = (qnan f, fNV))

/-- R85, R89, R91, R92: rounding a number x that is not zero, given by its magnitude and sign, into a format: the step of the
grid, no negative number where there is no sign, zero, overflow by the table of R89, a subnormal that SUB drops, and otherwise
the grid point itself; NX where the value delivered is not x, UF for a tiny one or for a zero. A zero keeps its sign; an
infinity is kept where the format has one. -/
def Sys2Proof.Machine.RoundedValuesRule : Prop :=
  ∀ f, RoundFmt f → ∀ (m : RMode), (∀ rb, m = .sr rb → rb < 2 ^ 24) → ∀ (sat neg : Bool) (num den : Nat), 0 < den →
    let r := roundTo f m sat (.fin neg num den)
    let i := roundTo f m sat (.inf neg)
    let e := ulpExp f num den
    let x : ℚ := (num : ℚ) / den
    let y := gridPoint m neg num den e
    let v := decodeVal f r.1
    let sg : ℚ := if neg then -1 else 1
    (num = 0 → r = (if neg && f.sgn && !f.kindInt then 2 ^ (f.w - 1) else 0, 0)) ∧
    (if neg && !f.sgn then i = (0, fNV)
      else if f.spv = 1 && !f.kindInt then decodeVal f i.1 = .inf neg ∧ i.2 = 0
      else (decodeVal f i.1).exact = sg * f.maxQ ∧ i.2 = fNV ||| fNX) ∧
    (0 < num → neg = true → f.sgn = false → r = (0, fNV)) ∧
    (0 < num → neg = false ∨ f.sgn = true → ∃ l : ℤ, 2 ^ l ≤ x ∧ x < 2 ^ (l + 1) ∧
      e = (if f.kindInt then -f.bias else max l f.emin - f.prec + 1) ∧
      (y = 0 → v.finite ∧ v.exact = 0 ∧ r.2 = (if f.kindInt then fNX else fNX ||| fUF)) ∧
      (y ≠ 0 → f.maxQ < y → fOF ||| fNX = r.2 &&& ~~~fUF ∧ (f.maxQ ≠ 0 → r.2 = fOF ||| fNX) ∧
        (overflowsToInf m neg ∧ f.ovf = true ∧ f.spv = 1 ∧ sat = false → v = .inf neg) ∧
        (¬(overflowsToInf m neg ∧ f.ovf = true ∧ f.spv = 1 ∧ sat = false) → v.finite ∧ v.exact = sg * f.maxQ)) ∧
      (y ≠ 0 → y ≤ f.maxQ → v.finite ∧
        if f.kindInt = false ∧ f.sub = true ∧ y < 2 ^ f.emin then v.exact = 0 ∧ r.2 = fNX ||| fUF
        else v.exact = sg * y ∧ r.2 = (if y = x then 0 else fNX) |||
          (if f.kindInt = false ∧ y ≠ x ∧ unboundedPoint f m neg num den l < 2 ^ f.emin then fUF else 0)))

/-- R106, R109, R110, R93: on operands that are no NaN the operations give their exact value of FloatingExact, rounded once; an
infinite operand gives the infinity that its sign rules say; a finite nonzero number over zero gives an infinity and DZ; what
has no value gives the canonical NaN and NV. The number that FSQRT rounds lies among the points of every grid as the root
does. The integer conversions round to a step of 1 and saturate with NV. -/
def Sys2Proof.Machine.FloatingOperationsRule : Prop :=
  (∀ f ∈ ieeeFmts, f.maxQ = (2 - 2 ^ (-(f.mb : ℤ))) * 2 ^ f.bias ∧ f.ovf = true ∧ f.spv = 1 ∧ f.sgn = true ∧ f.sub = false ∧
    f.kindInt = false) ∧
  (∀ f ∈ ieeeFmts, ∀ (m : RMode) (a b c : Nat), isNan f a = false → isNan f b = false → isNan f c = false →
    let x := decodeVal f a
    let y := decodeVal f b
    let done (o : Option Val) (r : Nat × BitVec 5) : Prop :=
      (∀ v, o = some v → r = roundTo f m false v) ∧ (o = none → r = (qnan f, fNV))
    done (addVal m x y) (fpAdd f m a b) ∧ done (addVal m x (negVal y)) (fpSub f m a b) ∧ done (mulVal x y) (fpMul f m a b) ∧
    (∀ neg, done ((mulVal x y).bind fun p => addVal m (if neg then negVal p else p) (decodeVal f c)) (fpFma f m neg a b c)) ∧
    (∀ v, divVal x y = some (v, false) → fpDiv f m a b = roundTo f m false v) ∧
    (divVal x y = none → fpDiv f m a b = (qnan f, fNV)) ∧
    (x.finite → x.exact ≠ 0 → y.finite → y.exact = 0 →
      fpDiv f m a b = (infPat f (a.testBit (f.w - 1) ^^ b.testBit (f.w - 1)), fDZ)) ∧
    (∀ n, x = .inf n → y.finite → addVal m x y = some x ∧ addVal m y x = some x ∧
      (y.exact = 0 → mulVal x y = none ∧ mulVal y x = none) ∧
      (y.exact ≠ 0 → mulVal x y = some (.inf (n ^^ b.testBit (f.w - 1))) ∧ mulVal y x = mulVal x y) ∧
      divVal x y = some (.inf (n ^^ b.testBit (f.w - 1)), false) ∧
      ∃ z, divVal y x = some (.fin (b.testBit (f.w - 1) ^^ n) 0 z, false)) ∧
    (∀ n k, x = .inf n → y = .inf k → addVal m x y = (if n = k then some x else none) ∧ mulVal x y = some (.inf (n ^^ k)) ∧
      divVal x y = none) ∧
    (∀ p q, x = .fin false p q → p ≠ 0 → ∃ u w, fpSqrt f m a = roundTo f m false (.fin false u w) ∧ 0 < w ∧
      ∀ k : Nat, let g : ℚ := (k : ℚ) / (q * 2 ^ 80)
        (g ≤ (u : ℚ) / w ↔ g ^ 2 ≤ (p : ℚ) / q) ∧ (g = (u : ℚ) / w ↔ g ^ 2 = (p : ℚ) / q)) ∧
    (∀ n q, x = .fin n 0 q → fpSqrt f m a = (if n then 2 ^ (f.w - 1) else 0, 0)) ∧
    (x = .inf false → fpSqrt f m a = (infPat f false, 0))) ∧
  ∀ (m : RMode) (lo hi : Int), lo ≤ 0 → 0 ≤ hi →
    toIntRange m lo hi .nan = (0, fNV) ∧ (∀ n, toIntRange m lo hi (.inf n) = (if n then lo else hi, fNV ||| fNX)) ∧
    ∀ (neg : Bool) (num den : Nat), 0 < den →
      let g : Int := (if neg then -1 else 1) * (roundGrid m neg num den 0).1
      toIntRange m lo hi (.fin neg num den) = if g < lo then (lo, fNV ||| fNX) else if hi < g then (hi, fNV ||| fNX)
        else (g, if (roundGrid m neg num den 0).2 then 0 else fNX)

/-- R106, R110: the sign of a sum that is exactly zero: of two zeros of one sign theirs, otherwise − under RDN and + under RNE, RTZ
and RUP; a product and a quotient take the exclusive or of the signs, so that the product of an FMA has the sign that its exact
zero sum goes by. -/
def Sys2Proof.Machine.FloatingSignsRule : Prop :=
  ∀ x y : Val, x.finite → y.finite →
    (x.exact + y.exact = 0 → ∀ m ∈ [RMode.rne, .rtz, .rup, .rdn], ∃ d, d ≠ 0 ∧
      addVal m x y = some (.fin (if x.exact = 0 ∧ isNeg x = isNeg y then isNeg x else decide (m = .rdn)) 0 d)) ∧
    isNeg (negVal x) = !isNeg x ∧
    (∃ v, mulVal x y = some v ∧ isNeg v = (isNeg x ^^ isNeg y)) ∧
    (y.exact ≠ 0 → ∃ v, divVal x y = some (v, false) ∧ isNeg v = (isNeg x ^^ isNeg y))

/-- R107, R108, R146: FMIN and FMAX of two numbers give the lesser and the greater, with −0 below +0 and no flag; the relations
that the compares decide are equality and order of the numbers, where −0 = +0, and false with a NaN; NV stands for a signalling
NaN, in an ordered relation for any. -/
def Sys2Proof.Machine.FloatingOrderRule : Prop :=
  (∀ x y : Val, (∀ n p q, x = .fin n p q → q ≠ 0) → (∀ n p q, y = .fin n p q → q ≠ 0) →
    (valLt x y = true ↔ x ≠ .nan ∧ y ≠ .nan ∧ x.extended < y.extended) ∧
    (valEq x y = true ↔ x ≠ .nan ∧ y ≠ .nan ∧ x.extended = y.extended)) ∧
  ∀ f ∈ ieeeFmts, ∀ a b : Nat, a < 2 ^ f.w → b < 2 ^ f.w →
    let x := decodeVal f a
    let y := decodeVal f b
    let minus := a.testBit (f.w - 1)
    (isNan f a = false → isNan f b = false →
      (x.extended < y.extended → fpMinMax f true a b = (a, 0) ∧ fpMinMax f false a b = (b, 0)) ∧
      (y.extended < x.extended → fpMinMax f true a b = (b, 0) ∧ fpMinMax f false a b = (a, 0)) ∧
      (x.extended = y.extended → fpMinMax f true a b = (if minus then a else b, 0) ∧
        fpMinMax f false a b = (if minus then b else a, 0))) ∧
    ∀ (any : Bool) (rel : Val → Val → Bool), fpCmp f any rel a b =
      (rel x y, if isSnan f a || isSnan f b || (any && (isNan f a || isNan f b)) then fNV else 0)

/-- R93, R110: an FMA with a NaN operand: 0 × ∞ sets NV and gives c quieted where c is a NaN, the canonical NaN otherwise; else the
first NaN of a, b and c is given, quieted, with NV for a signalling one. -/
def Sys2Proof.Machine.FusedNansRule : Prop :=
  ∀ f ∈ ieeeFmts, ∀ (m : RMode) (neg : Bool) (a b c : Nat), a < 2 ^ f.w → b < 2 ^ f.w → c < 2 ^ f.w →
    let x := decodeVal f a
    let y := decodeVal f b
    let q (n : Nat) : Nat := n ||| 2 ^ (f.mb - 1)
    let zero (v : Val) : Prop := v.finite ∧ v.exact = 0
    let void : Prop := (zero x ∧ ∃ n, y = .inf n) ∨ (zero y ∧ ∃ n, x = .inf n)
    let nv : BitVec 5 := if isSnan f a || isSnan f b || isSnan f c then fNV else 0
    (void → fpFma f m neg a b c = (if isNan f c then q c else qnan f, fNV)) ∧
    (¬void → (isNan f a → fpFma f m neg a b c = (q a, nv)) ∧
      (isNan f a = false → isNan f b → fpFma f m neg a b c = (q b, nv)) ∧
      (isNan f a = false → isNan f b = false → isNan f c → fpFma f m neg a b c = (q c, nv)))

/-- R79, R85, R89, R90, R91, R92, R93, R106, R107, R108, R109, R110, R146: rounding is exact arithmetic rounded once, with its
overflow results and flags, signs and order; operands beyond the finite give what R93 says. -/
def Obligations.FloatingArithmetic : Prop :=
  FloatingExactRule ∧ GridRoundingRule ∧ NanOperandsRule ∧ RoundedValuesRule ∧ FloatingOperationsRule ∧ FloatingSignsRule ∧
  FloatingOrderRule ∧ FusedNansRule

/-- R115 to R119, R131: PBR and PBRR write a branch-target register; BR, BRN, CALL and CHK decide a transfer to it, or fall through;
CALL links; TRET decides its re-entry. Registers are read as they stood before the bundle. That the transfer which a TRET with P
= 1 leaves pending takes place without a stall of its own is the model's reading (log entry 33). -/
def Obligations.Transfers : Prop :=
  ∀ (s : State) (b ra tb : R3) (off : BitVec 21) (a : R6) (pg : R5) (rt p : BitVec 1),
    let to_ := s.through b
    (∃ t, Gives (.pbr b off) s t ∧ t.bNow b = s.iss.ba + 2 * off.signExtend 64 ∧ OnlyTarget b s t) ∧
    (s.psS a = false → ∃ t, Gives (.pbrr b a) s t ∧ t.bNow b = s.rdS a ∧ OnlyTarget b s t) ∧
    (s.psP pg = false → Gives (.br b pg) s (if (s.rdP pg).getLsbD 0 then to_ else s) ∧
      Gives (.brn b pg) s (if (s.rdP pg).getLsbD 0 then s else to_) ∧
      if (s.rdP pg).getLsbD 0 then ∃ t, Gives (.call b pg) s t ∧ t.bNow 7 = s.after ∧ OnlyTarget 7 to_ t
      else Gives (.call b pg) s s) ∧
    Gives (.chk b pg a) s (if s.psS a || s.psP pg then to_ else s) ∧
    Gives (.tret rt p tb ra) s
      { s with iss := { s.iss with
        xfer := some { tgt := s.rdB ra, rot := false, stall := 6 }
        reent := some (s.rdB ra, if p = 1 then some { tgt := s.rdB tb, rot := rt = 1, stall := 0 } else none) } }

/-- R120 to R122: LOOP and LOOPI push a level, or with a zero count transfer past the bundle at the label, or take the fetch
fault of its header, or wait where the fetch is held or only pads follow; BLC loops back with a rotation or pops, at every
depth; LPOP pops. Nothing else changes. -/
def Obligations.HardwareLoops : Prop :=
  ∀ (s : State) (a : R6) (off : BitVec 18) (n o : BitVec 12) (i : Instr) (count label : Nat),
    (i = .loop a off ∧ s.psS a = false ∧ count = (s.rdS a).toNat ∧ label = off.toNat ∨
      i = .loopi n o ∧ count = n.toNat ∧ label = o.toNat) →
    let e := s.iss.ba + 2 * BitVec.ofNat 64 label
    (s.ctx.q.loops.length < 6 →
      (count ≠ 0 → ∃ t, Gives i s t ∧ OnlyLoops s t ∧ t.iss = s.iss ∧ t.ctx.q.loops = s.ctx.q.loops ++
        [{ count := BitVec.ofNat 64 count, start := s.after, last := e, index := 0 }]) ∧
      (count = 0 → match s.findBundle e with
        | .header x h => Gives i s (s.deciding (x + BitVec.ofNat 64 (bundleLength (readHeader h).mask)) false 2)
        | .fault x d => Gives i s (s.takeTrap
            { cause := 0x06, slot := s.iss.slot, sres := some s.iss.slot, detail := d, faddr := x })
        | .held _ | .endless => Gives i s { s with iss := { s.iss with held := true } })) ∧
    (∀ ls l, s.ctx.q.loops = ls ++ [l] →
      (l.last = s.iss.ba → ∃ t, Gives .blc s t ∧ OnlyLoops s t ∧ t.iss.legal = true ∧
        if 1 < l.count.toNat then
          t.ctx.q.loops = ls ++ [{ l with count := l.count - 1, index := l.index + 1 }] ∧
            t.iss.xfer = some { tgt := l.start, rot := true, stall := 0 }
        else t.ctx.q.loops = ls ∧ t.iss.xfer = s.iss.xfer) ∧
      ∃ t, Gives .lpop s t ∧ OnlyLoops s t ∧ t.iss = s.iss ∧ t.ctx.q.loops = ls)

/-- R25 to R37, R124, R125: MFC writes a control register, a descriptor, a format-table entry or a branch-target register to
sd, never poisoned. -/
def Sys2Proof.Machine.ControlReadsRule : Prop :=
  ∀ (s : State) (d : R6) (sel : BitVec 8),
    (∀ e ∈ [((0x01 : BitVec 8), s.pre.c.fpf), (0x02, s.pre.c.ferec), (0x08, s.pre.c.rng), (0x09, s.pre.c.gesc),
        (0x0A, s.pre.c.take.setWidth 64), (0x0B, s.pre.c.ttab), (0x0C, s.pre.c.trpb), (0x0E, s.pre.c.cidx.setWidth 64),
        (0x10, s.pre.tlc.mark), (0x11, s.pre.tlc.issued), (0x12, s.pre.tlm.mark), (0x13, s.pre.tlm.issued),
        (0x14, s.pre.tlf.mark), (0x15, s.pre.tlf.issued),
        (0x0F, (s.pre.core.setWidth 64) ||| (s.pre.bank.setWidth 64 <<< 16) ||| (s.pre.id.rid.setWidth 64 <<< 32)),
        (0x20, s.time.now), (0x04, ((s.pre.q.loops[s.pre.q.lsel.toNat]?).map (·.count)).getD 0),
        (0x05, ((s.pre.q.loops[s.pre.q.lsel.toNat]?).map (·.start)).getD 0),
        (0x06, ((s.pre.q.loops[s.pre.q.lsel.toNat]?).map (·.last)).getD 0),
        (0x07, ((s.pre.q.loops[s.pre.q.lsel.toNat]?).map (·.index)).getD 0),
        (0x0D, (s.pre.c.pidx.setWidth 64) ||| (if s.pre.c.lost then 1#64 <<< 63 else 0#64))],
      ScalarDone (.mfc d e.1 0) s d e.2 false) ∧
    (sel.toNat < 16 → ScalarDone (.mfc d sel 1) s d ((vget s.pre.r.f sel.toNat).setWidth 64) false ∧
      ScalarDone (.mfc d sel 2) s d ((vget s.pre.r.ft sel.toNat).setWidth 64) false) ∧
    (sel.toNat < 8 → ScalarDone (.mfc d sel 3) s d (s.rdB (sel.setWidth 3)) false) ∧
    (s.pre.q.loops.length ≤ 6 → ∃ v, ScalarDone (.mfc d 0x03 0) s d v false ∧
      v.extractLsb' 0 3 = BitVec.ofNat 3 s.pre.q.loops.length ∧ v.getLsbD 3 = false ∧ v.extractLsb' 4 3 = s.pre.q.lsel ∧
      v.extractLsb' 7 57 = 0) ∧
    (∃ v, ScalarDone (.mfc d 0x16 0) s d v false ∧ v.extractLsb' 0 8 = s.pre.es.held ∧ v.extractLsb' 8 8 = 0 ∧
      v.extractLsb' 16 16 = s.pre.es.gref ∧ v.extractLsb' 32 16 = s.pre.es.lstall ∧ v.extractLsb' 48 14 = 0 ∧
      v.getLsbD 62 = s.pre.es.strict ∧ v.getLsbD 63 = s.pre.es.gtrap) ∧
    (∃ v, ScalarDone (.mfc d 0x18 0) s d v false ∧ (s.core.grantOf s.pre.id.rid = none → v = 0) ∧
      ∀ g, s.core.grantOf s.pre.id.rid = some g → g.base < 256 → g.base + g.count ≤ 256 →
        v.toNat = g.base + g.count * 2 ^ 8) ∧
    (∃ v, ScalarDone (.mfc d 0x21 0) s d v false ∧ v.extractLsb' 0 3 = (if s.power.low then 0 else s.power.level) ∧
      v.getLsbD 3 = s.power.low ∧ v.extractLsb' 4 60 = 0) ∧
    (∀ j < 96, ∃ v, ScalarDone (.mfc d (BitVec.ofNat 8 (0x22 + j / 32)) 0) s d v false ∧
      v.extractLsb' (2 * (j % 32)) 2 = vget s.core.pool.roles j) ∧
    (∃ v, ScalarDone (.mfc d 0x25 0) s d v false ∧
      (∀ r : BitVec 2, v.extractLsb' (8 * r.toNat) 8 = BitVec.ofNat 8 (s.core.pool.roles.toList.countP (· = r))) ∧
      v.extractLsb' 32 32 = BitVec.ofNat 32 s.core.pool.moving.length) ∧
    ∃ v, ScalarDone (.mfc d 0 0) s d v false ∧ v.extractLsb' 0 3 = s.pre.c.sres ∧ v.getLsbD 4 = s.pre.c.smis ∧
      v.extractLsb' 5 5 = s.pre.c.vrb ∧ v.extractLsb' 10 4 = s.pre.c.prb ∧
      v.extractLsb' 14 2 = BitVec.ofNat 2 (s.classOf s.pre) ∧ v.getLsbD 16 = s.pre.psum s.core.cycle ∧
      ((∀ p ∈ s.pre.board, ∀ x, p.due = some x → x ≤ s.core.cycle) → (v.getLsbD 16 = true ↔
        s.pre.r.sp ≠ 0 ∨ s.pre.r.pp ≠ 0 ∨ ∃ g ∈ s.pre.r.vp.toList, g ≠ 0)) ∧
      v.getLsbD 17 = s.pre.c.gdeg ∧ v.getLsbD 18 = s.pre.c.gnf ∧ v.getLsbD 19 = s.pre.c.mhold ∧
      v.extractLsb' 20 44 = 0

/-- R25 to R36, R97, R125: what MTC writes to each register it may write; a status bit that is cleared by a one keeps its
value otherwise. Nothing else changes. -/
def Sys2Proof.Machine.ControlWritesRule : Prop :=
  ∀ (s : State) (a : R6) (sel : BitVec 8), s.psS a = false →
    let x := s.rdS a
    let k := s.ctx.c
    let ctl (c : Ctl) : State := { s with ctx := { s.ctx with c := c } }
    Gives (.mtc a 0x03 0) s { s with ctx := { s.ctx with q := { s.ctx.q with lsel := x.extractLsb' 4 3 } } } ∧
    Gives (.mtc a 0x09 0) s (ctl { k with gesc := x }) ∧ Gives (.mtc a 0x0B 0) s (ctl { k with ttab := x }) ∧
    Gives (.mtc a 0x0D 0) s (ctl { k with lost := k.lost && !x.getLsbD 63 }) ∧
    Gives (.mtc a 0x16 0) s { s with ctx := { s.ctx with es := { s.ctx.es with
      gtrap := x.getLsbD 63, lstall := x.extractLsb' 32 16, gref := x.extractLsb' 16 16 } } } ∧
    (sel.toNat < 16 → (∃ t, Gives (.mtc a sel 1) s t ∧ vget t.ctx.r.f sel.toNat = x.setWidth 32 ∧
        (∀ n, n ≠ sel.toNat → vget t.ctx.r.f n = vget s.ctx.r.f n) ∧
        t = { s with ctx := { s.ctx with r := { s.ctx.r with f := t.ctx.r.f } } }) ∧
      ∃ t, Gives (.mtc a sel 2) s t ∧ vget t.ctx.r.ft sel.toNat = x.setWidth 16 ∧
        (∀ n, n ≠ sel.toNat → vget t.ctx.r.ft n = vget s.ctx.r.ft n) ∧
        t = { s with ctx := { s.ctx with r := { s.ctx.r with ft := t.ctx.r.ft } } }) ∧
    Gives (.mtcRng a) s { ctl { k with rng := if x = 0 then 0x9E3779B97F4A7C15 else x } with
      iss := { s.iss with rngSet := true } } ∧
    (4 ≤ x.toNat % 32 ∧ x.toNat % 32 ≤ 16 ∧ (x.toNat / 2 ^ 60 = 2 ∨ x.toNat / 2 ^ 60 = 3) →
      Gives (.mtcTrpb a) s (ctl { k with trpb := x &&& 0xFFFFFFFFFFFFF01F, pidx := 0, cidx := 0, lost := false })) ∧
    Gives (.mtcTrpc a) s (ctl { k with cidx := x.setWidth 32 }) ∧
    Gives (.mtcFpf a) s (ctl { k with fpf := k.fpf &&& ~~~x }) ∧
    (∃ t, Gives (.mtcFerec a) s t ∧ t = ctl { k with ferec := t.ctx.c.ferec } ∧
      ∀ i, t.ctx.c.ferec.getLsbD i = if i = 63 then x.getLsbD 63 else if i = 62 then k.ferec.getLsbD 62 && !x.getLsbD 62
        else k.ferec.getLsbD i) ∧
    Gives (.mtcStatus a) s { ctl { k with
        sres := x.extractLsb' 0 3, vrb := x.extractLsb' 5 5, prb := x.extractLsb' 10 4, smis := k.smis && !x.getLsbD 4,
        gdeg := k.gdeg && !x.getLsbD 17, gnf := k.gnf && !x.getLsbD 18 } with iss := { s.iss with sresSet := true } }

/-- R25, R26, R28, R29, R31, R32, R34, R36, R38, R97, R124, R125: MFC reads every control register, MTC writes what each one
takes, and nothing else changes. -/
def Obligations.ControlRegisters : Prop := ControlReadsRule ∧ ControlWritesRule

/-- R127 to R129, R191: PRIO sets the base class within the region's range; DORM and EXIT take effect when the bundle has
committed; TWAIT passes when the watermark has reached its number and acquires, and holds its bundle until then. -/
def Sys2Proof.Machine.WaitsAndEndsRule : Prop :=
  ∀ (s : State) (c : BitVec 2) (a : R6) (sco tl : BitVec 2) (all : BitVec 1),
    (∀ g, s.region? s.rid = some g → g.lim.plo.toNat ≤ c.toNat → c.toNat ≤ g.lim.phi.toNat →
      Gives (.prio c) s { s with ctx := { s.ctx with c := { s.ctx.c with base := c } } }) ∧
    Gives .dorm s { s with iss := { s.iss with dorming := true } } ∧
    Gives .exit s { s with iss := { s.iss with exiting := true } } ∧
    ∀ n : W64, (all = 0 ∧ s.psS a = false ∧ n = s.rdS a ∨ all = 1 ∧ n = (s.pre.tl tl).issued) →
      n.toNat ≤ (s.pre.tl tl).issued.toNat →
      (n.toNat ≤ (s.ctx.tl tl).mark.toNat → Gives (.twait a sco tl all) s (s.acquire sco)) ∧
      ((s.ctx.tl tl).mark.toNat < n.toNat →
        Gives (.twait a sco tl all) s { s with iss := { s.iss with held := true } })

/-- R193, R194: BAR.ARRIVE, after its release, adds one to ARR of the barrier word, or with the last arrival clears ARR and
raises GEN; sd receives the GEN it found. BAR.WAIT waits while GEN stands at the value in sa, then acquires. -/
def Obligations.Barriers : Prop :=
  ∀ (s : State) (d a : R6) (id : BitVec 8) (sco : BitVec 2) (g : Region) (x : W64) (k : Nat),
    s.region? s.rid = some g → g.work.barb ≠ 0 → id.toNat < g.work.nbar.toNat →
    x = g.work.barb + 64 * id.setWidth 64 →
    (∀ c, s.resolve s.me s.rid x 8 Access.both = .ok (.home k c) → (s.iss.ready = true ∨ s.arriveHeld id sco = false) →
      let s1 := s.beforeArrival k sco
      ∀ gen arr exp : Nat, gen < 2 ^ 32 → arr < exp → exp < 2 ^ 16 → s1.peek64 k = gen + arr * 2 ^ 32 + exp * 2 ^ 48 →
      ∃ t, Gives (.barArrive d id sco) s t ∧ (d ≠ 0 → t.sNow d = BitVec.ofNat 64 gen ∧ t.sPoison d = false) ∧
        SameScalars s1 t d ∧ BytesKept s1 t k 8 ∧
        t.peek64 k = if arr + 1 = exp then (gen + 1) % 2 ^ 32 + exp * 2 ^ 48 else gen + (arr + 1) * 2 ^ 32 + exp * 2 ^ 48) ∧
    (∀ c, s.resolve s.me s.rid x 8 Access.load = .ok (.home k c) → s.psS a = false → s.stands k = false →
      s.heldWalk s.me s.rid x = false →
      (bits (s.peek64 k) 31 0 ≠ (s.rdS a).toNat % 2 ^ 32 →
        ∃ t, Gives (.barWait a id sco) s t ∧ t.mem = s.mem ∧ t.ctx.r = s.ctx.r ∧ t.ctx.q.waitsOn = none ∧
          t.iss.held = s.iss.held ∧
          t.core = ((s.modSeq fun q => { q with waitsOn := none }).acquire sco).core ∧
          (t.ctx.c.smis = true ↔ s.ctx.c.smis = true ∨ (t.barRec k).done.covers s.me = false)) ∧
      (bits (s.peek64 k) 31 0 = (s.rdS a).toNat % 2 ^ 32 →
        Gives (.barWait a id sco) s { s with ctx := { s.ctx with q := { s.ctx.q with waitsOn := some id } }
                                             iss := { s.iss with held := true } }))

/-- R126: CUT reads the take table of TTAB; where the level's take is the context's, nothing more happens; otherwise it writes
TAKE and transfers to the table's address for the take and the id. -/
def Sys2Proof.Machine.CutPointsRule : Prop :=
  ∀ (s s1 : State) (id : BitVec 12) (w take : Nat),
    let tab := s.pre.c.ttab
    tab ≠ 0 → tab.toNat % 64 = 0 → tab.toNat / 2 ^ 60 = 2 → s.wordHeld tab = false → s.loadWord tab = some (w, s1) →
    take = w / 2 ^ (2 * s.power.level_.toNat) % 4 → take ≠ 3 → id.toNat < w / 2 ^ 32 % 2 ^ 16 →
    w / 2 ^ 48 % 2 ^ 16 = 0 → w / 2 ^ 16 % 2 ^ 16 = 0 →
    (take = s.pre.c.take.toNat → Gives (.cut id) s s1) ∧
    ∀ (s2 : State) (x : Nat), take ≠ s.pre.c.take.toNat →
      let e := tab + BitVec.ofNat 64 (0x40 + 24 * id.toNat + 8 * take)
      s1.wordHeld e = false → s1.loadWord e = some (x, s2) → x ≠ 0 → x % 2 = 0 →
      Gives (.cut id) s (({ s2 with ctx := { s2.ctx with c := { s2.ctx.c with take := BitVec.ofNat 2 take } } } :
        State).deciding (BitVec.ofNat 64 x) false 8)

/-- R19, R22, R34, R58, R116 to R131, R191, R194: which trap a control instruction raises, and when; the trapping slot has no
effect of its own. -/
def Sys2Proof.Machine.ControlTrapsRule : Prop :=
  ∀ (s : State) (b : R3) (pg : R5) (a : R6) (off : BitVec 18) (n o : BitVec 12) (sel : BitVec 8) (spc sco tl c : BitVec 2),
    (s.psS a = true → Traps (.pbrr b a) s 0x04 ∧ Traps (.loop a off) s 0x04 ∧ Traps (.mtc a sel spc) s 0x04 ∧
      Traps (.mtcRng a) s 0x04 ∧ Traps (.mtcTrpb a) s 0x04 ∧ Traps (.mtcTrpc a) s 0x04 ∧ Traps (.mtcFpf a) s 0x04 ∧
      Traps (.mtcFerec a) s 0x04 ∧ Traps (.mtcStatus a) s 0x04 ∧ Traps (.twait a sco tl 0) s 0x04) ∧
    (s.psP pg = true → Traps (.br b pg) s 0x04 ∧ Traps (.brn b pg) s 0x04 ∧ Traps (.call b pg) s 0x04) ∧
    (s.ctx.q.loops.length = 6 → Traps (.loopi n o) s 0x0E ∧ (s.psS a = false → Traps (.loop a off) s 0x0E)) ∧
    (s.ctx.q.loops = [] → Traps .blc s 0x0F ∧ Traps .lpop s 0x0F) ∧
    (∀ ls l, s.ctx.q.loops = ls ++ [l] → l.last ≠ s.iss.ba → Traps .blc s 0x10) ∧
    (s.psS a = false → (s.pre.tl tl).issued.toNat < (s.rdS a).toNat → Traps (.twait a sco tl 0) s 0x03) ∧
    (s.psS a = false → ((s.rdS a).toNat % 32 < 4 ∨ 16 < (s.rdS a).toNat % 32 ∨
      (s.rdS a).toNat / 2 ^ 60 ≠ 2 ∧ (s.rdS a).toNat / 2 ^ 60 ≠ 3) → Traps (.mtcTrpb a) s 0x03) ∧
    (∀ g, s.region? s.rid = some g → c.toNat < g.lim.plo.toNat ∨ g.lim.phi.toNat < c.toNat → Traps (.prio c) s 0x03) ∧
    (s.pre.c.ttab = 0 ∨ s.pre.c.ttab.toNat % 64 ≠ 0 ∨ s.pre.c.ttab.toNat / 2 ^ 60 ≠ 2 → Traps (.cut n) s 0x11)

/-- R10, R114, R130, R314, R316, R317: a TRAP takes the software trap. SRES names the slot; PC and the registers stay; what the
context has written is on its way home. The trap is entered at once where nothing of the context is outstanding, else the
context stops and TRAP_ENTRY enters it later. Its save then begins, and it will be held at the record that is written to the
ring: the cause, the slot, the code as detail, the bundle's address, the transfer that is pending, the region, the context's
number and its core. -/
def Sys2Proof.Machine.TrapEntryRule : Prop :=
  ∀ (s : State) (g : Region) (a : W64) (k : Nat), s.ctx.sch.life = .resident → s.ctx.watch = none →
    s.core.num = s.ctx.core → s.region? s.ctx.id.rid = some g → g.dom.fpol = 0 → s.ctx.sch.pendRec = none →
    (∀ (code : BitVec 16), s.iss.slot < 8 →
      let x : Trapped := { t := { cause := 0x19, slot := s.iss.slot, sres := some s.iss.slot, detail := code.toNat }
                           ba := s.iss.ba, xfer := s.iss.xfer }
      let w := s.writeBackReach s.ctx.core.toNat 3
      ∃ t, Gives (.trap code) s t ∧ t.ctx.c.sres.toNat = s.iss.slot ∧ t.ctx.q.pc = s.ctx.q.pc ∧ t.ctx.r = s.ctx.r ∧
        t.ctx.q.loops = s.ctx.q.loops ∧
        (s.ctx.sch.outRecs = [] → w.recReady s.ctx = true → w.recordPlace s.ctx = some (a, k) →
          Entered s t x s.iss.slot a k) ∧
        (s.ctx.sch.outRecs ≠ [] ∨ w.recReady s.ctx = false →
          t.ctx.sch = s.ctx.sch ∧ t.ctx.q.trapped = some x ∧ t.ctx.halted = true)) ∧
    ∀ (x : Trapped), s.ctx.q.trapped = some x → s.ctx.remote = none → s.boot.fwerr = false → s.power.retained = false →
      ∃ t, Gives (.trapEntry s.ctx.id) s t ∧
        (s.ctx.sch.outRecs = [] → s.recReady s.ctx = true → s.recordPlace s.ctx = some (a, k) →
          x.t.detail < 2 ^ 32 → x.t.cause < 2 ^ 8 → x.t.slot < 8 →
          Entered s t x s.ctx.c.sres.toNat a k ∧ t.ctx.r = s.ctx.r) ∧
        (s.ctx.sch.outRecs ≠ [] ∨ s.recReady s.ctx = false → t = s)

/-- R134 to R136, R141, R142: every integer and logic instruction of the vector class, in its VR and its VS form, computes
element by element under its guard. A shift count is not reduced; in a VS form it is all of sb. -/
def Obligations.VectorInteger : Prop :=
  ∀ (s : State) (o : VR) (vs : Bool),
    let w := tyWidth o.t
    let ab (i : Nat) : Bool := aP s o i || bP s o vs i
    let count (i : Nat) : Nat := if vs then (s.rdS o.vb).toNat else bE s o false i
    (∀ e ∈ vIntTable, VectorDone (if vs then e.2.1 o else e.1 o) s o.vd w
      (guarded s o (fun i => pat w (e.2.2 o.t (tyVal o.t (aE s o i)) (tyVal o.t (bE s o vs i)))) ab)) ∧
    (∀ e ∈ vLogicTable, ∃ val : Nat → Nat, (∀ i, ∀ k < w, (val i).testBit k = e.2.2 ((aE s o i).testBit k) ((bE s o vs i).testBit k)) ∧
      VectorDone (if vs then e.2.1 o else e.1 o) s o.vd w (guarded s o val ab)) ∧
    VectorDone (if vs then .vshlS o else .vshl o) s o.vd w (guarded s o (fun i => aE s o i * 2 ^ count i) ab) ∧
    VectorDone (if vs then .vshrS o else .vshr o) s o.vd w
      (guarded s o (fun i => pat w (tyVal o.t (aE s o i) / 2 ^ count i)) ab) ∧
    VectorDone (if vs then .vmadS o else .vmad o) s o.vd w
      (guarded s o (fun i => pat w (tyVal o.t (aE s o i) * tyVal o.t (bE s o vs i) + tyVal o.t (cE s o i)))
        fun i => ab i || cP s o i) ∧
    ∀ e ∈ vUnTable, VectorDone (e.1 o) s o.vd w (guarded s o (fun i => e.2 o.t (aE s o i)) (aP s o))

/-- R147, R148, R152: VSEL, VBCST and the lane movements: a source element for each element written; a poisoned sb of VBCST
poisons every element written, a zeroed one too. VCOMP packs the active
elements of va downwards, VEXP spreads its lowest ones to the active places. -/
def Obligations.VectorMoves : Prop :=
  ∀ (s : State) (o : VR),
    let w := tyWidth o.t
    let n := tyCount o.t
    let on (i : Nat) : Bool := (s.rdP o.pg).getLsbD (i * (w / 8))
    let below (i : Nat) : Nat := (List.range i).countP on
    let bA (i : Nat) : Nat := elem w (s.rdV o.vb).toNat i
    let bPs (i : Nat) : Bool := (s.psV o.vb).getLsbD (i * w / 64)
    VectorDone (.vsel o) s o.vd w
      (fun i => some (if on i then aE s o i else bA i, (if on i then aP s o i else bPs i) || s.psP o.pg)) ∧
    VectorDone (.vbcst o) s o.vd w (fun i =>
      if on i then some ((s.rdS o.vb).toNat, s.psS o.vb || s.psP o.pg)
      else if o.zm = 1 then some (0, s.psS o.vb || s.psP o.pg) else none) ∧
    (2 ^ o.fx.toNat < n →
      VectorDone (.vxch o) s o.vd w (guarded s o (fun i => aE s o (i ^^^ 2 ^ o.fx.toNat)) fun i => aP s o (i ^^^ 2 ^ o.fx.toNat))) ∧
    VectorDone (.vperm o) s o.vd w
      (guarded s o (fun i => aE s o (bA i % n)) fun i => aP s o (bA i % n) || bPs i) ∧
    (o.fx.toNat < n → VectorDone (.vsld o) s o.vd w
      (guarded s o (fun i => if i + o.fx.toNat < n then aE s o (i + o.fx.toNat) else bA (i + o.fx.toNat - n))
        fun i => if i + o.fx.toNat < n then aP s o (i + o.fx.toNat) else bPs (i + o.fx.toNat - n))) ∧
    VectorDone (.vexp o) s o.vd w (guarded s o (fun i => aE s o (below i)) fun i => aP s o (below i)) ∧
    ∀ f : Nat → Option (Nat × Bool),
      (∀ i < n, on i → f (below i) = some (aE s o i, aP s o i || s.psP o.pg)) →
      (∀ j, below n ≤ j → f j = if o.zm = 1 then some (0, s.psP o.pg) else none) →
      VectorDone (.vcomp o) s o.vd w f

/-- R31, R90, R134 to R138, R143, R154: the rounded arithmetic of the vector class, in its VR and VS forms, under every
rounding code. -/
def Sys2Proof.Machine.VectorRoundedRule : Prop :=
  ∀ (s : State) (o : VR) (vs : Bool),
    let w := tyWidth o.t
    let n := tyCount o.t
    (∀ e ∈ vFloatTable, RoundsDone (if vs then e.2.1 o else e.1 o) s o n w 0 e.2.2.1 (onE s o w)
      (fun m i => e.2.2.2 (tyFmt o.t) m (aE s o i) (bE s o vs i)) fun i => aP s o i || bP s o vs i) ∧
    (∀ neg : Bool, RoundsDone (if neg then (if vs then .vfnmaS o else .vfnma o) else if vs then .vfmaS o else .vfma o) s o n w 0 false
      (onE s o w) (fun m i => fpFma (tyFmt o.t) m neg (aE s o i) (bE s o vs i) (cE s o i))
      fun i => aP s o i || bP s o vs i || cP s o i) ∧
    RoundsDone (.vfsqrt o) s o n w 0 true (onE s o w) (fun m i => fpSqrt (tyFmt o.t) m (aE s o i)) (aP s o)

/-- R144, R145: VFMIN and VFMAX in both forms, and the four approximations: no rounding mode and no draw. -/
def Sys2Proof.Machine.VectorFlaggedRule : Prop :=
  ∀ (s : State) (o : VR) (vs : Bool), o.rm = 0 →
    let w := tyWidth o.t
    let n := tyCount o.t
    (∀ less : Bool, RoundsDone (if less then (if vs then .vfminS o else .vfmin o) else if vs then .vfmaxS o else .vfmax o) s o n w 0
      false (onE s o w) (fun _ i => fpMinMax (tyFmt o.t) less (aE s o i) (bE s o vs i)) fun i => aP s o i || bP s o vs i) ∧
    ∀ e ∈ vApproxTable, RoundsDone (e.1 o) s o n w 0 false (onE s o w) (fun _ i => e.2 (tyFmt o.t) (aE s o i)) (aP s o)

/-- R145: the approximations: their special operands by the table, and otherwise the value truncated (Truncated): of 1 ÷ a and of
1 ÷ √a exactly; of 2^a and of log2 a exactly where it is a power of two or an integer, and otherwise of a number within 2^-100 of it
in proportion, which R145's bound on the relative error takes in. Which grid R145 means below 2^emin is log entry 96. -/
def Sys2Proof.Machine.ApproximationsRule : Prop :=
  ∀ f ∈ ieeeFmts, ∀ a : Nat, a < 2 ^ f.w →
    let x := decodeVal f a
    let minus : Nat := 2 ^ (f.w - 1)
    let nan : Nat × BitVec 5 := (qnan f, fNV)
    let near (z v : ℝ) : Prop := |z - v| ≤ 2 ^ (-100 : ℤ) * |v|
    let zero := x.finite ∧ x.exact = 0
    let below := x.finite ∧ x.exact < 0
    let above := x.finite ∧ 0 < x.exact
    (x = .nan → ∀ op ∈ [fpRcp, fpRsq, fpExp2, fpLog2], op f a = (a ||| 2 ^ (f.mb - 1), if isSnan f a then fNV else 0)) ∧
    (x = .inf false → fpRcp f a = (0, 0) ∧ fpRsq f a = (0, 0) ∧ fpExp2 f a = (infPat f false, 0) ∧
      fpLog2 f a = (infPat f false, 0)) ∧
    (x = .inf true → fpRcp f a = (minus, 0) ∧ fpRsq f a = nan ∧ fpExp2 f a = (0, 0) ∧ fpLog2 f a = nan) ∧
    (zero → fpRcp f a = (infPat f (isNeg x), fDZ) ∧ fpRsq f a = (infPat f (isNeg x), fDZ) ∧ fpLog2 f a = (infPat f true, fDZ)) ∧
    (below → fpRsq f a = nan ∧ fpLog2 f a = nan) ∧
    (below ∨ above → Truncated f (isNeg x) (1 / |(x.exact : ℝ)|) (fpRcp f a)) ∧
    (above → Truncated f false (1 / Real.sqrt x.exact) (fpRsq f a)) ∧
    (x.finite → ∃ z : ℝ, near z ((2 : ℝ) ^ (x.exact : ℝ)) ∧ ((∃ n : ℤ, x.exact = n) → z = (2 : ℝ) ^ (x.exact : ℝ)) ∧
      Truncated f false z (fpExp2 f a)) ∧
    (above → x.exact ≠ 1 → ∃ z : ℝ, near z (Real.logb 2 x.exact) ∧ ((∃ n : ℤ, x.exact = (2 : ℚ) ^ n) → z = Real.logb 2 x.exact) ∧
      Truncated f (decide (x.exact < 1)) |z| (fpLog2 f a)) ∧
    (x.finite → x.exact = 1 → fpLog2 f a = (0, 0))

/-- R31, R90, R95, R134, R135, R136, R138, R143, R144, R145, R154: vector floating instructions round every active element
under its mode, draw in lane order, and send the OR of the flags; the approximations give truncated values (log entry 96). -/
def Obligations.VectorFloating : Prop := VectorRoundedRule ∧ VectorFlaggedRule ∧ ApproximationsRule

/-- R140, R146: VCMP and VFCMP in both forms, for every condition. -/
def Obligations.VectorCompareResults : Prop :=
  ∀ (s : State) (o : VR) (vs : Bool),
    (∀ e ∈ vcmpTable, o.fx.toNat = e.1 → VectorCompares (if vs then .vcmpS o else .vcmp o) s o vs fun j =>
      (e.2 (tyVal o.t (aE s o j)) (tyVal o.t (bE s o vs j)), 0)) ∧
    ∀ e ∈ vfcmpTable, o.fx.toNat = e.1 → VectorCompares (if vs then .vfcmpS o else .vfcmp o) s o vs fun j =>
      fpCmp (tyFmt o.t) e.2.1 e.2.2 (aE s o j) (bE s o vs j)

/-- R149: VCVT takes its part h of the wider type's elements: m operation elements, from element si of va to di of vd. Between
integers it extends or saturates and sends no flag. -/
def Sys2Proof.Machine.VectorConversionsRule : Prop :=
  ∀ (s : State) (o : VR),
    let t := o.t
    let u : BitVec 4 := o.fx.setWidth 4
    let h := o.fx.toNat / 16
    let wide := max (tyWidth t) (tyWidth u)
    let n := 2048 / wide
    let src (j : Nat) : Nat := if tyWidth u ≤ tyWidth t then h * n + j else j
    let base := if tyWidth u ≤ tyWidth t then 0 else h * n
    let a (j : Nat) : Nat := elem (tyWidth u) (s.rdV o.va).toNat (src j)
    let p (j : Nat) : Bool := (s.psV o.va).getLsbD (src j * tyWidth u / 64)
    h < wide / min (tyWidth t) (tyWidth u) →
    (tyF t = true → tyF u = true → RoundsDone (.vcvt o) s o n (tyWidth t) base false (onE s o wide)
      (fun m j => fpCvt (tyFmt t) (tyFmt u) m (a j)) p) ∧
    (tyF t = true → tyF u = false → RoundsDone (.vcvt o) s o n (tyWidth t) base false (onE s o wide)
      (fun m j => roundTo (tyFmt t) m false (ofInt (tyVal u (a j)))) p) ∧
    (tyF t = false → tyF u = true → RoundsDone (.vcvt o) s o n (tyWidth t) base false (onE s o wide)
      (fun m j => let r := toIntRange m (tyMin t) (tyMax t) (decodeVal (tyFmt u) (a j)); (pat (tyWidth t) r.1, r.2)) p) ∧
    (tyF t = false → tyF u = false → o.rm ≠ 5 → VectorDone (.vcvt o) s o.vd (tyWidth t) fun k =>
      if k < base ∨ base + n ≤ k then none
      else if onE s o wide (k - base) then
        some (pat (tyWidth t) (if tyWidth u < tyWidth t then tyVal u (a (k - base))
          else max (tyMin t) (min (tyMax t) (tyVal u (a (k - base))))), p (k - base) || s.psP o.pg)
      else if o.zm = 1 then some (0, s.psP o.pg) else none)

/-- R84, R88, R150, R151: VQNT in both modes and VDQNT, for a valid descriptor and a part that exists. -/
def Sys2Proof.Machine.QuantisationRule : Prop :=
  ∀ (s : State) (o : VR),
    let d := vget s.pre.r.f o.fr.toNat
    let f := descFmt d
    let c := container f
    let w := tyWidth o.t
    let n := tyCount o.t
    let h := o.fx.toNat % 32
    let byte (k : Nat) : Nat := elem 8 (s.rdV o.vb).toNat k
    let badByte (k : Nat) : Bool := descBsk d != 0 && (s.psV o.vb).getLsbD (k * 8 / 64)
    let x (i : Nat) : Val := decodeVal (tyFmt o.t) (aE s o i)
    descValid d = true → h < w / c →
    RoundsDone (.vqnt o) s o n c (h * n) false (onE s o w)
      (fun m i =>
        let r := if descBsk d = 0 then roundTo f m false (x i)
          else quantElem f m (descBsk d = 1) (scaleVal (descBsk d) (byte ((h * n + i) / 32))) (x i)
        (r.1, r.2 ||| if isSnan (tyFmt o.t) (aE s o i) then fNV else 0))
      (fun i => aP s o i || badByte ((h * n + i) / 32)) ∧
    RoundsDone (.vdqnt o) s o n w 0 false (onE s o w)
      (fun m i => dequant o.t f m
        (if descBsk d = 0 then .fin false 1 1 else scaleVal (descBsk d) (byte ((h * n + i) / 32)))
        (elem c (s.rdV o.va).toNat (h * n + i)))
      (fun i => (s.psV o.va).getLsbD ((h * n + i) * c / 64) || badByte ((h * n + i) / 32)) ∧
    (descBsk d ≠ 0 →
      let b0 := h * n / 32
      let els (b : Nat) : List Nat := ((List.range 32).map fun j => (b - b0) * 32 + j).filter (onE s o w)
      ∃ fl : BitVec 5, (fl = 0 ∨ fl = fOF) ∧
        VectorFlags (.vqntScale o) s o.vd 8 fl (fun b =>
          if b < b0 ∨ b0 + n / 32 ≤ b then none
          else if els b = [] then (if o.zm = 1 then some (0, s.psP o.pg) else none)
          else some ((chooseScale f (descBsk d) ((els b).map x)).1, s.psP o.pg || (els b).any (aP s o))))

/-- R98, R99, R153: the reductions write one result to every element of vd: the sum, the greatest or the least of the active
elements, or the tree over all of them with −0 or −∞ for the inactive ones. -/
def Sys2Proof.Machine.ReductionsRule : Prop :=
  ∀ (s : State) (o : VR),
    let w := tyWidth o.t
    let n := tyCount o.t
    let vals : List Int := ((List.range n).filter (onE s o w)).map fun i => tyVal o.t (aE s o i)
    let ps : Bool := s.psP o.pg || ((List.range n).filter (onE s o w)).any (aP s o)
    VectorFlags (.vrsum o) s o.vd w 0 (fun _ => some (pat w vals.sum, ps)) ∧
    (∃ r : Int, VectorFlags (.vrmax o) s o.vd w 0 (fun _ => some (pat w r, ps)) ∧
      (vals = [] → r = tyMin o.t) ∧ (vals ≠ [] → r ∈ vals) ∧ ∀ x ∈ vals, x ≤ r) ∧
    (∃ r : Int, VectorFlags (.vrmin o) s o.vd w 0 (fun _ => some (pat w r, ps)) ∧
      (vals = [] → r = tyMax o.t) ∧ (vals ≠ [] → r ∈ vals) ∧ ∀ x ∈ vals, r ≤ x) ∧
    ∀ sum : Bool,
      let op := if sum then fpAdd (tyFmt o.t) .rne else fpMinMax (tyFmt o.t) false
      let r := treeAt op (fun i => if onE s o w i then aE s o i else if sum then 2 ^ (w - 1) else infPat (tyFmt o.t) true)
        (Nat.log2 n) 0
      VectorFlags (if sum then .vrfsum o else .vrfmax o) s o.vd w r.2 (fun _ => some (r.1, ps))

/-- R88: the scale byte that a block's values give: 0xFF where one of them is no finite number; for BSK = 1 the exponent e with
its bias, from the largest magnitude mx, one higher where mx over the scale rounds above maxf; for BSK = 2 mx ÷ maxf rounded up
to UE5M3, whose flag OF says that it was clamped. -/
def Sys2Proof.Machine.BlockScalesRule : Prop :=
  ∀ (d : W32) (xs : List Val), descValid d = true → (descFmt d).maxQ ≠ 0 →
    let f := descFmt d
    ((∃ x ∈ xs, ¬x.finite) → (∀ x ∈ xs, x.finite ∨ x = .nan ∨ ∃ n, x = .inf n) → ∀ bsk, chooseScale f bsk xs = (0xFF, 0)) ∧
    ∀ num den : Nat, 0 < den → (∀ x ∈ xs, x.finite ∧ |x.exact| ≤ (num : ℚ) / den) →
      (num = 0 → chooseScale f 1 xs = (127, 0) ∧ chooseScale f 2 xs = (0x78, 0)) ∧
      (0 < num → (∃ x ∈ xs, |x.exact| = (num : ℚ) / den) →
        (∀ l k : ℤ, (2 : ℚ) ^ l ≤ (num : ℚ) / den → (num : ℚ) / den < 2 ^ (l + 1) → (2 : ℚ) ^ k ≤ f.maxQ → f.maxQ < 2 ^ (k + 1) →
          let e := l - k
          let a := scale2 num den (-e)
          let up := f.maxQ < gridPoint .rne false a.1 a.2 (ulpExp f a.1 a.2)
          chooseScale f 1 xs = ((max (-127) (min 127 (if up then e + 1 else e)) + 127).toNat, 0)) ∧
        (let r := roundTo fmtUE5M3 .rup true (.fin false (num * f.maxf.2) (den * f.maxf.1));
          chooseScale f 2 xs = (r.1, r.2 &&& fOF)))

/-- R84, R85, R88, R98, R99, R149, R150, R151, R153: VCVT, VQNT and VDQNT convert part by part with the scale of their block, and
reductions follow their fixed order. That a conversion between integers draws nothing whatever rm is, is the model's reading
(log entry 27). -/
def Obligations.ConversionsAndReductions : Prop := VectorConversionsRule ∧ QuantisationRule ∧ ReductionsRule ∧ BlockScalesRule

/-- R81, R138, R149 to R152: a vector instruction whose descriptor is not valid, or whose part, distance or slide does not exist,
raises the illegal-operand trap. -/
def Sys2Proof.Machine.VectorTrapsRule : Prop :=
  ∀ (s : State) (o : VR),
    let d := vget s.pre.r.f o.fr.toNat
    let u : BitVec 4 := o.fx.setWidth 4
    let stops (i : Instr) : Prop := Traps i s 0x03
    (o.rm = 5 → descValid d = false →
      (∀ e ∈ vFloatTable, stops (e.1 o) ∧ stops (e.2.1 o)) ∧
      ∀ i ∈ [Instr.vfma o, .vfmaS o, .vfnma o, .vfnmaS o, .vfsqrt o, .vcvt o], stops i) ∧
    (descValid d = false ∨ tyWidth o.t / container (descFmt d) ≤ o.fx.toNat % 32 →
      ∀ i ∈ [Instr.vqnt o, .vqntScale o, .vdqnt o], stops i) ∧
    (descBsk d = 0 → stops (.vqntScale o)) ∧
    (max (tyWidth o.t) (tyWidth u) / min (tyWidth o.t) (tyWidth u) ≤ o.fx.toNat / 16 → stops (.vcvt o)) ∧
    (tyCount o.t ≤ 2 ^ o.fx.toNat → stops (.vxch o)) ∧ (tyCount o.t ≤ o.fx.toNat → stops (.vsld o))

/-- R157 to R159: GSET writes the coordinates of a slot, widened to FP64, GIDX its indices, lane by lane under the guard;
neither touches the other part. A half of a register of 64-bit elements does not exist and traps; so does a poisoned guard, or a
poisoned source element of an active lane, whose lanes the record names. -/
def Sys2Proof.Machine.PointSlotsRule : Prop :=
  ∀ (s : State) (o : VR) (idx wide xy : Bool), o.vd.toNat < 8 → o.fx.toNat < 4 → xy = o.fx.getLsbD 0 →
    wide = (if idx then o.t == 7 else o.t == 0xB) →
    let i : Instr := if idx then .gidx o else .gset o
    let src (k : Nat) : Nat := if wide then k else 32 * (o.fx.toNat / 2) + k
    let on (k : Nat) : Bool := (s.rdP o.pg).getLsbD (8 * k)
    let at_ (r : R6) (k : Nat) : Nat := elem (tyWidth o.t) (s.rdV r).toNat (src k)
    let poison (r : R6) (k : Nat) : Bool := (s.psV r).getLsbD (src k * tyWidth o.t / 64)
    let regs : List R6 := if idx then [o.va] else if xy then [o.va, o.vb] else [o.va, o.vb, o.vc]
    (wide = true → 2 ≤ o.fx.toNat → Traps i s 0x03) ∧
    ((wide = true → o.fx.toNat < 2) →
    (s.psP o.pg = false → (∀ k < 32, on k = true → ∀ r ∈ regs, poison r k = false) →
      ∃ t, Gives i s t ∧ OnlySlot o.vd.toNat s t ∧ ∀ k < 32,
        let g := s.gNow o.vd.toNat
        let g' := t.gNow o.vd.toNat
        let put (old new : Nat) : Nat := if on k then new else if o.zm = 1 then 0 else old
        if idx then lane g'.idx k = put (lane g.idx k) (at_ o.va k) ∧ g'.x = g.x ∧ g'.y = g.y ∧ g'.z = g.z
        else lane g'.x k = put (lane g.x k) (widen o.t (at_ o.va k) % 2 ^ 64) ∧ lane g'.y k = put (lane g.y k) (widen o.t (at_ o.vb k) % 2 ^ 64) ∧
          lane g'.z k = put (lane g.z k) (if xy then 0 else widen o.t (at_ o.vc k) % 2 ^ 64) ∧ g'.idx = g.idx) ∧
    (s.psP o.pg = true → Traps i s 0x04) ∧
    (s.psP o.pg = false → (∃ k < 32, on k = true ∧ ∃ r ∈ regs, poison r k = true) →
      ∃ mask : Nat, (∀ k, mask.testBit k = true ↔ k < 32 ∧ on k = true ∧ ∃ r ∈ regs, poison r k = true) ∧
        Gives i s (s.takeTrap { cause := 0x04, slot := s.iss.slot, sres := some s.iss.slot, lmask := mask })))

/-- R160 to R167, R169 to R172: the geometry predicates evaluate each active lane of finite points; a lane with a point that is
not finite writes -2 and sets GNF, or traps under nf with the lanes in the record. The result goes to vd, the zero bit to the
lane's eight bits of pd; inactive lanes stay; what is written is poisoned as pg is. GESC counts the escalations, GDEG the lanes
with equal indices. -/
def Sys2Proof.Machine.GeometricPredicatesRule : Prop :=
  ∀ (s : State) (o : VG), ∀ e ∈ geoTable o,
    let on (i : Nat) : Bool := (s.rdP o.pg).getLsbD (8 * i)
    let pts (i : Nat) : List Pt := e.2.2.1.map fun g => s.pt g i
    let bad (i : Nat) : Prop := ∃ p ∈ pts i, ∃ c ∈ p.coords e.2.1, ∀ n a b, decodeVal fmt64 c ≠ .fin n a b
    let vd := physV s.pre.c o.vd
    let pd := physP s.pre.c o.pd
    (o.nf = 1 → (∃ i < 32, on i = true ∧ bad i) →
      ∃ mask : Nat, (∀ i, mask.testBit i = true ↔ i < 32 ∧ on i = true ∧ bad i) ∧
        Gives e.1 s (s.takeTrap { cause := 0x14, slot := s.iss.slot, sres := some s.iss.slot, lmask := mask })) ∧
    ((o.nf = 1 → ∀ i < 32, on i = true → ¬ bad i) →
      ∃ (t : State) (out : Nat → LaneOut), Gives e.1 s t ∧
        (∀ i < 32,
          (on i = false → lane (t.vNow vd) i = lane (s.vNow vd) i ∧ (t.vPoison vd).getLsbD i = (s.vPoison vd).getLsbD i ∧
            (o.pd ≠ 0 → ∀ b < 8, (t.pNow pd).getLsbD (8 * i + b) = (s.pNow pd).getLsbD (8 * i + b))) ∧
          (on i = true → lane (t.vNow vd) i = pat 64 (out i).r ∧ (t.vPoison vd).getLsbD i = s.psP o.pg ∧
            (o.pd ≠ 0 → ∀ b < 8, (t.pNow pd).getLsbD (8 * i + b) = (out i).zb) ∧
            (bad i → out i = { r := -2, zb := false }) ∧ (¬ bad i → e.2.2.2 (pts i) (out i)))) ∧
        (o.pd ≠ 0 → t.pPoison pd = s.psP o.pg) ∧
        (t.ctx.c.gnf = true ↔ s.ctx.c.gnf = true ∨ ∃ i < 32, on i = true ∧ bad i) ∧
        (t.ctx.c.gdeg = true ↔ s.ctx.c.gdeg = true ∨ ∃ i < 32, on i = true ∧ (out i).deg = true) ∧
        t.ctx.c.gesc = s.ctx.c.gesc + BitVec.ofNat 64 (((List.range 32).filter on).map fun i => (out i).esc).sum ∧
        t.ctx.c = { s.ctx.c with gnf := t.ctx.c.gnf, gdeg := t.ctx.c.gdeg, gesc := t.ctx.c.gesc } ∧
        SameScalars s t 0 ∧ SameVectors s t vd ∧ SamePreds s t pd ∧ SamePackage s t ∧ SameUnits s t ∧
        t.ctx.events = s.ctx.events ∧ t.ctx.r.g = s.ctx.r.g ∧ t.ctx.q = s.ctx.q ∧ t.mem = s.mem ∧
        t.core = { s.core with geoUntil := t.core.geoUntil } ∧ t.ctxs = s.ctxs ∧ t.iss = s.iss)

/-- R157, R158, R159, R161, R162, R163, R164, R165, R169, R171: GSET and GIDX write point slots, and the geometry predicates write
signs and zero bits of finite lanes. That the form of a half comes before a poisoned guard, and the guard, with LMASK 0, before
poisoned sources is the model's choice (log entry 97); so is that GESC, GNF and GDEG change at commit (log entry 98). -/
def Obligations.GeometryResults : Prop := PointSlotsRule ∧ GeometricPredicatesRule

/-- R123, R176, R181, R182, R287: a scalar load writes what the read answers to sd, extended, poisoned where it came from
uncorrectable data. A speculative load writes a poisoned zero where a load would fault. A load with acquire drops clean bytes
first and sets SMIS where it meets a mismatched record. -/
def Sys2Proof.Machine.ScalarLoadsRule : Prop :=
  ∀ (s s1 : State) (o : LS) (p : Place) (x : Nat) (bad : Bool),
    let a := addrLS s o
    let e0 : List Elem := [{ i := 0, addr := a }]
    s.psS o.sa = false → s.psS o.sx = false →
    (∀ e ∈ loadTable ++ specTable, s.resolve s.me s.rid a e.2.1 Access.load = .ok p →
      let u := s.approach p
      Walks s a → Free u p e.2.1 → (u.noteElems e0).readPlace p a e.2.1 = (.val x bad, s1) →
      ∃ t, Gives (e.1 o) s t ∧ (o.sd ≠ 0 → t.sNow o.sd = loaded e.2.1 e.2.2 x ∧ t.sPoison o.sd = bad) ∧
        OnlyScalar o.sd s1.clearRemote t) ∧
    (∀ e ∈ specTable, (∃ f, s.resolve s.me s.rid a e.2.1 Access.load = .error f ∧ Checked s a f) →
      ∃ t, Gives (e.1 o) s t ∧ (o.sd ≠ 0 → t.sNow o.sd = 0 ∧ t.sPoison o.sd = true) ∧ OnlyScalar o.sd s t) ∧
    ∀ e ∈ acqTable, s.resolve s.me s.rid a e.2.1 Access.load = .ok p →
      let s' := (s.acquire o.sco).approach p
      let u := s'.approach p
      s'.resolve s.me s.rid a e.2.1 Access.load = .ok p → Walks s a → Walks s' a → Free u p e.2.1 →
      (u.noteElems e0).readPlace p a e.2.1 = (.val x bad, s1) →
      ∃ t v, Gives (e.1 o) s t ∧ (o.sd ≠ 0 → v.sNow o.sd = loaded e.2.1 e.2.2 x ∧ v.sPoison o.sd = bad) ∧
        OnlyScalar o.sd s1.clearRemote v ∧
        t = if (s'.readsHome p e.2.1 && s'.mismatch s.me (s'.recordKey p)) || s.ctx.remote.any (·.mis)
          then { v with ctx := { v.ctx with c := { v.ctx.c with smis := true } } } else v

/-- R5, R176, R240, R241, R277, R278, R281: what a read of n bytes inside a line answers, of a context that waits for no other
device: in a scratchpad the bytes at its key; past the cache role the bytes at the home; where the cache role holds them all its
line's; where it does not, its dirty bytes over the home's. A line of another device has to be asked for. A read past the cache
role, and one that it holds, changes nothing. -/
def Sys2Proof.Machine.ReadPlacesRule : Prop :=
  ∀ (s : State) (a : W64) (k n c : Nat), s.ctx.remote = none →
    let line := s.core.findLine (lineOf k)
    s.readPlace (.pool c k) a n = (.val (leNat (s.peek k n)) (s.isBad k n), s) ∧
    (0 < n → k % 64 + n ≤ 64 →
      (k / 2 ^ 60 ≠ 4 → s.readPlace (.home k false) a n = (.val (leNat (s.peek k n)) (s.isBad k n), s)) ∧
      (k / 2 ^ 60 = 4 → devOf (BitVec.ofNat 64 (lineOf k)) ≠ s.mgmt.devid →
        s.readPlace (.home k false) a n = (.ask (lineOf k), s)) ∧
      (∀ l, line = some l → (∀ i < n, l.held.getLsbD (k % 64 + i) = true) →
        s.readPlace (.home k true) a n = (.val (l.data.toNat / 2 ^ (8 * (k % 64)) % 2 ^ (8 * n)) false, s)) ∧
      (k / 2 ^ 60 ≠ 4 → (∀ l, line = some l → ∃ i < n, l.held.getLsbD (k % 64 + i) = false) →
        let own (i : Nat) : Bool := line.any fun l => l.dirty.getLsbD (k % 64 + i)
        ∃ (x : Nat) (bad : Bool) (t : State), s.readPlace (.home k true) a n = (.val x bad, t) ∧ x < 2 ^ (8 * n) ∧
          (∀ i < n, BitVec.ofNat 8 (x / 2 ^ (8 * i)) =
            if own i then lineByte ((line.map (·.data)).getD 0) (k % 64 + i) else readByte s.mem (k + i)) ∧
          (bad = true ↔ ∃ i < n, own i = false ∧ s.isBad (k + i) 1 = true) ∧ t.ctx.r = s.ctx.r))

/-- R176, R178, R181, R283, R284, R286: a scalar store writes the low bytes of sd at its place; a store with release does so
when nothing of its release is pending, marks what it stores, and sends home what it leaves in the cache role within its reach.
No register changes. -/
def Obligations.ScalarStores : Prop :=
  ∀ (s : State) (o : LS) (p : Place),
    let a := addrLS s o
    let x := (s.rdS o.sd).toNat
    let e0 : List Elem := [{ i := 0, addr := a }]
    s.psS o.sa = false → s.psS o.sx = false → s.psS o.sd = false →
    (∀ e ∈ storeTable, s.resolve s.me s.rid a e.2 Access.store = .ok p →
      (s.iss.ready = true ∨ (s.heldWrite p = false ∧ s.heldWalk s.me s.rid a = false)) → p.key % e.2 = 0 →
      ∃ t, Gives (e.1 o) s t ∧ SameContext s t ∧ StoreAt (s.noteElems e0) t p e.2 x none) ∧
    ∀ e ∈ relTable, s.resolve s.me s.rid a e.2 Access.store = .ok p →
      let s' := s.beginRelease o.sco
      let u := s'.noteElems e0
      let mark := some (s.markOf o.sco)
      (s.iss.ready = true ∨
        (s'.releasePending o.sco = false ∧ s.heldWrite p = false ∧ s.heldWalk s.me s.rid a = false)) → p.key % e.2 = 0 →
      ∃ t, Gives (e.1 o) s t ∧ SameContext s t ∧
        ((∀ k, p = .home k true → inReach o.sco k = false) → StoreAt u t p e.2 x mark) ∧
        (∀ k, p = .home k true → inReach o.sco k = true →
          let v := u.writePlace p a e.2 x mark
          v.clearWay v.me (lineOf k) →
          leNat (t.peek (v.homeOf (lineOf k) + k % 64) e.2) = x % 2 ^ (8 * e.2) ∧
          (t.lineRecs.find? fun r => r.key = v.homeOf (lineOf k)).map (fun r : LineRec => (r.sco, r.org)) =
            some (o.sco, some s.core.num))

/-- R5, R176, R274: the checks of an access of n bytes, in their order, with their causes and details: the space, the alignment,
the scratchpad's size, the translation, the permission; what passes them reaches its place. -/
def Sys2Proof.Machine.AccessChecksRule : Prop :=
  ∀ (s : State) (own : Nat) (rid : BitVec 32) (a : W64) (n : Nat) (acc : Access),
    let r := s.resolve own rid a n acc
    let sp := a.toNat / 2 ^ 60
    let off := a.toNat % 2 ^ 60
    let fails (cause detail : Nat) : Prop := ∃ f, r = .error f ∧ f.cause = cause ∧ f.detail = detail
    let ok : Prop := sp = 0 ∨ (sp = 1 ∧ off / 2 ^ 48 < 48) ∨ (sp = 2 ∧ off < 2 ^ 48) ∨ (sp = 3 ∧ off < 2 ^ 57) ∨ sp = 4
    (¬ok → fails 0x07 0) ∧
    (ok → n ≠ 0 → a.toNat % n ≠ 0 → fails 0x08 0) ∧
    (ok → (n ≠ 0 → a.toNat % n = 0) →
      (sp = 0 → match (s.coreAt own).scrKey off with
        | none => fails 0x07 0
        | some k => r = .ok (.pool own k)) ∧
      (sp = 1 →
        let t := clusterOf own * 48 + off / 2 ^ 48
        if t ≠ own ∧ acc.rd = false then r = .ok (.far (farKey t (off % 2 ^ 48)))
        else match (s.coreAt t).scrKey (off % 2 ^ 48) with
          | none => if t = own then fails 0x07 0 else fails 0x0B 0
          | some k => r = .ok (.pool t k)) ∧
      (sp = 2 → match s.xlate own rid a.toNat with
        | .error d => fails 0x09 d
        | .ok (pa, leaf) =>
          if (acc.rd = true ∧ leafR leaf = false) ∨ (acc.wr = true ∧ leafW leaf = false) then fails 0x0A 0
          else r = .ok (.home (seamKey pa) (!leafNC leaf && (s.coreAt own).cchBanks ≠ []))) ∧
      (sp = 3 → match s.hostPage (s.pasidOf rid) (off % 2 ^ 57 / 4096) with
        | none => fails 0x09 0
        | some (f, rd, wr) =>
          if (acc.rd = true ∧ rd = false) ∨ (acc.wr = true ∧ wr = false) then fails 0x0A 0
          else r = .ok (.home (hostKey (f % 2 ^ 45 * 4096 + a.toNat % 4096)) ((s.coreAt own).cchBanks ≠ []))) ∧
      (sp = 4 → r = .ok (.home a.toNat ((s.coreAt own).cchBanks ≠ []))))

/-- R19, R123, R176, R181, R185, R187, R188: the precise traps of the scalar accesses: poison-use for a poisoned address or datum,
else the first check that fails, with the address as FADDR, once the walk that a check of translation needs can be made. A
speculative load traps on poison only. -/
def Sys2Proof.Machine.MemoryTrapsRule : Prop :=
  ∀ (s : State) (o : LS) (l : LA),
    let a := addrLS s o
    let b := s.rdS l.sa
    let w := s.rdS o.sa + o.off.signExtend 64
    let fault (i : Instr) (f : Failed) (x : W64) : Prop := Gives i s (s.takeTrap
      { cause := f.cause, slot := s.iss.slot, sres := some s.iss.slot, detail := f.detail, faddr := x })
    let poisoned : Prop := s.psS o.sa = true ∨ s.psS o.sx = true
    let sound : Prop := s.psS o.sa = false ∧ s.psS o.sx = false
    (∀ e ∈ loadTable ++ acqTable,
      (poisoned → Traps (e.1 o) s 0x04) ∧
      (sound → ∀ f, s.resolve s.me s.rid a e.2.1 Access.load = .error f → Checked s a f → fault (e.1 o) f a)) ∧
    (∀ e ∈ specTable, poisoned → Traps (e.1 o) s 0x04) ∧
    (∀ e ∈ storeTable ++ relTable,
      (poisoned ∨ s.psS o.sd = true → Traps (e.1 o) s 0x04) ∧
      (sound → s.psS o.sd = false → ∀ f, s.resolve s.me s.rid a e.2 Access.store = .error f → Checked s a f →
        fault (e.1 o) f a)) ∧
    (∀ i ∈ [Instr.aadd l, .aand l, .aor l, .axor l, .amin l, .amax l, .aswp l, .acas l],
      (s.psS l.sa = true ∨ s.psS l.sb = true ∨ s.psS l.sc = true → Traps i s 0x04) ∧
      (s.psS l.sa = false → s.psS l.sb = false → s.psS l.sc = false →
        ∀ f, s.resolve s.me s.rid b (if l.w = 1 then 4 else 8) Access.both = .error f → Checked s b f → fault i f b)) ∧
    (∀ i ∈ [Instr.clwb o, .clinv o, .clfl o],
      (poisoned → Traps i s 0x04) ∧
      (sound → s.ctx.remote = none → 2 ≤ a.toNat / 2 ^ 60 → ∀ f, s.resolve s.me s.rid a 0 ⟨false, false⟩ = .error f → Checked s a f →
        fault i f a)) ∧
    (poisoned → Traps (.waita o) s 0x04) ∧
    (sound → ∀ f, s.resolve s.me s.rid w 0 Access.load = .error f → Checked s w f → fault (.waita o) f w)

/-- R182 to R184: VLD, VLDS and VGTH read their active elements and zero the others; PLD reads 32 bytes into a predicate. A
poisoned guard poisons every element. -/
def Sys2Proof.Machine.VectorLoadsRule : Prop :=
  (∀ (s s1 : State) (o : LV) (g : LG) (ps : List (Elem × Place)) (vs : List (Nat × Nat × Bool)) (form : Fin 3),
    let t := if form = 2 then g.t else o.t
    let pg := if form = 2 then g.pg else o.pg
    let vd := if form = 2 then g.vd else o.vd
    let n := tyWidth t / 8
    let es := match form with
      | 0 => elemsAt s o.pg o.t (unitAddr s o)
      | 1 => elemsAt s o.pg o.t (strideAddr s o)
      | 2 => elemsAt s g.pg g.t (indexAddr s g)
    (if form = 2 then s.psS g.sa = false ∧
        ∀ i < tyCount g.t, (s.rdP g.pg).getLsbD (i * n) = true → (s.psV g.vb).getLsbD (i * tyWidth g.t / 64) = false
      else s.psS o.sa = false ∧ s.psS o.sx = false) →
    (form = 1 → (s.rdS o.sa + o.off.signExtend 64).toNat % n = 0 ∧ (s.rdS o.sx).toNat % n = 0) →
    let v := s.approachAll ps
    ps.map (·.1) = es → AllPass s Access.load n ps → (∀ x ∈ ps, Walks s x.1.addr ∧ Free v x.2 n) →
    Reads n ps (v.noteElems es) vs s1 →
    ∃ u, Gives (match form with | 0 => .vld o | 1 => .vlds o | 2 => .vgth g) s u ∧ OnlyVector (physV s.pre.c vd) s1.clearRemote u ∧
      VectorWrites s1 u (physV s.pre.c vd) (tyWidth t) fun i => match vs.find? fun v => v.1 = i with
        | some v => some (v.2.1, v.2.2 || s.psP pg)
        | none => some (0, s.psP pg)) ∧
    ∀ (s s1 : State) (o : LV) (p : Place) (x : Nat) (bad : Bool), s.psS o.sa = false → s.psS o.sx = false →
      let a := s.rdS o.sa + s.rdS o.sx + o.off.signExtend 64
      let v := s.approach p
      s.resolve s.me s.rid a 32 Access.load = .ok p → Walks s a → Free v p 32 →
      (v.noteElems [{ i := 0, addr := a }]).readPlace p a 32 = (.val x bad, s1) →
      ∃ u, Gives (.pld o) s u ∧ OnlyPred (physP s.pre.c (o.vd.setWidth 5)) s1.clearRemote u ∧
        ((o.vd.setWidth 5 : R5) ≠ 0 → u.pNow (physP s.pre.c (o.vd.setWidth 5)) = BitVec.ofNat 256 x ∧
          u.pPoison (physP s.pre.c (o.vd.setWidth 5)) = bad)

/-- R19, R182 to R184: VST, VSTS and VSCT store their active elements one after another, the highest last, each at its place; in
a scratchpad every byte is then as it should be; PST stores 32 bytes of a predicate. No register changes. -/
def Sys2Proof.Machine.VectorStoresRule : Prop :=
  (∀ (s : State) (o : LV) (g : LG) (ps : List (Elem × Place)) (form : Fin 3),
    let t := if form = 2 then g.t else o.t
    let pg := if form = 2 then g.pg else o.pg
    let vd := if form = 2 then g.vd else o.vd
    let n := tyWidth t / 8
    let es := match form with
      | 0 => elemsAt s o.pg o.t (unitAddr s o)
      | 1 => elemsAt s o.pg o.t (strideAddr s o)
      | 2 => elemsAt s g.pg g.t (indexAddr s g)
    let clean (v : R6) : Prop := ∀ i < tyCount t, (s.rdP pg).getLsbD (i * n) = true → (s.psV v).getLsbD (i * tyWidth t / 64) = false
    s.psP pg = false → clean vd →
    (if form = 2 then s.psS g.sa = false ∧ clean g.vb else s.psS o.sa = false ∧ s.psS o.sx = false) →
    (form = 1 → (s.rdS o.sa + o.off.signExtend 64).toNat % n = 0 ∧ (s.rdS o.sx).toNat % n = 0) →
    ps.map (·.1) = es → AllPass s Access.store n ps → FreeStores s ps → (∀ x ∈ ps, x.2.key % n = 0) →
    let val (i : Nat) : Nat := elem (tyWidth t) (s.rdV vd).toNat i
    ∃ u, Gives (match form with | 0 => .vst o | 1 => .vsts o | 2 => .vsct g) s u ∧ SameContext s u ∧
      Writes n val ps (s.noteElems es) u ∧ StoredAll s u n ps val) ∧
    ∀ (s : State) (o : LV) (p : Place), s.psS o.sa = false → s.psS o.sx = false → s.psP (o.vd.setWidth 5) = false →
      let a := s.rdS o.sa + s.rdS o.sx + o.off.signExtend 64
      s.resolve s.me s.rid a 32 Access.store = .ok p → FreeStores s [({ i := 0, addr := a }, p)] → p.key % 32 = 0 →
      ∃ u, Gives (.pst o) s u ∧ SameContext s u ∧ StoreAt (s.noteElems [{ i := 0, addr := a }]) u p 32 (s.rdP (o.vd.setWidth 5)).toNat none

/-- R18, R19, R182, R183, R184: vector loads and stores move their active elements, and PLD and PST a predicate. -/
def Obligations.VectorMemory : Prop := VectorLoadsRule ∧ VectorStoresRule

/-- R19, R182 to R184: the traps of the vector accesses: poison-use for a poisoned address, and for a store's guard or active
data, with the lane groups in the record; a misaligned base or stride; else the first check, in the order of R176, that an active
element fails: its cause, the lane groups of all elements that fail it, the address and the detail of the lowest. -/
def Sys2Proof.Machine.VectorMemoryTrapsRule : Prop :=
  ∀ (s : State) (o : LV) (g : LG) (form : Fin 3) (st : Bool),
    let t := if form = 2 then g.t else o.t
    let pg := if form = 2 then g.pg else o.pg
    let vd := if form = 2 then g.vd else o.vd
    let w := tyWidth t
    let n := w / 8
    let es := match form with
      | 0 => elemsAt s o.pg o.t (unitAddr s o)
      | 1 => elemsAt s o.pg o.t (strideAddr s o)
      | 2 => elemsAt s g.pg g.t (indexAddr s g)
    let i : Instr := match form, st with
      | 0, false => .vld o | 0, true => .vst o | 1, false => .vlds o | 1, true => .vsts o | 2, false => .vgth g | 2, true => .vsct g
    let acc := if st then Access.store else Access.load
    let badAddr : Bool := if form = 2 then s.psS g.sa else s.psS o.sa || s.psS o.sx
    let badLane (j : Nat) : Prop := ∃ k < tyCount t, k * w / 64 = j ∧ (s.rdP pg).getLsbD (k * n) = true ∧
      ((st = true ∧ (s.psV vd).getLsbD j = true) ∨ (form = 2 ∧ (s.psV g.vb).getLsbD j = true))
    let skew : Bool := form == 1 && ((s.rdS o.sa + o.off.signExtend 64).toNat % n != 0 || (s.rdS o.sx).toNat % n != 0)
    ((badAddr = true ∨ (st = true ∧ s.psP pg = true) ∨ ∃ j, badLane j) → ∃ mask : Nat, (∀ j, mask.testBit j = true ↔ badLane j) ∧
      Gives i s (s.takeTrap { cause := 0x04, slot := s.iss.slot, sres := some s.iss.slot, lmask := mask })) ∧
    (badAddr = false → (st = true → s.psP pg = false) → (∀ j, ¬badLane j) → ∀ (f : Failed) (lead : Elem),
      lead ∈ es → elemFail s acc n skew lead = some f → (∀ e ∈ es, Checked s e.addr f) →
      (∀ e ∈ es, ∀ h, elemFail s acc n skew e = some h → f.rank ≤ h.rank ∧ (h.rank = f.rank → lead.i ≤ e.i)) →
      ∃ mask : Nat, (∀ j, mask.testBit j = true ↔
          ∃ e ∈ es, ∃ h, elemFail s acc n skew e = some h ∧ h.rank = f.rank ∧ e.i * w / 64 = j) ∧
        Gives i s (s.takeTrap { cause := f.cause, slot := s.iss.slot, sres := some s.iss.slot, detail := f.detail, lmask := mask,
                                faddr := lead.addr }))

/-- R5, R19, R123, R176, R181, R182, R184, R240, R277, R278, R281, R287: scalar loads write what their place holds, with
poison, speculation and acquire, and memory accesses raise the traps of their checks. -/
def Obligations.LoadsAndReads : Prop := ScalarLoadsRule ∧ ReadPlacesRule ∧ AccessChecksRule ∧ MemoryTrapsRule ∧ VectorMemoryTrapsRule

/-- R185, R285 to R287, R290, R333: an atomic, after its release and acquire, reads n bytes at its home and writes what its
operation gives of them, sb and sc, in one step (at CORE scope in the core's cache role); sd receives the old value,
sign-extended only by the 32-bit AMIN and AMAX. Where the old value is uncorrectable nothing is written and sd is poisoned. An
address of another device is asked there; a home that refuses is a remote fault. -/
def Obligations.Atomics : Prop :=
  ∀ (s : State) (o : LA) (p : Place), ∀ e ∈ atomicTable,
    let a := s.rdS o.sa
    let n := if o.w = 1 then 4 else 8
    let signed := o.w = 1 ∧ (e.1 o = .amin o ∨ e.1 o = .amax o)
    let s1 := (s.approach p).beginRelease o.sco
    let s2 := (s1.acquire o.sco).noteElems [{ i := 0, addr := a }]
    s.psS o.sa = false → s.psS o.sb = false → s.psS o.sc = false → s.ctx.remote = none →
    s.resolve s.me s.rid a n Access.both = .ok p →
    let new (old : Nat) : Nat := e.2 n old ((s.rdS o.sb).toNat % 2 ^ (8 * n)) ((s.rdS o.sc).toNat % 2 ^ (8 * n))
    (s.iss.ready = true ∨ (s1.releasePending o.sco = false ∧ s1.lineBusy p n = false ∧ s.heldWalk s.me s.rid a = false ∧
      s.heldWrite p = false)) →
    let s3 := (s2.writeBackIf s.me fun l => l.key = lineOf p.key).settle s.me s.ctx.id (lineOf p.key)
    let done (u : State) (h : Nat) : Prop := ∃ t, Gives (e.1 o) s t ∧ t.ctx.q = s.ctx.q ∧ SameScalars s t o.sd ∧
      let old := leNat (u.peek h n)
      (u.isBad h n = false → Stored u t h n (new old) ∧
        (t.lineRecs.find? fun r => r.key = lineOf h).map (fun r : LineRec => (r.sco, r.org)) = some (o.sco, some s.core.num) ∧
        (o.sd ≠ 0 → t.sNow o.sd = loaded n (decide signed) old ∧ t.sPoison o.sd = false)) ∧
      (u.isBad h n = true → t.mem = u.mem ∧ (o.sd ≠ 0 → t.sNow o.sd = loaded n (decide signed) old ∧ t.sPoison o.sd = true))
    (∀ c k, p = .pool c k → done s2 k) ∧
    (∀ k cached, p = .home k cached → cached = false ∨ o.sco ≠ 0 →
      let quiet : Prop := s.iss.ready = true ∨ s3.underway s.me s.ctx.id (lineOf k) = []
      (∀ h, s2.atomicHome k = .ok h → quiet → (s.iss.ready = true ∨ s2.stands k = false) → done s3 h) ∧
      (s2.atomicHome k = .error none → Gives (e.1 o) s (s2.clearRemote.takeTrap
        { cause := 0x0B, slot := s.iss.slot, sres := some s.iss.slot, faddr := a })) ∧
      ∀ dev op, s2.atomicHome k = .error (some dev) → quiet → (e.1, op) ∈ atomicOps →
        ∃ t r x, Gives (e.1 o) s t ∧ t.ctx.remote = some r ∧ r.instr = e.1 o ∧ x ∈ t.fab.out ∧ x.seq = r.seq ∧ x.dst = dev ∧
          x.body = .atomic op o.w a (s.rdS o.sb) (s.rdS o.sc) ∧ t.ctx.r = s.ctx.r) ∧
    ∀ k x s4, p = .home k true → o.sco = 0 → Free s2 p n → k % n = 0 →
      s2.readPlace p a n = (.val x false, s4) →
      ∃ t, Gives (e.1 o) s t ∧ t.ctx.q = s.ctx.q ∧ SameScalars s t o.sd ∧
        StoreAt s4 t p n (new x) (some (s.markOf o.sco)) ∧
        (o.sd ≠ 0 → t.sNow o.sd = loaded n (decide signed) x ∧ t.sPoison o.sd = false)

/-- R186 to R188, R285, R291: DRAIN starts its write-backs and holds the next bundle until what they and the context's stores
are have performed; CLWB writes a line back within its scope, CLINV drops it, CLFL does both; the next bundle waits for bytes of
the line that are in flight. A line of the own device that does not translate under its own entry takes the page fault. That a line
of another device is asked for there, as by a load, before the operation is the model's reading (log entry 92). WAITA arms its watch
on the line of its address, with the deadline of sx, and sd receives its code later; a watch that was armed ends with the code of
what it has seen. -/
def Obligations.FencesAndLines : Prop :=
  ∀ (s : State) (o : LS) (k : Nat) (cached : Bool),
    let a := addrLS s o
    let line := lineOf k
    (let r := s.beginRelease o.sco
      ∃ t, Gives (.drain o) s t ∧ t = { r with ctx := { r.ctx with q := { r.ctx.q with drain := t.ctx.q.drain } } } ∧
        (∀ l ∈ t.core.cache, inReach o.sco l.key = true → l.dirty = 0) ∧
        ∀ x, x ∈ t.ctx.q.drain ↔ x ∈ s.ctx.q.drain ∨
          ∃ f ∈ r.core.flight, f.seq = x ∧ if f.wb then inReach o.sco f.key = true else f.ctx = s.ctx.id) ∧
    (s.psS o.sa = false → s.psS o.sx = false → s.ctx.remote = none → (s.iss.ready = true ∨ s.lineHeld o = false) →
      (a.toNat / 2 ^ 60 < 2 → Gives (.clwb o) s s ∧ Gives (.clinv o) s s ∧ Gives (.clfl o) s s) ∧
      (s.resolve s.me s.rid a 0 ⟨false, false⟩ = .ok (.home k cached) →
        let away : Prop := k / 2 ^ 60 = 4 ∧ devOf (BitVec.ofNat 64 k) ≠ s.mgmt.devid
        let held (t : State) : Prop := ∀ x, x ∈ t.ctx.q.drain ↔ x ∈ s.ctx.q.drain ∨
          ∃ f ∈ t.core.flight, f.seq = x ∧ f.wb = true ∧ f.key = line
        (away → ∀ i ∈ [Instr.clwb o, .clinv o, .clfl o], ∃ t r x, Gives i s t ∧ t.ctx.remote = some r ∧ r.instr = i ∧
          x ∈ t.fab.out ∧ x.seq = r.seq ∧ x.dst = devOf (BitVec.ofNat 64 line) ∧ x.body = .read (BitVec.ofNat 64 line) 64 ∧
          t.core = s.core ∧ t.mem = s.mem ∧ t.ctx.r = s.ctx.r) ∧
        (∀ d, k / 2 ^ 60 = 4 → ¬away → s.ownFault k = some d → ∀ i ∈ [Instr.clwb o, .clinv o, .clfl o], Gives i s
          (s.takeTrap { cause := 0x09, slot := s.iss.slot, sres := some s.iss.slot, detail := d, faddr := a })) ∧
        (¬away → (k / 2 ^ 60 = 4 → s.ownFault k = none) →
          (∃ t, Gives (.clinv o) s t ∧ t.mem = s.mem ∧ t.core.findLine line = none ∧ SameContext s t ∧
            t.core.flight = s.core.flight ∧ ∀ l, l ≠ line → t.core.findLine l = s.core.findLine l) ∧
          (∃ t, Gives (.clwb o) s t ∧ t.ctx.r = s.ctx.r ∧ t.ctx.c = s.ctx.c ∧
            (inReach o.sco line = false → t = s.noteAddr a) ∧
            (inReach o.sco line = true → held t ∧ (s.core.findLine line = none → t.mem = s.mem) ∧
              ∀ l, s.core.findLine line = some l → (s.core.cache.filter fun x => x.key = line) = [l] →
                LineGoesHome s t s.me l ∧ ∃ m, t.core.findLine line = some m ∧ m.dirty = 0 ∧ m.held = l.held ∧ m.data = l.data)) ∧
          ∃ t, Gives (.clfl o) s t ∧ t.ctx.r = s.ctx.r ∧ t.ctx.c = s.ctx.c ∧ held t ∧
            (s.core.findLine line = none → t.mem = s.mem ∧ t.core.findLine line = none) ∧
            ∀ l, s.core.findLine line = some l → LineGoesHome s t s.me l ∧
              if s.core.leaving l then ∃ m, t.core.findLine line = some m ∧ m.dirty = 0 else t.core.findLine line = none))) ∧
    ∀ p, s.psS o.sa = false → s.psS o.sx = false →
      let b := s.rdS o.sa + o.off.signExtend 64
      s.resolve s.me s.rid b 0 Access.load = .ok p →
      Walks s b → (s.iss.ready = true ∨ s.heldWrite p = false) →
      ∃ t w, Gives (.waita o) s t ∧ t.ctx.watch = some w ∧ w.sd = o.sd ∧ w.addr = b ∧ w.sco = o.sco ∧ w.line = s.recordKey p ∧
        w.seen = none ∧ w.deadline = (if s.rdS o.sx = 0 then none else some (s.time.elapsedNs + (s.rdS o.sx).toNat)) ∧
        t.ctx.c = s.ctx.c ∧ t.ctx.q = s.ctx.q ∧ (o.sd ≠ 0 → ∃ x ∈ t.ctx.board, x.dst = .s o.sd.toNat ∧ x.due = none) ∧
        (s.ctx.watch = none → t.ctx.r = s.ctx.r) ∧
        ∀ v, s.ctx.watch = some v → s.ctx.sch.life ≠ .none → b.toNat / 2 ^ 60 ≠ 3 →
          SameScalars s t v.sd ∧ (s.ctx.awaits v.sd v.tag = false → t.ctx.r = s.ctx.r) ∧
          (v.sd ≠ 0 → s.ctx.awaits v.sd v.tag = true → t.sPoison v.sd = false ∧ t.sNow v.sd = (match v.seen with
            | some c => c.setWidth 64
            | none => if ∃ d, v.deadline = some d ∧ d ≤ s.time.elapsedNs then 1 else 3))

/-- R189, R190, R254 to R262: SACT opens the row of its unit, SPRE closes it, SPRE.ALL closes every open row, SREF refreshes,
SLDX reads and SSTX writes the unit's eight bytes at the seam home, SREL begins the return of the channel, and SOWN takes a
channel or writes the code of its refusal. -/
def Sys2Proof.Machine.ExposedSeamRule : Prop :=
  ∀ (s : State) (o : LX) (c : Nat), o.ch.toNat < 8 →
    let now := s.core.cycle
    let b := c / 2 ^ 19
    (MayIssue s o .act c → ∃ t, Gives (.sact o) s t ∧ OnlyChannel o s t ∧
      (bankOf (chanOfLX t o) b).row = some (seamRow c) ∧ (bankOf (chanOfLX t o) b).act = some now ∧
      (bankOf (chanOfLX t o) b).opened =
        (if (bankOf (chanOfLX s o) b).row.isSome then (bankOf (chanOfLX s o) b).opened else some now) ∧
      (chanOfLX t o).acts = ((chanOfLX s o).acts ++ [now]).drop ((chanOfLX s o).acts.length + 1 - 4) ∧
      ∀ k ≠ b, bankOf (chanOfLX t o) k = bankOf (chanOfLX s o) k) ∧
    (MayIssue s o .pre c → ∃ t, Gives (.spre o) s t ∧ OnlyChannel o s t ∧
      (bankOf (chanOfLX t o) b).row = none ∧ (bankOf (chanOfLX t o) b).pre = some now ∧
      ∀ k ≠ b, bankOf (chanOfLX t o) k = bankOf (chanOfLX s o) k) ∧
    (MayIssue s o .preAll c → ∃ t, Gives (.spreAll o) s t ∧ OnlyChannel o s t ∧
      ∀ k < 16, (bankOf (chanOfLX t o) k).row = none ∧
        (bankOf (chanOfLX t o) k).pre = if (bankOf (chanOfLX s o) k).row.isSome then some now else (bankOf (chanOfLX s o) k).pre) ∧
    (MayIssue s o .ref c → ∃ t, Gives (.sref o) s t ∧ OnlyChannel o s t ∧ (chanOfLX t o).sref = some now ∧
      (chanOfLX t o).refresh = s.time.elapsedNs ∧ (chanOfLX t o).banks = (chanOfLX s o).banks) ∧
    (MayIssue s o .rd c → ∃ t u, Gives (.sldx o) s t ∧ OnlyChannel o s u ∧ OnlyScalar o.sd u t ∧
      (o.sd ≠ 0 → t.sNow o.sd = BitVec.ofNat 64 (s.peek64 (unitAt s o c)) ∧ t.sPoison o.sd = s.isBad (unitAt s o c) 8)) ∧
    (MayIssue s o .wr c → ∃ t, Gives (.sstx o) s t ∧ Stored s t (unitAt s o c) 8 (s.rdS o.sd).toNat ∧
      t.ctx.r = s.ctx.r ∧ t.ctx.c = s.ctx.c ∧ t.core = { s.core with chans := t.core.chans }) ∧
    (MayIssue s o .rel c → ∃ t, Gives (.srel o) s t ∧ OnlyChannel o s t ∧ (chanOfLX t o).releasing = true ∧
      (chanOfLX t o).owner = (chanOfLX s o).owner ∧ (∀ k < 16, (bankOf (chanOfLX t o) k).row = none) ∧
      now ≤ (chanOfLX t o).busy ∧ ∀ k < 16, (bankOf (chanOfLX s o) k).row.isSome →
        MinimumsPassed { chanOfLX s o with sref := none } .pre k (chanOfLX t o).busy) ∧
    ∃ t, Gives (.sown o) s t ∧
      let ok : Bool := (s.region? s.rid).any fun g => g.lim.expok
      let count := if s.seamState s.me = 0 then 8 else if s.seamState s.me = 1 then 4 else 0
      if s.ctx.es.held.getLsbD o.ch.toNat ∨ ok = false ∨ count ≤ o.ch.toNat ∨ (chanOfLX s o).owner.isSome then
        OnlyScalar o.sd s t ∧ (o.sd ≠ 0 → t.sPoison o.sd = false ∧ t.sNow o.sd =
          if s.ctx.es.held.getLsbD o.ch.toNat then 4 else if ok = false then 2 else if count ≤ o.ch.toNat then 3 else 1)
      else
        (chanOfLX t o).owner = some s.ctx.id ∧ (chanOfLX t o).owning = some o.sd ∧
          t.ctx.es.held.getLsbD o.ch.toNat = true ∧ SameScalars s t o.sd ∧ t.mem = s.mem ∧
          (o.sd ≠ 0 → ∃ x ∈ t.ctx.board, x.dst = .s o.sd.toNat ∧ x.due = none)

/-- R19, R53, R189, R190, R259, R260: the checks of an exposed command, in their order: a poisoned operand, a unit beyond the
channel, a channel that its context does not hold; then it waits while the channel is busy; then the wrong row, a sequence error;
then a broken minimum or a late refresh, which traps in strict mode, and in lenient mode waits, counted once in LSTALL. -/
def Sys2Proof.Machine.SeamTrapsRule : Prop :=
  ∀ (s : State) (o : LX), ∀ e ∈ exposedTable o, o.ch.toNat < 8 →
    let c := unitX s o e.2
    let free (n : Bool) : State := { s with ctx := { s.ctx with q := { s.ctx.q with counted := n } } }
    let stops (cause detail : Nat) : Prop := Gives e.1 s ((free false).takeTrap
      { cause := cause, slot := s.iss.slot, sres := some s.iss.slot, detail := detail })
    (¬XClean s o e.2 → stops 0x04 0) ∧
    (XClean s o e.2 →
      (2 ^ 23 ≤ c → stops 0x03 0) ∧
      (c < 2 ^ 23 →
        (¬XOwns s o → stops 0x15 o.ch.toNat) ∧
        (XOwns s o →
          (¬XOpen s o → Gives e.1 s { s with iss := { s.iss with held := true } }) ∧
          (XOpen s o →
            (¬XRow s o e.2 c → stops 0x16 o.ch.toNat) ∧
            (XRow s o e.2 c → ¬XTime s o e.2 c →
              (s.ctx.es.strict = true → stops 0x17 o.ch.toNat) ∧
              (s.ctx.es.strict = false → ∃ t, Gives e.1 s t ∧ t = { free true with
                  iss := { s.iss with held := true }
                  ctx := { (free true).ctx with es := { s.ctx.es with lstall := t.ctx.es.lstall } } } ∧
                t.ctx.es.lstall.toNat = if s.ctx.q.counted then s.ctx.es.lstall.toNat
                  else min 0xFFFF (s.ctx.es.lstall.toNat + 1)))))))

/-- R189, R190, R254, R255, R256, R257, R258, R259, R260, R262: the exposed seam commands open, close, refresh, read, write, take
and return a channel, or trap on a wrong sequence or time. The order of the codes that refuse a SOWN, 4, 2, 3, 1, is the model's
reading (log entry 71). -/
def Obligations.ExposedSeam : Prop := ExposedSeamRule ∧ SeamTrapsRule

/-- R20, R60, R210, R225 to R229, R235: MCFG writes word imm of the shadow set, MFMT its format word, each with its signal at
once; MGO in both forms queues the nest of the shadow set, by the format-table entry of its immediate or of a loop index,
where no check of R225 rejects it; MSIG signals once what was issued before it is complete. -/
def Sys2Proof.Machine.MatrixConfigurationRule : Prop :=
  ∀ (s : State) (o : FM), Passes s o.w → s.pre.c.mhold = true →
    (s.psS o.sa = false → (o.imm.toNat = 0 ∨ (o.imm.toNat = 1 ∧ (s.rdS o.sa).toNat < 2 ^ 53) ∨
        (4 ≤ o.imm.toNat ∧ o.imm.toNat ≤ 15 ∧ (s.rdS o.sa).toNat < 2 ^ 48)) →
      ∃ t, Gives (.mcfg o) s t ∧ Signals s t o.w ∧ t.ctx = { s.ctx with mx := { s.ctx.mx with shadow := t.ctx.mx.shadow } } ∧
        ∀ n < 16, vget t.ctx.mx.shadow n = if n = o.imm.toNat then s.rdS o.sa else vget s.ctx.mx.shadow n) ∧
    (∃ t, Gives (.mfmt o) s t ∧ Signals s t o.w ∧ t.ctx = { s.ctx with mx := { s.ctx.mx with shadow := t.ctx.mx.shadow } } ∧
      ∀ n < 16, vget t.ctx.mx.shadow n = if n = 2 then BitVec.ofNat 64 (o.imm.toNat % 128) else vget s.ctx.mx.shadow n) ∧
    (∀ af wf out, s.ctx.mx.queue.length < 4 →
      mgoReject s.core.pool (2 ^ 15 * s.core.pool.lb.length) (readCfg s.ctx.mx.shadow) af wf = none →
      (s.pre.r.entry (o.imm.toNat / 16) = some (af, wf, out) → QueuesNest (.mgoFix o) o s af wf out) ∧
      ∀ l, s.pre.q.loops[o.imm.toNat]? = some l → s.pre.r.entry (l.index.toNat % 16) = some (af, wf, out) →
        QueuesNest (.mgoLoop o) o s af wf out) ∧
    (o.w.spt = 0 → s.ctx.tlm.issued.toNat ≤ s.ctx.tlm.mark.toNat → s.ctx.mx.loads = [] →
      ∃ t, Gives (.msig o) s t ∧ Signals s t o.w ∧ t.ctx = s.ctx) ∧
    (o.w.spt = 0 → s.ctx.tlm.mark.toNat < s.ctx.tlm.issued.toNat → s.ctx.mx.loads = [] →
      ∃ t l, Gives (.msig o) s t ∧ OnlyMatrix s t ∧ t.ctx.tlm = s.ctx.tlm ∧ t.ctx.mx = { s.ctx.mx with loads := [l] } ∧
        l.isSig = true ∧ l.num = s.ctx.tlm.issued ∧ l.o = o)

/-- R23, R229, R230, R233, R234: MLDW takes a number and joins the loads in flight with its addresses; MCAL and MZCLR take a
number and queue the banks or tiles of their mask. While four entries are queued, MGO, MCAL and MZCLR do not issue. -/
def Sys2Proof.Machine.MatrixQueueRule : Prop :=
  ∀ (s : State) (o : FM), Passes s o.w → s.pre.c.mhold = true →
    (let scl := if o.imm.getLsbD 6 then s.rdS o.sd else 0;
      s.psS o.sa = false → (o.imm.getLsbD 6 = true → s.psS o.sd = false) →
      (∀ x ∈ mldwSpans o (s.rdS o.sa) scl, x.fault = none) → (s.rdS o.sa).toNat % 64 = 0 → scl.toNat % 64 = 0 →
      ¬(o.imm.getLsbD 5 = true ∧ o.cw = 2) → s.core.pool.isTile (o.imm.toNat % 32) = true →
      (s.core.pool.sameRecord o = true ∨ ∀ e ∈ s.ctx.mx.queue, o.imm.toNat % 32 ∉ e.banks) →
      ∃ t l, Gives (.mldw o) s t ∧ OnlyMatrix s t ∧ TakesNumber s t ∧ t.ctx.mx = { s.ctx.mx with loads := s.ctx.mx.loads ++ [l] } ∧
        l.num = s.ctx.tlm.issued + 1 ∧ l.src = s.rdS o.sa ∧ l.scl = scl ∧ l.o = o ∧ l.isSig = false ∧ l.tile = none) ∧
    (s.ctx.mx.queue.length < 4 → s.psS o.sa = false → (s.rdS o.sa).toNat < 2 ^ 32 →
      (∀ j < 32, (s.rdS o.sa).getLsbD j = true → s.core.pool.isTile j = true) →
      ∃ t e, Gives (.mcal o) s t ∧ OnlyMatrix s t ∧ TakesNumber s t ∧ t.ctx.mx = { s.ctx.mx with queue := s.ctx.mx.queue ++ [e] } ∧
        e.kind = .cal ∧ e.num = s.ctx.tlm.issued + 1 ∧ e.imm = s.rdS o.sa ∧ e.started = none ∧ e.w = o.w) ∧
    (s.ctx.mx.queue.length < 4 → o.imm ≠ 0 →
      ∃ t e, Gives (.mzclr o) s t ∧ OnlyMatrix s t ∧ TakesNumber s t ∧ t.ctx.mx = { s.ctx.mx with queue := s.ctx.mx.queue ++ [e] } ∧
        e.kind = .zclr ∧ e.num = s.ctx.tlm.issued + 1 ∧ e.imm = o.imm.setWidth 64 ∧ e.started = none ∧ e.w = o.w) ∧
    (4 ≤ s.ctx.mx.queue.length →
      let held := { s with iss := { s.iss with held := true } }
      Gives (.mgoFix o) s held ∧ Gives (.mgoLoop o) s held ∧ Gives (.mcal o) s held ∧ Gives (.mzclr o) s held)

/-- R20, R23, R60, R210, R227, R228, R229, R230, R233, R234, R235: matrix commands write the shadow set, take their numbers
and enter their queues. -/
def Obligations.MatrixCommands : Prop := MatrixConfigurationRule ∧ MatrixQueueRule

/-- R18, R20, R22, R224 to R235: the traps of the matrix class. None of them has an effect of its slot's own. That a poisoned operand
comes before an illegal one, and the order of MLDW's traps, is the model's choice (log entry 116). -/
def Sys2Proof.Machine.MatrixTrapsRule : Prop :=
  ∀ (s : State) (o : FM), Passes s o.w →
    (s.pre.c.mhold = false → Traps (.mcfg o) s 0x05 ∧ Traps (.mfmt o) s 0x05 ∧ Traps (.mgoFix o) s 0x05 ∧
      Traps (.mgoLoop o) s 0x05 ∧ Traps (.mldw o) s 0x05 ∧ Traps (.mrdz o) s 0x05 ∧ Traps (.mrdb o) s 0x05 ∧
      Traps (.mcal o) s 0x05 ∧ Traps (.mzclr o) s 0x05 ∧ Traps (.mav o) s 0x05 ∧ Traps (.msig o) s 0x05) ∧
    (s.pre.c.mhold = true → s.psS o.sa = true → Traps (.mcfg o) s 0x04 ∧ Traps (.mldw o) s 0x04 ∧ Traps (.mav o) s 0x04 ∧
      (s.ctx.mx.queue.length < 4 → Traps (.mcal o) s 0x04)) ∧
    (s.pre.c.mhold = true → s.psS o.sa = false →
      ((o.imm.toNat = 2 ∨ o.imm.toNat = 3 ∨ 15 < o.imm.toNat) → Traps (.mcfg o) s 0x03) ∧
      (32 ≤ (s.rdS o.sa).toNat → Traps (.mav o) s 0x03) ∧
      (let e := (vget s.pre.r.ft o.imm.toNat).toNat
       bits e 15 12 ≠ 0 ∨ descValid (vget s.pre.r.f (bits e 11 8)) = false → Traps (.mav o) s 0x03) ∧
      (s.ctx.mx.queue.length < 4 → 2 ^ 32 ≤ (s.rdS o.sa).toNat → Traps (.mcal o) s 0x03)) ∧
    (s.pre.c.mhold = true → s.ctx.mx.queue.length < 4 → o.imm = 0 → Traps (.mzclr o) s 0x03) ∧
    (s.pre.c.mhold = true → s.ctx.mx.queue.length < 4 → s.pre.r.entry (o.imm.toNat / 16) = none →
      Traps (.mgoFix o) s 0x13 1) ∧
    (s.pre.c.mhold = true → s.ctx.mx.queue.length < 4 → s.pre.q.loops.length ≤ o.imm.toNat → Traps (.mgoLoop o) s 0x13 3) ∧
    (s.pre.c.mhold = true → s.psS o.sa = false →
      let src := s.rdS o.sa
      let scaled := o.imm.getLsbD 6
      let scl := if scaled then s.rdS o.sd else 0;
      (scaled = true → s.psS o.sd = true → Traps (.mldw o) s 0x04) ∧
      ((scaled = true → s.psS o.sd = false) →
        (∀ a, (mldwSpans o src scl).findSome? Span.fault = some a →
          Gives (.mldw o) s (s.takeTrap { cause := 0x0D, slot := s.iss.slot, sres := some s.iss.slot, faddr := a })) ∧
        ((∀ x ∈ mldwSpans o src scl, x.fault = none) →
          ((src.toNat % 64 ≠ 0 ∨ scl.toNat % 64 ≠ 0 ∨ (o.imm.getLsbD 5 = true ∧ o.cw = 2) ∨
              s.core.pool.isTile (o.imm.toNat % 32) = false) → Traps (.mldw o) s 0x03) ∧
          (src.toNat % 64 = 0 → scl.toNat % 64 = 0 → ¬(o.imm.getLsbD 5 = true ∧ o.cw = 2) →
            s.core.pool.isTile (o.imm.toNat % 32) = true → s.core.pool.sameRecord o = false →
            (∃ e ∈ s.ctx.mx.queue, o.imm.toNat % 32 ∈ e.banks) → Traps (.mldw o) s 0x13 6))))

/-- R19, R22, R81, R116, R122, R125, R126, R127, R138, R191, R225: control, matrix and vector instructions raise the precise traps
that their rules name. That a LOOP with a poisoned sa at depth 6 takes the poison-use trap is the model's reading (log entry
72), as are the order of traps in the matrix class (log entry 116) and that of a vector instruction's (log entry 97). -/
def Obligations.PreciseTraps : Prop := ControlTrapsRule ∧ MatrixTrapsRule ∧ VectorTrapsRule

/-- R206, R223, R224, R231, R232: MRDZ reads half a row of a tile into vd and the tile's status into sd, MRDB half a row of its
bounds; MAV converts a row by the output descriptor of a format-table entry, under SR with a draw for each of its 128 elements.
The signal falls due with the result. -/
def Obligations.TileReads : Prop :=
  ∀ (s : State) (o : FM), Passes s o.w → s.pre.c.mhold = true →
    (∀ bound : Bool,
      let m := s.ctx.mx
      let i := 32 * o.zt.toNat + o.imm.toNat % 32
      let h := o.imm.toNat / 32 % 2
      ∃ t, Gives (if bound then .mrdb o else .mrdz o) s t ∧
        t.vNow (physV s.pre.c o.vd) = (vget (if bound then m.bnd else m.val) i).extractLsb' (2048 * h) 2048 ∧
        (∀ g < 32, (t.vPoison (physV s.pre.c o.vd)).getLsbD g = true ↔
          ∃ k, 64 * h + 2 * g ≤ k ∧ k < 64 * h + 2 * g + 2 ∧ isNan32 (elem 32 (vget m.bnd i).toNat k) = true) ∧
        (o.sd ≠ 0 → t.sNow o.sd = m.status o.zt.toNat ∧ t.sPoison o.sd = false) ∧
        SameVectors s t (physV s.pre.c o.vd) ∧ SameScalars s t o.sd ∧ SamePreds s t noReg ∧ t.ctx.mx = m ∧ t.mem = s.mem ∧
        t.ctx.c = s.ctx.c ∧
        t.core.sigs = s.core.sigs ++ if o.w.se = 1 then [(s.core.cycle + 8, s.rid, o.w.ss, o.w.si)] else []) ∧
    (let e := vget s.pre.r.ft o.imm.toNat
      let d := vget s.pre.r.f (bits e.toNat 11 8)
      let x := s.rdS o.sa;
      let i := 32 * o.zt.toNat + x.toNat;
      let sr : Bool := descRnd d = 2
      let mode (k : Nat) : RMode :=
        if sr then .sr (((rngStep^[k + 1]) s.iss.rng).toNat / 2 ^ 40) else if descRnd d = 1 then .rtz else .rne
      s.psS o.sa = false → x.toNat < 32 → bits e.toNat 15 12 = 0 → descValid d = true →
      ∃ t, Gives (.mav o) s t ∧ SameVectors s t (physV s.pre.c o.vd) ∧ SameScalars s t 0 ∧ SamePreds s t noReg ∧
        t.ctx.mx = s.ctx.mx ∧ t.mem = s.mem ∧ t.ctx.c = { s.ctx.c with rng := t.ctx.c.rng } ∧
        t.iss.rng = (rngStep^[if sr then 128 else 0]) s.iss.rng ∧
        t.ctx.c.rng = (if s.iss.rngSet ∨ sr = false then s.ctx.c.rng else t.iss.rng) ∧
        t.core.sigs = s.core.sigs ++ (if o.w.se = 1 then [(s.core.cycle + 12, s.rid, o.w.ss, o.w.si)] else []) ∧
        (let q (b : Nat) := quantBlk d ((List.range 32).map fun k => mode (32 * b + k))
            ((List.range 32).map fun k => elem 32 (vget s.ctx.mx.val i).toNat (32 * b + k));
          FlagsSent s t ((q 0).fl ||| (q 1).fl ||| (q 2).fl ||| (q 3).fl) ∧
          ∀ b < 4, (∀ k < 32, elem (container (descFmt d)) (t.vNow (physV s.pre.c o.vd)).toNat (32 * b + k) =
              ((q b).pats.getD k 0) % 2 ^ container (descFmt d)) ∧
            (descBsk d ≠ 0 → elem 8 (t.vNow (physV s.pre.c o.vd)).toNat (128 + b) = (q b).scale % 256)) ∧
        ((t.vPoison (physV s.pre.c o.vd)).getLsbD 16 = true ↔ ∃ k < 128, isNan32 (elem 32 (vget s.ctx.mx.bnd i).toNat k) = true))

/-- R213 to R215: at every split point the digital sum and the two charge sums hold all products; no array holds more than
Lmax(S); a reading that does not clip is a multiple of one sixteenth of a step, at most 24 of these from the charge sum, and
every such value is possible; at S = 0 the block is exact. -/
def Sys2Proof.Machine.ChargeReadingRule : Prop :=
  (∀ (S : Nat) (a w : List QElem), let t := splitSums S a w;
    t.h + t.pos - t.neg = signedProducts a w ∧
    ((a.zip w).length ≤ 32 → (∀ x ∈ a ++ w, x.q < 512) → t.pos + t.neg ≤ lmax S ∧ (S = 0 → t.pos = 0 ∧ t.neg = 0))) ∧
  ∀ (S g : Nat) (t : Sums) (choice : Bool) (x y : Nat),
    let r := readBlock S g t choice x y
    let d : ℚ := (t.pos : ℚ) - t.neg
    let step : ℚ := (2 : ℚ) ^ readExp S g
    (S = 0 → r.value = t.h ∧ r.clip = false) ∧
    (0 < S →
      (r.clip = true ↔ lmax S < max t.pos t.neg * 2 ^ g ∨ (nearRange S g (max t.pos t.neg) = true ∧ choice = true)) ∧
      (r.clip = false → |r.value - t.h - d| ≤ 24 * step ∧ ∃ m : ℤ, r.value - t.h = m * step) ∧
      (max t.pos t.neg * 2 ^ g ≤ lmax S → ∀ m : ℤ, |(m : ℚ) * step - d| ≤ 24 * step →
        ∃ x', (readBlock S g t false x' y).value = t.h + m * step))

/-- R209, R225: a generator takes, at the index vector of rank k, its base and the steps of the levels times their indices; its
bounds are the least and the greatest value it takes. -/
def Sys2Proof.Machine.NestBoundsRule : Prop :=
  ∀ (c : MCfg) (d : MLevel → Int) (base : Int),
    (∀ is : List Nat, is.length = c.levels.length → (∀ x ∈ is.zip c.levels, x.1 ≤ x.2.cnt) →
      rankOf (is.zip c.levels) < c.total ∧
        c.gen d base (rankOf (is.zip c.levels)) = base + ((is.zip c.levels).map fun x => x.1 * d x.2).sum) ∧
    (∀ k < c.total, c.low d base ≤ c.gen d base k ∧ c.gen d base k ≤ c.high d base) ∧
    (∃ k < c.total, c.gen d base k = c.low d base) ∧ ∃ k < c.total, c.gen d base k = c.high d base

/-- R209, R213, R214, R215, R225: the charge reading stays within its bounds, and an address generator within the extremes of
its nest. -/
def Obligations.MatrixArithmetic : Prop := ChargeReadingRule ∧ NestBoundsRule

/-- R221, R222, R229 to R234: the oldest entry starts behind at most one other, an MCAL behind none and an MZCLR, which clears its
tiles at once, behind none that names them; a nest and an MCAL complete, an MLDW puts its tile into its bank once no tile
operation occupies it; each completes its number of timeline M. -/
def Sys2Proof.Machine.MatrixEventsRule : Prop :=
  ∀ (s u : State) (c : CtxId) (num : W64), s.focus c = some u →
    (∀ before e after, u.ctx.mx.queue = before ++ e :: after → (∀ x ∈ before, x.started.isSome) → e.started = none →
      e.num = num → (u.ctx.sch.life = .resident ∨ u.ctx.sch.life = .dormant ∨ u.ctx.sch.life = .retiring) →
      ((2 ≤ before.length ∨ ∃ x ∈ before, x.kind = .cal ∨ (e.kind = .zclr ∧ ∃ z ∈ x.tiles, z ∈ e.writes)) →
        Gives (.matrixEntryStart c) s s) ∧
      ((e.kind = .cal ∧ u.ctx.tlm.mark.toNat + 1 ≠ num.toNat) → Gives (.matrixEntryStart c) s s) ∧
      (before.length < 2 → (∀ x ∈ before, x.kind ≠ .cal) → (e.kind = .zclr → ∀ x ∈ before, ∀ z ∈ x.tiles, z ∉ e.writes) →
        (e.kind = .cal → u.ctx.tlm.mark.toNat + 1 = num.toNat) → u.nestInvalid e = none →
      ∃ t, Gives (.matrixEntryStart c) s t ∧
        (e.kind ≠ .zclr →
          t = { u with ctx := { u.ctx with mx := { u.ctx.mx with queue := t.ctx.mx.queue } } } ∧
          t.ctx.mx.queue = u.ctx.mx.queue.map fun x => if x.num = num then { x with started := some u.core.cycle } else x) ∧
        (e.kind = .zclr → Finishes u t num ∧ ∀ z < 8,
          (e.imm.getLsbD z = true → t.ctx.mx.stat[z]? = some {} ∧
            ∀ m < 32, vget t.ctx.mx.val (32 * z + m) = 0 ∧ vget t.ctx.mx.bnd (32 * z + m) = 0) ∧
          (e.imm.getLsbD z = false → t.ctx.mx.stat[z]? = u.ctx.mx.stat[z]? ∧
            ∀ m < 32, vget t.ctx.mx.val (32 * z + m) = vget u.ctx.mx.val (32 * z + m) ∧
              vget t.ctx.mx.bnd (32 * z + m) = vget u.ctx.mx.bnd (32 * z + m))))) ∧
    (∀ e, (u.ctx.mx.queue.find? fun e => e.num = num && e.kind = .nest && e.started.isSome) = some e →
      (readCfg e.cfg).total ≤ e.step →
      ∃ t, Gives (.nestComplete c num) s t ∧ Finishes u t num ∧ t.ctx.mx.val = u.ctx.mx.val ∧ t.ctx.mx.bnd = u.ctx.mx.bnd ∧
        t.ctx.mx.stat = u.ctx.mx.stat ∧ t.core.pool = u.core.pool) ∧
    (∀ l r, (u.ctx.mx.loads.find? fun l => !l.isSig && l.num = num) = some l →
      (∀ e ∈ u.ctx.mx.queue, e.kind = .cal → num.toNat ≤ e.num.toNat) → u.core.bankFree l.o.bank ≤ u.core.cycle →
      (∀ e ∈ u.ctx.mx.queue, ∀ r ∈ e.runs, r.tile.bank ≠ l.o.bank) →
      (l.tile = some r ∨ (l.tile = none ∧ u.readTile l = .tile r)) → r.bank = l.o.bank →
      ∃ t, Gives (.mldwComplete c num) s t ∧ t.ctx.tlm = u.ctx.tlm.complete num ∧ t.ctx.r = u.ctx.r ∧
        t.ctx.mx.queue = u.ctx.mx.queue ∧ t.ctx.mx.val = u.ctx.mx.val ∧ t.core.pool.tile? l.o.bank = some r ∧
        (∀ j, j ≠ l.o.bank → t.core.pool.tile? j = u.core.pool.tile? j) ∧ ∀ x ∈ t.ctx.mx.loads, x.isSig = true ∨ x.num ≠ num) ∧
    ∀ e t0, (u.ctx.mx.queue.find? fun e => e.num = num && e.kind = .cal) = some e → e.started = some t0 →
      t0 + 4096 ≤ u.core.cycle →
      ∃ t, Gives (.mcalComplete c num) s t ∧ Finishes u t num ∧ t.ctx.mx.val = u.ctx.mx.val ∧
        ∀ j < 32, (t.core.pool.cals.find? fun k => k.bank = j).map Cal.at_ =
          if e.imm.getLsbD j then some (u.bankTemp u.me) else (u.core.pool.cals.find? fun k => k.bank = j).map Cal.at_

/-- R208, R209, R217, R222 to R224: the next tile operation of a nest starts once its bank is free and no load runs into it,
with the tile that the bank holds, and occupies the bank for 1,024 cycles, beside those that run on other banks. The oldest that
runs is applied after its cycles. Every element of the rows of the destination tile goes through the four blocks of its A row
and its W column, and its flags are among those sent; a poisoned row or column makes its bound NaN; other rows and tiles stay;
the tile's step count rises by one. -/
def Sys2Proof.Machine.TileOperationsRule : Prop :=
  ∀ (s u : State) (c : CtxId) (num : W64) (e : MEntry),
    let g := readCfg e.cfg
    let early : Prop := ∀ r rest, e.runs = r :: rest → u.core.cycle < r.at0 + 1024
    let k := e.step + e.runs.length
    let wb := (g.gen (·.dw) g.wbase k).toNat
    s.focus c = some u → (u.ctx.mx.queue.find? fun e => e.num = num && e.kind = .nest) = some e →
    (early → k < g.total → e.started.isSome → e.at0 + 8 ≤ u.core.cycle → u.core.bankFree wb ≤ u.core.cycle →
      (∀ x ∈ u.ctx.mx.queue, ∀ r ∈ x.runs, r.tile.bank ≠ wb) →
      (∀ l ∈ u.ctx.mx.loads, l.isSig = true ∨ l.o.bank ≠ wb ∨
        ∃ x ∈ u.ctx.mx.queue, x.kind = .cal ∧ x.num.toNat < l.num.toNat) →
      (∀ x ∈ u.ctx.mx.queue.takeWhile (fun x => x.num ≠ num), (g.gen (·.dz) g.zbase k).toNat ∉ x.tiles ∧
        (g.asrc = 2 → (g.gen (·.dza) g.zabase k).toNat ∉ x.tiles)) →
      ∀ w, u.core.pool.tile? wb = some w →
      ∃ t, Gives (.tileOperation c num) s t ∧
        t = { u with ctx := { u.ctx with mx := { u.ctx.mx with queue := t.ctx.mx.queue } },
                     core := { u.core with bankDone := t.core.bankDone } } ∧
        t.ctx.mx.queue = u.ctx.mx.queue.map (fun x =>
          if x.num = num then { x with runs := x.runs ++ [{ at0 := u.core.cycle, tile := w }] } else x) ∧
        ∀ j, t.core.bankFree j = if j = wb then u.core.cycle + 1024 else u.core.bankFree j) ∧
    (early → (g.total ≤ k ∨ u.core.cycle < u.core.bankFree wb ∨ ∃ x ∈ u.ctx.mx.queue, ∃ r ∈ x.runs, r.tile.bank = wb) →
      Gives (.tileOperation c num) s s) ∧
    ∀ (t0 : Nat) (w : TileRec) (rest : List TileStart) (rows : List ARow), e.runs = { at0 := t0, tile := w } :: rest →
    t0 + 1024 ≤ u.core.cycle →
    let zd := (g.gen (·.dz) g.zbase e.step).toNat
    (zd < 8 → ((List.range g.rows).mapM fun m => u.aRow e g e.step m) = some rows →
    ∃ t, Gives (.tileOperation c num) s t ∧ t.mem = u.mem ∧ t.ctx.r = u.ctx.r ∧ t.core = u.core ∧
      t.ctx.tlm = u.ctx.tlm ∧
      t.ctx.mx.queue = u.ctx.mx.queue.map (fun x =>
        if x.num = num then { x with step := x.step + 1, runs := x.runs.drop 1 } else x) ∧
      ((t.ctx.mx.stat[zd]?).getD {}).steps = ((u.ctx.mx.stat[zd]?).getD {}).steps + 1 ∧
      (∀ k, (k < 32 * zd ∨ 32 * zd + g.rows ≤ k) →
        vget t.ctx.mx.val k = vget u.ctx.mx.val k ∧ vget t.ctx.mx.bnd k = vget u.ctx.mx.bnd k) ∧
      ∃ fl, (if fl = 0 then t.ctx.events = u.ctx.events else ∃ ev, t.ctx.events = u.ctx.events ++ [ev] ∧ ev.fl = fl ∧
        ev.slot = 5 ∧ ev.ba = e.ba ∧ ev.eng = some (1, e.num) ∧ ev.at0 = u.core.cycle) ∧
      ∀ m < g.rows, ∀ n < 128, ∃ a nf, rows[m]? = some a ∧
        let sp : Split := { s := g.s, g := g.g, stale := u.staleBank w.bank, chained := g.asrc = 2, af := descFmt e.af }
        let z := (a.blks.zip (w.column e.wf n)).foldl (fun z p => stepBlock sp p.1 p.2 z)
          { acc := elem 32 (vget u.ctx.mx.val (32 * zd + m)).toNat n, bnd := elem 32 (vget u.ctx.mx.bnd (32 * zd + m)).toNat n,
            fl := 0, clip := false, ran := false, nfree := nf }
        elem 32 (vget t.ctx.mx.val (32 * zd + m)).toNat n = z.acc % 2 ^ 32 ∧
        elem 32 (vget t.ctx.mx.bnd (32 * zd + m)).toNat n = (if a.bad || w.badColumn n then qnan32 else z.bnd) % 2 ^ 32 ∧
        (a.fl ||| z.fl) &&& fl = a.fl ||| z.fl)

/-- R208, R217, R221, R222, R223, R224, R229, R230, R233, R234: matrix entries start, run their tile operations and complete
their numbers of timeline M. -/
def Obligations.MatrixProgress : Prop := MatrixEventsRule ∧ TileOperationsRule

/-- R5, R196: a range of operands stands where its base lies in one of its spaces and every byte up to its lowest and highest has an
address that the table of R5 allows in the same space; otherwise the fault is at the base, or at an address that is no byte of
that space. The range of a shape reaches from its lowest to its highest byte, and the ranges of a command cover all it moves. -/
def Sys2Proof.Machine.OperandRangesRule : Prop :=
  (∀ x : Span, (∀ lo hi, x.reach = some (lo, hi) → -2 ^ 63 ≤ lo ∧ lo ≤ 0 ∧ 0 ≤ hi) →
    (x.fault = none ↔ InSpace x.base x.spaces ∧ ∀ lo hi d : Int, x.reach = some (lo, hi) → lo ≤ d → d ≤ hi →
      ∃ a : W64, (a.toNat : Int) = x.base.toNat + d ∧ spaceOk a = true ∧ a.toNat / 2 ^ 60 = x.base.toNat / 2 ^ 60) ∧
    (¬InSpace x.base x.spaces → x.fault = some x.base) ∧
    ∀ a, InSpace x.base x.spaces → x.fault = some a → ¬(spaceOk a = true ∧ a.toNat / 2 ^ 60 = x.base.toNat / 2 ^ 60)) ∧
  (∀ (h : CopyShape) (ps rs : Int), 0 < h.p → 0 < h.r → 0 < h.l → ∃ lo hi, h.reach ps rs = some (lo, hi) ∧
    (∀ p r k : Nat, p < h.p → r < h.r → k < h.l → lo ≤ p * ps + r * rs + k ∧ (p * ps + r * rs + k : Int) ≤ hi) ∧
    (∃ p r k : Nat, p < h.p ∧ r < h.r ∧ k < h.l ∧ (p * ps + r * rs + k : Int) = lo) ∧
    ∃ p r k : Nat, p < h.p ∧ r < h.r ∧ k < h.l ∧ (p * ps + r * rs + k : Int) = hi) ∧
  ∀ c : Cmd, ∀ r ∈ c.srcRows ++ c.dstRows, 0 < r.2 → ∃ x ∈ c.spans, Covers x r.1 r.2

/-- R18, R23, R192, R195 to R197, R200 to R204: an S6 command whose operands are clean, in their spaces with every byte of their
ranges, and within their limits enters the engine queue and takes its number; CPY3 reads its descriptor then, as the S7 store
beside it leaves it. A full queue holds the bundle; a poisoned operand, a wrong space and a wrong value trap, with nothing queued
and no number taken. -/
def Sys2Proof.Machine.EngineCommandsRule : Prop :=
  (∀ (s : State) (op : EOp) (o : FE) (i : Instr), IsCommand op o i → Passes s o.w →
    let xs := (s.readCmd op o).spans
    (16 ≤ s.ctx.queue.length → Gives i s { s with iss := { s.iss with held := true } }) ∧
    (s.ctx.queue.length < 16 → PoisonedOperand s o → Traps i s 0x04) ∧
    (s.ctx.queue.length < 16 → ¬PoisonedOperand s o →
      ((∀ x ∈ xs, x.fault = none) → SpacesOf s op o ∧ (LimitsOf s op o → QueuesCommand i op o s []) ∧
        (¬LimitsOf s op o → Traps i s 0x03)) ∧
      (∀ a, xs.findSome? Span.fault = some a → CopyTrap i s a) ∧
      (¬SpacesOf s op o → ∃ a, (a = s.rdS o.sa ∨ a = s.rdS o.sb ∨ a = s.rdS o.sc) ∧ ∃ x ∈ xs, x.fault = some a))) ∧
  ∀ (s : State) (o : FE), Passes s o.w →
    let sc := s.rdS o.sc
    (16 ≤ s.ctx.queue.length → Gives (.cpy3 o) s { s with iss := { s.iss with held := true } }) ∧
    (s.ctx.queue.length < 16 → PoisonedOperand s o → Traps (.cpy3 o) s 0x04) ∧
    (s.ctx.queue.length < 16 → ¬PoisonedOperand s o →
      (¬InSpace sc [0] → CopyTrap (.cpy3 o) s sc) ∧
      (InSpace sc [0] → sc.toNat % 32 ≠ 0 → Traps (.cpy3 o) s 0x03) ∧
      (InSpace sc [0] → sc.toNat % 32 = 0 → s.route s.me s.rid Access.load sc 32 = .wait →
        Gives (.cpy3 o) s { s with iss := { s.iss with held := true } }) ∧
      (∀ f, InSpace sc [0] → sc.toNat % 32 = 0 → s.route s.me s.rid Access.load sc 32 = .fail f → CopyTrap (.cpy3 o) s sc) ∧
      ∀ rs, InSpace sc [0] → sc.toNat % 32 = 0 → s.route s.me s.rid Access.load sc 32 = .ok rs →
        let d := s.readDesc rs
        let w (i : Nat) : Nat := (d.getD i 0).toNat
        let xs := ({ s.readCmd .cpy3 o with desc := d } : Cmd).spans;
        (∀ i < 4, w i = leNat ((({ s with mem := s.iss.later.getD s.mem }.gather s.me 0 rs).1.drop (8 * i)).take 8)) ∧
        (∀ a, xs.findSome? Span.fault = some a → CopyTrap (.cpy3 o) s a) ∧
        ((∀ x ∈ xs, x.fault = none) → SpacesOf s .cpy3 o ∧
          if w 0 / 2 ^ 32 * (w 0 % 2 ^ 32) * (w 2 % 2 ^ 32) ≤ 2 ^ 32 ∧ w 2 / 2 ^ 32 = 0 then QueuesCommand (.cpy3 o) .cpy3 o s d
          else Traps (.cpy3 o) s 0x03))

/-- R5, R18, R23, R192, R195, R196, R197, R200, R201, R202, R203, R204: an S6 command enters the engine queue with its number, waits
for room, or traps on its operands and its ranges. That the incoming buffer of a relay or a finish lies in space 0x0 or 0x2 is
the model's choice (log entry 102); that R196's limit of 2^32 bytes holds for CPYX too is its reading (log entry 80). -/
def Obligations.EngineCommands : Prop := OperandRangesRule ∧ EngineCommandsRule

/-- R205, R239, R243, R244, R250 to R252: what PMAP and PMQ read from their operands, the operand faults, and the refusal codes by
their conditions, in the order of the table. -/
def Sys2Proof.Machine.PoolRefusalsRule : Prop :=
  ∀ (s : State) (o : FE) (g : Region), s.region? s.rid = some g →
    let q := s.poolReq o
    let p := s.core.pool
    let named (j : Nat) : Prop := (j < 64 ∧ (s.rdS o.sa).getLsbD j = true) ∨ (64 ≤ j ∧ j < 96 ∧ (s.rdS o.sb).getLsbD (j - 64) = true)
    let target (j : Nat) : Prop := j < 64 ∧ (s.rdS o.sc).getLsbD j = true
    let changes (j : Nat) : Prop := named j ∧ p.role j ≠ q.role
    let role (j : Nat) : BitVec 2 := if j ∈ q.targets then 2 else if j ∈ q.changing p then q.role else p.role j
    let count (f : Nat → Bool) : Nat := ((List.range 96).filter f).length
    let moved (j : Nat) : Prop := named j ∨ target j
    let c6 : Prop := p.change.isSome = true
    let c4 : Prop := count (fun j => role j = 0) < 2 ∨ 24 < count (fun j => role j = 0) ∨ 32 < count (fun j => role j = 1) ∨
      94 < count (fun j => role j = 2) ∨ 32 < count (fun j => role j = 3) ∨
      ∃ j, named j ∧ ((j < 64 ∧ q.role = 3) ∨ (64 ≤ j ∧ (q.role = 0 ∨ q.role = 1)))
    let owns (r : BitVec 2) : Nat := count fun j => role j = r && ((q.named ++ q.targets).contains j || p.ownerOf j = some s.rid)
    let c5 : Prop := g.lim.bcch.toNat < owns 1 ∨ g.lim.bscr.toNat < owns 2 ∨ g.lim.btile.toNat < owns 3 ∨
      ∃ j r, moved j ∧ p.ownerOf j = some r ∧ r ≠ s.rid ∧ (s.region? r).isSome = true
    let c3 : Prop := ∃ j, moved j ∧ p.role j = 0 ∧ ∃ c ∈ s.allCtxs, c.sch.life.holdsBank = true ∧ c.core.toNat = s.me ∧ c.bank.toNat = j
    let scr := q.named.filter fun j => p.role j = 2
    let c2 : Prop := scr ≠ [] ∧ ∃ x ∈ s.allCtxs, (∃ c ∈ x.running, s.cmdHits x s.me scr c = true) ∨
      (x.core.toNat = s.me ∧ x.sch.life.holdsBank = true ∧
        ((∃ c ∈ x.queue, s.cmdHits x s.me scr c = true) ∨
         (∃ e ∈ x.mx.queue, s.rangeHits x s.me scr Access.load e.scrRows = true) ∨
         ∃ l ∈ x.mx.loads, s.rangeHits x s.me scr Access.load l.rows = true));
    (∀ j, (j ∈ q.named ↔ named j) ∧ (j ∈ q.targets ↔ target j) ∧ (j ∈ q.changing p ↔ changes j)) ∧
    q.role.toNat = o.fn.toNat / 2 ^ 12 % 4 ∧ (q.rel = true ↔ o.fn.toNat / 2 ^ 11 % 2 = 1) ∧
    (q.faulty p = true ↔ (∀ j, ¬named j) ∨
      (q.rel = true ∧ (q.targets.length ≠ (q.named.filter fun j => p.role j = 2).length ∨ q.role = 2 ∨
        ∃ j, target j ∧ (named j ∨ (p.role j ≠ 0 ∧ p.role j ≠ 1)))) ∨
      (q.rel = false ∧ ((∃ j, target j) ∨ ∃ j ∈ scr, j ∉ p.lb.drop (p.lb.length - scr.length)))) ∧
    (s.poolRefusal q = some 6 ↔ c6) ∧
    (s.poolRefusal q = some 4 ↔ ¬c6 ∧ c4) ∧
    (s.poolRefusal q = some 5 ↔ ¬c6 ∧ ¬c4 ∧ c5) ∧
    (s.poolRefusal q = some 3 ↔ ¬c6 ∧ ¬c4 ∧ ¬c5 ∧ c3) ∧
    (s.poolRefusal q = some 2 ↔ ¬c6 ∧ ¬c4 ∧ ¬c5 ∧ ¬c3 ∧ c2) ∧
    (s.poolRefusal q = none ↔ ¬c6 ∧ ¬c4 ∧ ¬c5 ∧ ¬c3 ∧ ¬c2)

/-- R18, R205 to R207, R243: the operand traps of PMAP, PMQ and LAUNCH. -/
def Sys2Proof.Machine.PoolTrapsRule : Prop :=
  ∀ (s : State) (o : FE), Passes s o.w →
    (s.psS o.sa = true ∨ s.psS o.sb = true ∨ s.psS o.sc = true →
      Traps (.pmap o) s 0x04 ∧ Traps (.pmq o) s 0x04 ∧ Traps (.launch o) s 0x04) ∧
    (s.psS o.sa = false → s.psS o.sb = false → s.psS o.sc = false →
      (2 ^ 32 ≤ (s.rdS o.sb).toNat ∨ (s.poolReq o).faulty s.core.pool = true → Traps (.pmap o) s 0x03 ∧ Traps (.pmq o) s 0x03) ∧
      (¬InSpace (s.rdS o.sa) [2, 3] → CopyTrap (.launch o) s (s.rdS o.sa)) ∧
      (InSpace (s.rdS o.sa) [2, 3] → (s.rdS o.sa).toNat % 256 ≠ 0 → Traps (.launch o) s 0x03))

/-- R205 to R207, R243, R286, R298: PMQ answers the code of the first refusal, or 0; PMAP answers the same, changing nothing,
or accepts the change with 0 when it is complete at once and 1 when it goes on; LAUNCH releases and hands its block to the
scheduler, sd being written by its decision. -/
def Sys2Proof.Machine.PoolCommandsRule : Prop :=
  ∀ (s : State) (o : FE), Passes s o.w → s.psS o.sa = false → s.psS o.sb = false → s.psS o.sc = false →
    (let q := s.poolReq o
      let code := s.poolRefusal q
      let none_ := q.changing s.core.pool = []
      (s.rdS o.sb).toNat < 2 ^ 32 → q.faulty s.core.pool = false →
      (∃ t, Gives (.pmq o) s t ∧ OnlyPool o.sd s t ∧ t.mem = s.mem ∧ t.core.pool = s.core.pool ∧
        (o.sd ≠ 0 → t.sPoison o.sd = false ∧
          (none_ → t.sNow o.sd = 0) ∧ (¬none_ → t.sNow o.sd = BitVec.ofNat 64 (code.getD 0))) ∧
        t.core.sigs = s.core.sigs ++ if o.w.se = 1 then [(s.core.cycle + 6, s.rid, o.w.ss, o.w.si)] else []) ∧
      (none_ → ∃ t, Gives (.pmap o) s t ∧ OnlyPool o.sd s t ∧ t.core.pool = s.core.pool ∧ Signals s t o.w ∧
        (o.sd ≠ 0 → t.sPoison o.sd = false ∧ t.sNow o.sd = 0)) ∧
      (∀ c, ¬none_ → code = some c → ∃ t, Gives (.pmap o) s t ∧ OnlyScalar o.sd s t ∧
        (o.sd ≠ 0 → t.sPoison o.sd = false ∧ t.sNow o.sd = BitVec.ofNat 64 c)) ∧
      (¬none_ → code = none → ∃ t, Gives (.pmap o) s t ∧ OnlyPool o.sd s t ∧
        (o.sd ≠ 0 → t.sPoison o.sd = false ∧ (t.sNow o.sd = 0 ↔ t.core.pool.change = none) ∧
          (t.sNow o.sd = 1 ↔ t.core.pool.change.isSome)) ∧
        (∀ ch, t.core.pool.change = some ch → ch.ctx = s.ctx.id ∧ ch.banks = q.changing s.core.pool ∧ ch.targets = q.targets ∧
          ch.role = q.role ∧ ch.rel = q.rel ∧ t.core.pool.roles = s.core.pool.roles) ∧
        (t.core.pool.change = none → ∀ j < 96, t.core.pool.role j = q.after s.core.pool j) ∧
        ∀ j < 96, t.core.pool.ownerOf j =
          if j ∈ q.named ++ q.targets then (if q.after s.core.pool j = 0 then none else some s.rid)
          else s.core.pool.ownerOf j)) ∧
    let a := s.rdS o.sa
    InSpace a [2, 3] → a.toNat % 256 = 0 →
      let r := s.beginRelease (if a.toNat / 2 ^ 60 = 3 then 3 else 2)
      ∃ t l, Gives (.launch o) s t ∧ t.ctx.launches = r.ctx.launches ++ [l] ∧ l.sd = o.sd ∧ l.block = a ∧ l.w = o.w ∧
        l.ba = s.iss.ba ∧ t.ctx.r = s.ctx.r ∧ t.ctx.c = s.ctx.c ∧ t.ctx.q = s.ctx.q ∧ t.core = r.core ∧ t.mem = r.mem ∧
        t.regions = s.regions ∧ (o.sd ≠ 0 → { dst := .s o.sd.toNat, due := none } ∈ t.ctx.board)

/-- R205, R206, R207, R239, R243, R244, R246, R250, R251, R252, R286, R298: PMQ and PMAP trap, refuse by the conditions of
R243 or accept the change, and LAUNCH hands over its block. That a bank left out of the change still counts as named is the
model's reading (log entry 86). -/
def Obligations.PoolCommands : Prop := PoolRefusalsRule ∧ PoolTrapsRule ∧ PoolCommandsRule

/-- R97, R192, R195, R248, R274, R282, R339: the oldest entry of a queue starts, an ESIG signalling at once, an FCPY or MXRED on
the engine of its die that holds the fewest commands; a command whose bytes are there writes its result, every other byte
standing, sends its flags and completes; one that waits for a page of the host asks for it, and goes on once it is there; the
sources of a command are kept once they have been read; one that fails completes with its copy-fault record, whose fields
RecordFieldsRule gives, and its context will be held. An engine operation's flags are due in the cycle before its event: the model's
reading (log entry 100). -/
def Obligations.EngineEvents : Prop :=
  ∀ (s u : State) (c : CtxId) (tl : BitVec 2) (num : W64), s.focus c = some u → tl ≠ 1 → tl ≠ 3 →
    (∀ x rest, u.ctx.queue = x :: rest → u.ctx.sch.life.starts = true →
      (x.tl = 3 → ∃ t, Gives (.engineQueueRelease c) s t ∧ Signals u t x.o.w ∧ t.ctx.queue = rest ∧
        t.ctx.running = u.ctx.running ∧ t.ctx.r = u.ctx.r) ∧
      (x.tl ≠ 3 → (x.tl = 0 ∧ 2048 ≤ u.inStream u.me) ∨ u.ctx.remote.isSome = true ∨ u.touchesHeld x = true →
        Gives (.engineQueueRelease c) s s) ∧
      let fabric : Prop := x.op ∈ [EOp.fcpy, .mxredStart, .mxredRelay, .mxredFinish]
      let mine (e : Nat) : Prop := e / 8 = u.me / 48 / 6
      x.tl ≠ 3 → (x.tl = 0 → u.inStream u.me < 2048) → u.ctx.remote = none → u.touchesHeld x = false →
        (¬fabric →
          Gives (.engineQueueRelease c) s { u with ctx := { u.ctx with queue := rest, running := u.ctx.running ++ [x] } }) ∧
        (fabric → (∀ e, mine e → 16 ≤ u.onEngine e) → Gives (.engineQueueRelease c) s s) ∧
        (fabric → (∃ e, mine e ∧ u.onEngine e < 16) → ∃ e, mine e ∧
          (∀ f, mine f → u.onEngine e ≤ u.onEngine f ∧ (f < e → u.onEngine e < u.onEngine f)) ∧
          Gives (.engineQueueRelease c) s
            { u with ctx := { u.ctx with queue := rest, running := u.ctx.running ++ [{ x with engine := some e }] } })) ∧
    (∀ e, u.onEngine e = (u.allCtxs.flatMap fun k => k.running.filter fun x => x.engine = some e).length) ∧
    (∀ x bs bad dst, Runs u x tl num → x.op ≠ .cpyh → GrantLive u → u.readSrc x = .ok bs bad →
      u.routeAll u.me u.rid x.dstAccess x.dstRows = .ok dst → u.reduceOrdered x dst = true →
      ∃ t, Gives (.engineOpComplete c tl num) s t ∧ Ended u t tl num ∧
        (∀ j, (∀ r ∈ dst, j < r.key ∨ r.key + r.n ≤ j) → readByte t.mem j = readByte u.mem j) ∧
        let res := (u.result x bs dst).1
        let fl := (u.result x bs dst).2
        t.ctx.events = u.ctx.events ++ (if fl = 0 then [] else
          [{ due := u.core.cycle - 1, slot := 6, ba := x.ba, fl := fl, at0 := u.core.cycle, eng := some (tl, num) }]) ∧
        (res.length = (dst.map Run.n).sum → Apart dst →
          (isMx x.op = true ∨ x.op = .rsig ∨
            ∀ src, u.routeAll u.me u.rid Access.load x.srcRows = .ok src → samePad src dst = true ∨ ∀ r ∈ dst, runsMeet src [r] = false) →
          bytesAt t dst = res)) ∧
    (∀ x, u.ctx.cmd? tl num = some x → x.waiting = true → x.remoteSrc u = false → x.remoteDst u = false →
      (x.src.isSome ∨ u.routeAll u.me u.rid Access.load x.srcRows ≠ .wait) → u.routeAll u.me u.rid x.dstAccess x.dstRows ≠ .wait →
      ∃ t, Gives (.pageFaultReplay c tl num) s t ∧
        t = { u with ctx := { u.ctx with running := t.ctx.running }, mgmt := { u.mgmt with hostGen := t.mgmt.hostGen } } ∧
        t.ctx.running = u.ctx.running.map fun y => if y.tl = tl ∧ y.num = num then { y with waiting := false } else y) ∧
    (∀ x r p f, u.ctx.cmd? tl num = some x → x.waiting = true → x.remoteSrc u = false → x.src = none → r ∈ x.srcRows →
      p ∈ pieces (r.2 / 2048 + 2) r.1 r.2 → r.1.toNat / 2 ^ 60 = 3 → u.resolve u.me u.rid p.1 0 Access.load = .error f → f.rank = 3 →
      u.routeAll u.me u.rid Access.load x.srcRows = .wait →
      Gives (.pageFaultReplay c tl num) s { u with mgmt := { u.mgmt with hostGen := u.mgmt.hostGen + 1 } }) ∧
    (∀ x bs bad, u.ctx.cmd? tl num = some x → x.src = none → x.waiting = false → u.readSrc x = .ok bs bad → GrantLive u →
      ∃ t, Gives (.sourceReadsFinished c tl num) s t ∧ t.mem = u.mem ∧ t.ctx.r = u.ctx.r ∧
        t.ctx.running = u.ctx.running.map fun y => if y.tl = x.tl ∧ y.num = x.num then { y with src := some (bs, bad) } else y) ∧
    ∀ x why done g, u.ctx.cmd? tl num = some x → u.mayFail x why = true → u.ctx.sch.life = .resident →
      u.region? u.ctx.id.rid = some g → g.dom.fpol = 0 →
      ∃ t, ∃ v : State, Gives (.engineOpFailure c tl num why done) s t ∧ Ended u t tl num ∧ v.time = u.time ∧
        (∃ z, v.ctx? u.ctx.id = some z ∧ z.core = u.ctx.core ∧ z.c.trpb = u.ctx.c.trpb ∧ z.c.pidx = u.ctx.c.pidx) ∧
        t = v.imprecise u.ctx.id { cause := 0x0D, slot := 6, prec := false, ba := x.ba, faddr := u.failAddr x, tgt := num, tl := tl.toNat } ∧
        t.ctx.sch.stopAt = some (u.ctx.sch.stopAt.getD .held) ∧ (t.ctx.c.pidx = u.ctx.c.pidx + 1 ∨ t.ctx.c.lost = true ∨
          t.ctx.sch.outRecs.length = u.ctx.sch.outRecs.length + 1)

/-- R197, R200, R203, R204, R340: what a command writes. A copy writes its source; a transform each element by its operation,
under SR with the draw of its element; a reduction hop the local value or its rounded sum with the incoming one, quantised but
for a finish; RSIG the sum. -/
def Obligations.EngineResults : Prop :=
  ∀ (u : State) (x : Cmd) (bs : List Byte) (dst : List Run),
    let res := (u.result x bs dst).1
    let old := bytesAt u dst
    (x.op ∈ [EOp.cpy, .cpy2, .cpy3, .cpyh, .fcpy] → res = bs) ∧
    (isX x.op = true → bs.length % (tyWidth x.o.xT / 8) = 0 →
      let t := x.o.xT
      let v := if x.op = .cpyxCast then x.o.xU else t
      let n := bs.length / (tyWidth t / 8)
      res.length = n * (tyWidth v / 8) ∧ ∀ i < n,
        let a := elem (tyWidth t) (leNat bs) i
        let b := elem (tyWidth t) (leNat old) i
        let k := x.sd.toNat % 2 ^ tyWidth t
        let y := elem (tyWidth v) (leNat res) i
        (tyF t = false →
          (x.op = .cpyxScale → y = pat (tyWidth t) (tyVal t a * tyVal t k)) ∧
          (x.op = .cpyxAdd → y = pat (tyWidth t) (tyVal t a + tyVal t k)) ∧
          (old.length = bs.length → (x.op = .cpyxRadd → y = pat (tyWidth t) (tyVal t b + tyVal t a)) ∧
            (x.op = .cpyxRmax → y = pat (tyWidth t) (max (tyVal t b) (tyVal t a))))) ∧
        let m : RMode := if x.o.xRm = 4 then .sr (drawBits (rngStep^[i + 1] x.seed)) else modeOf x.o.xRm.toNat
        (∀ r : Nat × BitVec 5,
          (tyF t = true ∧ ((x.op = .cpyxScale ∧ r = fpMul (tyFmt t) m a k) ∨ (x.op = .cpyxAdd ∧ r = fpAdd (tyFmt t) m a k) ∨
            (old.length = bs.length ∧ ((x.op = .cpyxRadd ∧ r = fpAdd (tyFmt t) m b a) ∨
              (x.op = .cpyxRmax ∧ r = fpMinMax (tyFmt t) false b a))))) ∨
          (x.op = .cpyxCast ∧ r = convE v t m a) →
          y = (if tyF v = true ∧ isNan (tyFmt v) r.1 = true then qnan (tyFmt v) else r.1) % 2 ^ tyWidth v ∧
            r.2 &&& (u.result x bs dst).2 = r.2)) ∧
    (isMx x.op = true → x.sd.toNat % 32 = 0 →
      let n := x.sd.toNat
      let loc (i : Nat) : Nat := elem 32 (leNat (bs.take (4 * n))) i
      let inc (i : Nat) : Val := mxValue (mxDesc x.o) n (leNat (bs.drop (4 * n))) i
      let y (i : Nat) : Nat := if x.op = .mxredStart then loc i else (mxAdd (inc i) (loc i)).1
      (x.op = .mxredFinish → res.length = 4 * n ∧ ∀ i < n, elem 32 (leNat res) i = y i % 2 ^ 32) ∧
      (x.op ≠ .mxredFinish → res.length = n + n / 32 ∧ ∀ b < n / 32,
        let q := quantBlk (mxDesc x.o) (List.replicate 32 .rne) ((List.range 32).map fun k => y (32 * b + k))
        elem 8 (leNat res) (n + b) = q.scale % 256 ∧ ∀ k < 32, elem 8 (leNat res) (32 * b + k) = q.pats.getD k 0 % 256)) ∧
    (x.op = .rsig → ∀ r, dst = [r] → res.length = 8 ∧ leNat res = (u.peek64 r.key + x.sb.toNat) % 2 ^ 64)

/-- R128, R201, R311: an arrival wakes the context that has been dormant longest, or waits; a CPYH hands its arrival over when
its bytes are written and completes; a waiting one is delivered in its order. -/
def Obligations.Arrivals : Prop :=
  (∀ (s u : State) (c : CtxId) (tl : BitVec 2) (num : W64) (x : Cmd), s.focus c = some u → u.ctx.cmd? tl num = some x → tl ≠ 1 → tl ≠ 3 →
    x.tl = tl → x.num = num → x.op = .cpyh → x.wrote = true → x.seqs = [] → x.failed = false → x.waiting = false →
    x.at0 + x.minCycles ≤ u.core.cycle → GrantLive u → u.me < 1152 →
    let core := if x.sa.toNat / 2 ^ 60 = 1 then u.me / 48 * 48 + x.sa.toNat / 2 ^ 48 % 64 else u.me
    let a : Arrival :=
      { rid := u.rid, handler := x.sd, s1 := BitVec.ofNat 64 (x.sa.toNat % 2 ^ 48), s2 := x.sc,
        s3 := if x.sb.toNat / 2 ^ 60 = 0 then BitVec.ofNat 64 (2 ^ 60 + u.me % 48 * 2 ^ 48 + x.sb.toNat % 2 ^ 48) else x.sb }
    (∃ d, SleepsOn u core u.rid d) ∨ (u.coreAt core).arrivals.length < 32 →
      ∃ t v, Gives (.engineOpComplete c tl num) s t ∧ HandsOver u v core a ∧ t.ctx.tl tl = (v.ctx.tl tl).complete num ∧
        t.ctx.running = v.ctx.running.filter (fun y => !(y.tl = tl && y.num = num)) ∧ t.ctxs = v.ctxs ∧ t.mem = u.mem) ∧
  ∀ (s : State) (core : BitVec 11) (k : Nat) (a : Arrival), (s.coreAt core.toNat).arrivals[k]? = some a →
    (∀ b ∈ (s.coreAt core.toNat).arrivals.take k, b.rid ≠ a.rid) → (∃ c, SleepsOn s core.toNat a.rid c) →
    ∃ t d, Gives (.arrivalDelivery core k) s t ∧ SleepsOn s core.toNat a.rid d ∧
      (∀ c, SleepsOn s core.toNat a.rid c →
        d.sch.dormAt < c.sch.dormAt ∨ (d.sch.dormAt = c.sch.dormAt ∧ d.bank.toNat ≤ c.bank.toNat)) ∧
      t.allCtxs = s.allCtxs.map (fun c => if c.id = d.id then Woken c a else c) ∧
      (t.coreAt core.toNat).arrivals = (s.coreAt core.toNat).arrivals.eraseIdx k ∧ t.mem = s.mem

/-- R29, R97, R155, R156, R174, R180, R188, R287: results and flags that are due land, those of a geometric predicate with its
completion; a watch that has seen its cause ends with the code it saw, one whose time is over with code 1. That FEREC takes the
vector event of the earliest issued instruction with a flag among those outstanding, and what comes first beside it, is the
model's choice (log entry 117). -/
def Obligations.LandingEvents : Prop :=
  ∀ (s u : State) (c : CtxId), s.focus c = some u →
    (∃ t, Gives (.vectorResultLand c) s t ∧ t = { u with ctx := t.ctx } ∧ Lands u.core.cycle u.ctx t.ctx) ∧
    (∀ p d, p ∈ u.ctx.board → p.dst = .geo → p.due = some d → d ≤ u.core.cycle →
      ∃ t, Gives (.geometryComplete c) s t ∧ t = { u with ctx := t.ctx } ∧ Lands u.core.cycle u.ctx t.ctx) ∧
    (∀ w code, u.ctx.watch = some w → w.seen = some code →
      ∃ t, Gives (.waitaWake c) s t ∧ WatchEnds u t w (code.setWidth 64)) ∧
    ∀ w d, u.ctx.watch = some w → w.seen = none → w.deadline = some d → d ≤ s.time.elapsedNs →
      ∃ t, Gives (.waitaTimeout c) s t ∧ WatchEnds u t w 1

/-- R46, R261, R314 to R316: the guard's trap, at the boundary before the next bundle, pads passed over: slot 0, the channel as
detail; the guard keeps the traps of other channels. It is entered at once, or once nothing of the context is outstanding. -/
def Sys2Proof.Machine.GuardTrapRule : Prop :=
  ∀ (s u : State) (c : CtxId) (ch : BitVec 3) (rest : List (BitVec 3)) (b : W64) (n : Nat) (g : Region) (a : W64) (k : Nat),
    s.focus c = some u → u.ctx.q.guard = ch :: rest → u.ctx.q.trapped = none → u.ctx.sch.life = .resident →
    u.ctx.remote = none → u.ctx.watch = none → u.findBundle u.ctx.q.pc = .header b n → u.core.num = u.ctx.core →
    u.region? u.ctx.id.rid = some g → g.dom.fpol = 0 → u.ctx.sch.pendRec = none →
    let x : Trapped := { t := { cause := 0x18, slot := 0, sres := some 0, detail := ch.toNat }, ba := b, xfer := u.ctx.q.reent.join }
    let w := u.writeBackReach u.ctx.core.toNat 3
    ∃ t, Gives (.trapEntry c) s t ∧ t.ctx.q.guard = rest ∧ t.ctx.q.pc = b ∧ t.ctx.c.sres = 0 ∧ t.ctx.r = u.ctx.r ∧
      (u.ctx.sch.outRecs = [] → w.recReady u.ctx = true → w.recordPlace u.ctx = some (a, k) → Entered u t x 0 a k) ∧
      (u.ctx.sch.outRecs ≠ [] ∨ w.recReady u.ctx = false →
        t.ctx.sch = u.ctx.sch ∧ t.ctx.q.trapped = some x ∧ t.ctx.halted = true)

/-- R10, R114, R130, R261, R314, R315, R316, R317: a software trap and the guard trap save the context, write the record and name
the slot. That the guard trap's record names slot 0 is the model's reading (log entry 56). -/
def Obligations.TrapEntries : Prop := TrapEntryRule ∧ GuardTrapRule

/-- R34, R195, R286, R315 to R318: a non-precise record of a context that runs on, of a fault that reaches its domain under FPOL
0: it is written at index PIDX of the ring, which rises, and becomes the context's holding record unless it has one; or it waits
for what its release releases; or the ring is full or its write faults: LOST is set, and the record is kept pending unless one
is. Wherever it stands, it has the fields of R316. The context will be held. -/
def Sys2Proof.Machine.RecordFieldsRule : Prop :=
  ∀ (s : State) (id : CtxId) (x : Ctx) (g : Region) (r : Rec), s.ctx? id = some x → x.sch.life = .resident →
    s.region? id.rid = some g → g.dom.fpol = 0 → reaches r.cause r.detail = true →
    r.cause < 2 ^ 8 → r.slot < 8 → r.detail < 2 ^ 32 → r.lmask < 2 ^ 32 → r.tl < 4 →
    let w := s.writeBackReach x.core.toNat 3
    let t := s.imprecise id r
    ∃ y, t.ctx? id = some y ∧ y.sch.stopAt = some (x.sch.stopAt.getD .held) ∧ y.r = x.r ∧
      (∀ a k, x.sch.outRecs = [] → w.recReady x = true → x.sch.pendRec = none → w.recordPlace x = some (a, k) →
        RecordSays (leNat (t.peek k 64)) x s.time.now r ∧ y.c.pidx = x.c.pidx + 1 ∧
        a.toNat = (x.c.trpb.toNat / 4096 * 4096 + 64 * (x.c.pidx.toNat % 2 ^ (x.c.trpb.toNat % 32))) % 2 ^ 64 ∧
        (x.sch.hold = none → y.sch.hold.map (fun h : HoldRec => (h.addr, h.prec, h.ba)) = some (a, false, r.ba))) ∧
      (x.sch.outRecs = [] → w.recReady x = true → x.sch.pendRec.isSome = true ∨ w.recordPlace x = none →
        y.c.lost = true ∧ y.c.pidx = x.c.pidx ∧ (x.sch.pendRec.isSome = true → y.sch.pendRec = x.sch.pendRec) ∧
        (x.sch.pendRec = none → ∃ d, y.sch.pendRec = some d ∧ RecordSays d.toNat x s.time.now r)) ∧
      (x.sch.outRecs ≠ [] ∨ w.recReady x = false →
        ∃ d, y.sch.outRecs = x.sch.outRecs ++ [(d, true)] ∧ RecordSays d.toNat x s.time.now r)

/-- R286, R317 to R319: a record that waits for what it releases is written once that has performed, or meets a full ring, which
keeps it pending, LOST set, or loses it where one is pending; a pending record is written once the ring has room. Of the words that
released writes have left in the DISP of a held context's holding record, the first that is a disposition is accepted: RETRY and
DIVERT make it placeable, END retires it, its commands dropped and its timelines closed; the words before it are ignored. -/
def Sys2Proof.Machine.HeldContextsRule : Prop :=
  ∀ (s : State) (c : CtxId) (x : Ctx), s.ctx? c = some x →
    (∀ d holds rest, x.sch.outRecs = (d, holds) :: rest → x.sch.life = .resident →
      (s.recReady x = false → Gives (.pendingRecordWrite c) s s) ∧
      (s.recReady x = true → ∃ t y, Gives (.pendingRecordWrite c) s t ∧ t.ctx? c = some y ∧ y.sch.outRecs = rest ∧ y.r = x.r ∧
        (∀ a k, x.sch.pendRec = none → s.recordPlace x = some (a, k) →
          leNat (t.peek k 64) = d.toNat ∧ y.c.pidx = x.c.pidx + 1 ∧ y.c.lost = x.c.lost ∧ y.sch.pendRec = none ∧
          y.sch.hold.map HoldRec.addr =
            if holds = true ∧ (x.sch.hold = none ∨ x.sch.disp ≠ none) then some a else x.sch.hold.map HoldRec.addr) ∧
        ∀ g, s.region? c.rid = some g → g.dom.fpol = 0 → x.sch.pendRec.isSome = true ∨ s.recordPlace x = none →
          y.sch.pendRec = some (x.sch.pendRec.getD d) ∧ y.c.lost = true ∧ y.c.pidx = x.c.pidx ∧
          y.sch.stopAt = some (x.sch.stopAt.getD .held))) ∧
    (∀ d, x.sch.outRecs = [] → x.sch.pendRec = some d → x.sch.life = .resident →
      let w := s.writeBackReach x.core.toNat 3
      (s.pendRoom x = true ↔ (x.c.pidx - x.c.cidx).toNat ≠ 2 ^ (x.c.trpb.toNat % 32)) ∧
      (s.pendRoom x = false → Gives (.pendingRecordWrite c) s s) ∧
      (s.pendRoom x = true → w.recReady x = false → Gives (.pendingRecordWrite c) s w) ∧
      ∀ a k, s.pendRoom x = true → w.recReady x = true → w.recordSlot x = some (a, k) →
        ∃ t y, Gives (.pendingRecordWrite c) s t ∧ t.ctx? c = some y ∧ leNat (t.peek k 64) = d.toNat ∧
          y.sch.pendRec = none ∧ y.sch.pendHolds = false ∧ y.c.pidx = x.c.pidx + 1 ∧ y.r = x.r ∧
          y.sch.hold.map HoldRec.addr =
            if x.sch.pendHolds ∧ (x.sch.hold = none ∨ x.sch.disp ≠ none) then some a else x.sch.hold.map HoldRec.addr) ∧
    ∀ h, x.sch.life = .held → x.sch.hold = some h → x.sch.disp = none →
      let words := (s.disps.filter fun e => e.1 = h.key).map (·.2)
      let op (w : W64) : Nat := w.toNat / 2 ^ 60
      let valid (w : W64) : Prop := (op w = 1 ∨ op w = 2 ∨ op w = 3) ∧ w.toNat / 2 ^ 48 % 2 ^ 12 = 0 ∧ w.toNat % 2 = 0
      ((∀ w ∈ words, ¬valid w) → Gives (.dispRetry c) s s ∧ Gives (.dispDivert c) s s ∧ Gives (.dispEnd c) s s) ∧
      ∀ (ignored : List W64) (w : W64) (later : List W64), words = ignored ++ w :: later → (∀ v ∈ ignored, ¬valid v) → valid w →
      let a := BitVec.ofNat 64 (w.toNat % 2 ^ 48)
      (op w ≠ 1 → Gives (.dispRetry c) s s) ∧ (op w ≠ 2 → Gives (.dispDivert c) s s) ∧ (op w ≠ 3 → Gives (.dispEnd c) s s) ∧
      (op w = 1 →
        ∃ t y, Gives (.dispRetry c) s t ∧ t.ctx? c = some y ∧ y.sch.life = .saved ∧ y.sch.disp = some (1, a) ∧
          y.r = x.r ∧ t.mem = s.mem) ∧
      (op w = 2 →
        ∃ t y, Gives (.dispDivert c) s t ∧ t.ctx? c = some y ∧ y.sch.life = .saved ∧
          y.sch.disp = some (2, a) ∧ y.r = x.r ∧ t.mem = s.mem) ∧
      (op w = 3 →
        ∃ t y, Gives (.dispEnd c) s t ∧ t.ctx? c = some y ∧ y.sch.life = .retired ∧ y.queue = [] ∧ y.running = [] ∧ y.mx.queue = [] ∧
          y.tlc.mark = x.tlc.issued ∧ y.tlm.mark = x.tlm.issued ∧ y.tlf.mark = x.tlf.issued ∧ y.es.held = 0 ∧ t.mem = s.mem)

/-- R27, R131, R319: what an accepted disposition does at the restore of its context: RETRY re-enters the bundle of a precise
record with its pending transfer, unless all slots had committed, when the context goes on at the target, of which PC takes what it
can hold, rotating for a back-branching loop; DIVERT goes to its address with SRES 0; a record that is not precise changes nothing.
That the pending transfer comes back without a stall is the model's reading (log entry 33), and so is PC's part of a target that it
cannot hold (log entry 118). -/
def Sys2Proof.Machine.DispositionsRule : Prop :=
  ∀ (c : Ctx) (op : BitVec 2) (a : W64) (h : HoldRec), c.sch.disp = some (op, a) → c.sch.hold = some h →
    let d := c.disposed
    d.r = c.r ∧ d.sch.disp = none ∧ d.sch.hold = none ∧ d.tlc = c.tlc ∧ d.queue = c.queue ∧
    (op = 2 → d.q.pc.toNat = 2 * 2 ^ 60 + a.toNat % 2 ^ 48 / 2 * 2 ∧ d.c = { c.c with sres := 0 } ∧ d.q.reent = none) ∧
    (op ≠ 2 → h.prec = false → d.q = c.q ∧ d.c = c.c) ∧
    (op ≠ 2 → h.prec = true → h.ac = true → h.diverted = false →
      d.q.pc.toNat = 2 * 2 ^ 60 + h.tgt.toNat % 2 ^ 48 / 2 * 2 ∧ d.q.reent = none ∧
      (h.rt = true → d.c.vrb = c.c.vrb - 1 ∧ d.c.prb = c.c.prb - 1) ∧ (h.rt = false → d.c = c.c)) ∧
    (op ≠ 2 → h.prec = true → h.ac = false → d.q.pc = h.ba ∧ d.c = c.c ∧
      d.q.reent = some (if h.pt then some { tgt := h.tgt, rot := h.rt, stall := 0 } else none))

/-- R27, R131, R317, R318, R319: pending records are written, and RETRY, DIVERT and END do what their rule says. How a later record
that holds a context treats an accepted disposition is the model's reading (log entry 87), as are the stall of a transfer that
RETRY brings back (log entry 33) and what PC takes of a target it cannot hold (log entry 118). -/
def Obligations.RecordsAndDispositions : Prop := HeldContextsRule ∧ DispositionsRule ∧ RecordFieldsRule

/-- R46, R175, R188, R287, R305, R321 to R324, R328: when a request of a kind arises; it is noted for a resident context, and a
supply loss or a stop takes a dormant one at once. A resident context lands at a legal point, once a predicate that is outstanding
has completed: its save begins with the registers, the address of its next bundle and the loops as they stand; an armed watch
ends, with an acquire at its scope; the account of the save follows from the kind that ranks first. The core takes the save up
where it is free and no other could start. -/
def Sys2Proof.Machine.RequestsRule : Prop :=
  (∀ (s : State) (x : Ctx), s.mayRequest x .management = true ∧ s.mayRequest x .trapEntry = false ∧
    (s.mayRequest x .supplyLoss = true ↔ s.power.lossOn = true) ∧
    (s.mayRequest x .stop = true ↔ ∃ r, s.region? x.id.rid = some r ∧ r.stopping.isSome = true) ∧
    (s.mayRequest x .migration = true ↔ x.sch.target.isSome = true ∧ x.sch.copyTop.toNat ≤ x.tlc.mark.toNat)) ∧
  (∀ (s : State) (c : CtxId) (x : Ctx) (k : ReqKind), s.ctx? c = some x → s.mayRequest x k = true →
    (x.sch.life = .resident → ∃ t y, Gives (.preemptionRequest c k) s t ∧ t.ctx? c = some y ∧
      y = { x with sch := { x.sch with
        reqs := if k ∈ x.sch.reqs then x.sch.reqs else x.sch.reqs ++ [k]
        asker := y.sch.asker } } ∧
      (k ≠ .classWait → y.sch.asker = x.sch.asker) ∧
      (k = .classWait → ∃ w ∈ s.allCtxs, y.sch.asker = some w.id.rid ∧ ∃ v ∈ s.victims w, v.id = c) ∧
      t.core = s.core ∧ t.mem = s.mem) ∧
    (x.sch.life = .saving → k ≠ .classWait → ∃ t y, Gives (.preemptionRequest c k) s t ∧ t.ctx? c = some y ∧ t.mem = s.mem ∧
      y = if (s.coreAt x.core.toNat).saving ≠ some c ∧ x.sch.saveFor ≠ some .trapEntry ∧
          (∀ j, x.sch.saveFor = some j → kindRank k < kindRank j) then
        { x with sch := { x.sch with saveFor := some k, account := accountOf k c.rid none } } else x) ∧
    (x.sch.life = .dormant → k = .supplyLoss ∨ k = .stop → ∃ t y, Gives (.preemptionRequest c k) s t ∧ t.ctx? c = some y ∧
      y.sch.life = .saving ∧ y.sch.wasDormant = true ∧ y.sch.saveEnd = (if k = .stop then .retired else .saved) ∧
      y.queue = x.queue ∧ t.mem = s.mem)) ∧
  (∀ (k : ReqKind) (own : BitVec 32) (asker : Option (BitVec 32)),
    accountOf k own asker = match k with
      | .classWait => .region (asker.getD own)
      | .migration | .supplyLoss => .housekeeping
      | _ => .region own) ∧
  ∀ (s u : State) (c : CtxId), s.focus c = some u → u.ctx.sch.life = .resident → u.ctx.core = u.core.num →
    (u.ctx.sch.reqs ≠ [] ∨ u.ctx.sch.stopAt.isSome = true) →
    let legal : Prop := u.ctx.remote = none ∧ u.ctx.q.trapped = none ∧ (u.ctx.q.legal = true ∨ u.ctx.q.loops = [])
    let settled : Prop := ∀ p ∈ u.ctx.board, p.dst = .geo → ∀ d, p.due = some d → d ≤ u.core.cycle;
    (¬legal ∨ ¬settled → Gives (.preemptionLand c) s s) ∧
    ∀ b n, legal → settled → u.findBundle u.ctx.q.pc = .header b n →
    ∃ t k, Gives (.preemptionLand c) s t ∧
      (k ∈ u.ctx.sch.reqs ∨ (k = .stop ∧ u.ctx.sch.stopAt.isSome = true)) ∧
      (∀ j ∈ u.ctx.sch.reqs, kindRank k ≤ kindRank j) ∧ (u.ctx.sch.stopAt.isSome = true → kindRank k ≤ kindRank .stop) ∧
      t.ctx.sch.life = .saving ∧ t.ctx.sch.saveFor = some k ∧
      t.ctx.sch.saveEnd = u.ctx.sch.stopAt.getD (if k = .stop then .retired else .saved) ∧
      t.ctx.sch.account = accountOf k u.ctx.id.rid u.ctx.sch.asker ∧ t.ctx.sch.wasDormant = false ∧
      t.ctx.q.pc = b ∧ t.ctx.q.loops = u.ctx.q.loops ∧ t.ctx.q.lsel = u.ctx.q.lsel ∧ t.ctx.q.waitsOn = u.ctx.q.waitsOn ∧
      t.ctx.q.parting = u.ctx.q.parting ∧ t.ctx.queue = u.ctx.queue ∧ t.ctx.mx = u.ctx.mx ∧ t.ctx.watch = none ∧
      t.ctx.events = u.ctx.events ∧ t.mem = u.mem ∧
      (∀ y, u.core.saving = some y → t.core.saving = some y) ∧
      (u.core.saving = none → (∀ d ∈ u.ctxs, d.canSave u.me = false) → t.core.saving = some c) ∧
      (u.ctx.watch = none → t.ctx.r = u.ctx.r ∧ t.core.cache = u.core.cache) ∧
      ∀ w, u.ctx.watch = some w → SameScalars u t w.sd ∧ t.core.cache = (u.acquire w.sco).core.cache ∧
        (u.ctx.awaits w.sd w.tag = false → t.ctx.r = u.ctx.r) ∧
        (w.sd ≠ 0 → u.ctx.awaits w.sd w.tag = true → t.sPoison w.sd = false ∧ t.sNow w.sd = match w.seen with
          | some code => code.setWidth 64
          | none => if ∃ d, w.deadline = some d ∧ d ≤ u.time.elapsedNs then 1 else 3)

/-- R42, R305, R316, R324, R326, R328: a save that is complete leaves its bytes in the area, its context saved, held or retired, the
core free for the next, and its energy, which the manual leaves open, with its account; one that is abandoned retires its
context, with a record of the fault's address. -/
def Sys2Proof.Machine.SavesRule : Prop :=
  ∀ (s u : State) (c : CtxId), s.focus c = some u → u.saveReady = true →
    (∀ v, u.writeArea u.ctx u.me (savedParts u.ctx (u.classOf u.ctx) u.core.cycle (match u.core.grantOf c.rid with
        | some g => if u.lastOnCore u.ctx && g.count ≠ 0 then some (u.core.savedSems g) else none
        | none => none)) = some v →
      ∃ t, Gives (.saveComplete c) s t ∧ t.mem = v.mem ∧ t.ctx.r = u.ctx.r ∧ t.ctx.c = u.ctx.c ∧
        t.ctx.sch.lastCore = some u.ctx.core ∧ FreeForNext t ∧
        (∃ e, t.regions = (u.bill u.ctx.sch.account e 0).regions ∧ t.power = (u.bill u.ctx.sch.account e 0).power) ∧
        match u.ctx.sch.saveEnd with
        | .saved => t.ctx.sch.life = .saved ∧ t.ctx.queue = u.ctx.queue ∧ t.ctx.mx = u.ctx.mx ∧ t.ctx.q = u.ctx.q
        | .held => t.ctx.sch.life = .held ∧ t.ctx.queue = u.ctx.queue ∧ t.ctx.mx = u.ctx.mx ∧ t.ctx.q = u.ctx.q
        | .retired => Retired u.ctx t.ctx) ∧
    (∀ rs, u.ctx.c.mhold = false → u.core.grantOf c.rid = none →
      u.areaRuns u.ctx u.me 0 (u.ctx.savedBase (u.classOf u.ctx) u.core.cycle false).length Access.store = some rs → Apart rs →
      ∃ t, Gives (.saveComplete c) s t ∧ bytesAt t rs = u.ctx.savedBase (u.classOf u.ctx) u.core.cycle false) ∧
    ∀ why, why = .uncorrectable ∨ (∃ a, u.areaFault u.ctx u.me = some (why, a)) →
      ∃ t, Gives (.saveAbandoned c why) s t ∧ Retired u.ctx t.ctx ∧ FreeForNext t ∧
        ∀ g, u.region? u.ctx.id.rid = some g → g.dom.fpol = 0 → u.ctx.sch.outRecs ≠ [] →
          ∃ d h, t.ctx.sch.outRecs = u.ctx.sch.outRecs ++ [(d, h)] ∧ bits d.toNat 63 56 = 0x1B ∧ bits d.toNat 49 49 = 0 ∧
            bits d.toNat 31 0 = (match why with
              | .page => 0
              | .permission => 1
              | .uncorrectable => 2) ∧
            (∀ a, why ≠ .uncorrectable → u.areaFault u.ctx u.me = some (why, a) → bits d.toNat 191 128 = a.toNat) ∧
            (why = .uncorrectable → ∃ i, i * 64 < u.ctx.areaSize ∧
              bits d.toNat 191 128 = (u.ctx.sch.saveArea + BitVec.ofNat 64 (64 * i)).toNat)

/-- R42, R175, R305, R321, R323, R324, R326, R328: requests land at legal points, and a save ends saved, held, retired or
abandoned. -/
def Obligations.RequestsAndSaves : Prop := RequestsRule ∧ SavesRule

/-- R8, R42, R237, R325: the bytes of a save area hold the context: from them come its registers with their poison, its PC, loop
levels and timelines, its control registers but for reserved bits, the fields of ESEAM that the scheduler does not keep, GREF
with the refreshes that a held area could not count, its queued commands with their operands and seeds, its pending record, and
a holder's matrix part with its queue. -/
def Obligations.SaveRoundTrip : Prop :=
  ∀ (c : Ctx) (pcl cycle now : Nat) (img : Bool), c.q.loops.length ≤ 6 → c.queue.length ≤ 16 → pcl < 4 →
    (c.q.pc.toNat / 2 ^ 48 = 0x2000 ∧ c.q.pc.toNat % 2 = 0) →
    (∀ x ∈ c.queue, readEngine (x.o.toWord (eOpcode x.op)) = some (x.op, x.o)) →
    (c.savedBase pcl now img).length = 0x7E00 ∧
    let d := c.fromArea (c.savedBase pcl now img) c.mx.saved cycle
    d.r = c.r ∧ d.q.pc = c.q.pc ∧ d.q.loops = c.q.loops ∧ d.q.lsel = c.q.lsel ∧
      d.c = { c.c with fpf := c.c.fpf &&& 0xFFFFFFFFFF, ferec := c.c.ferec &&& 0xFFC0FFFFFFFFFFFE,
                       trpb := c.c.trpb &&& 0xFFFFFFFFFFFFF01F } ∧
      (d.tlc.mark = c.tlc.mark ∧ d.tlc.issued = c.tlc.issued) ∧ (d.tlm.mark = c.tlm.mark ∧ d.tlm.issued = c.tlm.issued) ∧
      (d.tlf.mark = c.tlf.mark ∧ d.tlf.issued = c.tlf.issued) ∧
      (d.es.gtrap = c.es.gtrap ∧ d.es.lstall = c.es.lstall ∧ d.es.gref.toNat = min (c.es.gref.toNat + c.sch.grefOwed) 0xFFFF) ∧
      (let key (x : Cmd) := (x.op, x.o, x.tl, x.num, x.sd, x.sa, x.sb, x.sc, x.seed);
        d.queue.map key = c.queue.map key) ∧
      (c.sch.pendRec ≠ some 0 → d.sch.pendRec = c.sch.pendRec) ∧
      (c.c.mhold = false → d.mx = c.mx) ∧
      (c.c.mhold = true → c.mx.queue.length ≤ 4 →
        d.mx.shadow = c.mx.shadow ∧ d.mx.active = c.mx.active ∧ d.mx.val = c.mx.val ∧ d.mx.bnd = c.mx.bnd ∧
        d.mx.stat = c.mx.stat ∧
        (let key (e : MEntry) := (e.kind, e.num, e.imm, e.w.se, e.w.ss, e.w.si, e.w.spt, e.af, e.wf, e.outf, e.cfg, e.va);
          d.mx.queue.map key = c.mx.queue.map key) ∧
        ∀ e ∈ d.mx.queue, e.restored = true ∧ e.started = none ∧ e.step = 0 ∧ e.w.we = 0)

/-- R129, R305, R307 to R309: a retiring context whose work is done retires; a column becomes hot at THOT and stays so until it
falls below TREL; a context in a column that has been hot for 1 ms gets the core that would admit it as its target; a waiting
context that no core admits brings a request on the victim of the first cluster that has one. -/
def Sys2Proof.Machine.SchedulersRule : Prop :=
  (∀ (s : State) (c : CtxId) (x : Ctx), s.ctx? c = some x → s.retireReady x = true →
    ∃ t y, Gives (.contextRetire c) s t ∧ t.ctx? c = some y ∧ Retired x y ∧ y.r = x.r ∧ t.mem = s.mem) ∧
  (∀ (s : State) (cl : BitVec 5) (ts : List (BitVec 8)), cl.toNat < 24 → ts.length = 6 →
    ∃ t, Gives (.temperatureRefresh cl ts) s t ∧
      t = { s with temps := t.temps, hot := t.hot, core := { s.core with pool := { s.core.pool with cals := t.core.pool.cals } },
                   cores := t.cores, boot := { s.boot with strayed := t.boot.strayed, images := t.boot.images } } ∧
      List.Forall₂ (fun a b : Core => b = { a with pool := { a.pool with cals := b.pool.cals } } ∧
        ∀ i x, ts[i]? = some x → columnOf a.num.toNat = 6 * cl.toNat + i → b.pool.cals = a.pool.cals.map fun k =>
          { k with stray := k.stray || 8 < (x.toInt - k.at_.toInt).natAbs }) s.boot.images t.boot.images ∧
      (∀ i x, ts[i]? = some x →
        (6 * cl.toNat + i ∈ t.boot.strayed ↔
          6 * cl.toNat + i ∈ s.boot.strayed ∨ 8 < (x.toInt - Config.startTemp.toInt).natAbs) ∧
        (columnOf s.me = 6 * cl.toNat + i → t.core.pool.cals = s.core.pool.cals.map fun k =>
          { k with stray := k.stray || 8 < (x.toInt - k.at_.toInt).natAbs })) ∧
      (∀ i x, ts[i]? = some x → assocD Config.startTemp (6 * cl.toNat + i) t.temps = x ∧
        ((s.mgmt.thot.toNat : Int) ≤ x.toInt → ∃ h ∈ t.hot, h.1 = 6 * cl.toNat + i) ∧
        (x.toInt < s.mgmt.thot.toNat → x.toInt < s.mgmt.trel.toNat → ∀ h ∈ t.hot, h.1 ≠ 6 * cl.toNat + i) ∧
        (x.toInt < s.mgmt.thot.toNat → s.mgmt.trel.toNat ≤ x.toInt → ∀ h : Nat × Nat, h.1 = 6 * cl.toNat + i → (h ∈ t.hot ↔ h ∈ s.hot))) ∧
      ∀ k, (∀ i < 6, k ≠ 6 * cl.toNat + i) → assocD Config.startTemp k t.temps = assocD Config.startTemp k s.temps ∧
        ∀ h : Nat × Nat, h.1 = k → (h ∈ t.hot ↔ h ∈ s.hot)) ∧
  (∀ (s : State) (c : CtxId) (x : Ctx) (n : Nat), s.ctx? c = some x → s.tooHot x = true → x.sch.target = none →
    s.refuge x = some n →
    ∃ t y, Gives (.migrationDecision c) s t ∧ t.ctx? c = some y ∧
      y = { x with sch := { x.sch with target := some (BitVec.ofNat 11 n), copyTop := y.sch.copyTop } } ∧
      (∀ q ∈ x.running ++ x.queue, s.copiesHome x q = true → q.num.toNat ≤ y.sch.copyTop.toNat) ∧
      (y.sch.copyTop = 0 ∨ ∃ q ∈ x.running ++ x.queue, s.copiesHome x q = true ∧ q.num = y.sch.copyTop) ∧
      t.core = s.core ∧ t.mem = s.mem) ∧
  (∀ (s : State) (w v : Ctx) (k : Nat), s.victim w k = some v →
    let here (d : Ctx) : Prop := d ∈ s.allCtxs ∧ d.sch.life = .resident ∧ d.core.toNat / 48 = k
    here v ∧ s.wouldAdmit v w = true ∧
      ((s.classOf v < s.classOf w ∧ ∀ d, here d → s.classOf v ≤ s.classOf d ∧
          (s.classOf d = s.classOf v → d.sch.placedAt ≤ v.sch.placedAt)) ∨
        (s.classOf v = s.classOf w ∧ w.sch.queueCls = s.classOf w ∧ w.sch.queuedNs + 2000000 ≤ s.time.elapsedNs ∧
          w.sch.queueClsNs + 2000000 ≤ s.time.elapsedNs ∧ v.sch.placedNs + 2000000 ≤ s.time.elapsedNs))) ∧
  ∀ (s : State) (c : CtxId) (w v : Ctx) (rest : List Ctx), s.ctx? c = some w → s.victims w = v :: rest → s.ctx? v.id = some v →
    v.sch.life = .resident →
    ∃ t y, Gives (.classPreemptRequest c) s t ∧ t.ctx? v.id = some y ∧ ReqKind.classWait ∈ y.sch.reqs ∧ y.sch.asker = some c.rid ∧ y.r = v.r ∧ t.mem = s.mem

/-- R42, R251, R264, R305, R306: a waiting context that is first in its cluster's queue is placed on the core that the scheduler
picks, in the lowest free REG bank, dormant if it was dormant; a pending one with its first state, a saved one with the state
of its area and its disposition. -/
def Sys2Proof.Machine.PlacementsRule : Prop :=
  ∀ (s : State) (c : CtxId) (x z : Ctx) (r : Region) (core bank base : Nat), s.ctx? c = some x → x.waiting = true →
    s.region? c.rid = some r → s.pickCore x = some core → core < 1152 → s.outranked x (core / 48) = false →
    x.sch.lastCore = none ∨ x.sch.lastCore = some (BitVec.ofNat 11 core) → s.freeBank core = some bank →
    (s.coreAt core).runFor c.rid r.lim.kcnt.toNat = some base →
    x.sch.image = false → (s.catchUp core).restored x core = some z →
    ∃ t y, Gives (.placement c) s t ∧ t.ctx? c = some y ∧ y.core.toNat = core ∧ y.bank.toNat = bank ∧
      (¬(x.sch.life = .saved ∧ x.sch.wasDormant = true) → y.sch.life = .resident ∧ y.r = z.r ∧ y.q = z.q ∧ y.c = z.c) ∧
      y.queue = z.queue ∧ y.mx = z.mx ∧ y.tlc = z.tlc ∧ y.tlm = z.tlm ∧ y.tlf = z.tlf ∧
      (x.sch.life = .pending → z = x) ∧
      ∃ g ∈ (t.coreAt core).grants, g.rid = c.rid ∧ g.base = base

/-- R42, R129, R305, R306, R307, R308, R309: the schedulers retire, migrate, request and place contexts by their rules. The lowest
free REG bank (log entry 39) and the temperature of a column that has not been refreshed (log entry 6) are the model's choices;
signed temperature bytes are its reading (log entry 61). -/
def Obligations.SchedulerDecisions : Prop := SchedulersRule ∧ PlacementsRule

/-- R256, R257, R261, R262, R264, R267, R332: SOWN completes with every row closed, the channel's lines, by whatever name, out of
the cache role, their bytes at home, and its last refresh less than tREFI ago; SREL completes with the channel managed again,
once every bank is precharged; the guard closes all rows, refreshes, and counts in GREF; scrubbing changes nothing; a failing
channel is noted for the next start. -/
def Obligations.SeamEvents : Prop :=
  ∀ (s : State) (core : BitVec 11) (ch : BitVec 3),
    let h := chanAt s core ch.toNat
    (∀ id sd, h.owner = some id → h.owning = some sd →
      ∃ t, Gives (.sownComplete core ch) s t ∧ OtherChannels s t core ch ∧
        (∀ l ∈ (t.coreAt core.toNat).cache, s.inChannel core.toNat ch l.key = true → s.leavingLine core.toNat l.key = true) ∧
        let busy : Prop := ∃ f ∈ (t.coreAt core.toNat).flight, f.wb = true ∧ t.inChannel core.toNat ch f.key = true;
        (busy → chanAt t core ch.toNat = h) ∧
        (¬busy → (∃ f < 3900, chanAt t core ch.toNat = { owner := some id, refresh := s.time.elapsedNs - f }) ∧
          ∀ x y, s.ctx? id = some x → t.ctx? id = some y → Brought x y sd h.owningTag 0)) ∧
    (∀ id x, h.owner = some id → h.releasing = true → s.ctx? id = some x →
      ((s.coreAt core.toNat).cycle < h.busy → Gives (.srelComplete core ch) s s) ∧
      (h.busy ≤ (s.coreAt core.toNat).cycle →
      ∃ t y, Gives (.srelComplete core ch) s t ∧ OtherChannels s t core ch ∧ chanAt t core ch.toNat = { refresh := h.refresh } ∧
        t.ctx? id = some y ∧ y = { x with es := { x.es with held := y.es.held } } ∧ t.mem = s.mem ∧
        ∀ n < 8, y.es.held.getLsbD n = (x.es.held.getLsbD n && n ≠ ch.toNat))) ∧
    (∀ id x, h.owner = some id → h.owning = none → h.refresh + 4400 ≤ s.time.elapsedNs → s.ctx? id = some x →
      x.sch.life.inArea = false →
      ∃ t y, Gives (.guardRefresh core ch) s t ∧ OtherChannels s t core ch ∧ t.ctx? id = some y ∧ t.mem = s.mem ∧
        (∀ b < 16, (((chanAt t core ch.toNat).banks[b]?).getD {}).row = none) ∧
        (let start := (chanAt t core ch.toNat).busy - 440;
          (chanAt t core ch.toNat).refresh = s.inCycles (start - (s.coreAt core.toNat).cycle) ∧
          (s.coreAt core.toNat).cycle + 440 ≤ (chanAt t core ch.toNat).busy ∧
          ∀ b < 16, let d := h.bank b;
            d.row.isSome = true → (∀ n, d.opened = some n → n + 68 ≤ start) ∧ (∀ n, d.rd = some n → n + 8 ≤ start) ∧
              (∀ n, d.wr = some n → n + 32 ≤ start) ∧ ((((chanAt t core ch.toNat).banks[b]?).getD {}).pre = some start)) ∧
        (chanAt t core ch.toNat).owner = some id ∧
        y.es.gref = (if x.es.gref = 0xFFFF then 0xFFFF else x.es.gref + 1) ∧
        y.q.guard = if x.es.gtrap = true ∧ (x.sch.life = .resident ∨ x.sch.life = .dormant) ∧ ch ∉ x.q.guard
          then x.q.guard ++ [ch] else x.q.guard) ∧
    (∀ u, Gives (.patrolScrub core ch u) s s) ∧
    ∃ t, Gives (.seamChannelFailMark core ch) s t ∧ t = { s with boot := { s.boot with failing := t.boot.failing } } ∧
      ∀ e, e ∈ t.boot.failing ↔ e ∈ s.boot.failing ∨ e = (core.toNat, ch)

/-- R176, R178, R188, R279, R280, R284, R290, R316, R318, R334, R343: a store in flight performs at its home, or sets out for
another device once nothing older of its line is on the way there; a release leaves its record, and in a line that holds a
context its DISP word; a line leaves a cache role, by itself or for an access of the host, with its dirty bytes at their home
first, wherever that is, and before what the host writes; a store that the remote side refuses is discarded, with its
remote-store record, whose fields RecordFieldsRule gives. -/
def Obligations.MemoryEvents : Prop :=
  ∀ (s : State) (core : BitVec 11),
    (∀ k f hk, (s.coreAt core.toNat).flight[k]? = some f →
      (s.canPerform core.toNat f = false → Gives (.performAtHome core k) s s) ∧
      (s.canPerform core.toNat f = true →
      (if f.key / 2 ^ 60 = 5 then (s.coreAt (f.key % 2 ^ 60 / 2 ^ 48)).scrKey (f.key % 2 ^ 48) = some hk
        else if f.key / 2 ^ 60 = 4 then devOf (BitVec.ofNat 64 f.key) = s.mgmt.devid ∧
          s.remoteKey s.mgmt.devid f.key Access.store = some hk
        else hk = f.key) →
      ∃ t, Gives (.performAtHome core k) s t ∧ LineWritten s t hk f.data f.mask ∧ t.ctx.r = s.ctx.r ∧
        (t.coreAt core.toNat).flight = (s.coreAt core.toNat).flight.filter (fun g => g.seq ≠ f.seq) ∧
        (f.wb = false → ∀ l ∈ (t.coreAt core.toNat).cache, l.key = f.key → l.held &&& f.mask &&& ~~~l.dirty = 0) ∧
        (f.mark = none → t.lineRecs = s.lineRecs ∧ t.disps = s.disps) ∧
        ∀ m, f.mark = some m → t.lineRecs.find? (fun r => r.key = hk) =
            some { key := hk, sco := m.sco, org := some m.core, data := ofBytes 512 (t.peek hk 64), by_ := some m.ctx } ∧
          ((∃ c ∈ s.ctx :: s.ctxs, ∃ h, c.sch.hold = some h ∧ h.key = hk) →
            t.disps = s.disps ++ [(hk, BitVec.ofNat 64 (t.peek64 (hk + 56)))]) ∧
          ((∀ c ∈ s.ctx :: s.ctxs, ∀ h, c.sch.hold = some h → h.key ≠ hk) → t.disps = s.disps)) ∧
      (s.canPerform core.toNat f = true → f.key / 2 ^ 60 = 4 → devOf (BitVec.ofNat 64 f.key) ≠ s.mgmt.devid →
        ∃ t x, Gives (.performAtHome core k) s t ∧ t.mem = s.mem ∧ t.ctx = s.ctx ∧ t.fab.out = s.fab.out ++ [x] ∧
          x.dst = devOf (BitVec.ofNat 64 f.key) ∧ x.body = .store (BitVec.ofNat 64 f.key) f.data f.mask ∧
          (t.coreAt core.toNat).flight = (s.coreAt core.toNat).flight.map fun g =>
            if g.seq = f.seq then { g with sent := some x.seq } else g)) ∧
    (∀ line, ∃ t, Gives (.cacheEviction core line) s t ∧ LineLeaves s t core line) ∧
    (∀ line d mask, line / 2 ^ 60 ≠ 3 ∨ line % 64 ≠ 0 → Gives (.hostSnoop core ⟨line, d, mask⟩) s s) ∧
    (∀ line d, line / 2 ^ 60 = 3 → line % 64 = 0 →
      ∃ t, Gives (.hostSnoop core ⟨line, d, 0⟩) s t ∧ LineLeaves s t core line ∧ WatchesSeen t core line) ∧
    (∀ line d mask, line / 2 ^ 60 = 3 → line % 64 = 0 → mask ≠ 0 →
      (∀ c ∈ s.core :: s.cores, ∀ f ∈ c.flight, f.wb = true → f.key ≠ line) → (∀ c ∈ s.cores, c.findLine line = none) →
      s.leavingLine s.me line = false →
      ∃ t m, Gives (.hostSnoop core ⟨line, d, mask⟩) s t ∧ t.core.findLine line = none ∧
        ((∀ l, s.core.findLine line = some l → l.dirty ≠ 0 → s.clearWay s.me line) →
          (s.core.findLine line = none ∨ (∃ l, s.core.findLine line = some l ∧ l.dirty = 0) → ∀ j, readByte m.mem j = readByte s.mem j) ∧
          (∀ l, s.core.findLine line = some l → LineWritten s m line l.data l.dirty) ∧ LineWritten m t line d mask ∧
          t.lineRecs.find? (fun r => r.key = line) =
            some { key := line, sco := 3, org := none, data := ofBytes 512 (t.peek line 64) }) ∧
        ∀ l, s.core.findLine line = some l → l.dirty ≠ 0 → ¬s.clearWay s.me line → t.mem = s.mem) ∧
    ∀ (c : CtxId) (x : Ctx) (f : Flight) (g : Region) (ba addr : W64), s.ctx? c = some x → x.sch.life = .resident →
      ((s.coreAt x.core.toNat).flight.find? fun f => f.ctx = c && f.ba = ba && f.addr = addr) = some f →
      f.wb = false → f.quiet = false → s.region? c.rid = some g → g.dom.fpol = 0 →
      ∃ t y, ∃ v : State, Gives (.remoteStoreFault c ba addr) s t ∧ t.ctx? c = some y ∧ v.time = s.time ∧ v.ctx? c = some x ∧
        t = v.imprecise c { cause := 0x0C, slot := 7, prec := false, ba := ba, faddr := addr } ∧
        y.sch.stopAt = some (x.sch.stopAt.getD .held) ∧ (y.c.pidx = x.c.pidx + 1 ∨ y.c.lost = true ∨
          y.sch.outRecs.length = x.sch.outRecs.length + 1) ∧ y.r = x.r ∧
        (f.seq < s.fab.nextSeq → ∀ h ∈ (t.coreAt x.core.toNat).flight, h.seq ≠ f.seq)

/-- R40, R242, R245 to R249: a pool change completes when its steps are over: the named banks take the new role and hold zeros,
the targets are scratchpad and hold what the relocated banks held, every other byte stands, the bank map takes the joining banks
at its end or the targets in the relocated banks' places, no bank is in transition, and the signal is performed; before that
nothing changes but that lines leave the cache banks, their dirty bytes for their homes. -/
def Obligations.PoolChanges : Prop :=
  (∀ (ch : PoolChange) (a r b : Nat), ch.leaveDone = some a → ch.targetDone = some r → ch.tileDone = some b →
    ch.doneAt = some (if ch.rel = true ∧ ch.targets ≠ [] then max (r + 256) (max a b)
      else if ch.rel = false ∧ ch.role = 2 then max a b + 64 else max a b)) ∧
  ∀ (s : State) (core : BitVec 11) (ch : PoolChange), MemoryCanonical s → (s.coreAt core.toNat).pool.change = some ch →
    (∀ j ∈ ch.banks ++ ch.targets, j < 96) →
    (∀ g, (s.coreAt core.toNat).grantOf ch.ctx.rid = some g → g.reserved = false) →
    let p := (s.coreAt core.toNat).pool
    let scr := ch.banks.filter fun j => p.role j = 2
    let w := s.writeBackIf core.toNat (s.coreAt core.toNat).leaving
    let end_ := ((w.dropLeft core.toNat).watchChange core.toNat ch).doneAt
    ((∀ l ∈ (s.coreAt core.toNat).cache, (s.coreAt core.toNat).leaving l = true → l.dirty = 0) → w.mem = s.mem) ∧
    ((∀ n, end_ = some n → (s.coreAt core.toNat).cycle < n) →
      ∃ t, Gives (.poolChangeComplete core) s t ∧ t.mem = w.mem ∧ t.ctx.r = s.ctx.r ∧ (t.coreAt core.toNat).pool.roles = p.roles ∧
        (t.coreAt core.toNat).pool.lb = p.lb ∧ (t.coreAt core.toNat).pool.change.isSome ∧
        (t.coreAt core.toNat).k = (s.coreAt core.toNat).k) ∧
    ∀ n, end_ = some n → n ≤ (s.coreAt core.toNat).cycle → (ch.rel = true → (ch.banks ++ ch.targets).Nodup ∧ scr.length = ch.targets.length) →
      (ch.rel = false → ch.targets = []) →
      ∃ t, Gives (.poolChangeComplete core) s t ∧ (t.coreAt core.toNat).pool.change = none ∧
        (t.coreAt core.toNat).pool.moving = [] ∧
        (∀ j < 96, (t.coreAt core.toNat).pool.role j = if j ∈ ch.targets then 2 else if j ∈ ch.banks then ch.role else p.role j) ∧
        (ch.rel = false → (t.coreAt core.toNat).pool.lb = if ch.role = 2 then p.lb ++ ch.banks else p.lb) ∧
        (ch.rel = true → (t.coreAt core.toNat).pool.lb.length = p.lb.length ∧
          ∀ (j x : Nat), p.lb[j]? = some x → (x ∉ scr → (t.coreAt core.toNat).pool.lb[j]? = some x) ∧
            ∀ (i b : Nat), scr[i]? = some x → ch.targets[i]? = some b → (t.coreAt core.toNat).pool.lb[j]? = some b) ∧
        (∀ k < 256, vget (t.coreAt core.toNat).k k = vget (s.coreAt core.toNat).k k +
          if (s.coreAt core.toNat).grantOf ch.ctx.rid ≠ none ∧ ch.w.se = 1 ∧ ch.w.spt.toNat < 2 ∧ k = ch.w.ss.toNat
            then ch.w.si.setWidth 16 else 0) ∧
        (∀ j ∈ ch.banks, ∀ off < 2 ^ 15, readByte t.mem (bankKey core.toNat j off) = 0) ∧
        (∀ (i : Nat) a b, scr[i]? = some a → ch.targets[i]? = some b → ∀ off < 2 ^ 15,
          readByte t.mem (bankKey core.toNat b off) = readByte w.mem (bankKey core.toNat a off)) ∧
        ∀ k, (∀ j ∈ ch.banks ++ ch.targets, k < bankKey core.toNat j 0 ∨ bankKey core.toNat j 0 + 2 ^ 15 ≤ k) →
          readByte t.mem k = readByte w.mem k

/-- R41, R207, R298, R302, R303: the decision on a LAUNCH writes its code to sd, where no later write stands, signals where the
block asks for it, and on code 0 the block is accepted; a region starts when its last predecessor has ended, unless the channel
of its block is held. -/
def Sys2Proof.Machine.LaunchesRule : Prop :=
  (∀ (s u : State) (c : CtxId) (l : Submit) (rest : List Submit) (k : Nat) (p : Region), s.focus c = some u → u.ctx.launches = l :: rest →
    u.releasePending (if l.block.toNat / 2 ^ 60 = 3 then 3 else 2) = false → u.homeKey u.me c.rid l.block Access.both = .ok k →
    u.region? c.rid = some p → u.blockHeld (some p) k = false → u.heldWalk u.me c.rid l.block = false → GrantLive u →
    ∃ t code, Gives (.launchDecision c) s t ∧ t.ctx.launches = rest ∧ Brought u.ctx t.ctx l.sd l.tag (BitVec.ofNat 64 code) ∧
      code ≤ 6 ∧
      (p.lim.lnok = false → code = 6) ∧ (4096 ≤ u.regions.length → code ≠ 0) ∧
      (code ≠ 0 → t.mem = u.mem ∧ t.regions = u.regions ∧ t.ctxs = u.ctxs ∧ t.core = u.core) ∧
      (code = 0 → Accepted u t (some p.rid) l.block k ∧
        ∀ n < 256, vget t.core.k n = vget u.core.k n +
          if l.w.se = 1 ∧ l.w.spt = 1 ∧ n = l.w.ss.toNat ∧ (u.core.grantOf c.rid).isSome then l.w.si.setWidth 16 else 0)) ∧
  ∀ (s : State) (rid : BitVec 32) (r : Region), s.region? rid = some r → r.st = 1 → r.stopping = none →
    (s.stands r.bkey = true → Gives (.regionStart rid) s s) ∧
    (s.stands r.bkey = false → r.work.npred.toNat ≤ leNat (s.peek (r.bkey + 0xC8) 2) →
      ∃ t, Gives (.regionStart rid) s t ∧ Started s t r ∧
        leNat (t.peek (r.bkey + 0xC0) 8) = r.res.toNat * 2 ^ 56 + 2 * 2 ^ 48 + rid.toNat) ∧
    (leNat (s.peek (r.bkey + 0xC8) 2) < r.work.npred.toNat → Gives (.regionStart rid) s s)

/-- R295, R297 to R299: the code of a LAUNCH, by the conditions of the table in its order: the launcher's permission, the form of the
block, what the parent can grant, the seam geometry, the save areas, and the room of the region table. -/
def Sys2Proof.Machine.LaunchRefusalsRule : Prop :=
  ∀ (s : State) (l : Launcher) (addr : W64) (k : Nat),
    let b := readBlockAt s k
    let p := (l.parent.map Region.lim).getD rootLimits
    let m := b.limits p
    let w := b.work
    let code := s.launchCode l addr (some k)
    let va (o : Nat) : Nat := w.savb.toNat % 2 ^ 48 + o
    let c1 : Prop := b.f 0 63 48 ≠ 1 ∨ (∃ x ∈ blockRsv, b.f x.1 x.2.1 x.2.2 ≠ 0) ∨ (∃ r ∈ s.regions, r.bkey = k) ∨
      (w.kind = 0 ∧ (w.nctx = 0 ∨ w.nctx.toNat < w.holdn.toNat ∨ w.nsel ≠ 0 ∨ w.entry.toNat % 2 = 1 ∨ ¬InSpace w.entry [2])) ∨
      (w.kind ≠ 0 ∧ (w.nctx ≠ 0 ∨ w.holdn ≠ 0 ∨ (∃ a, (a = w.entry ∨ a = w.arg) ∧ (a.toNat % 8 ≠ 0 ∨ ¬InSpace a [2, 3])) ∨
        (w.kind = 1 ∧ w.nsel ≠ 0) ∨ (w.kind = 3 ∧ w.nsel = 0))) ∨
      m.phi.toNat < m.plo.toNat ∨ m.cmax = 0 ∨ 1152 < m.cmax.toNat ∨ m.rmax = 0 ∨ 27648 < m.rmax.toNat ∨ 256 < m.kcnt.toNat ∨
      32 < m.bcch.toNat ∨ 94 < m.bscr.toNat ∨ 32 < m.btile.toNat ∨ 256 < w.nbar.toNat ∨
      (w.nbar ≠ 0 ∧ (w.barb = 0 ∨ w.barb.toNat % 64 ≠ 0)) ∨
      (∃ a ∈ w.succ, a ≠ 0 ∧ (a.toNat % 256 ≠ 0 ∨ ¬InSpace a [2, 3] ∨ a = addr)) ∨
      w.trb.toNat % 32 < 4 ∨ 16 < w.trb.toNat % 32 ∨ w.trb.toNat / 32 % 128 ≠ 0 ∨ ¬InSpace w.trb [2, 3] ∨
      (l.parent.isNone = true ∧ (b.inherits 6 = true ∨ b.inherits 7 = true))
    let c2 : Prop := p.cmax.toNat < m.cmax.toNat ∨ p.rmax.toNat < m.rmax.toNat ∨ p.kcnt.toNat < m.kcnt.toNat ∨
      p.bcch.toNat < m.bcch.toNat ∨ p.bscr.toNat < m.bscr.toNat ∨ p.btile.toNat < m.btile.toNat ∨
      (p.ebud ≠ 0 ∧ (m.ebud = 0 ∨ p.ebud.toNat < m.ebud.toNat)) ∨ m.plo.toNat < p.plo.toNat ∨ p.phi.toNat < m.phi.toNat ∨
      (m.expok = true ∧ p.expok = false) ∨ (m.lnok = true ∧ p.lnok = false) ∨ (m.migok = true ∧ p.migok = false)
    let c4 : Prop := w.geom = true ∧ w.rmt = false ∧ w.sgen.toNat ≠ s.boot.geow.toNat / 2 ^ 32
    let bytes := w.holdn.toNat * 0x50000 + (w.nctx.toNat - w.holdn.toNat) * 0x8000
    let c3 : Prop := w.kind = 0 ∧ (w.savb.toNat % 4096 ≠ 0 ∨ ¬InSpace w.savb [2] ∨ 2 ^ 48 < va bytes ∨
      ∃ o < bytes, ∀ pa leaf, s.walk (b.domain (l.parent.map Region.dom) 0).root (va o) = .ok (pa, leaf) →
        ¬(leafR leaf = true ∧ leafW leaf = true))
    let c5 : Prop := 4096 ≤ s.regions.length;
    (code = 6 ↔ l.may = false) ∧ (code = 1 ↔ l.may = true ∧ c1) ∧ (code = 2 ↔ l.may = true ∧ ¬c1 ∧ c2) ∧
    (code = 4 ↔ l.may = true ∧ ¬c1 ∧ ¬c2 ∧ c4) ∧ (code = 3 ↔ l.may = true ∧ ¬c1 ∧ ¬c2 ∧ ¬c4 ∧ c3) ∧
    (code = 5 ↔ l.may = true ∧ ¬c1 ∧ ¬c2 ∧ ¬c4 ∧ ¬c3 ∧ c5) ∧ (code = 0 ↔ l.may = true ∧ ¬c1 ∧ ¬c2 ∧ ¬c4 ∧ ¬c3 ∧ ¬c5)

/-- R190, R301: a conditional, loop or switch region reads its condition and launches the child that it selects, has made its last
choice where it selects none or an empty entry, and is stopped with the code of a refusal, or with 0x10 where a word cannot be
read; it waits while a channel that it reads is held. -/
def Sys2Proof.Machine.ConditionsRule : Prop :=
  ∀ (s : State) (rid : BitVec 32) (r : Region) (v : Nat), s.region? rid = some r → r.work.kind ≠ 0 → r.st = 2 → r.child = none →
    r.done = false → r.stopping = none →
    (s.readRegion r r.work.entry = .held → Gives (.regionConditionEval rid) s s) ∧
    (s.readRegion r r.work.entry = .bad → ∃ t, Gives (.regionConditionEval rid) s t ∧
      (t.region? rid).map Region.stopping = some (some 0x10)) ∧
    (s.readRegion r r.work.entry = .ok v →
    (Selects r.work v r.iter = none →
      ∃ t, Gives (.regionConditionEval rid) s t ∧ t.region? rid = some { r with done := true } ∧ t.mem = s.mem ∧ t.ctxs = s.ctxs) ∧
    (∀ i, Selects r.work v r.iter = some i → s.readRegion r (r.work.arg + BitVec.ofNat 64 (8 * i)) = .held →
      Gives (.regionConditionEval rid) s s) ∧
    ∀ i a, Selects r.work v r.iter = some i → s.readRegion r (r.work.arg + BitVec.ofNat 64 (8 * i)) = .ok a →
      (a = 0 → ∃ t, Gives (.regionConditionEval rid) s t ∧ t.region? rid = some { r with done := true } ∧ t.mem = s.mem ∧
        t.ctxs = s.ctxs) ∧
      ∀ k, a ≠ 0 → a < 2 ^ 64 → mem23 (BitVec.ofNat 64 a) 256 = true → s.regionKey r (BitVec.ofNat 64 a) Access.both = some k →
        s.regionHeld r (BitVec.ofNat 64 a) = false → s.blockHeld (some r) k = false →
        let code := s.launchCode { parent := some r } (BitVec.ofNat 64 a) (some k)
        (code = 0 → ∃ t q, Gives (.regionConditionEval rid) s t ∧ (t.region? q).isSome ∧ s.region? q = none ∧
          (t.region? rid).map Region.child = some (some q)) ∧
        (code ≠ 0 → ∃ t, Gives (.regionConditionEval rid) s t ∧ (t.region? rid).map Region.stopping = some (some (BitVec.ofNat 8 code))))

/-- R207, R295, R297, R298, R299, R301, R302: LAUNCH decisions accept or refuse by the conditions of R298, regions start, and
conditional regions choose their child. That a condition word which cannot be read stops its region with 0x10 is the model's
reading (log entry 50). -/
def Obligations.LaunchesAndConditions : Prop := LaunchesRule ∧ LaunchRefusalsRule ∧ ConditionsRule

/-- R252, R292, R296, R303, R304, R356: a region that is over is cleaned up, and when that is done it ends: its words say so, its
parent goes on, the signal of its LAUNCH is performed, a wait on which acquires at the LAUNCH's scope, and neither it nor a
context of it is left. Energy is charged to the package and to the region's meter and words, or to the housekeeping meter,
without a carry out of 64 bits; a saving is credited down to what has been charged since the last credit; at the budget the
region is stopped. That the signal of a LAUNCH goes to the grant on the core of its issue wherever the context is (log entry
52), and the energy of an id without a region to the housekeeping meter (log entry 53), are the model's readings. -/
def Obligations.RegionEnds : Prop :=
  (∀ (s : State) (rid : BitVec 32) (r : Region), s.region? rid = some r → s.regionOver r = true → s.farStores rid = false →
    s.endHeld r = false →
    (r.cleaned = none → ∃ t, Gives (.regionComplete rid) s t ∧
      (t.region? rid = none ∨ ∃ q, t.region? rid = some q ∧ q.cleaned.isSome)) ∧
    ∀ fl p, r.cleaned = some fl → (∀ q ∈ fl, s.flying q = false) → s.owesRecords rid = false → r.parent = some p →
      ∃ t, Gives (.regionComplete rid) s t ∧ t.region? rid = none ∧ (∀ c ∈ t.ctxs, c.id.rid ≠ rid) ∧
        (r.sig = none → (∀ a ∈ r.work.succ, a = 0) →
          leNat (t.peek (r.bkey + 0xC0) 8) = (if r.stopping = none then 3 else 4) * 2 ^ 48 + rid.toNat +
            ((r.stopping.getD 0).toNat % 128 +
              if r.lostArrival ∨ ∃ c ∈ s.core :: s.cores, ∃ a ∈ c.arrivals, a.rid = rid then 128 else 0) * 2 ^ 56) ∧
        (∀ g x, r.sig = some g → (∀ a ∈ r.work.succ, a = 0) → s.ctx? g.ctx = some x → x.sch.life ≠ .retired → g.ctx.rid ≠ rid →
          (s.coreAt g.core.toNat).granted g.ctx.rid g.ss.toNat = true →
          (∀ h, (s.coreAt g.core.toNat).grantOf g.ctx.rid = some h → h.reserved = false) →
          vget (t.coreAt g.core.toNat).k g.ss.toNat = vget (s.coreAt g.core.toNat).k g.ss.toNat + g.si.setWidth 16 ∧
          ∀ l ∈ (t.coreAt g.core.toNat).cache, inReach g.sco l.key = true → l.held = l.dirty) ∧
        ∀ q, p ≠ rid → s.region? p = some q → q.child = some rid →
          (q.work.kind = 2 → t.region? p = some { q with child := none, iter := q.iter + 1 }) ∧
          (q.work.kind ≠ 2 → t.region? p = some { q with child := none, done := true })) ∧
  ∀ (s : State) (rid : BitVec 32) (e d : Nat), ∃ t, Gives (.regionBlockUpdate rid ⟨e, d⟩) s t ∧
    BilledTo s.power.pkge t.power.pkge e d ∧
    (s.region? rid = none → BilledTo s.power.hkmeter t.power.hkmeter e d ∧ t.regions = s.regions ∧ t.mem = s.mem) ∧
    ∀ r, s.region? rid = some r → t.power.hkmeter = s.power.hkmeter ∧
      ∃ q, t.region? rid = some q ∧ BilledTo r.emeter q.emeter e d ∧
        (s.stands r.bkey = true → q.wroteNs = r.wroteNs) ∧ (s.stands r.bkey = false → q.wroteNs = s.time.elapsedNs) ∧
        (r.lim.ebud = 0 ∨ q.emeter.value.toNat < r.lim.ebud.toNat → q.stopping = r.stopping ∧
          (s.stands r.bkey = false → leNat (t.peek (r.bkey + 0xD8) 8) = q.emeter.value.toNat) ∧
          (s.stands r.bkey = true → t.mem = s.mem)) ∧
        (r.lim.ebud ≠ 0 → r.lim.ebud.toNat ≤ q.emeter.value.toNat → r.stopping = none → r.dom.fpol = 0 → q.stopping = some 0x11)

/-- R274, R298, R304, R320, R345, R346: the host's commands: LAUNCH, whose block is read under MPASID, is decided, STOP stops a live
region, NOP does nothing; each posts its result with its tag, and HEAD passes the entry; a malformed one, and one without an OP,
returns 0x80. That a LAUNCH whose block does not translate under MPASID returns code 1 is the model's reading (log entry 48),
and the RID of a STOP's refusal its choice (log entry 116). -/
def Obligations.HostCommands : Prop :=
  ∀ (s : State) (c : HostCmd), s.nextCmd = some c →
    let u := { s with mgmt := { s.mgmt with hcq := { s.mgmt.hcq with head := s.mgmt.hcq.head + 1 } } }
    let result (v t : State) (rid : BitVec 32) (code : Nat) : Prop :=
      Posts v t (1, BitVec.ofNat 64 (c.tag.toNat * 2 ^ 32 + rid.toNat), BitVec.ofNat 64 (code * 2 ^ 56), 0)
    let badArg : Prop := (c.op = 1 ∧ ¬(mem23 c.arg 256 = true ∧ c.arg.toNat / 2 ^ 60 = 3)) ∨ (c.op = 2 ∧ 2 ^ 32 ≤ c.arg.toNat)
    let bad : Prop := c.clean = false ∨ badArg
    (c.op = 1 → bad → ∃ t, Gives .hostCmdLaunch s t ∧ result u t 0 0x80) ∧
    (c.op = 2 → bad → ∃ t, Gives .hostCmdStop s t ∧ result u t 0 0x80) ∧
    (c.op ≠ 1 → c.op ≠ 2 → c.op ≠ 3 ∨ bad → ∃ t, Gives .hostCmdNop s t ∧ result u t 0 0x80) ∧
    (c.op = 3 → ¬bad → ∃ t, Gives .hostCmdNop s t ∧ result u t 0 0) ∧
    (c.op = 2 → ¬bad →
      (u.region? (c.arg.setWidth 32) = none → ∃ t, Gives .hostCmdStop s t ∧ result u t (c.arg.setWidth 32) 0x81) ∧
      ∀ r, u.region? (c.arg.setWidth 32) = some r → ∃ v t, Gives .hostCmdStop s t ∧ result v t (c.arg.setWidth 32) 0 ∧ v.mem = u.mem ∧
        v.mgmt = u.mgmt ∧ v.region? r.rid = some { r with stopping := some (r.stopping.getD 0x10) } ∧
        ∀ x ∈ v.allCtxs, x.id.rid = r.rid → x.sch.life = .retired ∨ x.sch.life = .none ∨ x.sch.life = .retiring ∨
          (x.sch.life = .resident ∧ x.sch.stopAt = some .retired) ∨ (x.sch.life = .saving ∧ x.sch.saveEnd = .retired)) ∧
    let block := u.hostXlate u.mgmt.mpasid (c.arg.toNat % 2 ^ 57) Access.both
    (∀ k, c.op = 1 → ¬bad → block = .ok k → u.blockHeld none k = true → Gives .hostCmdLaunch s s) ∧
    (c.op = 1 → ¬bad → (∀ k, block = .ok k → u.blockHeld none k = false) →
      ∃ v t rid code, Gives .hostCmdLaunch s t ∧ result v t rid code ∧ v.mgmt = u.mgmt ∧
      (code ≠ 0 → rid = 0 ∧ v = u) ∧ ((∀ k, block ≠ .ok k) → code = 1) ∧
      (code = 0 → (∃ k, block = .ok k ∧ Accepted u v none c.arg k) ∧ (v.region? rid).isSome ∧ u.region? rid = none))

/-- R190, R269, R275, R291, R331 to R334, R340, R355: a request of another device that has come before changes nothing; one
whose channel, or whose tables' channel, is held waits; one that its window or its page refuses is answered so; otherwise it
performs at its home and is answered: a store, an atomic, a signal, a copy's bytes or its read, and the bytes of a reduction. Data
that go back say whether they are uncorrectable and whether the record of their line covers the asking device. A packet for another
device is sent on. Every request begins an exit from an idle state. -/
def Sys2Proof.Machine.PacketsRule : Prop :=
  ∀ (s : State) (src : BitVec 12) (seq : Nat) (addr : W64),
    (∀ (d : BitVec 512) (m : BitVec 64),
      let a := addr &&& ~~~63
      ((src, 0, seq) ∈ s.fab.seen → Gives (.remoteStorePacket src seq addr d m) s s) ∧
      (Fresh s src 0 seq a → s.heldRequest src a.toNat s.fab.nextSeq = true →
        Gives (.remoteStorePacket src seq addr d m) s { s with power := { s.power with idle := 0 } }) ∧
      (Fresh s src 0 seq a → s.heldRequest src a.toNat s.fab.nextSeq = false →
        (s.remoteKey src a.toNat Access.store = none →
          ∃ t, Gives (.remoteStorePacket src seq addr d m) s t ∧ Answered s t src 0 seq .fault [] ∧ t.mem = s.mem) ∧
        ∀ k, s.remoteKey src a.toNat Access.store = some k →
          ∃ t, Gives (.remoteStorePacket src seq addr d m) s t ∧ Answered s t src 0 seq .done [] ∧
            LineWritten s t (k / 64 * 64) d m)) ∧
    (∀ (op : BitVec 3) (w : BitVec 1) (b c : W64) (k : Nat),
      let n := if w = 1 then 4 else 8
      Fresh s src 0 seq addr → addr.toNat % n = 0 → s.remoteKey src addr.toNat Access.both = some k →
      s.heldRequest src addr.toNat s.fab.nextSeq = false →
      let old := leNat (s.peek k n)
      ∃ t mis, Gives (.remoteAtomicPacket src seq op w addr b c) s t ∧
        Answered s t src 0 seq (.data (BitVec.ofNat 512 old) (s.isBad k n) mis) [] ∧
        (mis = true ↔ NotCovered s [{ key := k, n := n }]) ∧
        (s.isBad k n = true → t.mem = s.mem) ∧
        ∀ e, atomicTable[op.toNat]? = some e → s.isBad k n = false →
          Stored s t k n (e.2 n old (b.toNat % 2 ^ (8 * n)) (c.toNat % 2 ^ (8 * n))) ∧ DeviceRecord t k) ∧
    (∀ (x : W64) (k : Nat), Fresh s src 0 seq addr → addr.toNat % 8 = 0 → s.remoteKey src addr.toNat Access.store = some k →
      s.heldRequest src addr.toNat s.fab.nextSeq = false → k % 8 = 0 →
      ∃ t, Gives (.remoteSignalPacket src seq addr x) s t ∧ Answered s t src 0 seq .done [] ∧
        Stored s t k 8 (s.peek64 k + x.toNat) ∧ t.isBad k 8 = s.isBad k 8 ∧ DeviceRecord t k) ∧
    (∀ (bs : List Byte) (n : Nat),
      let wr : Instr := .copyDataPacket src seq true addr bs n
      let rd : Instr := .copyDataPacket src seq false addr bs n
      let mx : Instr := .mxReducePacket src seq addr bs
      (Fresh s src 0 seq addr → RangeHeld s src addr bs.length → Gives wr s { s with power := { s.power with idle := 0 } }) ∧
      (Fresh s src 0 seq addr → ¬RangeHeld s src addr bs.length →
        (s.remoteRuns src addr bs.length Access.store = none → ∃ t, Gives wr s t ∧ Answered s t src 0 seq .fault [] ∧ t.mem = s.mem) ∧
        ∀ rs, s.remoteRuns src addr bs.length Access.store = some rs →
          ∃ t, Gives wr s t ∧ Answered s t src 0 seq .done [] ∧ RunsWritten s t rs bs) ∧
      (Fresh s src 0 seq addr → ¬RangeHeld s src addr n →
        (s.remoteRuns src addr n Access.load = none → ∃ t, Gives rd s t ∧ Answered s t src 0 seq .fault [] ∧ t.mem = s.mem) ∧
        ∀ rs, s.remoteRuns src addr n Access.load = some rs →
          ∃ t bad mis, Gives rd s t ∧ Answered s t src 0 seq (.data 0 bad mis) (bytesAt s rs) ∧ t.mem = s.mem ∧
            (bad = true ↔ ∃ r ∈ rs, s.isBad r.key r.n = true) ∧ (mis = true ↔ NotCovered s rs)) ∧
      (Fresh s src 2 seq addr → ¬RangeHeld s src addr bs.length →
        (s.remoteRuns src addr bs.length Access.store = none → ∃ t, Gives mx s t ∧ Answered s t src 2 seq .fault [] ∧ t.mem = s.mem) ∧
        ∀ rs, s.remoteRuns src addr bs.length Access.store = some rs →
          ∃ t, Gives mx s t ∧ Answered s t src 2 seq .done [] ∧ RunsWritten s t rs bs)) ∧
    ∀ (dst : BitVec 12) (lane : BitVec 2) (bytes : List Byte),
      (dst = s.mgmt.devid ∨ s.fab.route dst lane.toNat = .none → Gives (.packetForward dst ⟨lane, bytes⟩) s s) ∧
      (dst ≠ s.mgmt.devid → s.fab.route dst lane.toNat ≠ .none →
        Gives (.packetForward dst ⟨lane, bytes⟩) s
          { s with
            power := { s.power with idle := 0 }
            fab := { s.fab with nextSeq := s.fab.nextSeq + 1, out := s.fab.out ++
              [{ seq := s.fab.nextSeq, dst := dst, port := (s.fab.route dst lane.toNat).out, body := .forward lane bytes }] } })

/-- R180, R284, R331, R335, R337: the answer to a store or a command's request ends it; a request without any route fails at
once; the data of a load that waited brings its result, and its bundle ends. -/
def Sys2Proof.Machine.AnswersToRequestsRule : Prop :=
  (∀ (s : State) (seq : Nat) (ans : Answer) (p : Sent), s.outstanding seq = some p →
    (∀ c ∈ s.allCtxs, ∀ r, c.remote = some r → r.seq ≠ seq) →
    (ans = .fault → ∀ c ∈ s.core :: s.cores, ∀ f ∈ c.flight, f.sent ≠ some seq) →
    ∃ t, Gives (.acknowledgment seq ans) s t ∧ t.fab = { s.fab with out := s.fab.out.filter fun x => x.seq ≠ seq } ∧
      t.mem = s.mem ∧ t.ctx = { s.ctx with running := t.ctx.running } ∧
      List.Forall₂ (fun x y => CmdAnswered x y seq ans) s.ctx.running t.ctx.running ∧
      ((∃ f ∈ s.core.flight, f.sent = some seq) →
        t.core = { s.core with flight := s.core.flight.filter fun f => f.sent ≠ some seq })) ∧
  (∀ (s : State) (seq : Nat) (p : Sent), s.fab.out.find? (fun x => x.seq = seq) = some p →
    (p.port ≠ none ∨ s.fab.route p.dst p.body.lane ≠ .none → Gives (.routeFailure seq) s s) ∧
    (p.port = none → s.fab.route p.dst p.body.lane = .none → (∀ c ∈ s.core :: s.cores, ∀ f ∈ c.flight, f.sent ≠ some seq) →
      ∃ t, Gives (.routeFailure seq) s t ∧ t.fab = { s.fab with out := s.fab.out.filter fun x => x.seq ≠ seq } ∧ t.mem = s.mem ∧
        List.Forall₂ (fun x y => CmdAnswered x y seq .fault) s.ctx.running t.ctx.running ∧
        ∀ r, s.ctx.remote = some r → t.ctx.remote = some (if r.seq = seq then { r with failed := true } else r))) ∧
  ∀ (s u : State) (c : CtxId) (seq : Nat) (r : Remote) (x : Sent) (d : BitVec 512) (bad mis : Bool) (o : LS) (p : Place)
    (v : Nat) (vb : Bool) (s1 : State), s.focus c = some u → u.ctx.remote = some r → r.seq = seq → u.outstanding seq = some x →
    (∃ a n, x.body = .read a n) →
    let r' : Remote := { r with got := r.got ++ [(lineOf r.addr.toNat, d, bad)], mis := r.mis || mis }
    let w : State :=
      { u with
        fab := { u.fab with out := u.fab.out.filter fun y => y.seq ≠ seq }
        ctx := { u.ctx with remote := some r' }
        pre := { u.ctx with
          remote := some r'
          r := r.regs
          c := r.ctl }
        iss := r.iss }
    let a := addrLS w o
    w.psS o.sa = false → w.psS o.sx = false →
    ∀ e ∈ loadTable, r.instr = e.1 o → w.resolve w.me w.rid a e.2.1 Access.load = .ok p →
      let w' := w.approach p
      Walks w a → Free w' p e.2.1 → (w'.noteElems [{ i := 0, addr := a }]).readPlace p a e.2.1 = (.val v vb, s1) →
      ∃ y, Gives (.loadDataReturn c seq (.data d bad mis)) s y.finishIf ∧ OnlyScalar o.sd s1.clearRemote y ∧
        (o.sd ≠ 0 → y.sNow o.sd = loaded e.2.1 e.2.2 v ∧ y.sPoison o.sd = vb)

/-- R180, R190, R275, R291, R331, R332, R333, R334, R335, R337, R340, R355: requests of other devices perform once and are answered,
and answers end what waits for them. The records that remote atomics leave and a range that is refused whole (log entry 63),
what covers another device (log entry 36) are the model's readings; that a forwarded packet keeps the lane it came on, and
answers wait for theirs, is log entry 110. -/
def Obligations.PacketsAndAnswers : Prop := PacketsRule ∧ AnswersToRequestsRule

/-- R329, R330, R332, R336 to R338: the events of a port: a replay counts, a lane pauses, so that its packets wait, and resumes,
training begins and is tried again, a link comes up within 200 ms, a retrained one within 4 ms of the start of its attempt, or
is declared down after the 200 ms, and EN enables or disables it; in any other state the event changes nothing. Packets that
wait then take their routes again. That a link declared down forgets the pauses of its lanes, and a disabled one keeps them, is
the model's choice (log entry 116). -/
def Obligations.Ports : Prop :=
  ∀ (s : State) (p : BitVec 5) (lane : BitVec 2), p.toNat < 18 →
    let x := portAt s p
    let st := x.state.toNat
    let now := s.time.elapsed / 105000
    let up (n : BitVec 16) : BitVec 16 := if n = 0xFFFF then n else n + 1
    (∀ (i : Instr) (ok : List Nat) (y : Port),
      (i = .flitReplay p ∧ ok = [2] ∧ y = { x with repl := up x.repl }) ∨
        (i = .linkRetrain p ∧ ok = [2] ∧ y = { x with state := 3, rtr := up x.rtr, since := now, attempt := now }) ∨
        (i = .retrainAttemptFail p ∧ ok = [3] ∧ y = { x with rtr := up x.rtr, attempt := now }) ∨
        (i = .lanePause p lane ∧ ok = [1, 2, 3] ∧ y = { x with paused := y.paused } ∧
          ∀ k < 4, y.paused.getLsbD k = (x.paused.getLsbD k || k == lane.toNat)) →
      (st ∉ ok → Gives i s s) ∧ (st ∈ ok → ∃ t, Gives i s t ∧ OnlyPort s t p y)) ∧
    (st ∈ [1, 2, 3] → ∃ t v y, Gives (.laneResume p lane) s t ∧ OnlyPort s v p { x with paused := y } ∧
      (∀ k < 4, y.getLsbD k = (x.paused.getLsbD k && k != lane.toNat)) ∧
      t = v.routedAs t ∧ Rerouted s t none) ∧
    (st ∉ [1, 2, 3] → Gives (.laneResume p lane) s s) ∧
    (∀ dst l, (s.fab.route dst l = .port p → st = 2 ∧ x.paused.getLsbD l = false) ∧
      (let e := assocD 0 dst.toNat s.fab.rtab
       e.getLsbD 31 = true → e.extractLsb' 0 5 = p → (e.extractLsb' 8 5).toNat < 18 → st = 2 →
        s.fab.route dst l = if x.paused.getLsbD l then .wait else .port p)) ∧
    (st = 1 ∨ st = 3 →
      (now ≤ x.since + 200000000 →
        (st = 1 ∨ now ≤ x.attempt + 4000000 → ∃ t v, Gives (.linkUp p) s t ∧ OnlyPort s v p { x with state := 2 } ∧
          t = v.routedAs t ∧ Rerouted s t none) ∧
        (st = 3 → x.attempt + 4000000 < now → Gives (.linkUp p) s s) ∧
        Gives (.linkDown p) s s) ∧
      (x.since + 200000000 < now → Gives (.linkUp p) s s ∧ ∃ t, Gives (.linkDown p) s t ∧
        portAt t p = { x with state := 0, paused := 0 } ∧ (∀ q, q ≠ p → portAt t q = portAt s q) ∧
        Posts s t (4, 0, p.setWidth 64, 0) ∧ Rerouted s t (some p))) ∧
    (st ≠ 1 → st ≠ 3 → Gives (.linkUp p) s s ∧ Gives (.linkDown p) s s) ∧
    (x.en = true → Gives (.portEnable p) s s) ∧
    (x.en = false → ∃ t, Gives (.portEnable p) s t ∧ OnlyPort s t p { x with en := true, state := 1, since := now }) ∧
    ∃ t v, Gives (.portDisable p) s t ∧ OnlyPort s v p { x with en := false, state := 4 } ∧
      t = v.routedAs t ∧ Rerouted s t (some p)

/-- R321, R332, R342 to R348, R355: the registers of BAR0: what a write of each does, when it is ignored, and that the same write
by its offset does the same; the queues' base and index registers; route and window entries; link up and down, an error that AER
reports, and the latencies that the host writes. HCQT, PREQ and PGRANT begin an exit from an idle state. -/
def Sys2Proof.Machine.HostRegistersRule : Prop :=
  (∀ (s : State) (v : W64),
    (∃ t, Gives (.devidWrite v) s t ∧ t =
      if ∃ p : Fin 18, (portAt s (BitVec.ofNat 5 p.val)).state.toNat ∈ [1, 2, 3] then s
      else { s with mgmt := { s.mgmt with devid := v.extractLsb' 0 12 } }) ∧
    (∃ t, Gives (.thermWrite v) s t ∧ t =
      if v.toNat % 256 ≤ v.toNat / 256 % 256 then s
      else { s with mgmt := { s.mgmt with thot := v.extractLsb' 0 8, trel := v.extractLsb' 8 8 } }) ∧
    (let c : CtxId := { rid := v.extractLsb' 32 32, num := v.extractLsb' 0 16 };
      let w : State := { s with power := { s.power with idle := 0 } }
      (s.ctx? c = none → Gives (.preqWrite v) s w) ∧
      (∀ x, s.ctx? c = some x → x.sch.life ≠ .resident → x.sch.life ≠ .saving → Gives (.preqWrite v) s w) ∧
      ∀ x, s.ctx? c = some x → x.sch.life = .resident → ∃ t, Gives (.preqWrite v) s t ∧
        t.ctx? c = some { x with sch := { x.sch with reqs :=
          if ReqKind.management ∈ x.sch.reqs then x.sch.reqs else x.sch.reqs ++ [.management] } } ∧
        t.mem = s.mem ∧ t.core = s.core ∧ t.power = w.power) ∧
    Gives (.hcqbWrite v) s { s with mgmt := { s.mgmt with hcq := { base := v &&& ~~~0xFE0, tail := 0, head := 0, lost := false } } } ∧
    (∃ t, Gives (.evqbWrite v) s t ∧ Flushes s t { base := v &&& ~~~0xFE0, tail := 0, head := 0, lost := false }) ∧
    (∃ t, Gives (.pgrantWrite v) s t ∧ t = { s with
        power := { s.power with level := v.extractLsb' 0 3, idle := 0 }
        time := { s.time with stretch := t.time.stretch }
        nfree := t.nfree }) ∧
    (∀ e ∈ [(0x0000, Instr.devidWrite), (0x0010, .thermWrite), (0x0018, .preqWrite), (0x0400, .hcqbWrite), (0x0420, .evqbWrite),
        (0x0500, .pgrantWrite), (0x0600, .tctlWrite), (0x0608, .tsetWrite)], ∀ t, Gives (e.2 v) s t →
      Gives (.registerWrite (BitVec.ofNat 24 e.1) 8 v) s t) ∧
    Gives (.registerWrite 0x0020 8 v) s { s with mgmt := { s.mgmt with mpasid := v.extractLsb' 0 20 } } ∧
    (∀ i < 4096, ∃ t, Gives (.registerWrite (BitVec.ofNat 24 (0x20000 + 8 * i)) 8 v) s t ∧
      t = { s with fab := { s.fab with rat := t.fab.rat } } ∧
      ∀ k, assocD 0 k t.fab.rat = if k = i then v &&& 0xE00000FFFFFFF000 else assocD 0 k s.fab.rat) ∧
    (∀ i < 4096, ∃ t w : State, Gives (.registerWrite (BitVec.ofNat 24 (0x10000 + 4 * i)) 4 v) s t ∧
      w = { s with fab := { s.fab with rtab := w.fab.rtab } } ∧ t = w.routedAs t ∧
      (∀ k, assocD 0 k w.fab.rtab = if k = i then v.extractLsb' 0 32 &&& 0xC0001F1F else assocD 0 k s.fab.rtab) ∧
      Rerouted s t none) ∧
    (∀ (off : BitVec 24) (n : Nat), (n ≠ 4 ∧ n ≠ 8) ∨ off.toNat % n ≠ 0 → Gives (.registerWrite off n v) s s)) ∧
  (∀ (s : State) (x : W32),
    (∃ t, Gives (.hostDoorbell x) s t ∧ t =
      if s.mgmt.hcq.enabled = true ∧ (x - s.mgmt.hcq.head).toNat ≤ s.mgmt.hcq.entries
      then { s with power := { s.power with idle := 0 }, mgmt := { s.mgmt with hcq := { s.mgmt.hcq with tail := x } } } else s) ∧
    ∃ t, Gives (.eventQueueDrain x) s t ∧ Flushes s t { s.mgmt.evq with head := x }) ∧
  ∀ (s : State) (up : Option Bool),
    let u := { s with mgmt := { s.mgmt with linkUp := up.getD s.mgmt.linkUp } }
    Gives (.hostLinkChange up none) s u ∧
    (∀ bad, Gives (.hostLinkChange up (some (.error bad))) s { u with mgmt := { u.mgmt with aer := s.mgmt.aer ++ [bad] } }) ∧
    ∀ a b, Gives (.hostLinkChange up (some (.tolerance a b))) s { u with power := { s.power with ltrSnoop := a, ltrNoSnoop := b } }

/-- R38, R357: the source of TIME is chosen, free-running TIME takes no more corrections, and each offset that the source gives
is measured: the host's time where the host is the source, an exchange over a link that is up where the fabric is. -/
def Sys2Proof.Machine.TimeSourcesRule : Prop :=
  ∀ (s : State) (v : W64) (d : Int),
    (v.toNat % 4 = 3 → Gives (.tctlWrite v) s s) ∧
    (v.toNat % 4 ≠ 3 → Gives (.tctlWrite v) s
      { s with time := { s.time with
        src := v.extractLsb' 0 2
        port := v.extractLsb' 8 5
        slew := if v.toNat % 4 = 0 then 0 else s.time.slew
        near := if v.toNat % 4 = 0 then none else s.time.near } }) ∧
    (s.time.src ≠ 1 → Gives (.tsetWrite v) s s) ∧
    (s.time.src = 1 → ∃ t, Gives (.tsetWrite v) s t ∧ Measured s t ((v.toNat : Int) - s.timeNs)) ∧
    (s.time.src = 2 → (portAt s s.time.port).state = 2 → ∃ t, Gives (.ptpExchange d) s t ∧ Measured s t d) ∧
    (s.time.src ≠ 2 ∨ (portAt s s.time.port).state ≠ 2 → Gives (.ptpExchange d) s s)

/-- R38, R273, R321, R332, R338, R342, R344, R345, R346, R348, R355, R357: BAR0 writes, queues, the host link and the time sources
do what their registers say. That a doorbell of a disabled queue is ignored is the model's reading (log entry 62); that
HOST_LINK_CHANGE writes both latencies is its choice (log entry 66). -/
def Obligations.HostInterface : Prop := HostRegistersRule ∧ TimeSourcesRule

/-- R272 to R274, R355: TIADDR and TICTL start an invalidation, unless one is in progress; it completes when no store that may
have used a translation that it covers is in flight, and then no such translation is held. An invalidation of the host's
translations under a PASID completes in the same way, for the host pages of its range. That a page invalidation waits for the
stores of the whole GiB is the model's choice (log entry 113), and so are the host's translations (log entry 88). -/
def Obligations.TranslationInvalidation : Prop :=
  (∀ (s : State) (va : W64) (rid : BitVec 32),
    let w : State := { s with mgmt := { s.mgmt with tiaddr := va &&& 0x0000FFFFFFFF0000 } }
    Gives (.tlbInvalidatePage va rid) s (w.going 0 rid) ∧ Gives (.tlbInvalidateRegion rid) s (s.going 1 rid) ∧
    Gives .tlbInvalidateAll s (s.going 2 0) ∧ Gives (.registerWrite 0x300 8 va) s w ∧
    ∀ v : W64, v.getLsbD 0 = true → v.extractLsb' 2 2 ≠ 3 →
      Gives (.registerWrite 0x308 8 v) s (s.going (v.extractLsb' 2 2) (v.extractLsb' 32 32))) ∧
  (∀ (s : State) (pasid : BitVec 20) (a : W64) (n : Nat),
    let meets (page : Nat) : Prop := a.toNat % 2 ^ 57 < (page + 1) * 4096 ∧ page * 4096 < a.toNat % 2 ^ 57 + n
    let used : Prop := ∃ c ∈ s.core :: s.cores, ∃ f ∈ c.flight, f.addr.toNat / 2 ^ 60 = 3 ∧ s.pasidOf f.ctx.rid = pasid ∧
      meets (f.addr.toNat % 2 ^ 57 / 4096)
    (used → Gives (.atsInvalidation pasid a n) s s) ∧
    (¬used → ∃ t, Gives (.atsInvalidation pasid a n) s t ∧
      t = { s with mgmt := { s.mgmt with ats := t.mgmt.ats, hostGen := s.mgmt.hostGen + 1 } } ∧
      ∀ p, p ∈ t.mgmt.ats ↔ p ∈ s.mgmt.ats ∧ ¬(p.pasid = pasid ∧ meets p.page))) ∧
  ∀ (s : State),
    (s.mgmt.tiJob = none → Gives .invalidationComplete s s) ∧
    ∀ kind rid va, s.mgmt.tiJob = some (kind, rid, va) → va.toNat < 2 ^ 48 → kind ≠ 3 →
      (UsedCovered s kind.toNat rid va.toNat → Gives .invalidationComplete s s) ∧
      (¬UsedCovered s kind.toNat rid va.toNat →
        ∃ t, Gives .invalidationComplete s t ∧ Invalidates s t kind.toNat rid va.toNat ∧
          t = { s with trans := t.trans, mgmt := { s.mgmt with tiJob := none, tiDone := true } })

/-- R306, R321, R351, R352, R355, R360: a droop holds the level at 0 and ends 1 ms after it last began; a supply loss, which holds
it at 0 too, requests every resident and dormant context; 8 ms after it began the pool images are kept, the contexts that are
not saved are noted as lost, and no context goes on; the package enters the deepest idle state that the lesser of the host's
latencies allows, and leaves it; a shock is noted while unpowered. That a held context is not lost (log entry 68), and that
unpowered means PHASE 0, which the retention of the pool images sets (log entry 69), are the model's readings. -/
def Obligations.PowerEvents : Prop :=
  ∀ s : State,
    let now := s.time.elapsed / 105000
    (s.power.droop = true → Gives .droopOnset s { s with power := { s.power with droopAt := now } }) ∧
    (s.power.droop = false → ∃ t, Gives .droopOnset s t ∧ t.power = { s.power with droop := true, droopAt := now } ∧
      t.power.level_ = 0 ∧ Posts s t (17, 0, 0, 0) ∧ t.ctx.r = s.ctx.r) ∧
    (s.power.droop = true ∧ s.power.lossOn = false ∧ s.power.droopAt + 1000000 ≤ now → ∃ t, Gives .droopEnd s t ∧
      t.power = { s.power with droop := false } ∧ Posts s t (18, 0, 0, 0) ∧ t.ctx.r = s.ctx.r) ∧
    (s.power.droop = false ∨ s.power.lossOn = true ∨ now < s.power.droopAt + 1000000 → Gives .droopEnd s s) ∧
    (s.power.lossOn = true → Gives .supplyLoss s s) ∧
    (s.power.lossOn = false → ∃ t, Gives .supplyLoss s t ∧
      t.power = { s.power with lossOn := true, lossAt := now, retained := false } ∧ pwrlWord t.power = 8 ∧
      (s.mgmt.linkUp = true → Posts s t (19, 0, 0, 0)) ∧ (s.mgmt.linkUp = false → t.mem = s.mem ∧ t.mgmt = s.mgmt) ∧
      ∀ id x, s.ctx? id = some x → ∃ y, t.ctx? id = some y ∧
        (x.sch.life = .resident → y.sch.life = .resident ∧ ReqKind.supplyLoss ∈ y.sch.reqs ∧ y.r = x.r) ∧
        (x.sch.life = .dormant → y.sch.life = .saving ∧ y.sch.wasDormant = true)) ∧
    (s.power.lossOn = false ∨ s.power.retained = true ∨ now < s.power.lossAt + 8000000 → Gives .poolImageRetention s s) ∧
    (s.power.lossOn = true → s.power.retained = false → s.power.lossAt + 8000000 ≤ now →
      ∃ t, Gives .poolImageRetention s t ∧ t.power = { s.power with retained := true } ∧ t.core.cache = [] ∧
        (let home (n : Nat) : Prop := t.seamState n ≠ 2 ∨
            ∃ p, s.boot.partners.find? (fun p => p.1 = n) = some p ∧ t.seamState p.2 = 0
         (t.core ∈ t.boot.images ↔ home t.core.num.toNat) ∧
         ∀ k, k / 2 ^ 60 = 1 → home (k % 2 ^ 60 / 2 ^ 32) → readByte t.boot.imageMem k = readByte t.mem k) ∧
        t.boot.phase = 0 ∧ (∀ id, t.focus id = none) ∧
        ∀ id, id ∈ t.boot.lost ↔ ∃ c ∈ t.allCtxs, c.id = id ∧ (c.sch.life = .pending ∨
          c.sch.life = .resident ∨ c.sch.life = .dormant ∨ c.sch.life = .saving ∨ c.sch.life = .retiring)) ∧
    (s.isIdle = true → ∃ n : BitVec 2, Gives .idleEntry s { s with power := { s.power with idle := n } } ∧
      (let tol := min s.power.ltrSnoop s.power.ltrNoSnoop
       (n = 3 ↔ 1500000 ≤ tol) ∧ (n = 2 ↔ 60000 ≤ tol ∧ tol < 1500000) ∧ (n = 1 ↔ 2000 ≤ tol ∧ tol < 60000))) ∧
    (s.isIdle = false → Gives .idleEntry s s) ∧
    Gives .idleExit s { s with power := { s.power with idle := 0 } } ∧
    ∀ g, ∃ t, Gives (.shockLatch g) s t ∧
      t = if s.boot.phase = 0 ∧ 40000 < g then { s with boot := { s.boot with tflag := true } } else s

/-- R240, R267, R353, R359 to R361: the requests for starts; a cold start leaves a machine as after reset, but for host memory,
the transport flag, the fused counter and the seams found; a warm start keeps what is not in the pools; a warm resume brings
back the cores and bytes of the pool images, ends the contexts that the loss took and stops their regions. Without firmware that
verifies and is not older than the fused counter none of them goes on. -/
def Sys2Proof.Machine.StartsRule : Prop :=
  ∀ (s : State) (r : StartReport),
    Gives .transportRequest s { s with boot := { s.boot with tflag := true } } ∧
    (∃ t, Gives .warmStartRequest s t ∧ t = if s.isIdle then { s with boot := { s.boot with wreq := true, phase := 1 } } else s) ∧
    (¬Verified s r → ∃ t, Gives (.coldStart r) s t ∧ FirmwareStops t ∧ t.boot.failing = s.boot.failing ∧ t.regions = [] ∧
      t.ctxs = []) ∧
    (Verified s r → ∃ t, Gives (.coldStart r) s t ∧ StartDone s t 0 r ∧ t.ctx = {} ∧ t.ctxs = [] ∧ t.core = Core.reset 0 ∧
      t.cores = [] ∧ t.regions = [] ∧ t.trans = [] ∧ t.lineRecs = [] ∧ t.mgmt = {} ∧ t.power = {} ∧ t.time = {} ∧
      (∀ p : BitVec 5, p.toNat < 18 → portAt t p = { state := 1 }) ∧
      (∀ n < 1152, t.seamState n = foundSeam s r n) ∧
      (MemoryCanonical s → ∀ k, readByte t.mem k = if k / 2 ^ 60 = 3 then readByte s.mem k else unlisted k)) ∧
    (s.boot.wreq = false → Gives (.warmStart r) s s) ∧
    (s.boot.wreq = true → ¬Verified s r → ∃ t, Gives (.warmStart r) s t ∧ FirmwareStops t ∧ t.regions = s.regions) ∧
    (s.boot.wreq = true → Verified s r → ∃ t, Gives (.warmStart r) s t ∧ StartDone s t 1 r ∧ t.trans = [] ∧
      t.core.pool.roles = resetRoles ∧ t.core.cache = [] ∧ (∀ k, k / 2 ^ 60 = 1 → readByte t.mem k = 0) ∧
      ((∀ c ∈ s.cores, c.num ≠ s.core.num) → Recalibrated s t) ∧
      ∀ n < 1152, t.seamState n = if (s.seamState n).toNat < (foundSeam s r n).toNat then foundSeam s r n else s.seamState n) ∧
    (s.power.lossOn = false ∨ s.power.retained = false → Gives (.warmResume r) s s) ∧
    (s.power.lossOn = true → s.power.retained = true →
      (¬Verified s r → ∃ t, Gives (.warmResume r) s t ∧ FirmwareStops t ∧ t.power = s.power) ∧
      (Verified s r → ∃ t, Gives (.warmResume r) s t ∧ StartDone s t 2 r ∧ t.trans = [] ∧
        t.power = { s.power with lossOn := false, retained := false, droop := false } ∧
        ∀ id ∈ s.boot.lost, (∀ x ∈ t.allCtxs, x.id = id → x.sch.life = .retired) ∧
          ∀ g, t.region? id.rid = some g → g.stopping.isSome) ∧
      (Verified s r → s.fab.out = [] → s.boot.lost = [] → (∀ c ∈ s.core :: s.cores, ∃ i ∈ s.boot.images, i.num = c.num) →
        MemoryCanonical s → MemoryCanonical { s with mem := s.boot.imageMem } → (∀ c ∈ s.boot.imageMem, c.1 / 2 ^ 60 = 1) →
        ∃ t, Gives (.warmResume r) s t ∧ (∀ k, k / 2 ^ 60 = 1 → readByte t.mem k = readByte s.boot.imageMem k) ∧
          ∀ i, s.boot.images.find? (fun i => i.num = s.core.num) = some i →
            t.core.pool = { i.pool with cals := t.core.pool.cals, change := t.core.pool.change } ∧ t.core.k = i.k ∧
            t.core.arrivals = i.arrivals ∧ t.core.cache = [] ∧ t.core.flight = []))

/-- R361, R362: the responder answers GET_VERSION with version 1.3, NEGOTIATE_ALGORITHMS with its one signing algorithm and its one
hash, GET_DIGESTS and GET_CERTIFICATE with what slot 0 holds, GET_MEASUREMENTS with the digest or the values of the index, CHALLENGE
with the nonce it signs; what the manual gives no contents for is free. -/
def Sys2Proof.Machine.IdentityRule : Prop :=
  ∀ (s : State) (nonce : BitVec 256) (n : Nat),
    Responds .getVersion s (.version 1 3) ∧ (∃ bs, Responds .getCapabilities s (.capabilities bs)) ∧
    Responds .negotiateAlgorithms s (.algorithms .slhDsaShake256s .shake256) ∧
    Responds .getDigests s (.digests Config.chainDigest) ∧ Responds .getCertificate s (.certificate Config.certChain) ∧
    (∃ sig, Responds (.challenge nonce) s (.challenge nonce sig)) ∧
    Responds (.getMeasurements 1) s (.firmware s.boot.fwDigest) ∧ Responds (.getMeasurements 2) s (.firmware s.boot.mgmtDigest) ∧
    Responds (.getMeasurements 3) s (.counters s.boot.rollback s.boot.geow) ∧
    (n = 0 ∨ 3 < n → Responds (.getMeasurements n) s .nothing)

/-- R233, R240, R267, R352, R353, R359, R360, R361, R362: cold and warm starts, the warm resume and the responder do what their
rules say. PHASE 1 beside FWERR (log entry 111), the seams that a start leaves by their marks (log entry 112), and what a cold
or a warm start keeps (log entry 68) are the model's readings. -/
def Obligations.StartsAndIdentity : Prop := StartsRule ∧ IdentityRule

/-- R10, R27, R41, R51, R54: the slots of a bundle run in slot order, each on what the ones below have left: a slot is skipped
once one has trapped, or waits for another device, and where SRES suppresses it; otherwise it is the meaning of the instruction
that it holds, for a slot that is no access of memory behind a barrier's arrival in its own bundle, nor a CPY3 ahead of which a
store goes (R282). Every read sees the context as it stood before the bundle, and of two slots that write one register the later
has the last word. -/
def Sys2Proof.Machine.SlotsRule : Prop :=
  (∀ (s : State) (b : Bun), State.runSlots b [] s = .next s) ∧
  (∀ (s t : State) (b : Bun) (x : Nat × Nat) (xs : List (Nat × Nat)), s.runSlot b x = .next t →
    State.runSlots b (x :: xs) s = State.runSlots b xs t) ∧
  (∀ (s : State) (b : Bun) (x : Nat × Nat), s.ctx.halted = true → s.runSlot b x = .next s) ∧
  (∀ (s : State) (b : Bun) (n w : Nat) (y : Slot), s.ctx.halted = false → decodeSlot (slotClass n) (n == 3) w = .ok y →
    (∀ rt p tb ra, y ≠ .op (.tret rt p tb ra)) → (n = 5 → s.pre.c.mhold = true) →
    (n < s.pre.firstSlot → s.runSlot b (n, w) = .next { s with iss := { s.iss with slot := n } }) ∧
    (s.pre.firstSlot ≤ n → s.iss.arrived = none → (∀ o, y ≠ .eng .cpy3 o) →
      s.runSlot b (n, w) = exec y.toInstr { s with iss := { s.iss with slot := n, later := none } })) ∧
  ∀ (s : State) (b : Bun) (w1 w2 : Nat) (d a1 b1 a2 b2 : R6), s.ctx.halted = false → s.pre.firstSlot = 0 → s.iss.arrived = none → d ≠ 0 →
    decodeSlot .scalar false w1 = .ok (.op (.add d a1 b1)) → decodeSlot .scalar false w2 = .ok (.op (.sub d a2 b2)) →
    ∃ z, State.runSlots b [(0, w1), (1, w2)] s = .next z ∧ z.sNow d = s.rdS a2 - s.rdS b2 ∧
      (d = a2 → z.sNow d = s.rdS d - s.rdS b2)

/-- R12, R53, R54, R312: what a core's cycle does, for every state: what is due lands, the contexts of the core are tried, and
of those that can issue the one that stands first issues: a higher class first, then a smaller LIC, then a lower bank. After it
at most one more issues: the first in that order of those whose slots and ports are apart from its own, neither bundle with MI,
unless what the primary has done holds it (log entry 115). Then the cycle ends: the core's clock moves on. State.noteQueues only
keeps since when each waiting context has its effective class, which R309 asks for. -/
def Sys2Proof.Machine.CyclesRule : Prop :=
  (∀ (s : State) (core : BitVec 11), core.toNat < 1152 → s.boot.fwerr = false → s.power.retained = false →
    let s1 := (s.focusCore core.toNat).landDue
    let r := State.survey s1.lodgers s1
    let q := r.2.noteQueues
    ∃ z, Gives (.issueCycle core) s ((z.focusCore core.toNat).endCycle) ∧
      (r.1 = [] → z = q) ∧
      (∀ p rest, r.1 = p :: rest → ∃ y, q.issueCand p = .next y ∧
        ((∀ c ∈ rest, mergeable p c = false) → z = y) ∧
        ∀ pre c post, rest = pre ++ c :: post → (∀ d ∈ pre, mergeable p d = false) → mergeable p c = true →
          (y.stillReady c = false → z = y) ∧
          (y.stillReady c = true → ∃ x, y.issueCand c = .next x ∧ z = (x.agePartner p.id).agePartner c.id)) ∧
      (r.1.Pairwise fun a b => b.cls < a.cls ∨ (a.cls = b.cls ∧ (a.lic < b.lic ∨ (a.lic = b.lic ∧ a.bank ≤ b.bank)))) ∧
      ∀ c ∈ r.1, c.id ∈ s1.lodgers ∧ c.next ≠ .none ∧
        ∃ x, r.2.ctx? c.id = some x ∧ c.cls = r.2.classOf x ∧ c.lic = x.sch.lic ∧ c.bank = x.bank.toNat ∧ c.first = x.firstSlot) ∧
  (∀ u : State, u.endCycle.core.cycle = u.core.cycle + 1 ∧ u.endCycle.core.clock = u.core.clock + Config.cycleUnits + u.time.stretch ∧
    u.endCycle.ctx = u.ctx ∧ u.endCycle.mem = u.mem) ∧
  ∀ (p c : Cand) (bp bc : Bun), p.next = .run bp → c.next = .run bc →
    (mergeable p c = true ↔ bp.hdr.mi = false ∧ bc.hdr.mi = false ∧
      ∀ x ∈ bp.slots, ∀ y ∈ bc.slots, p.first ≤ x.1 → c.first ≤ y.1 →
        x.1 ≠ y.1 ∧ ∀ f ∈ slotFields x, ∀ g ∈ slotFields y, f.2.1 ≠ g.2.1)

/-- R10, R27, R41, R44, R51, R54, R312: a step runs the event that the agenda names; a core's cycle fetches the bundle at the PC of
its one ready context and runs the instructions that its slots hold, after what was due has landed and with its line's
translation held, then ends the bundle and the cycle; without firmware, and after a supply loss, no core runs a cycle; the
machine's meaning of a slot is that of its instruction. The agenda is the model's own field (log entry 3). -/
def Sys2Proof.Machine.StepsRule : Prop :=
  (∀ (s : State) (i : Instr) (rest : List Instr), s.agenda = i :: rest → step s = exec i { s with agenda := rest }) ∧
  (∀ s : State, s.agenda = [] → s.firstOf s.events = none → step s = exec (.issueCycle (BitVec.ofNat 11 s.nextCore)) s) ∧
  (∀ (cls : SlotClass) (s3 : Bool) (w : Nat) (y : Slot) (s : State), decodeSlot cls s3 w = .ok y → execSlot y s = exec y.toInstr s) ∧
  (∀ (u : State) (a : W64) (h k : Nat) (cached : Bool), u.findBundle u.ctx.q.pc = .header a h → u.fetchPlace a = .ok (k, cached) →
    let hd := readHeader h
    let len := bundleLength hd.mask
    ∀ vs, slotValues (presentSlots hd.mask) ((u.fetchBytes k len cached).drop 2) = some vs →
      u.decodeCheck { ba := a, hdr := hd, len := len, slots := vs } = none →
      u.nextBundle = .run { ba := a, hdr := hd, len := len, slots := vs }) ∧
  (∀ (s : State) (core : BitVec 11), core.toNat < 1152 → s.boot.fwerr = true ∨ s.power.retained = true →
    Gives (.issueCycle core) s s) ∧
  ∀ (s u : State) (core : BitVec 11) (id : CtxId) (b : Bun), core.toNat < 1152 → s.boot.fwerr = false → s.power.retained = false →
    let s1 := (s.focusCore core.toNat).landDue
    s1.lodgers = [id] → s1.focus id = some u → u.ready = (.run b, u) →
    let up := (u.noteQueues.noteAddr b.ba).upWith b
    (∃ z, State.runSlots b b.slots (up 0) = .next z ∧ Gives (.issueCycle core) s (((z.finishIf).focusCore core.toNat).endCycle)) ∧
    ∀ (n w : Nat) (y : Slot), b.slots = [(n, w)] → decodeSlot (slotClass n) (n == 3) w = .ok y →
      (∀ rt p tb ra, y ≠ .op (.tret rt p tb ra)) → u.ctx.q.reent = none → (n = 5 → u.ctx.c.mhold = true) →
      ∃ z, exec y.toInstr (up n) = .next z ∧ Gives (.issueCycle core) s (((z.finishIf).focusCore core.toNat).endCycle)

/-- R10, R12, R27, R41, R44, R51, R53, R54, R312, R361: a step runs the event of the agenda, and a core's cycle the bundles of one or
two of its contexts, slot by slot. -/
def Obligations.StepRunsDecoded : Prop := StepsRule ∧ SlotsRule ∧ CyclesRule

/-- R46, R54, R119, R312, R323: an empty bundle only moves its context on: PC passes its two bytes and the pads after them, to
the next bundle or to where fetch faults, and a pad is never where it comes to stand; the next bundle comes a cycle later, the
preparations age, and its IB says whether the boundary after it is a legal point. -/
def Sys2Proof.Machine.EmptyBundlesRule : Prop :=
  ∀ (s : State) (ib mi : Bool), s.ctx.sch.life = .resident → s.ctx.remote = none → s.ctx.q.reent = none → s.ctx.q.trapped = none →
    let u := s.noteAddr s.ctx.q.pc
    let next : W64 := ((s.ctx.q.pc + 2) &&& 0x0000FFFFFFFFFFFE) ||| 0x2000000000000000
    ∃ t, Gives (.emptyBundle ib mi) s t ∧ t.ctx.q.pc = u.pastPads next ∧
      (u.fetchHeld next 2 = false → u.fetchHeader next = .ok 0 → ∀ a h, u.skipPads (2 ^ 47 - 1) (next + 2) = .header a h →
        t.ctx.q.pc = a) ∧
      (∀ h, u.fetchHeld next 2 = false → u.fetchHeader next = .ok h → h ≠ 0 → t.ctx.q.pc = next) ∧
      t.ctx.q.legal = ib ∧ t.ctx.q.stallUntil = s.core.cycle + 1 ∧ t.ctx.q.reent = none ∧ t.ctx.q.loops = s.ctx.q.loops ∧
      (∀ n < 8, vget t.ctx.q.prep n = (vget s.ctx.q.prep n).map (· + 1)) ∧ t.ctx.sch.lic = s.core.cycle ∧ t.ctx.r = s.ctx.r ∧
      t.ctx.c = s.ctx.c ∧ t.ctx.mx = s.ctx.mx ∧ t.ctx.queue = s.ctx.queue ∧ t.mem = s.mem ∧ t.core = s.core ∧ t.ctxs = s.ctxs

/-- R17, R21, R27, R46, R113, R114, R116, R119, R128, R129, R131: the end of a bundle none of whose slots has trapped. A re-entered
bundle clears SRES unless it wrote it. A transfer to an address outside space 0x2, or to an odd one, is the fetch fault of slot 2,
with the target as its address, the slots committed and PC left; an address with a bit of [59:48] is taken so too (log entry 107).
Otherwise the PC goes to the target, or to the next address, and past pads; the next bundle issues no sooner than the transfer's stall
allows; a back-branching BLC's rotation lowers both bases by one; the preparations age, or after TRET are discarded; TRET's re-entry,
and whether the boundary is a legal point, stand for what comes next. DORM makes the context dormant, and EXIT lets it retire; a DORM
or EXIT below the slot of a trap acts once the re-entered bundle has ended (log entry 122). -/
def Sys2Proof.Machine.BundleEndsRule : Prop :=
  ∀ (s : State), s.ctx.halted = false →
    let go : W64 := (s.iss.xfer.map Xfer.tgt).getD s.after
    let ok : Prop := ∀ x, s.iss.xfer = some x → x.tgt.toNat / 2 ^ 48 = 0x2000 ∧ x.tgt.toNat % 2 = 0
    let rot : Bool := (s.iss.xfer.map Xfer.rot).getD false
    let sres : BitVec 3 := if s.ctx.q.reent.isSome = true ∧ s.iss.sresSet = false then 0 else s.ctx.c.sres
    let old : Option Bool := s.ctx.q.parting.bind fun p =>
      if p.1 = s.iss.ba ∧ s.pre.q.reent.isSome = true ∧ 2 < s.pre.firstSlot then some p.2 else none
    let part : Option Bool := if s.iss.exiting then some true else if s.iss.dorming then some false else old
    let t := s.finishIf
    let pc : W64 := s.pastPads ((go &&& 0x0000FFFFFFFFFFFE) ||| 0x2000000000000000)
    let c' : Ctl := { s.ctx.c with
      sres := sres
      vrb := if rot then s.ctx.c.vrb - 1 else s.ctx.c.vrb
      prb := if rot then s.ctx.c.prb - 1 else s.ctx.c.prb }
    (¬ok → t = ({ s with ctx := { s.ctx with c := { s.ctx.c with sres := sres } } } : State).takeTrap
      { cause := 0x06, slot := 2, sres := none, ac := true, faddr := go }) ∧
    (ok → part = none → t = { s with ctx := { s.ctx with
        c := c'
        q := { s.ctx.q with
          pc := pc
          stallUntil := s.core.cycle + 1 + (s.iss.xfer.map Xfer.stall).getD 0
          prep := t.ctx.q.prep
          cold := t.ctx.q.cold
          legal := s.iss.legal
          reent := s.iss.reent.map (·.2)
          counted := false
          waitsOn := none } } } ∧
      ∀ n < 8, vget t.ctx.q.prep n = (if s.iss.reent.isSome then none else (vget s.ctx.q.prep n).map (· + 1)) ∧
        vget t.ctx.q.cold n = (s.iss.reent.isSome || vget s.ctx.q.cold n)) ∧
    (ok → part = some true → t.ctx.sch.life = .retiring ∧ t.ctx.q.pc = pc ∧ t.ctx.c = c' ∧ t.ctx.r = s.ctx.r ∧
      t.ctx.queue = s.ctx.queue ∧ t.ctx.running = s.ctx.running ∧ t.mem = s.mem ∧ t.core = s.core) ∧
    (ok → part = some false → (∀ a ∈ (s.coreAt s.me).arrivals, a.rid ≠ s.rid) → s.ctx.sch.stopAt = none →
      (∀ k ∈ s.ctx.sch.reqs, k ≠ .supplyLoss ∧ k ≠ .stop) →
      t.ctx.sch.life = .dormant ∧ t.ctx.sch.reqs = [] ∧ t.ctx.q.pc = pc ∧ t.ctx.c = c' ∧ t.ctx.r = s.ctx.r ∧
      t.ctx.queue = s.ctx.queue ∧ t.ctx.running = s.ctx.running ∧ t.mem = s.mem ∧ t.core = s.core)

/-- R17, R21, R27, R46, R113, R114, R116, R119, R126, R127, R128, R129, R131, R191, R312, R323: PRIO, DORM, EXIT, TWAIT, CUT,
the empty bundle and the end of a bundle move their context on as their rules say. -/
def Obligations.SequencerResults : Prop := WaitsAndEndsRule ∧ CutPointsRule ∧ EmptyBundlesRule ∧ BundleEndsRule

/-- R57 to R69: words of every slot class, written out from the spec's layouts, are the instructions they stand for.
decodeTableWord takes a table word for a slot as log entry 9 says. -/
def Obligations.DecodedWords : Prop :=
  decodeTableWord 32 0x000C1080 = some (.add 3 1 2) ∧
  decodeSlot .scalar false 0x7017FFFF = .ok (.op (.movi 5 0x3FFFF)) ∧
  decodeSlot .control false 0x02410000 = .ok (.op (.br 2 1)) ∧
  decodeSlot .control false 0x0A000001 = .ok (.op .lpop) ∧
  decodeSlot .vector false (0x00 * 2 ^ 56 + 1 * 2 ^ 50 + 2 * 2 ^ 44 + 3 * 2 ^ 35 + 1 * 2 ^ 32 + 4 * 2 ^ 18 + 2 * 2 ^ 14) =
    .ok (.op (.vadd { vd := 1, va := 2, qa := 0, vb := 3, qb := 1, vc := 0, qc := 0, pg := 4, t := 2, rm := 0, zm := 0, fr := 0, fx := 0 })) ∧
  decodeSlot .memory false (0x06 * 2 ^ 56 + 4 * 2 ^ 50 + 1 * 2 ^ 44 + 8) =
    .ok (.op (.ldI64 { sd := 4, sa := 1, sx := 0, sh := 0, sco := 0, off := 8 })) ∧
  decodeSlot .matrix false (0x00 * 2 ^ 88 + 7 * 2 ^ 61 + 4 * 2 ^ 50) =
    .ok (.mat .mcfg { vd := 0, va := 0, qa := 0, sd := 0, sa := 7, zt := 0, imm := 4, w := noWait }) ∧
  decodeSlot .engine false (0x13 * 2 ^ 88 + 1 * 2 ^ 24 + 9 * 2 ^ 16 + 1 * 2 ^ 8) =
    .ok (.eng .esig { sd := 0, sa := 0, sb := 0, sc := 0, fn := 0, w := { noWait with se := 1, ss := 9, si := 1 } })

/-- R57 to R69: every instruction but an event has a word; the decoder reads back every instruction in legal form from the word that
the encoder gives, with every operand; and a word that decodes is the word of the one legal instruction that it stands for. -/
def Obligations.EncodingRoundTrip : Prop :=
  (∀ i : Instr, isEvent i = false ↔ ∃ c w, encode i = some (c, w)) ∧
  (∀ (i : Instr) (c : SlotClass) (w : Nat), i.wf = true → encode i = some (c, w) →
    w < 2 ^ wordBits c ∧ ∃ y, decodeSlot c (c == .vector) w = .ok y ∧ y.toInstr = i) ∧
  ∀ (c : SlotClass) (s3 : Bool) (w : Nat) (y : Slot), w < 2 ^ wordBits c → decodeSlot c s3 w = .ok y →
    y.toInstr.wf = true ∧ encode y.toInstr = some (c, w)

/-- Memory as data: a byte reads as it was last written, and every other byte as it was. The list of cells is the model's own
form of memory (log entry 5). -/
def Obligations.MemoryReadsWrites : Prop :=
  (∀ (m : List Host.Cell) (k : Nat) (bs : List Byte),
    ∀ j, readByte (writeRun m k bs) j = if h : k ≤ j ∧ j - k < bs.length then bs[j - k]'h.2 else readByte m j) ∧
  ∀ (s : State) (k : Nat) (bs : List Byte), (s.poke k bs).peek k bs.length = bs

/-- Every step keeps memory in its canonical form, so that equal memories are equal data. The canonical form is the model's
own (log entry 5). -/
def Obligations.StepKeepsMemoryCanonical : Prop :=
  ∀ s t : State, MemoryCanonical s → step s = .next t → MemoryCanonical t

/-- No instruction and no event ends a run, but for a cycle of a core that the part does not have. -/
def Obligations.EveryRowGoesOn : Prop :=
  (∀ (i : Instr) (s : State), (∀ c, i = .issueCycle c → c.toNat < 1152) → ∃ t, exec i s = .next t) ∧
  ∀ (c : BitVec 11) (s : State), 1152 ≤ c.toNat → exec (.issueCycle c) s = .fault .noSuchCore

/-- R240, R344: what reset leaves: the reset map of every core's pool, the management registers, and no region, context,
translation or byte of memory; memory stands in its canonical form. That no byte of memory is listed rests on log entry 5. -/
def Obligations.ResetState : Prop :=
  let s := State.reset
  MemoryCanonical s ∧ s.mem = [] ∧ s.regions = [] ∧ s.ctxs = [] ∧ s.ctx.sch.life = .none ∧ s.trans = [] ∧
  s.register 0x0000 = 0 ∧ s.register 0x0010 = 0x5F69 ∧ s.register 0x0400 = 0 ∧ s.register 0x0420 = 0 ∧ s.register 0x0500 = 0 ∧
  ∀ n < 1152, (s.coreAt n).cache = [] ∧ (s.coreAt n).grants = [] ∧ ∀ j < 96, (s.coreAt n).pool.role j =
    if j < 8 then 0 else if j < 16 then 1 else if j < 64 then 2 else 3

/-- R118: CHK by its encoding, and what it does: it decides a transfer to bN where sa or pg is poisoned; nothing else happens, no
trap and no change of a poison bit, and never with s0 and p0. -/
def Obligations.CheckTransfers : Prop :=
  ∀ (s : State) (b : R3) (pg : R5) (a : R6),
    decodeSlot .control false (0x05 * 2 ^ 24 + b.toNat * 2 ^ 21 + pg.toNat * 2 ^ 16 + a.toNat * 2 ^ 10) = .ok (.op (.chk b pg a)) ∧
    Gives (.chk b pg a) s (if s.psS a = true ∨ s.psP pg = true then s.through b else s) ∧
    Gives (.chk b 0 0) s s

/-- R122: LPOP by its encoding: it pops the innermost level, with no transfer and no rotation, wherever it stands; without a level it
takes the loop-stack underflow trap; any other nonzero immediate of its opcode takes the illegal-instruction trap of S2. -/
def Obligations.LoopPop : Prop :=
  decodeSlot .control false 0x0A000001 = .ok (.op .lpop) ∧
  (∀ (s : State) (ls : List LoopLevel) (l : LoopLevel), s.ctx.q.loops = ls ++ [l] →
    Gives .lpop s { s with ctx := { s.ctx with q := { s.ctx.q with loops := ls } } }) ∧
  (∀ s : State, s.ctx.q.loops = [] → Traps .lpop s 0x0F) ∧
  ∀ (s : State) (b : Bun) (imm : Nat), 1 < imm → imm < 2 ^ 24 → s.ctx.sch.life = .resident → s.ctx.remote = none →
    s.ctx.q.trapped = none →
    (∃ e, decodeSlot .control false (0x0A * 2 ^ 24 + imm) = .error e) ∧
    s.runSlot b (2, 0x0A * 2 ^ 24 + imm) =
      .next (({ s with iss := { s.iss with slot := 2 } } : State).takeTrap { cause := 0x02, slot := 2, sres := some 2 })

/-- R25, R51, R52, R64 to R69: a word with an unassigned major opcode is no instruction, a geometry opcode outside slot 3 among
them; the words that are instructions are those that EncodingRoundTrip names, and so no word with a reserved code, or with a bit set
in a field that its instruction does not use, is one; such a word in a slot is the illegal-instruction trap of that slot, which SRES
then names, whether or not SRES suppresses it. In slot 5 the matrix engine has to be held (R20, R67), and in slot 6 the word is not
one whose registers alone are wrong, for which a poisoned register comes first (R196, log entry 105). -/
def Sys2Proof.Machine.ReservedWordsRule : Prop :=
  (∀ (c : SlotClass) (s3 : Bool) (w : Nat), w < 2 ^ wordBits c →
    (∀ r ∈ opcodeRanges c s3, w / 2 ^ (wordBits c - 8) < r.1 ∨ r.2 < w / 2 ^ (wordBits c - 8)) →
    decodeSlot c s3 w = .error .unassigned) ∧
  (∀ (c : SlotClass) (s3 : Bool) (w : Nat), w < 2 ^ wordBits c → (∀ i : Instr, i.wf = true → encode i ≠ some (c, w)) →
    ∃ e, decodeSlot c s3 w = .error e) ∧
  ∀ (s : State) (b : Bun) (n w : Nat) (e : DecodeError), s.ctx.halted = false →
    decodeSlot (slotClass n) (n == 3) w = .error e → (n = 5 → s.pre.c.mhold = true) → (n = 6 → e ≠ .form) →
    s.runSlot b (n, w) = .next (({ s with iss := { s.iss with slot := n } } : State).takeTrap { cause := 0x02, slot := n, sres := some n })

/-- R47: a bundle whose header has a one in bits 15 to 10 is the illegal-bundle trap of slot 0, and a core's cycle takes it for its
one context that may fetch. -/
def Sys2Proof.Machine.ReservedHeadersRule : Prop :=
  ∀ (s u : State) (core : BitVec 11) (id : CtxId) (h : Nat) (a : W64) (p : Nat × Bool), core.toNat < 1152 →
    s.boot.fwerr = false → s.power.retained = false →
    let s1 := (s.focusCore core.toNat).landDue
    let trap : Trap := { cause := 0x01, slot := 0, sres := none }
    s1.lodgers = [id] → s1.focus id = some u → u.mayFetch = true → u.findBundle u.ctx.q.pc = .header a h →
    u.fetchPlace a = .ok p → h < 2 ^ 16 → h / 2 ^ 10 ≠ 0 →
    u.nextBundle = .trap a trap ∧ Gives (.issueCycle core) s (((u.noteQueues.decodeTrap a trap).focusCore core.toNat).endCycle)

/-- R25, R47, R51, R52, R64 to R69: reserved header bits are the illegal-bundle trap, and words that are no instruction the
illegal-instruction trap of their slot. -/
def Obligations.ReservedHeaderTraps : Prop := ReservedHeadersRule ∧ ReservedWordsRule

/-- R240: at reset, and after a cold or a warm start with firmware that verifies, every core has the reset map. -/
def Obligations.ResetMaps : Prop :=
  (∀ n < 1152, ResetMap State.reset n) ∧
  ∀ (s : State) (r : StartReport), Verified s r →
    (∃ t, Gives (.coldStart r) s t ∧ ∀ n < 1152, ResetMap t n) ∧
    (s.boot.wreq = true → ∃ t, Gives (.warmStart r) s t ∧ ∀ n < 1152, ResetMap t n)
end

