-- ==== Sys2Proof/Laws/Memory.lean ====
section
/-!
SUPPORT. The canonical form of memory as a plain fact about lists, and that every operation on memory keeps it.
-/

namespace Sys2Proof.Machine

/-- The canonical form: keys rise, and no entry is what an unlisted byte reads as. -/
theorem wf_iff (m : List Host.Cell) :
    Memory.wf m = true ↔ m.Pairwise (fun a b => a.1 < b.1) ∧ ∀ c ∈ m, c.2 ≠ unlisted c.1 := by
  induction m with
  | nil => simp [Memory.wf]
  | cons c rest ih =>
    cases rest with
    | nil => simp [Memory.wf]
    | cons d rest =>
      simp only [Memory.wf, Bool.and_eq_true, bne_iff_ne, ne_eq, decide_eq_true_eq, ih, List.pairwise_cons,
        List.forall_mem_cons]
      constructor
      · rintro ⟨⟨h1, h2⟩, ⟨h3, h4⟩, h5, h6⟩
        exact ⟨⟨⟨h2, fun a ha => lt_trans h2 (h3 a ha)⟩, h3, h4⟩, h1, h5, h6⟩
      · rintro ⟨⟨⟨h2, -⟩, h3, h4⟩, h1, h5, h6⟩
        exact ⟨⟨h1, h2⟩, ⟨h3, h4⟩, h5, h6⟩

/-- The entries of n bytes from key k on lie from k on, below k + n. -/
theorem mem_cellsFor {k : Nat} {bs : List Byte} {c : Host.Cell} (h : c ∈ cellsFor k bs) :
    k ≤ c.1 ∧ c.1 < k + bs.length ∧ c.2 ≠ unlisted c.1 := by
  induction bs generalizing k with
  | nil => simp [cellsFor] at h
  | cons b bs ih =>
    unfold cellsFor at h
    simp only [List.length_cons]
    split at h
    · have := ih h
      exact ⟨by omega, by omega, this.2.2⟩
    · rcases List.mem_cons.1 h with rfl | h
      · exact ⟨le_refl _, by simp, by assumption⟩
      · have := ih h
        exact ⟨by omega, by omega, this.2.2⟩

theorem wf_cellsFor (k : Nat) (bs : List Byte) : Memory.wf (cellsFor k bs) = true := by
  rw [wf_iff]
  refine ⟨?_, fun c hc => (mem_cellsFor hc).2.2⟩
  induction bs generalizing k with
  | nil => simp [cellsFor]
  | cons b bs ih =>
    unfold cellsFor
    split
    · exact ih _
    · rw [List.pairwise_cons]
      exact ⟨fun c hc => (mem_cellsFor hc).1, ih _⟩

/-- A part of a canonical memory is canonical. -/
theorem wf_sublist {m l : List Host.Cell} (h : Memory.wf m = true) (hl : l.Sublist m) : Memory.wf l = true := by
  rw [wf_iff] at *
  exact ⟨h.1.sublist hl, fun c hc => h.2 c (hl.subset hc)⟩

theorem wf_filter {m : List Host.Cell} (p : Host.Cell → Bool) (h : Memory.wf m = true) : Memory.wf (m.filter p) = true :=
  wf_sublist h List.filter_sublist

/-- Where keys rise, what is left after the keys below n is at n or above. -/
theorem le_of_mem_dropWhile {m : List Host.Cell} (h : m.Pairwise fun a b => a.1 < b.1) {n : Nat} {c : Host.Cell}
    (hc : c ∈ m.dropWhile fun c => c.1 < n) : n ≤ c.1 := by
  induction m with
  | nil => simp at hc
  | cons d m ih =>
    rw [List.pairwise_cons] at h
    by_cases hd : d.1 < n
    · rw [List.dropWhile_cons_of_pos (by simpa using hd)] at hc
      exact ih h.2 hc
    · rw [List.dropWhile_cons_of_neg (by simpa using hd)] at hc
      rcases List.mem_cons.1 hc with rfl | hc
      · omega
      · have := h.1 c hc
        omega

theorem lt_of_mem_takeWhile {m : List Host.Cell} {n : Nat} {c : Host.Cell} (hc : c ∈ m.takeWhile fun c => c.1 < n) :
    c.1 < n := by
  simpa using List.mem_takeWhile_imp hc

/-- New entries between those below lo and those from hi on keep the canonical form. -/
theorem wf_splice {m cs : List Host.Cell} {lo hi : Nat} (h : Memory.wf m = true) (hc : Memory.wf cs = true)
    (hcs : ∀ c ∈ cs, lo ≤ c.1 ∧ c.1 < hi) (hle : lo ≤ hi) :
    Memory.wf ((m.takeWhile fun c => c.1 < lo) ++ cs ++ m.dropWhile fun c => c.1 < hi) = true := by
  have hd : ∀ c ∈ m.dropWhile (fun c => c.1 < hi), hi ≤ c.1 := fun c hc' => le_of_mem_dropWhile ((wf_iff m).1 h).1 hc'
  have ht := wf_sublist h (List.takeWhile_sublist fun c : Host.Cell => decide (c.1 < lo))
  have hs := wf_sublist h (List.dropWhile_sublist fun c : Host.Cell => decide (c.1 < hi))
  rw [wf_iff] at ht hs hc ⊢
  refine ⟨?_, ?_⟩
  · rw [List.pairwise_append, List.pairwise_append]
    refine ⟨⟨ht.1, hc.1, fun a ha b hb => ?_⟩, hs.1, fun a ha b hb => ?_⟩
    · have := lt_of_mem_takeWhile ha
      have := (hcs b hb).1
      omega
    · have := hd b hb
      rcases List.mem_append.1 ha with ha | ha
      · have := lt_of_mem_takeWhile ha
        omega
      · have := (hcs a ha).2
        omega
  · intro c hc'
    rcases List.mem_append.1 hc' with hc' | hc'
    · rcases List.mem_append.1 hc' with hc' | hc'
      · exact ht.2 c hc'
      · exact hc.2 c hc'
    · exact hs.2 c hc'

theorem wf_writeRun {m : List Host.Cell} (k : Nat) (bs : List Byte) (h : Memory.wf m = true) :
    Memory.wf (writeRun m k bs) = true :=
  wf_splice h (wf_cellsFor k bs) (fun _ hc => ⟨(mem_cellsFor hc).1, (mem_cellsFor hc).2.1⟩) (Nat.le_add_right _ _)

theorem wf_reset : Memory.wf State.reset.mem = true := rfl

/-! ### The operations of the machine -/

theorem poke_canonical {s : State} (k : Nat) (bs : List Byte) (h : MemoryCanonical s) : MemoryCanonical (s.poke k bs) :=
  wf_writeRun k bs h

theorem pokeLine_canonical {s : State} (k : Nat) (d : BitVec 512) (mask : BitVec 64) (h : MemoryCanonical s) :
    MemoryCanonical (s.pokeLine k d mask) := by
  unfold State.pokeLine
  split
  · exact h
  · exact wf_writeRun _ _ h

theorem unarrive_canonical {s : State} (a : Arrived) (h : MemoryCanonical s) : MemoryCanonical (s.unarrive a) :=
  wf_writeRun _ _ h

theorem pokeRuns_canonical {s : State} (rs : List Run) (bs : List Byte) (h : MemoryCanonical s) :
    MemoryCanonical (s.pokeRuns rs bs) := by
  induction rs generalizing s bs with
  | nil => exact h
  | cons r rs ih => exact ih _ (poke_canonical _ _ h)

theorem clearBank_canonical {s : State} (core j : Nat) (h : MemoryCanonical s) : MemoryCanonical (s.clearBank core j) := by
  unfold MemoryCanonical State.clearBank
  exact wf_filter _ h

/-- What an unlisted byte reads as does not depend on its key (log entry 5). -/
theorem unlisted_zero (k : Nat) : unlisted k = 0 := by
  unfold unlisted
  split <;> rfl

/-- Moving the cells of one range of n keys onto another keeps the canonical form. -/
theorem wf_moveRange {m : List Host.Cell} (la lb n : Nat) (h : Memory.wf m = true) :
    Memory.wf
      ((((m.filter fun c => !(decide (la ≤ c.1) && decide (c.1 < la + n)) &&
          !(decide (lb ≤ c.1) && decide (c.1 < lb + n))).takeWhile fun c => decide (c.1 < lb)) ++
        ((m.filter fun c => decide (la ≤ c.1) && decide (c.1 < la + n)).map fun c => (c.1 - la + lb, c.2))) ++
        ((m.filter fun c => !(decide (la ≤ c.1) && decide (c.1 < la + n)) &&
          !(decide (lb ≤ c.1) && decide (c.1 < lb + n))).dropWhile fun c => decide (c.1 < lb))) = true := by
  have hrest := wf_filter (fun c => !(decide (la ≤ c.1) && decide (c.1 < la + n)) &&
    !(decide (lb ≤ c.1) && decide (c.1 < lb + n))) h
  have hmoved := (wf_iff _).1 (wf_filter (fun c => decide (la ≤ c.1) && decide (c.1 < la + n)) h)
  have hsame : ∀ l : List Host.Cell, (∀ c ∈ l, ¬(lb ≤ c.1 ∧ c.1 < lb + n)) →
      (l.dropWhile fun c => decide (c.1 < lb)) = l.dropWhile fun c => decide (c.1 < lb + n) := by
    intro l hl
    induction l with
    | nil => rfl
    | cons d l ih =>
      have hd := hl d List.mem_cons_self
      by_cases h1 : d.1 < lb
      · rw [List.dropWhile_cons_of_pos (by simpa using h1), List.dropWhile_cons_of_pos (by simp; omega)]
        exact ih fun c hc => hl c (List.mem_cons_of_mem _ hc)
      · rw [List.dropWhile_cons_of_neg (by simpa using h1), List.dropWhile_cons_of_neg (by simp; omega)]
  rw [hsame]
  · refine wf_splice hrest ?_ ?_ (Nat.le_add_right _ _)
    · rw [wf_iff]
      refine ⟨?_, ?_⟩
      · rw [List.pairwise_map]
        refine List.Pairwise.imp_of_mem ?_ hmoved.1
        intro c d hc hd hcd
        have := (List.mem_filter.1 hc).2
        simp only [Bool.and_eq_true, decide_eq_true_eq] at this
        simp only
        omega
      · intro c hc
        obtain ⟨d, hd, rfl⟩ := List.mem_map.1 hc
        have := hmoved.2 d hd
        rw [unlisted_zero] at *
        exact this
    · intro c hc
      obtain ⟨d, hd, rfl⟩ := List.mem_map.1 hc
      have := (List.mem_filter.1 hd).2
      simp only [Bool.and_eq_true, decide_eq_true_eq] at this
      simp only
      omega
  · intro c hc
    have := (List.mem_filter.1 hc).2
    simp only [Bool.and_eq_true, Bool.not_eq_true', Bool.and_eq_false_iff, decide_eq_false_iff_not] at this
    omega

theorem moveBank_canonical {s : State} (core a b : Nat) (h : MemoryCanonical s) :
    MemoryCanonical (s.moveBank core a b) := by
  unfold MemoryCanonical State.moveBank
  exact wf_moveRange (bankLow core a) (bankLow core b) (2 ^ 15) h

theorem wf_hostCells {m : List Host.Cell} (h : Memory.wf m = true) : Memory.wf (hostCells m) = true := wf_filter _ h
theorem wf_outsidePool {m : List Host.Cell} (h : Memory.wf m = true) : Memory.wf (outsidePool m) = true := wf_filter _ h

/-- The bytes of the pool images come back into a memory that stays canonical (R353). -/
theorem imaged_canonical {s : State} (h : MemoryCanonical s) : Memory.wf s.imaged = true := by
  unfold State.imaged
  generalize hm : outsidePool s.mem = m
  have hw : Memory.wf m = true := hm ▸ wf_outsidePool h
  clear hm
  induction s.boot.imageMem generalizing m with
  | nil => exact hw
  | cons c l ih => exact ih _ (wf_writeRun _ _ hw)

end Sys2Proof.Machine
end

