-- ==== Sys2Proof/Laws/PerInstr.lean ====
section
/-!
SUPPORT. One lemma for every constructor of Instr: its encoding, where it has one, fits the slot of its class (R44).
-/

namespace Sys2Proof.Laws.Fits

/-- The encoding fits the slot of its class; an event has none. -/
def Statement (i : Instr) : Prop := ∀ c w, encode i = some (c, w) → w < 2 ^ Machine.wordBits c

theorem of_word {i : Instr} {c : SlotClass} {w : Nat} (h : encode i = some (c, w)) (hw : w < 2 ^ Machine.wordBits c) :
    Statement i := by
  intro c' w' h'
  rw [h] at h'
  cases h'
  exact hw

theorem of_none {i : Instr} (h : encode i = none) : Statement i := by
  intro c w h'
  rw [h] at h'
  cases h'

theorem waitSig_lt (w : WaitSig) : w.toWord < 2 ^ 50 := by
  unfold WaitSig.toWord
  omega

theorem vr_lt (n : Nat) (o : VR) (h : n < 256) : o.toWord n < 2 ^ 64 := by
  unfold VR.toWord
  omega

theorem vg_lt (n : Nat) (o : VG) (h : n < 256) : o.toWord n < 2 ^ 64 := by
  unfold VG.toWord
  omega

theorem fm_lt (n : Nat) (o : FM) (h : n < 256) : o.toWord n < 2 ^ 96 := by
  have := waitSig_lt o.w
  unfold FM.toWord
  omega

theorem fe_lt (n : Nat) (o : FE) (h : n < 256) : o.toWord n < 2 ^ 96 := by
  have := waitSig_lt o.w
  unfold FE.toWord
  omega

theorem ls_lt (n : Nat) (o : LS) (h : n < 256) : o.toWord n < 2 ^ 64 := by
  unfold LS.toWord
  omega

theorem lv_lt (n : Nat) (o : LV) (h : n < 256) : o.toWord n < 2 ^ 64 := by
  unfold LV.toWord
  omega

theorem lg_lt (n : Nat) (o : LG) (h : n < 256) : o.toWord n < 2 ^ 64 := by
  unfold LG.toWord
  omega

theorem la_lt (n : Nat) (o : LA) (h : n < 256) : o.toWord n < 2 ^ 64 := by
  unfold LA.toWord
  omega

theorem lx_lt (n : Nat) (o : LX) (h : n < 256) : o.toWord n < 2 ^ 64 := by
  unfold LX.toWord
  omega

theorem add (d a b : R6) : Statement (.add d a b) := of_word rfl (by simp [wordOf, Machine.wordBits]; try omega)
theorem sub (d a b : R6) : Statement (.sub d a b) := of_word rfl (by simp [wordOf, Machine.wordBits]; try omega)
theorem and (d a b : R6) : Statement (.and d a b) := of_word rfl (by simp [wordOf, Machine.wordBits]; try omega)
theorem or (d a b : R6) : Statement (.or d a b) := of_word rfl (by simp [wordOf, Machine.wordBits]; try omega)
theorem xor (d a b : R6) : Statement (.xor d a b) := of_word rfl (by simp [wordOf, Machine.wordBits]; try omega)
theorem andn (d a b : R6) : Statement (.andn d a b) := of_word rfl (by simp [wordOf, Machine.wordBits]; try omega)
theorem shl (d a b : R6) : Statement (.shl d a b) := of_word rfl (by simp [wordOf, Machine.wordBits]; try omega)
theorem shr (d a b : R6) : Statement (.shr d a b) := of_word rfl (by simp [wordOf, Machine.wordBits]; try omega)
theorem sar (d a b : R6) : Statement (.sar d a b) := of_word rfl (by simp [wordOf, Machine.wordBits]; try omega)
theorem rol (d a b : R6) : Statement (.rol d a b) := of_word rfl (by simp [wordOf, Machine.wordBits]; try omega)
theorem mul (d a b : R6) : Statement (.mul d a b) := of_word rfl (by simp [wordOf, Machine.wordBits]; try omega)
theorem mulh (d a b : R6) : Statement (.mulh d a b) := of_word rfl (by simp [wordOf, Machine.wordBits]; try omega)
theorem mulhn (d a b : R6) : Statement (.mulhn d a b) := of_word rfl (by simp [wordOf, Machine.wordBits]; try omega)
theorem div (d a b : R6) : Statement (.div d a b) := of_word rfl (by simp [wordOf, Machine.wordBits]; try omega)
theorem divn (d a b : R6) : Statement (.divn d a b) := of_word rfl (by simp [wordOf, Machine.wordBits]; try omega)
theorem rem (d a b : R6) : Statement (.rem d a b) := of_word rfl (by simp [wordOf, Machine.wordBits]; try omega)
theorem remn (d a b : R6) : Statement (.remn d a b) := of_word rfl (by simp [wordOf, Machine.wordBits]; try omega)
theorem min (d a b : R6) : Statement (.min d a b) := of_word rfl (by simp [wordOf, Machine.wordBits]; try omega)
theorem max (d a b : R6) : Statement (.max d a b) := of_word rfl (by simp [wordOf, Machine.wordBits]; try omega)
theorem minn (d a b : R6) : Statement (.minn d a b) := of_word rfl (by simp [wordOf, Machine.wordBits]; try omega)
theorem maxn (d a b : R6) : Statement (.maxn d a b) := of_word rfl (by simp [wordOf, Machine.wordBits]; try omega)
theorem clz (d a : R6) : Statement (.clz d a) := of_word rfl (by simp [wordOf, Machine.wordBits]; try omega)
theorem popc (d a : R6) : Statement (.popc d a) := of_word rfl (by simp [wordOf, Machine.wordBits]; try omega)
theorem addImm (d a : R6) (imm : BitVec 12) : Statement (.addImm d a imm) := of_word rfl (by simp [wordOf, Machine.wordBits]; try omega)
theorem subImm (d a : R6) (imm : BitVec 12) : Statement (.subImm d a imm) := of_word rfl (by simp [wordOf, Machine.wordBits]; try omega)
theorem andImm (d a : R6) (imm : BitVec 12) : Statement (.andImm d a imm) := of_word rfl (by simp [wordOf, Machine.wordBits]; try omega)
theorem orImm (d a : R6) (imm : BitVec 12) : Statement (.orImm d a imm) := of_word rfl (by simp [wordOf, Machine.wordBits]; try omega)
theorem xorImm (d a : R6) (imm : BitVec 12) : Statement (.xorImm d a imm) := of_word rfl (by simp [wordOf, Machine.wordBits]; try omega)
theorem andnImm (d a : R6) (imm : BitVec 12) : Statement (.andnImm d a imm) := of_word rfl (by simp [wordOf, Machine.wordBits]; try omega)
theorem shlImm (d a k : R6) : Statement (.shlImm d a k) := of_word rfl (by simp [wordOf, Machine.wordBits]; try omega)
theorem shrImm (d a k : R6) : Statement (.shrImm d a k) := of_word rfl (by simp [wordOf, Machine.wordBits]; try omega)
theorem sarImm (d a k : R6) : Statement (.sarImm d a k) := of_word rfl (by simp [wordOf, Machine.wordBits]; try omega)
theorem rolImm (d a k : R6) : Statement (.rolImm d a k) := of_word rfl (by simp [wordOf, Machine.wordBits]; try omega)
theorem mulImm (d a : R6) (imm : BitVec 12) : Statement (.mulImm d a imm) := of_word rfl (by simp [wordOf, Machine.wordBits]; try omega)
theorem mulhImm (d a : R6) (imm : BitVec 12) : Statement (.mulhImm d a imm) := of_word rfl (by simp [wordOf, Machine.wordBits]; try omega)
theorem mulhnImm (d a : R6) (imm : BitVec 12) : Statement (.mulhnImm d a imm) := of_word rfl (by simp [wordOf, Machine.wordBits]; try omega)
theorem divImm (d a : R6) (imm : BitVec 12) : Statement (.divImm d a imm) := of_word rfl (by simp [wordOf, Machine.wordBits]; try omega)
theorem divnImm (d a : R6) (imm : BitVec 12) : Statement (.divnImm d a imm) := of_word rfl (by simp [wordOf, Machine.wordBits]; try omega)
theorem remImm (d a : R6) (imm : BitVec 12) : Statement (.remImm d a imm) := of_word rfl (by simp [wordOf, Machine.wordBits]; try omega)
theorem remnImm (d a : R6) (imm : BitVec 12) : Statement (.remnImm d a imm) := of_word rfl (by simp [wordOf, Machine.wordBits]; try omega)
theorem minImm (d a : R6) (imm : BitVec 12) : Statement (.minImm d a imm) := of_word rfl (by simp [wordOf, Machine.wordBits]; try omega)
theorem maxImm (d a : R6) (imm : BitVec 12) : Statement (.maxImm d a imm) := of_word rfl (by simp [wordOf, Machine.wordBits]; try omega)
theorem minnImm (d a : R6) (imm : BitVec 12) : Statement (.minnImm d a imm) := of_word rfl (by simp [wordOf, Machine.wordBits]; try omega)
theorem maxnImm (d a : R6) (imm : BitVec 12) : Statement (.maxnImm d a imm) := of_word rfl (by simp [wordOf, Machine.wordBits]; try omega)
theorem cmpEq (d a b : R6) : Statement (.cmpEq d a b) := of_word rfl (by simp [wordOf, Machine.wordBits]; try omega)
theorem cmpNe (d a b : R6) : Statement (.cmpNe d a b) := of_word rfl (by simp [wordOf, Machine.wordBits]; try omega)
theorem cmpLt (d a b : R6) : Statement (.cmpLt d a b) := of_word rfl (by simp [wordOf, Machine.wordBits]; try omega)
theorem cmpGe (d a b : R6) : Statement (.cmpGe d a b) := of_word rfl (by simp [wordOf, Machine.wordBits]; try omega)
theorem cmpLtn (d a b : R6) : Statement (.cmpLtn d a b) := of_word rfl (by simp [wordOf, Machine.wordBits]; try omega)
theorem cmpGen (d a b : R6) : Statement (.cmpGen d a b) := of_word rfl (by simp [wordOf, Machine.wordBits]; try omega)
theorem cmpEqImm (d a : R6) (imm : BitVec 12) : Statement (.cmpEqImm d a imm) := of_word rfl (by simp [wordOf, Machine.wordBits]; try omega)
theorem cmpNeImm (d a : R6) (imm : BitVec 12) : Statement (.cmpNeImm d a imm) := of_word rfl (by simp [wordOf, Machine.wordBits]; try omega)
theorem cmpLtImm (d a : R6) (imm : BitVec 12) : Statement (.cmpLtImm d a imm) := of_word rfl (by simp [wordOf, Machine.wordBits]; try omega)
theorem cmpGeImm (d a : R6) (imm : BitVec 12) : Statement (.cmpGeImm d a imm) := of_word rfl (by simp [wordOf, Machine.wordBits]; try omega)
theorem cmpLtnImm (d a : R6) (imm : BitVec 12) : Statement (.cmpLtnImm d a imm) := of_word rfl (by simp [wordOf, Machine.wordBits]; try omega)
theorem cmpGenImm (d a : R6) (imm : BitVec 12) : Statement (.cmpGenImm d a imm) := of_word rfl (by simp [wordOf, Machine.wordBits]; try omega)
theorem fadd (d a b : R6) (t m : BitVec 2) : Statement (.fadd d a b t m) := of_word rfl (by simp [wordOf, Machine.wordBits]; try omega)
theorem fsub (d a b : R6) (t m : BitVec 2) : Statement (.fsub d a b t m) := of_word rfl (by simp [wordOf, Machine.wordBits]; try omega)
theorem fmul (d a b : R6) (t m : BitVec 2) : Statement (.fmul d a b t m) := of_word rfl (by simp [wordOf, Machine.wordBits]; try omega)
theorem fdiv (d a b : R6) (t m : BitVec 2) : Statement (.fdiv d a b t m) := of_word rfl (by simp [wordOf, Machine.wordBits]; try omega)
theorem fsqrt (d a : R6) (t m : BitVec 2) : Statement (.fsqrt d a t m) := of_word rfl (by simp [wordOf, Machine.wordBits]; try omega)
theorem fmin (d a b : R6) (t : BitVec 2) : Statement (.fmin d a b t) := of_word rfl (by simp [wordOf, Machine.wordBits]; try omega)
theorem fmax (d a b : R6) (t : BitVec 2) : Statement (.fmax d a b t) := of_word rfl (by simp [wordOf, Machine.wordBits]; try omega)
theorem fcmpEq (d a b : R6) (t : BitVec 2) : Statement (.fcmpEq d a b t) := of_word rfl (by simp [wordOf, Machine.wordBits]; try omega)
theorem fcmpLt (d a b : R6) (t : BitVec 2) : Statement (.fcmpLt d a b t) := of_word rfl (by simp [wordOf, Machine.wordBits]; try omega)
theorem fcmpLe (d a b : R6) (t : BitVec 2) : Statement (.fcmpLe d a b t) := of_word rfl (by simp [wordOf, Machine.wordBits]; try omega)
theorem fcmpUn (d a b : R6) (t : BitVec 2) : Statement (.fcmpUn d a b t) := of_word rfl (by simp [wordOf, Machine.wordBits]; try omega)
theorem cvtif (d a : R6) (t m : BitVec 2) (u : BitVec 1) : Statement (.cvtif d a t m u) := of_word rfl (by simp [wordOf, Machine.wordBits]; try omega)
theorem cvtfi (d a : R6) (t m : BitVec 2) (u : BitVec 1) : Statement (.cvtfi d a t m u) := of_word rfl (by simp [wordOf, Machine.wordBits]; try omega)
theorem cvtff (d a : R6) (t m u : BitVec 2) : Statement (.cvtff d a t m u) := of_word rfl (by simp [wordOf, Machine.wordBits]; try omega)
theorem fmaF64 (d a b c : R6) : Statement (.fmaF64 d a b c) := of_word rfl (by simp [wordOf, Machine.wordBits]; try omega)
theorem fmaF32 (d a b c : R6) : Statement (.fmaF32 d a b c) := of_word rfl (by simp [wordOf, Machine.wordBits]; try omega)
theorem pand (d a b : R5) : Statement (.pand d a b) := of_word rfl (by simp [wordOf, Machine.wordBits]; try omega)
theorem por (d a b : R5) : Statement (.por d a b) := of_word rfl (by simp [wordOf, Machine.wordBits]; try omega)
theorem pxor (d a b : R5) : Statement (.pxor d a b) := of_word rfl (by simp [wordOf, Machine.wordBits]; try omega)
theorem pandn (d a b : R5) : Statement (.pandn d a b) := of_word rfl (by simp [wordOf, Machine.wordBits]; try omega)
theorem pcmpEq (d : R5) (a b : R6) : Statement (.pcmpEq d a b) := of_word rfl (by simp [wordOf, Machine.wordBits]; try omega)
theorem pcmpNe (d : R5) (a b : R6) : Statement (.pcmpNe d a b) := of_word rfl (by simp [wordOf, Machine.wordBits]; try omega)
theorem pcmpLt (d : R5) (a b : R6) : Statement (.pcmpLt d a b) := of_word rfl (by simp [wordOf, Machine.wordBits]; try omega)
theorem pcmpGe (d : R5) (a b : R6) : Statement (.pcmpGe d a b) := of_word rfl (by simp [wordOf, Machine.wordBits]; try omega)
theorem pcmpLtn (d : R5) (a b : R6) : Statement (.pcmpLtn d a b) := of_word rfl (by simp [wordOf, Machine.wordBits]; try omega)
theorem pcmpGen (d : R5) (a b : R6) : Statement (.pcmpGen d a b) := of_word rfl (by simp [wordOf, Machine.wordBits]; try omega)
theorem movi (d : R6) (imm : BitVec 18) : Statement (.movi d imm) := of_word rfl (by simp [wordOf, Machine.wordBits]; try omega)
theorem movk (d : R6) (h : BitVec 2) (k : BitVec 16) : Statement (.movk d h k) := of_word rfl (by simp [wordOf, Machine.wordBits]; try omega)
theorem addpc (d : R6) (imm : BitVec 18) : Statement (.addpc d imm) := of_word rfl (by simp [wordOf, Machine.wordBits]; try omega)
theorem pbr (b : R3) (off : BitVec 21) : Statement (.pbr b off) := of_word rfl (by simp [wordOf, Machine.wordBits]; try omega)
theorem pbrr (b : R3) (a : R6) : Statement (.pbrr b a) := of_word rfl (by simp [wordOf, Machine.wordBits]; try omega)
theorem br (b : R3) (pg : R5) : Statement (.br b pg) := of_word rfl (by simp [wordOf, Machine.wordBits]; try omega)
theorem brn (b : R3) (pg : R5) : Statement (.brn b pg) := of_word rfl (by simp [wordOf, Machine.wordBits]; try omega)
theorem call (b : R3) (pg : R5) : Statement (.call b pg) := of_word rfl (by simp [wordOf, Machine.wordBits]; try omega)
theorem chk (b : R3) (pg : R5) (a : R6) : Statement (.chk b pg a) := of_word rfl (by simp [wordOf, Machine.wordBits]; try omega)
theorem loop (a : R6) (off : BitVec 18) : Statement (.loop a off) := of_word rfl (by simp [wordOf, Machine.wordBits]; try omega)
theorem loopi (n off : BitVec 12) : Statement (.loopi n off) := of_word rfl (by simp [wordOf, Machine.wordBits]; try omega)
theorem mfc (d : R6) (sel : BitVec 8) (spc : BitVec 2) : Statement (.mfc d sel spc) := of_word rfl (by simp [wordOf, Machine.wordBits]; try omega)
theorem mtc (a : R6) (sel : BitVec 8) (spc : BitVec 2) : Statement (.mtc a sel spc) := of_word rfl (by simp [wordOf, Machine.wordBits]; try omega)
theorem mtcRng (a : R6) : Statement (.mtcRng a) := of_word rfl (by simp [wordOf, Machine.wordBits]; try omega)
theorem mtcTrpb (a : R6) : Statement (.mtcTrpb a) := of_word rfl (by simp [wordOf, Machine.wordBits]; try omega)
theorem mtcTrpc (a : R6) : Statement (.mtcTrpc a) := of_word rfl (by simp [wordOf, Machine.wordBits]; try omega)
theorem mtcFpf (a : R6) : Statement (.mtcFpf a) := of_word rfl (by simp [wordOf, Machine.wordBits]; try omega)
theorem mtcFerec (a : R6) : Statement (.mtcFerec a) := of_word rfl (by simp [wordOf, Machine.wordBits]; try omega)
theorem mtcStatus (a : R6) : Statement (.mtcStatus a) := of_word rfl (by simp [wordOf, Machine.wordBits]; try omega)
theorem twait (a : R6) (sco tl : BitVec 2) (all : BitVec 1) : Statement (.twait a sco tl all) := of_word rfl (by simp [wordOf, Machine.wordBits]; try omega)
theorem barArrive (d : R6) (id : BitVec 8) (sco : BitVec 2) : Statement (.barArrive d id sco) := of_word rfl (by simp [wordOf, Machine.wordBits]; try omega)
theorem barWait (a : R6) (id : BitVec 8) (sco : BitVec 2) : Statement (.barWait a id sco) := of_word rfl (by simp [wordOf, Machine.wordBits]; try omega)
theorem cut (id : BitVec 12) : Statement (.cut id) := of_word rfl (by simp [wordOf, Machine.wordBits]; try omega)
theorem prio (c : BitVec 2) : Statement (.prio c) := of_word rfl (by simp [wordOf, Machine.wordBits]; try omega)
theorem trap (code : BitVec 16) : Statement (.trap code) := of_word rfl (by simp [wordOf, Machine.wordBits]; try omega)
theorem tret (rt p : BitVec 1) (tb ra : R3) : Statement (.tret rt p tb ra) := of_word rfl (by simp [wordOf, Machine.wordBits]; try omega)
theorem vadd (o : VR) : Statement (.vadd o) := of_word rfl (vr_lt _ o (by decide))
theorem vsub (o : VR) : Statement (.vsub o) := of_word rfl (vr_lt _ o (by decide))
theorem vadds (o : VR) : Statement (.vadds o) := of_word rfl (vr_lt _ o (by decide))
theorem vsubs (o : VR) : Statement (.vsubs o) := of_word rfl (vr_lt _ o (by decide))
theorem vmul (o : VR) : Statement (.vmul o) := of_word rfl (vr_lt _ o (by decide))
theorem vmulh (o : VR) : Statement (.vmulh o) := of_word rfl (vr_lt _ o (by decide))
theorem vmad (o : VR) : Statement (.vmad o) := of_word rfl (vr_lt _ o (by decide))
theorem vmin (o : VR) : Statement (.vmin o) := of_word rfl (vr_lt _ o (by decide))
theorem vmax (o : VR) : Statement (.vmax o) := of_word rfl (vr_lt _ o (by decide))
theorem vabs (o : VR) : Statement (.vabs o) := of_word rfl (vr_lt _ o (by decide))
theorem vneg (o : VR) : Statement (.vneg o) := of_word rfl (vr_lt _ o (by decide))
theorem vand (o : VR) : Statement (.vand o) := of_word rfl (vr_lt _ o (by decide))
theorem vor (o : VR) : Statement (.vor o) := of_word rfl (vr_lt _ o (by decide))
theorem vxor (o : VR) : Statement (.vxor o) := of_word rfl (vr_lt _ o (by decide))
theorem vandn (o : VR) : Statement (.vandn o) := of_word rfl (vr_lt _ o (by decide))
theorem vshl (o : VR) : Statement (.vshl o) := of_word rfl (vr_lt _ o (by decide))
theorem vshr (o : VR) : Statement (.vshr o) := of_word rfl (vr_lt _ o (by decide))
theorem vpopc (o : VR) : Statement (.vpopc o) := of_word rfl (vr_lt _ o (by decide))
theorem vclz (o : VR) : Statement (.vclz o) := of_word rfl (vr_lt _ o (by decide))
theorem vmov (o : VR) : Statement (.vmov o) := of_word rfl (vr_lt _ o (by decide))
theorem vaddS (o : VR) : Statement (.vaddS o) := of_word rfl (vr_lt _ o (by decide))
theorem vsubS (o : VR) : Statement (.vsubS o) := of_word rfl (vr_lt _ o (by decide))
theorem vaddsS (o : VR) : Statement (.vaddsS o) := of_word rfl (vr_lt _ o (by decide))
theorem vsubsS (o : VR) : Statement (.vsubsS o) := of_word rfl (vr_lt _ o (by decide))
theorem vmulS (o : VR) : Statement (.vmulS o) := of_word rfl (vr_lt _ o (by decide))
theorem vmulhS (o : VR) : Statement (.vmulhS o) := of_word rfl (vr_lt _ o (by decide))
theorem vmadS (o : VR) : Statement (.vmadS o) := of_word rfl (vr_lt _ o (by decide))
theorem vminS (o : VR) : Statement (.vminS o) := of_word rfl (vr_lt _ o (by decide))
theorem vmaxS (o : VR) : Statement (.vmaxS o) := of_word rfl (vr_lt _ o (by decide))
theorem vandS (o : VR) : Statement (.vandS o) := of_word rfl (vr_lt _ o (by decide))
theorem vorS (o : VR) : Statement (.vorS o) := of_word rfl (vr_lt _ o (by decide))
theorem vxorS (o : VR) : Statement (.vxorS o) := of_word rfl (vr_lt _ o (by decide))
theorem vandnS (o : VR) : Statement (.vandnS o) := of_word rfl (vr_lt _ o (by decide))
theorem vshlS (o : VR) : Statement (.vshlS o) := of_word rfl (vr_lt _ o (by decide))
theorem vshrS (o : VR) : Statement (.vshrS o) := of_word rfl (vr_lt _ o (by decide))
theorem vfadd (o : VR) : Statement (.vfadd o) := of_word rfl (vr_lt _ o (by decide))
theorem vfsub (o : VR) : Statement (.vfsub o) := of_word rfl (vr_lt _ o (by decide))
theorem vfmul (o : VR) : Statement (.vfmul o) := of_word rfl (vr_lt _ o (by decide))
theorem vfma (o : VR) : Statement (.vfma o) := of_word rfl (vr_lt _ o (by decide))
theorem vfnma (o : VR) : Statement (.vfnma o) := of_word rfl (vr_lt _ o (by decide))
theorem vfdiv (o : VR) : Statement (.vfdiv o) := of_word rfl (vr_lt _ o (by decide))
theorem vfsqrt (o : VR) : Statement (.vfsqrt o) := of_word rfl (vr_lt _ o (by decide))
theorem vfmin (o : VR) : Statement (.vfmin o) := of_word rfl (vr_lt _ o (by decide))
theorem vfmax (o : VR) : Statement (.vfmax o) := of_word rfl (vr_lt _ o (by decide))
theorem vfaddS (o : VR) : Statement (.vfaddS o) := of_word rfl (vr_lt _ o (by decide))
theorem vfsubS (o : VR) : Statement (.vfsubS o) := of_word rfl (vr_lt _ o (by decide))
theorem vfmulS (o : VR) : Statement (.vfmulS o) := of_word rfl (vr_lt _ o (by decide))
theorem vfmaS (o : VR) : Statement (.vfmaS o) := of_word rfl (vr_lt _ o (by decide))
theorem vfnmaS (o : VR) : Statement (.vfnmaS o) := of_word rfl (vr_lt _ o (by decide))
theorem vfdivS (o : VR) : Statement (.vfdivS o) := of_word rfl (vr_lt _ o (by decide))
theorem vfminS (o : VR) : Statement (.vfminS o) := of_word rfl (vr_lt _ o (by decide))
theorem vfmaxS (o : VR) : Statement (.vfmaxS o) := of_word rfl (vr_lt _ o (by decide))
theorem vfrcp (o : VR) : Statement (.vfrcp o) := of_word rfl (vr_lt _ o (by decide))
theorem vfrsq (o : VR) : Statement (.vfrsq o) := of_word rfl (vr_lt _ o (by decide))
theorem vfexp2 (o : VR) : Statement (.vfexp2 o) := of_word rfl (vr_lt _ o (by decide))
theorem vflog2 (o : VR) : Statement (.vflog2 o) := of_word rfl (vr_lt _ o (by decide))
theorem vcmp (o : VR) : Statement (.vcmp o) := of_word rfl (vr_lt _ o (by decide))
theorem vfcmp (o : VR) : Statement (.vfcmp o) := of_word rfl (vr_lt _ o (by decide))
theorem vcmpS (o : VR) : Statement (.vcmpS o) := of_word rfl (vr_lt _ o (by decide))
theorem vfcmpS (o : VR) : Statement (.vfcmpS o) := of_word rfl (vr_lt _ o (by decide))
theorem vsel (o : VR) : Statement (.vsel o) := of_word rfl (vr_lt _ o (by decide))
theorem vbcst (o : VR) : Statement (.vbcst o) := of_word rfl (vr_lt _ o (by decide))
theorem vcvt (o : VR) : Statement (.vcvt o) := of_word rfl (vr_lt _ o (by decide))
theorem vqnt (o : VR) : Statement (.vqnt o) := of_word rfl (vr_lt _ o (by decide))
theorem vqntScale (o : VR) : Statement (.vqntScale o) := of_word rfl (vr_lt _ o (by decide))
theorem vdqnt (o : VR) : Statement (.vdqnt o) := of_word rfl (vr_lt _ o (by decide))
theorem vxch (o : VR) : Statement (.vxch o) := of_word rfl (vr_lt _ o (by decide))
theorem vperm (o : VR) : Statement (.vperm o) := of_word rfl (vr_lt _ o (by decide))
theorem vcomp (o : VR) : Statement (.vcomp o) := of_word rfl (vr_lt _ o (by decide))
theorem vexp (o : VR) : Statement (.vexp o) := of_word rfl (vr_lt _ o (by decide))
theorem vsld (o : VR) : Statement (.vsld o) := of_word rfl (vr_lt _ o (by decide))
theorem vrsum (o : VR) : Statement (.vrsum o) := of_word rfl (vr_lt _ o (by decide))
theorem vrmax (o : VR) : Statement (.vrmax o) := of_word rfl (vr_lt _ o (by decide))
theorem vrmin (o : VR) : Statement (.vrmin o) := of_word rfl (vr_lt _ o (by decide))
theorem vrfsum (o : VR) : Statement (.vrfsum o) := of_word rfl (vr_lt _ o (by decide))
theorem vrfmax (o : VR) : Statement (.vrfmax o) := of_word rfl (vr_lt _ o (by decide))
theorem gset (o : VR) : Statement (.gset o) := of_word rfl (vr_lt _ o (by decide))
theorem gidx (o : VR) : Statement (.gidx o) := of_word rfl (vr_lt _ o (by decide))
theorem gor2 (o : VG) : Statement (.gor2 o) := of_word rfl (vg_lt _ o (by decide))
theorem gor3 (o : VG) : Statement (.gor3 o) := of_word rfl (vg_lt _ o (by decide))
theorem ginc (o : VG) : Statement (.ginc o) := of_word rfl (vg_lt _ o (by decide))
theorem gins (o : VG) : Statement (.gins o) := of_word rfl (vg_lt _ o (by decide))
theorem gseg (o : VG) : Statement (.gseg o) := of_word rfl (vg_lt _ o (by decide))
theorem ldI8 (o : LS) : Statement (.ldI8 o) := of_word rfl (ls_lt _ o (by decide))
theorem ldN8 (o : LS) : Statement (.ldN8 o) := of_word rfl (ls_lt _ o (by decide))
theorem ldI16 (o : LS) : Statement (.ldI16 o) := of_word rfl (ls_lt _ o (by decide))
theorem ldN16 (o : LS) : Statement (.ldN16 o) := of_word rfl (ls_lt _ o (by decide))
theorem ldI32 (o : LS) : Statement (.ldI32 o) := of_word rfl (ls_lt _ o (by decide))
theorem ldN32 (o : LS) : Statement (.ldN32 o) := of_word rfl (ls_lt _ o (by decide))
theorem ldI64 (o : LS) : Statement (.ldI64 o) := of_word rfl (ls_lt _ o (by decide))
theorem stN8 (o : LS) : Statement (.stN8 o) := of_word rfl (ls_lt _ o (by decide))
theorem stN16 (o : LS) : Statement (.stN16 o) := of_word rfl (ls_lt _ o (by decide))
theorem stN32 (o : LS) : Statement (.stN32 o) := of_word rfl (ls_lt _ o (by decide))
theorem stN64 (o : LS) : Statement (.stN64 o) := of_word rfl (ls_lt _ o (by decide))
theorem ldsI32 (o : LS) : Statement (.ldsI32 o) := of_word rfl (ls_lt _ o (by decide))
theorem ldsN32 (o : LS) : Statement (.ldsN32 o) := of_word rfl (ls_lt _ o (by decide))
theorem ldsI64 (o : LS) : Statement (.ldsI64 o) := of_word rfl (ls_lt _ o (by decide))
theorem ldaN32 (o : LS) : Statement (.ldaN32 o) := of_word rfl (ls_lt _ o (by decide))
theorem ldaI64 (o : LS) : Statement (.ldaI64 o) := of_word rfl (ls_lt _ o (by decide))
theorem stlN32 (o : LS) : Statement (.stlN32 o) := of_word rfl (ls_lt _ o (by decide))
theorem stlN64 (o : LS) : Statement (.stlN64 o) := of_word rfl (ls_lt _ o (by decide))
theorem aadd (o : LA) : Statement (.aadd o) := of_word rfl (la_lt _ o (by decide))
theorem aand (o : LA) : Statement (.aand o) := of_word rfl (la_lt _ o (by decide))
theorem aor (o : LA) : Statement (.aor o) := of_word rfl (la_lt _ o (by decide))
theorem axor (o : LA) : Statement (.axor o) := of_word rfl (la_lt _ o (by decide))
theorem amin (o : LA) : Statement (.amin o) := of_word rfl (la_lt _ o (by decide))
theorem amax (o : LA) : Statement (.amax o) := of_word rfl (la_lt _ o (by decide))
theorem aswp (o : LA) : Statement (.aswp o) := of_word rfl (la_lt _ o (by decide))
theorem acas (o : LA) : Statement (.acas o) := of_word rfl (la_lt _ o (by decide))
theorem vld (o : LV) : Statement (.vld o) := of_word rfl (lv_lt _ o (by decide))
theorem vst (o : LV) : Statement (.vst o) := of_word rfl (lv_lt _ o (by decide))
theorem vlds (o : LV) : Statement (.vlds o) := of_word rfl (lv_lt _ o (by decide))
theorem vsts (o : LV) : Statement (.vsts o) := of_word rfl (lv_lt _ o (by decide))
theorem vgth (o : LG) : Statement (.vgth o) := of_word rfl (lg_lt _ o (by decide))
theorem vsct (o : LG) : Statement (.vsct o) := of_word rfl (lg_lt _ o (by decide))
theorem pld (o : LV) : Statement (.pld o) := of_word rfl (lv_lt _ o (by decide))
theorem pst (o : LV) : Statement (.pst o) := of_word rfl (lv_lt _ o (by decide))
theorem drain (o : LS) : Statement (.drain o) := of_word rfl (ls_lt _ o (by decide))
theorem clwb (o : LS) : Statement (.clwb o) := of_word rfl (ls_lt _ o (by decide))
theorem clinv (o : LS) : Statement (.clinv o) := of_word rfl (ls_lt _ o (by decide))
theorem clfl (o : LS) : Statement (.clfl o) := of_word rfl (ls_lt _ o (by decide))
theorem waita (o : LS) : Statement (.waita o) := of_word rfl (ls_lt _ o (by decide))
theorem sown (o : LX) : Statement (.sown o) := of_word rfl (lx_lt _ o (by decide))
theorem srel (o : LX) : Statement (.srel o) := of_word rfl (lx_lt _ o (by decide))
theorem sact (o : LX) : Statement (.sact o) := of_word rfl (lx_lt _ o (by decide))
theorem spre (o : LX) : Statement (.spre o) := of_word rfl (lx_lt _ o (by decide))
theorem spreAll (o : LX) : Statement (.spreAll o) := of_word rfl (lx_lt _ o (by decide))
theorem sref (o : LX) : Statement (.sref o) := of_word rfl (lx_lt _ o (by decide))
theorem sldx (o : LX) : Statement (.sldx o) := of_word rfl (lx_lt _ o (by decide))
theorem sstx (o : LX) : Statement (.sstx o) := of_word rfl (lx_lt _ o (by decide))
theorem issueCycle (core : BitVec 11) : Statement (.issueCycle core) := of_none rfl
theorem waitaWake (c : CtxId) : Statement (.waitaWake c) := of_none rfl
theorem acknowledgment (seq : Nat) (ans : Answer) : Statement (.acknowledgment seq ans) := of_none rfl
theorem hostDoorbell (tail : W32) : Statement (.hostDoorbell tail) := of_none rfl
theorem loadDataReturn (c : CtxId) (seq : Nat) (ans : Answer) : Statement (.loadDataReturn c seq ans) := of_none rfl
theorem performAtHome (core : BitVec 11) (k : Nat) : Statement (.performAtHome core k) := of_none rfl
theorem mcfg (o : FM) : Statement (.mcfg o) := of_word rfl (fm_lt _ o (by decide))
theorem mfmt (o : FM) : Statement (.mfmt o) := of_word rfl (fm_lt _ o (by decide))
theorem mgoFix (o : FM) : Statement (.mgoFix o) := of_word rfl (fm_lt _ o (by decide))
theorem mgoLoop (o : FM) : Statement (.mgoLoop o) := of_word rfl (fm_lt _ o (by decide))
theorem mldw (o : FM) : Statement (.mldw o) := of_word rfl (fm_lt _ o (by decide))
theorem mrdz (o : FM) : Statement (.mrdz o) := of_word rfl (fm_lt _ o (by decide))
theorem mrdb (o : FM) : Statement (.mrdb o) := of_word rfl (fm_lt _ o (by decide))
theorem mcal (o : FM) : Statement (.mcal o) := of_word rfl (fm_lt _ o (by decide))
theorem mzclr (o : FM) : Statement (.mzclr o) := of_word rfl (fm_lt _ o (by decide))
theorem mav (o : FM) : Statement (.mav o) := of_word rfl (fm_lt _ o (by decide))
theorem msig (o : FM) : Statement (.msig o) := of_word rfl (fm_lt _ o (by decide))
theorem cpy (o : FE) : Statement (.cpy o) := of_word rfl (fe_lt _ o (by decide))
theorem cpy2 (o : FE) : Statement (.cpy2 o) := of_word rfl (fe_lt _ o (by decide))
theorem cpy3 (o : FE) : Statement (.cpy3 o) := of_word rfl (fe_lt _ o (by decide))
theorem cpyxScale (o : FE) : Statement (.cpyxScale o) := of_word rfl (fe_lt _ o (by decide))
theorem cpyxAdd (o : FE) : Statement (.cpyxAdd o) := of_word rfl (fe_lt _ o (by decide))
theorem cpyxCast (o : FE) : Statement (.cpyxCast o) := of_word rfl (fe_lt _ o (by decide))
theorem cpyxRadd (o : FE) : Statement (.cpyxRadd o) := of_word rfl (fe_lt _ o (by decide))
theorem cpyxRmax (o : FE) : Statement (.cpyxRmax o) := of_word rfl (fe_lt _ o (by decide))
theorem cpyh (o : FE) : Statement (.cpyh o) := of_word rfl (fe_lt _ o (by decide))
theorem fcpy (o : FE) : Statement (.fcpy o) := of_word rfl (fe_lt _ o (by decide))
theorem mxredStart (o : FE) : Statement (.mxredStart o) := of_word rfl (fe_lt _ o (by decide))
theorem mxredRelay (o : FE) : Statement (.mxredRelay o) := of_word rfl (fe_lt _ o (by decide))
theorem mxredFinish (o : FE) : Statement (.mxredFinish o) := of_word rfl (fe_lt _ o (by decide))
theorem rsig (o : FE) : Statement (.rsig o) := of_word rfl (fe_lt _ o (by decide))
theorem esig (o : FE) : Statement (.esig o) := of_word rfl (fe_lt _ o (by decide))
theorem pmap (o : FE) : Statement (.pmap o) := of_word rfl (fe_lt _ o (by decide))
theorem pmq (o : FE) : Statement (.pmq o) := of_word rfl (fe_lt _ o (by decide))
theorem launch (o : FE) : Statement (.launch o) := of_word rfl (fe_lt _ o (by decide))
theorem emptyBundle (ib mi : Bool) : Statement (.emptyBundle ib mi) := of_none rfl
theorem vectorResultLand (c : CtxId) : Statement (.vectorResultLand c) := of_none rfl
theorem geometryComplete (c : CtxId) : Statement (.geometryComplete c) := of_none rfl
theorem waitaTimeout (c : CtxId) : Statement (.waitaTimeout c) := of_none rfl
theorem sownComplete (core : BitVec 11) (ch : BitVec 3) : Statement (.sownComplete core ch) := of_none rfl
theorem srelComplete (core : BitVec 11) (ch : BitVec 3) : Statement (.srelComplete core ch) := of_none rfl
theorem guardRefresh (core : BitVec 11) (ch : BitVec 3) : Statement (.guardRefresh core ch) := of_none rfl
theorem remoteStoreFault (c : CtxId) (ba : W64) (addr : W64) : Statement (.remoteStoreFault c ba addr) := of_none rfl
theorem matrixEntryStart (c : CtxId) : Statement (.matrixEntryStart c) := of_none rfl
theorem tileOperation (c : CtxId) (num : W64) : Statement (.tileOperation c num) := of_none rfl
theorem nestComplete (c : CtxId) (num : W64) : Statement (.nestComplete c num) := of_none rfl
theorem mldwComplete (c : CtxId) (num : W64) : Statement (.mldwComplete c num) := of_none rfl
theorem mcalComplete (c : CtxId) (num : W64) : Statement (.mcalComplete c num) := of_none rfl
theorem engineQueueRelease (c : CtxId) : Statement (.engineQueueRelease c) := of_none rfl
theorem engineOpComplete (c : CtxId) (tl : BitVec 2) (num : W64) : Statement (.engineOpComplete c tl num) := of_none rfl
theorem engineOpFailure (c : CtxId) (tl : BitVec 2) (num : W64) (why : EngineFault) (done : Nat) : Statement (.engineOpFailure c tl num why done) := of_none rfl
theorem pageFaultReplay (c : CtxId) (tl : BitVec 2) (num : W64) : Statement (.pageFaultReplay c tl num) := of_none rfl
theorem arrivalDelivery (core : BitVec 11) (k : Nat) : Statement (.arrivalDelivery core k) := of_none rfl
theorem poolChangeComplete (core : BitVec 11) : Statement (.poolChangeComplete core) := of_none rfl
theorem cacheEviction (core : BitVec 11) (line : Nat) : Statement (.cacheEviction core line) := of_none rfl
theorem hostSnoop (core : BitVec 11) (line : HostAccess) : Statement (.hostSnoop core line) := of_none rfl
theorem patrolScrub (core : BitVec 11) (ch : BitVec 3) (unit : BitVec 23) : Statement (.patrolScrub core ch unit) := of_none rfl
theorem seamChannelFailMark (core : BitVec 11) (ch : BitVec 3) : Statement (.seamChannelFailMark core ch) := of_none rfl
theorem trapEntry (c : CtxId) : Statement (.trapEntry c) := of_none rfl
theorem pendingRecordWrite (c : CtxId) : Statement (.pendingRecordWrite c) := of_none rfl
theorem dispRetry (c : CtxId) : Statement (.dispRetry c) := of_none rfl
theorem dispDivert (c : CtxId) : Statement (.dispDivert c) := of_none rfl
theorem dispEnd (c : CtxId) : Statement (.dispEnd c) := of_none rfl
theorem preemptionRequest (c : CtxId) (kind : ReqKind) : Statement (.preemptionRequest c kind) := of_none rfl
theorem preemptionLand (c : CtxId) : Statement (.preemptionLand c) := of_none rfl
theorem saveComplete (c : CtxId) : Statement (.saveComplete c) := of_none rfl
theorem saveAbandoned (c : CtxId) (why : SaveFault) : Statement (.saveAbandoned c why) := of_none rfl
theorem placement (c : CtxId) : Statement (.placement c) := of_none rfl
theorem migrationDecision (c : CtxId) : Statement (.migrationDecision c) := of_none rfl
theorem classPreemptRequest (c : CtxId) : Statement (.classPreemptRequest c) := of_none rfl
theorem temperatureRefresh (cluster : BitVec 5) (temps : List (BitVec 8)) : Statement (.temperatureRefresh cluster temps) := of_none rfl
theorem contextRetire (c : CtxId) : Statement (.contextRetire c) := of_none rfl
theorem launchDecision (c : CtxId) : Statement (.launchDecision c) := of_none rfl
theorem regionStart (rid : BitVec 32) : Statement (.regionStart rid) := of_none rfl
theorem regionConditionEval (rid : BitVec 32) : Statement (.regionConditionEval rid) := of_none rfl
theorem regionComplete (rid : BitVec 32) : Statement (.regionComplete rid) := of_none rfl
theorem regionBlockUpdate (rid : BitVec 32) (energy : EnergyBill) : Statement (.regionBlockUpdate rid energy) := of_none rfl
theorem remoteStorePacket (src : BitVec 12) (seq : Nat) (addr : W64) (data : BitVec 512) (mask : BitVec 64) : Statement (.remoteStorePacket src seq addr data mask) := of_none rfl
theorem remoteAtomicPacket (src : BitVec 12) (seq : Nat) (op : BitVec 3) (w : BitVec 1) (addr : W64) (b c : W64) : Statement (.remoteAtomicPacket src seq op w addr b c) := of_none rfl
theorem remoteSignalPacket (src : BitVec 12) (seq : Nat) (addr : W64) (addend : W64) : Statement (.remoteSignalPacket src seq addr addend) := of_none rfl
theorem copyDataPacket (src : BitVec 12) (seq : Nat) (write : Bool) (addr : W64) (data : List Byte) (len : Nat) : Statement (.copyDataPacket src seq write addr data len) := of_none rfl
theorem mxReducePacket (src : BitVec 12) (seq : Nat) (addr : W64) (data : List Byte) : Statement (.mxReducePacket src seq addr data) := of_none rfl
theorem packetForward (dst : BitVec 12) (body : Forwarded) : Statement (.packetForward dst body) := of_none rfl
theorem flitReplay (port : BitVec 5) : Statement (.flitReplay port) := of_none rfl
theorem lanePause (port : BitVec 5) (lane : BitVec 2) : Statement (.lanePause port lane) := of_none rfl
theorem laneResume (port : BitVec 5) (lane : BitVec 2) : Statement (.laneResume port lane) := of_none rfl
theorem linkRetrain (port : BitVec 5) : Statement (.linkRetrain port) := of_none rfl
theorem retrainAttemptFail (port : BitVec 5) : Statement (.retrainAttemptFail port) := of_none rfl
theorem linkUp (port : BitVec 5) : Statement (.linkUp port) := of_none rfl
theorem linkDown (port : BitVec 5) : Statement (.linkDown port) := of_none rfl
theorem routeFailure (seq : Nat) : Statement (.routeFailure seq) := of_none rfl
theorem portEnable (port : BitVec 5) : Statement (.portEnable port) := of_none rfl
theorem portDisable (port : BitVec 5) : Statement (.portDisable port) := of_none rfl
theorem eventQueueDrain (head : W32) : Statement (.eventQueueDrain head) := of_none rfl
theorem hcqbWrite (v : W64) : Statement (.hcqbWrite v) := of_none rfl
theorem evqbWrite (v : W64) : Statement (.evqbWrite v) := of_none rfl
theorem devidWrite (v : W64) : Statement (.devidWrite v) := of_none rfl
theorem thermWrite (v : W64) : Statement (.thermWrite v) := of_none rfl
theorem preqWrite (v : W64) : Statement (.preqWrite v) := of_none rfl
theorem tlbInvalidatePage (va : W64) (rid : BitVec 32) : Statement (.tlbInvalidatePage va rid) := of_none rfl
theorem tlbInvalidateRegion (rid : BitVec 32) : Statement (.tlbInvalidateRegion rid) := of_none rfl
theorem atsInvalidation (pasid : BitVec 20) (addr : W64) (size : Nat) : Statement (.atsInvalidation pasid addr size) := of_none rfl
theorem pgrantWrite (v : W64) : Statement (.pgrantWrite v) := of_none rfl
theorem tctlWrite (v : W64) : Statement (.tctlWrite v) := of_none rfl
theorem tsetWrite (v : W64) : Statement (.tsetWrite v) := of_none rfl
theorem ptpExchange (offset : Int) : Statement (.ptpExchange offset) := of_none rfl
theorem registerWrite (off : BitVec 24) (size : Nat) (v : W64) : Statement (.registerWrite off size v) := of_none rfl
theorem warmResume (r : StartReport) : Statement (.warmResume r) := of_none rfl
theorem coldStart (r : StartReport) : Statement (.coldStart r) := of_none rfl
theorem warmStart (r : StartReport) : Statement (.warmStart r) := of_none rfl
theorem shockLatch (milliG : Nat) : Statement (.shockLatch milliG) := of_none rfl
theorem challenge (nonce : BitVec 256) : Statement (.challenge nonce) := of_none rfl
theorem getMeasurements (idx : Nat) : Statement (.getMeasurements idx) := of_none rfl
theorem sourceReadsFinished (c : CtxId) (tl : BitVec 2) (num : W64) : Statement (.sourceReadsFinished c tl num) := of_none rfl
theorem hostLinkChange (up : Option Bool) (report : Option LinkReport) : Statement (.hostLinkChange up report) := of_none rfl
theorem blc : Statement .blc := of_word rfl (by simp [wordOf, Machine.wordBits]; try omega)
theorem lpop : Statement .lpop := of_word rfl (by simp [wordOf, Machine.wordBits]; try omega)
theorem dorm : Statement .dorm := of_word rfl (by simp [wordOf, Machine.wordBits]; try omega)
theorem exit : Statement .exit := of_word rfl (by simp [wordOf, Machine.wordBits]; try omega)
theorem hostCmdLaunch : Statement .hostCmdLaunch := of_none rfl
theorem hostCmdStop : Statement .hostCmdStop := of_none rfl
theorem hostCmdNop : Statement .hostCmdNop := of_none rfl
theorem tlbInvalidateAll : Statement .tlbInvalidateAll := of_none rfl
theorem invalidationComplete : Statement .invalidationComplete := of_none rfl
theorem transportRequest : Statement .transportRequest := of_none rfl
theorem warmStartRequest : Statement .warmStartRequest := of_none rfl
theorem droopOnset : Statement .droopOnset := of_none rfl
theorem droopEnd : Statement .droopEnd := of_none rfl
theorem supplyLoss : Statement .supplyLoss := of_none rfl
theorem poolImageRetention : Statement .poolImageRetention := of_none rfl
theorem idleEntry : Statement .idleEntry := of_none rfl
theorem idleExit : Statement .idleExit := of_none rfl
theorem getVersion : Statement .getVersion := of_none rfl
theorem getCapabilities : Statement .getCapabilities := of_none rfl
theorem negotiateAlgorithms : Statement .negotiateAlgorithms := of_none rfl
theorem getDigests : Statement .getDigests := of_none rfl
theorem getCertificate : Statement .getCertificate := of_none rfl

end Sys2Proof.Laws.Fits
end

