-- ==== Sys2Proof/Laws/State.lean ====
section
/-!
SUPPORT. One lemma per field and update of the state, each true by computation, so that no proof unfolds a record update.
-/

namespace Sys2Proof.Machine

/-! ### modCtx -/

@[simp] theorem modCtx_ctxs (s : State) (f : Ctx → Ctx) : (s.modCtx f).ctxs = s.ctxs := rfl
@[simp] theorem modCtx_pre (s : State) (f : Ctx → Ctx) : (s.modCtx f).pre = s.pre := rfl
@[simp] theorem modCtx_iss (s : State) (f : Ctx → Ctx) : (s.modCtx f).iss = s.iss := rfl
@[simp] theorem modCtx_core (s : State) (f : Ctx → Ctx) : (s.modCtx f).core = s.core := rfl
@[simp] theorem modCtx_cores (s : State) (f : Ctx → Ctx) : (s.modCtx f).cores = s.cores := rfl
@[simp] theorem modCtx_regions (s : State) (f : Ctx → Ctx) : (s.modCtx f).regions = s.regions := rfl
@[simp] theorem modCtx_nextRid (s : State) (f : Ctx → Ctx) : (s.modCtx f).nextRid = s.nextRid := rfl
@[simp] theorem modCtx_mem (s : State) (f : Ctx → Ctx) : (s.modCtx f).mem = s.mem := rfl
@[simp] theorem modCtx_bad (s : State) (f : Ctx → Ctx) : (s.modCtx f).bad = s.bad := rfl
@[simp] theorem modCtx_lineRecs (s : State) (f : Ctx → Ctx) : (s.modCtx f).lineRecs = s.lineRecs := rfl
@[simp] theorem modCtx_disps (s : State) (f : Ctx → Ctx) : (s.modCtx f).disps = s.disps := rfl
@[simp] theorem modCtx_barRecs (s : State) (f : Ctx → Ctx) : (s.modCtx f).barRecs = s.barRecs := rfl
@[simp] theorem modCtx_trans (s : State) (f : Ctx → Ctx) : (s.modCtx f).trans = s.trans := rfl
@[simp] theorem modCtx_time (s : State) (f : Ctx → Ctx) : (s.modCtx f).time = s.time := rfl
@[simp] theorem modCtx_power (s : State) (f : Ctx → Ctx) : (s.modCtx f).power = s.power := rfl
@[simp] theorem modCtx_mgmt (s : State) (f : Ctx → Ctx) : (s.modCtx f).mgmt = s.mgmt := rfl
@[simp] theorem modCtx_fab (s : State) (f : Ctx → Ctx) : (s.modCtx f).fab = s.fab := rfl
@[simp] theorem modCtx_boot (s : State) (f : Ctx → Ctx) : (s.modCtx f).boot = s.boot := rfl
@[simp] theorem modCtx_hot (s : State) (f : Ctx → Ctx) : (s.modCtx f).hot = s.hot := rfl
@[simp] theorem modCtx_temps (s : State) (f : Ctx → Ctx) : (s.modCtx f).temps = s.temps := rfl
@[simp] theorem modCtx_agenda (s : State) (f : Ctx → Ctx) : (s.modCtx f).agenda = s.agenda := rfl
@[simp] theorem modCtx_nfree (s : State) (f : Ctx → Ctx) : (s.modCtx f).nfree = s.nfree := rfl
@[simp] theorem modCtx_ctx (s : State) (f : Ctx → Ctx) : (s.modCtx f).ctx = f s.ctx := rfl

/-! ### modRegs -/

@[simp] theorem modRegs_ctxs (s : State) (f : Regs → Regs) : (s.modRegs f).ctxs = s.ctxs := rfl
@[simp] theorem modRegs_pre (s : State) (f : Regs → Regs) : (s.modRegs f).pre = s.pre := rfl
@[simp] theorem modRegs_iss (s : State) (f : Regs → Regs) : (s.modRegs f).iss = s.iss := rfl
@[simp] theorem modRegs_core (s : State) (f : Regs → Regs) : (s.modRegs f).core = s.core := rfl
@[simp] theorem modRegs_cores (s : State) (f : Regs → Regs) : (s.modRegs f).cores = s.cores := rfl
@[simp] theorem modRegs_regions (s : State) (f : Regs → Regs) : (s.modRegs f).regions = s.regions := rfl
@[simp] theorem modRegs_nextRid (s : State) (f : Regs → Regs) : (s.modRegs f).nextRid = s.nextRid := rfl
@[simp] theorem modRegs_mem (s : State) (f : Regs → Regs) : (s.modRegs f).mem = s.mem := rfl
@[simp] theorem modRegs_bad (s : State) (f : Regs → Regs) : (s.modRegs f).bad = s.bad := rfl
@[simp] theorem modRegs_lineRecs (s : State) (f : Regs → Regs) : (s.modRegs f).lineRecs = s.lineRecs := rfl
@[simp] theorem modRegs_disps (s : State) (f : Regs → Regs) : (s.modRegs f).disps = s.disps := rfl
@[simp] theorem modRegs_barRecs (s : State) (f : Regs → Regs) : (s.modRegs f).barRecs = s.barRecs := rfl
@[simp] theorem modRegs_trans (s : State) (f : Regs → Regs) : (s.modRegs f).trans = s.trans := rfl
@[simp] theorem modRegs_time (s : State) (f : Regs → Regs) : (s.modRegs f).time = s.time := rfl
@[simp] theorem modRegs_power (s : State) (f : Regs → Regs) : (s.modRegs f).power = s.power := rfl
@[simp] theorem modRegs_mgmt (s : State) (f : Regs → Regs) : (s.modRegs f).mgmt = s.mgmt := rfl
@[simp] theorem modRegs_fab (s : State) (f : Regs → Regs) : (s.modRegs f).fab = s.fab := rfl
@[simp] theorem modRegs_boot (s : State) (f : Regs → Regs) : (s.modRegs f).boot = s.boot := rfl
@[simp] theorem modRegs_hot (s : State) (f : Regs → Regs) : (s.modRegs f).hot = s.hot := rfl
@[simp] theorem modRegs_temps (s : State) (f : Regs → Regs) : (s.modRegs f).temps = s.temps := rfl
@[simp] theorem modRegs_agenda (s : State) (f : Regs → Regs) : (s.modRegs f).agenda = s.agenda := rfl
@[simp] theorem modRegs_nfree (s : State) (f : Regs → Regs) : (s.modRegs f).nfree = s.nfree := rfl
@[simp] theorem modRegs_ctx_id (s : State) (f : Regs → Regs) : (s.modRegs f).ctx.id = s.ctx.id := rfl
@[simp] theorem modRegs_ctx_core (s : State) (f : Regs → Regs) : (s.modRegs f).ctx.core = s.ctx.core := rfl
@[simp] theorem modRegs_ctx_bank (s : State) (f : Regs → Regs) : (s.modRegs f).ctx.bank = s.ctx.bank := rfl
@[simp] theorem modRegs_ctx_c (s : State) (f : Regs → Regs) : (s.modRegs f).ctx.c = s.ctx.c := rfl
@[simp] theorem modRegs_ctx_q (s : State) (f : Regs → Regs) : (s.modRegs f).ctx.q = s.ctx.q := rfl
@[simp] theorem modRegs_ctx_es (s : State) (f : Regs → Regs) : (s.modRegs f).ctx.es = s.ctx.es := rfl
@[simp] theorem modRegs_ctx_tlc (s : State) (f : Regs → Regs) : (s.modRegs f).ctx.tlc = s.ctx.tlc := rfl
@[simp] theorem modRegs_ctx_tlm (s : State) (f : Regs → Regs) : (s.modRegs f).ctx.tlm = s.ctx.tlm := rfl
@[simp] theorem modRegs_ctx_tlf (s : State) (f : Regs → Regs) : (s.modRegs f).ctx.tlf = s.ctx.tlf := rfl
@[simp] theorem modRegs_ctx_mx (s : State) (f : Regs → Regs) : (s.modRegs f).ctx.mx = s.ctx.mx := rfl
@[simp] theorem modRegs_ctx_queue (s : State) (f : Regs → Regs) : (s.modRegs f).ctx.queue = s.ctx.queue := rfl
@[simp] theorem modRegs_ctx_running (s : State) (f : Regs → Regs) : (s.modRegs f).ctx.running = s.ctx.running := rfl
@[simp] theorem modRegs_ctx_board (s : State) (f : Regs → Regs) : (s.modRegs f).ctx.board = s.ctx.board := rfl
@[simp] theorem modRegs_ctx_events (s : State) (f : Regs → Regs) : (s.modRegs f).ctx.events = s.ctx.events := rfl
@[simp] theorem modRegs_ctx_watch (s : State) (f : Regs → Regs) : (s.modRegs f).ctx.watch = s.ctx.watch := rfl
@[simp] theorem modRegs_ctx_remote (s : State) (f : Regs → Regs) : (s.modRegs f).ctx.remote = s.ctx.remote := rfl
@[simp] theorem modRegs_ctx_launches (s : State) (f : Regs → Regs) : (s.modRegs f).ctx.launches = s.ctx.launches := rfl
@[simp] theorem modRegs_ctx_sch (s : State) (f : Regs → Regs) : (s.modRegs f).ctx.sch = s.ctx.sch := rfl
@[simp] theorem modRegs_ctx_r (s : State) (f : Regs → Regs) : (s.modRegs f).ctx.r = f s.ctx.r := rfl

/-! ### modCtl -/

@[simp] theorem modCtl_ctxs (s : State) (f : Ctl → Ctl) : (s.modCtl f).ctxs = s.ctxs := rfl
@[simp] theorem modCtl_pre (s : State) (f : Ctl → Ctl) : (s.modCtl f).pre = s.pre := rfl
@[simp] theorem modCtl_iss (s : State) (f : Ctl → Ctl) : (s.modCtl f).iss = s.iss := rfl
@[simp] theorem modCtl_core (s : State) (f : Ctl → Ctl) : (s.modCtl f).core = s.core := rfl
@[simp] theorem modCtl_cores (s : State) (f : Ctl → Ctl) : (s.modCtl f).cores = s.cores := rfl
@[simp] theorem modCtl_regions (s : State) (f : Ctl → Ctl) : (s.modCtl f).regions = s.regions := rfl
@[simp] theorem modCtl_nextRid (s : State) (f : Ctl → Ctl) : (s.modCtl f).nextRid = s.nextRid := rfl
@[simp] theorem modCtl_mem (s : State) (f : Ctl → Ctl) : (s.modCtl f).mem = s.mem := rfl
@[simp] theorem modCtl_bad (s : State) (f : Ctl → Ctl) : (s.modCtl f).bad = s.bad := rfl
@[simp] theorem modCtl_lineRecs (s : State) (f : Ctl → Ctl) : (s.modCtl f).lineRecs = s.lineRecs := rfl
@[simp] theorem modCtl_disps (s : State) (f : Ctl → Ctl) : (s.modCtl f).disps = s.disps := rfl
@[simp] theorem modCtl_barRecs (s : State) (f : Ctl → Ctl) : (s.modCtl f).barRecs = s.barRecs := rfl
@[simp] theorem modCtl_trans (s : State) (f : Ctl → Ctl) : (s.modCtl f).trans = s.trans := rfl
@[simp] theorem modCtl_time (s : State) (f : Ctl → Ctl) : (s.modCtl f).time = s.time := rfl
@[simp] theorem modCtl_power (s : State) (f : Ctl → Ctl) : (s.modCtl f).power = s.power := rfl
@[simp] theorem modCtl_mgmt (s : State) (f : Ctl → Ctl) : (s.modCtl f).mgmt = s.mgmt := rfl
@[simp] theorem modCtl_fab (s : State) (f : Ctl → Ctl) : (s.modCtl f).fab = s.fab := rfl
@[simp] theorem modCtl_boot (s : State) (f : Ctl → Ctl) : (s.modCtl f).boot = s.boot := rfl
@[simp] theorem modCtl_hot (s : State) (f : Ctl → Ctl) : (s.modCtl f).hot = s.hot := rfl
@[simp] theorem modCtl_temps (s : State) (f : Ctl → Ctl) : (s.modCtl f).temps = s.temps := rfl
@[simp] theorem modCtl_agenda (s : State) (f : Ctl → Ctl) : (s.modCtl f).agenda = s.agenda := rfl
@[simp] theorem modCtl_nfree (s : State) (f : Ctl → Ctl) : (s.modCtl f).nfree = s.nfree := rfl
@[simp] theorem modCtl_ctx_id (s : State) (f : Ctl → Ctl) : (s.modCtl f).ctx.id = s.ctx.id := rfl
@[simp] theorem modCtl_ctx_core (s : State) (f : Ctl → Ctl) : (s.modCtl f).ctx.core = s.ctx.core := rfl
@[simp] theorem modCtl_ctx_bank (s : State) (f : Ctl → Ctl) : (s.modCtl f).ctx.bank = s.ctx.bank := rfl
@[simp] theorem modCtl_ctx_r (s : State) (f : Ctl → Ctl) : (s.modCtl f).ctx.r = s.ctx.r := rfl
@[simp] theorem modCtl_ctx_q (s : State) (f : Ctl → Ctl) : (s.modCtl f).ctx.q = s.ctx.q := rfl
@[simp] theorem modCtl_ctx_es (s : State) (f : Ctl → Ctl) : (s.modCtl f).ctx.es = s.ctx.es := rfl
@[simp] theorem modCtl_ctx_tlc (s : State) (f : Ctl → Ctl) : (s.modCtl f).ctx.tlc = s.ctx.tlc := rfl
@[simp] theorem modCtl_ctx_tlm (s : State) (f : Ctl → Ctl) : (s.modCtl f).ctx.tlm = s.ctx.tlm := rfl
@[simp] theorem modCtl_ctx_tlf (s : State) (f : Ctl → Ctl) : (s.modCtl f).ctx.tlf = s.ctx.tlf := rfl
@[simp] theorem modCtl_ctx_mx (s : State) (f : Ctl → Ctl) : (s.modCtl f).ctx.mx = s.ctx.mx := rfl
@[simp] theorem modCtl_ctx_queue (s : State) (f : Ctl → Ctl) : (s.modCtl f).ctx.queue = s.ctx.queue := rfl
@[simp] theorem modCtl_ctx_running (s : State) (f : Ctl → Ctl) : (s.modCtl f).ctx.running = s.ctx.running := rfl
@[simp] theorem modCtl_ctx_board (s : State) (f : Ctl → Ctl) : (s.modCtl f).ctx.board = s.ctx.board := rfl
@[simp] theorem modCtl_ctx_events (s : State) (f : Ctl → Ctl) : (s.modCtl f).ctx.events = s.ctx.events := rfl
@[simp] theorem modCtl_ctx_watch (s : State) (f : Ctl → Ctl) : (s.modCtl f).ctx.watch = s.ctx.watch := rfl
@[simp] theorem modCtl_ctx_remote (s : State) (f : Ctl → Ctl) : (s.modCtl f).ctx.remote = s.ctx.remote := rfl
@[simp] theorem modCtl_ctx_launches (s : State) (f : Ctl → Ctl) : (s.modCtl f).ctx.launches = s.ctx.launches := rfl
@[simp] theorem modCtl_ctx_sch (s : State) (f : Ctl → Ctl) : (s.modCtl f).ctx.sch = s.ctx.sch := rfl
@[simp] theorem modCtl_ctx_c (s : State) (f : Ctl → Ctl) : (s.modCtl f).ctx.c = f s.ctx.c := rfl

/-! ### modSeq -/

@[simp] theorem modSeq_ctxs (s : State) (f : Seqr → Seqr) : (s.modSeq f).ctxs = s.ctxs := rfl
@[simp] theorem modSeq_pre (s : State) (f : Seqr → Seqr) : (s.modSeq f).pre = s.pre := rfl
@[simp] theorem modSeq_iss (s : State) (f : Seqr → Seqr) : (s.modSeq f).iss = s.iss := rfl
@[simp] theorem modSeq_core (s : State) (f : Seqr → Seqr) : (s.modSeq f).core = s.core := rfl
@[simp] theorem modSeq_cores (s : State) (f : Seqr → Seqr) : (s.modSeq f).cores = s.cores := rfl
@[simp] theorem modSeq_regions (s : State) (f : Seqr → Seqr) : (s.modSeq f).regions = s.regions := rfl
@[simp] theorem modSeq_nextRid (s : State) (f : Seqr → Seqr) : (s.modSeq f).nextRid = s.nextRid := rfl
@[simp] theorem modSeq_mem (s : State) (f : Seqr → Seqr) : (s.modSeq f).mem = s.mem := rfl
@[simp] theorem modSeq_bad (s : State) (f : Seqr → Seqr) : (s.modSeq f).bad = s.bad := rfl
@[simp] theorem modSeq_lineRecs (s : State) (f : Seqr → Seqr) : (s.modSeq f).lineRecs = s.lineRecs := rfl
@[simp] theorem modSeq_disps (s : State) (f : Seqr → Seqr) : (s.modSeq f).disps = s.disps := rfl
@[simp] theorem modSeq_barRecs (s : State) (f : Seqr → Seqr) : (s.modSeq f).barRecs = s.barRecs := rfl
@[simp] theorem modSeq_trans (s : State) (f : Seqr → Seqr) : (s.modSeq f).trans = s.trans := rfl
@[simp] theorem modSeq_time (s : State) (f : Seqr → Seqr) : (s.modSeq f).time = s.time := rfl
@[simp] theorem modSeq_power (s : State) (f : Seqr → Seqr) : (s.modSeq f).power = s.power := rfl
@[simp] theorem modSeq_mgmt (s : State) (f : Seqr → Seqr) : (s.modSeq f).mgmt = s.mgmt := rfl
@[simp] theorem modSeq_fab (s : State) (f : Seqr → Seqr) : (s.modSeq f).fab = s.fab := rfl
@[simp] theorem modSeq_boot (s : State) (f : Seqr → Seqr) : (s.modSeq f).boot = s.boot := rfl
@[simp] theorem modSeq_hot (s : State) (f : Seqr → Seqr) : (s.modSeq f).hot = s.hot := rfl
@[simp] theorem modSeq_temps (s : State) (f : Seqr → Seqr) : (s.modSeq f).temps = s.temps := rfl
@[simp] theorem modSeq_agenda (s : State) (f : Seqr → Seqr) : (s.modSeq f).agenda = s.agenda := rfl
@[simp] theorem modSeq_nfree (s : State) (f : Seqr → Seqr) : (s.modSeq f).nfree = s.nfree := rfl
@[simp] theorem modSeq_ctx_id (s : State) (f : Seqr → Seqr) : (s.modSeq f).ctx.id = s.ctx.id := rfl
@[simp] theorem modSeq_ctx_core (s : State) (f : Seqr → Seqr) : (s.modSeq f).ctx.core = s.ctx.core := rfl
@[simp] theorem modSeq_ctx_bank (s : State) (f : Seqr → Seqr) : (s.modSeq f).ctx.bank = s.ctx.bank := rfl
@[simp] theorem modSeq_ctx_r (s : State) (f : Seqr → Seqr) : (s.modSeq f).ctx.r = s.ctx.r := rfl
@[simp] theorem modSeq_ctx_c (s : State) (f : Seqr → Seqr) : (s.modSeq f).ctx.c = s.ctx.c := rfl
@[simp] theorem modSeq_ctx_es (s : State) (f : Seqr → Seqr) : (s.modSeq f).ctx.es = s.ctx.es := rfl
@[simp] theorem modSeq_ctx_tlc (s : State) (f : Seqr → Seqr) : (s.modSeq f).ctx.tlc = s.ctx.tlc := rfl
@[simp] theorem modSeq_ctx_tlm (s : State) (f : Seqr → Seqr) : (s.modSeq f).ctx.tlm = s.ctx.tlm := rfl
@[simp] theorem modSeq_ctx_tlf (s : State) (f : Seqr → Seqr) : (s.modSeq f).ctx.tlf = s.ctx.tlf := rfl
@[simp] theorem modSeq_ctx_mx (s : State) (f : Seqr → Seqr) : (s.modSeq f).ctx.mx = s.ctx.mx := rfl
@[simp] theorem modSeq_ctx_queue (s : State) (f : Seqr → Seqr) : (s.modSeq f).ctx.queue = s.ctx.queue := rfl
@[simp] theorem modSeq_ctx_running (s : State) (f : Seqr → Seqr) : (s.modSeq f).ctx.running = s.ctx.running := rfl
@[simp] theorem modSeq_ctx_board (s : State) (f : Seqr → Seqr) : (s.modSeq f).ctx.board = s.ctx.board := rfl
@[simp] theorem modSeq_ctx_events (s : State) (f : Seqr → Seqr) : (s.modSeq f).ctx.events = s.ctx.events := rfl
@[simp] theorem modSeq_ctx_watch (s : State) (f : Seqr → Seqr) : (s.modSeq f).ctx.watch = s.ctx.watch := rfl
@[simp] theorem modSeq_ctx_remote (s : State) (f : Seqr → Seqr) : (s.modSeq f).ctx.remote = s.ctx.remote := rfl
@[simp] theorem modSeq_ctx_launches (s : State) (f : Seqr → Seqr) : (s.modSeq f).ctx.launches = s.ctx.launches := rfl
@[simp] theorem modSeq_ctx_sch (s : State) (f : Seqr → Seqr) : (s.modSeq f).ctx.sch = s.ctx.sch := rfl
@[simp] theorem modSeq_ctx_q (s : State) (f : Seqr → Seqr) : (s.modSeq f).ctx.q = f s.ctx.q := rfl

/-! ### modSched -/

@[simp] theorem modSched_ctxs (s : State) (f : Sched → Sched) : (s.modSched f).ctxs = s.ctxs := rfl
@[simp] theorem modSched_pre (s : State) (f : Sched → Sched) : (s.modSched f).pre = s.pre := rfl
@[simp] theorem modSched_iss (s : State) (f : Sched → Sched) : (s.modSched f).iss = s.iss := rfl
@[simp] theorem modSched_core (s : State) (f : Sched → Sched) : (s.modSched f).core = s.core := rfl
@[simp] theorem modSched_cores (s : State) (f : Sched → Sched) : (s.modSched f).cores = s.cores := rfl
@[simp] theorem modSched_regions (s : State) (f : Sched → Sched) : (s.modSched f).regions = s.regions := rfl
@[simp] theorem modSched_nextRid (s : State) (f : Sched → Sched) : (s.modSched f).nextRid = s.nextRid := rfl
@[simp] theorem modSched_mem (s : State) (f : Sched → Sched) : (s.modSched f).mem = s.mem := rfl
@[simp] theorem modSched_bad (s : State) (f : Sched → Sched) : (s.modSched f).bad = s.bad := rfl
@[simp] theorem modSched_lineRecs (s : State) (f : Sched → Sched) : (s.modSched f).lineRecs = s.lineRecs := rfl
@[simp] theorem modSched_disps (s : State) (f : Sched → Sched) : (s.modSched f).disps = s.disps := rfl
@[simp] theorem modSched_barRecs (s : State) (f : Sched → Sched) : (s.modSched f).barRecs = s.barRecs := rfl
@[simp] theorem modSched_trans (s : State) (f : Sched → Sched) : (s.modSched f).trans = s.trans := rfl
@[simp] theorem modSched_time (s : State) (f : Sched → Sched) : (s.modSched f).time = s.time := rfl
@[simp] theorem modSched_power (s : State) (f : Sched → Sched) : (s.modSched f).power = s.power := rfl
@[simp] theorem modSched_mgmt (s : State) (f : Sched → Sched) : (s.modSched f).mgmt = s.mgmt := rfl
@[simp] theorem modSched_fab (s : State) (f : Sched → Sched) : (s.modSched f).fab = s.fab := rfl
@[simp] theorem modSched_boot (s : State) (f : Sched → Sched) : (s.modSched f).boot = s.boot := rfl
@[simp] theorem modSched_hot (s : State) (f : Sched → Sched) : (s.modSched f).hot = s.hot := rfl
@[simp] theorem modSched_temps (s : State) (f : Sched → Sched) : (s.modSched f).temps = s.temps := rfl
@[simp] theorem modSched_agenda (s : State) (f : Sched → Sched) : (s.modSched f).agenda = s.agenda := rfl
@[simp] theorem modSched_nfree (s : State) (f : Sched → Sched) : (s.modSched f).nfree = s.nfree := rfl
@[simp] theorem modSched_ctx_id (s : State) (f : Sched → Sched) : (s.modSched f).ctx.id = s.ctx.id := rfl
@[simp] theorem modSched_ctx_core (s : State) (f : Sched → Sched) : (s.modSched f).ctx.core = s.ctx.core := rfl
@[simp] theorem modSched_ctx_bank (s : State) (f : Sched → Sched) : (s.modSched f).ctx.bank = s.ctx.bank := rfl
@[simp] theorem modSched_ctx_r (s : State) (f : Sched → Sched) : (s.modSched f).ctx.r = s.ctx.r := rfl
@[simp] theorem modSched_ctx_c (s : State) (f : Sched → Sched) : (s.modSched f).ctx.c = s.ctx.c := rfl
@[simp] theorem modSched_ctx_q (s : State) (f : Sched → Sched) : (s.modSched f).ctx.q = s.ctx.q := rfl
@[simp] theorem modSched_ctx_es (s : State) (f : Sched → Sched) : (s.modSched f).ctx.es = s.ctx.es := rfl
@[simp] theorem modSched_ctx_tlc (s : State) (f : Sched → Sched) : (s.modSched f).ctx.tlc = s.ctx.tlc := rfl
@[simp] theorem modSched_ctx_tlm (s : State) (f : Sched → Sched) : (s.modSched f).ctx.tlm = s.ctx.tlm := rfl
@[simp] theorem modSched_ctx_tlf (s : State) (f : Sched → Sched) : (s.modSched f).ctx.tlf = s.ctx.tlf := rfl
@[simp] theorem modSched_ctx_mx (s : State) (f : Sched → Sched) : (s.modSched f).ctx.mx = s.ctx.mx := rfl
@[simp] theorem modSched_ctx_queue (s : State) (f : Sched → Sched) : (s.modSched f).ctx.queue = s.ctx.queue := rfl
@[simp] theorem modSched_ctx_running (s : State) (f : Sched → Sched) : (s.modSched f).ctx.running = s.ctx.running := rfl
@[simp] theorem modSched_ctx_board (s : State) (f : Sched → Sched) : (s.modSched f).ctx.board = s.ctx.board := rfl
@[simp] theorem modSched_ctx_events (s : State) (f : Sched → Sched) : (s.modSched f).ctx.events = s.ctx.events := rfl
@[simp] theorem modSched_ctx_watch (s : State) (f : Sched → Sched) : (s.modSched f).ctx.watch = s.ctx.watch := rfl
@[simp] theorem modSched_ctx_remote (s : State) (f : Sched → Sched) : (s.modSched f).ctx.remote = s.ctx.remote := rfl
@[simp] theorem modSched_ctx_launches (s : State) (f : Sched → Sched) : (s.modSched f).ctx.launches = s.ctx.launches := rfl
@[simp] theorem modSched_ctx_sch (s : State) (f : Sched → Sched) : (s.modSched f).ctx.sch = f s.ctx.sch := rfl

/-! ### modMx -/

@[simp] theorem modMx_ctxs (s : State) (f : Matrix → Matrix) : (s.modMx f).ctxs = s.ctxs := rfl
@[simp] theorem modMx_pre (s : State) (f : Matrix → Matrix) : (s.modMx f).pre = s.pre := rfl
@[simp] theorem modMx_iss (s : State) (f : Matrix → Matrix) : (s.modMx f).iss = s.iss := rfl
@[simp] theorem modMx_core (s : State) (f : Matrix → Matrix) : (s.modMx f).core = s.core := rfl
@[simp] theorem modMx_cores (s : State) (f : Matrix → Matrix) : (s.modMx f).cores = s.cores := rfl
@[simp] theorem modMx_regions (s : State) (f : Matrix → Matrix) : (s.modMx f).regions = s.regions := rfl
@[simp] theorem modMx_nextRid (s : State) (f : Matrix → Matrix) : (s.modMx f).nextRid = s.nextRid := rfl
@[simp] theorem modMx_mem (s : State) (f : Matrix → Matrix) : (s.modMx f).mem = s.mem := rfl
@[simp] theorem modMx_bad (s : State) (f : Matrix → Matrix) : (s.modMx f).bad = s.bad := rfl
@[simp] theorem modMx_lineRecs (s : State) (f : Matrix → Matrix) : (s.modMx f).lineRecs = s.lineRecs := rfl
@[simp] theorem modMx_disps (s : State) (f : Matrix → Matrix) : (s.modMx f).disps = s.disps := rfl
@[simp] theorem modMx_barRecs (s : State) (f : Matrix → Matrix) : (s.modMx f).barRecs = s.barRecs := rfl
@[simp] theorem modMx_trans (s : State) (f : Matrix → Matrix) : (s.modMx f).trans = s.trans := rfl
@[simp] theorem modMx_time (s : State) (f : Matrix → Matrix) : (s.modMx f).time = s.time := rfl
@[simp] theorem modMx_power (s : State) (f : Matrix → Matrix) : (s.modMx f).power = s.power := rfl
@[simp] theorem modMx_mgmt (s : State) (f : Matrix → Matrix) : (s.modMx f).mgmt = s.mgmt := rfl
@[simp] theorem modMx_fab (s : State) (f : Matrix → Matrix) : (s.modMx f).fab = s.fab := rfl
@[simp] theorem modMx_boot (s : State) (f : Matrix → Matrix) : (s.modMx f).boot = s.boot := rfl
@[simp] theorem modMx_hot (s : State) (f : Matrix → Matrix) : (s.modMx f).hot = s.hot := rfl
@[simp] theorem modMx_temps (s : State) (f : Matrix → Matrix) : (s.modMx f).temps = s.temps := rfl
@[simp] theorem modMx_agenda (s : State) (f : Matrix → Matrix) : (s.modMx f).agenda = s.agenda := rfl
@[simp] theorem modMx_nfree (s : State) (f : Matrix → Matrix) : (s.modMx f).nfree = s.nfree := rfl
@[simp] theorem modMx_ctx_id (s : State) (f : Matrix → Matrix) : (s.modMx f).ctx.id = s.ctx.id := rfl
@[simp] theorem modMx_ctx_core (s : State) (f : Matrix → Matrix) : (s.modMx f).ctx.core = s.ctx.core := rfl
@[simp] theorem modMx_ctx_bank (s : State) (f : Matrix → Matrix) : (s.modMx f).ctx.bank = s.ctx.bank := rfl
@[simp] theorem modMx_ctx_r (s : State) (f : Matrix → Matrix) : (s.modMx f).ctx.r = s.ctx.r := rfl
@[simp] theorem modMx_ctx_c (s : State) (f : Matrix → Matrix) : (s.modMx f).ctx.c = s.ctx.c := rfl
@[simp] theorem modMx_ctx_q (s : State) (f : Matrix → Matrix) : (s.modMx f).ctx.q = s.ctx.q := rfl
@[simp] theorem modMx_ctx_es (s : State) (f : Matrix → Matrix) : (s.modMx f).ctx.es = s.ctx.es := rfl
@[simp] theorem modMx_ctx_tlc (s : State) (f : Matrix → Matrix) : (s.modMx f).ctx.tlc = s.ctx.tlc := rfl
@[simp] theorem modMx_ctx_tlm (s : State) (f : Matrix → Matrix) : (s.modMx f).ctx.tlm = s.ctx.tlm := rfl
@[simp] theorem modMx_ctx_tlf (s : State) (f : Matrix → Matrix) : (s.modMx f).ctx.tlf = s.ctx.tlf := rfl
@[simp] theorem modMx_ctx_queue (s : State) (f : Matrix → Matrix) : (s.modMx f).ctx.queue = s.ctx.queue := rfl
@[simp] theorem modMx_ctx_running (s : State) (f : Matrix → Matrix) : (s.modMx f).ctx.running = s.ctx.running := rfl
@[simp] theorem modMx_ctx_board (s : State) (f : Matrix → Matrix) : (s.modMx f).ctx.board = s.ctx.board := rfl
@[simp] theorem modMx_ctx_events (s : State) (f : Matrix → Matrix) : (s.modMx f).ctx.events = s.ctx.events := rfl
@[simp] theorem modMx_ctx_watch (s : State) (f : Matrix → Matrix) : (s.modMx f).ctx.watch = s.ctx.watch := rfl
@[simp] theorem modMx_ctx_remote (s : State) (f : Matrix → Matrix) : (s.modMx f).ctx.remote = s.ctx.remote := rfl
@[simp] theorem modMx_ctx_launches (s : State) (f : Matrix → Matrix) : (s.modMx f).ctx.launches = s.ctx.launches := rfl
@[simp] theorem modMx_ctx_sch (s : State) (f : Matrix → Matrix) : (s.modMx f).ctx.sch = s.ctx.sch := rfl
@[simp] theorem modMx_ctx_mx (s : State) (f : Matrix → Matrix) : (s.modMx f).ctx.mx = f s.ctx.mx := rfl

/-! ### modCore -/

@[simp] theorem modCore_ctx (s : State) (f : Core → Core) : (s.modCore f).ctx = s.ctx := rfl
@[simp] theorem modCore_ctxs (s : State) (f : Core → Core) : (s.modCore f).ctxs = s.ctxs := rfl
@[simp] theorem modCore_pre (s : State) (f : Core → Core) : (s.modCore f).pre = s.pre := rfl
@[simp] theorem modCore_iss (s : State) (f : Core → Core) : (s.modCore f).iss = s.iss := rfl
@[simp] theorem modCore_cores (s : State) (f : Core → Core) : (s.modCore f).cores = s.cores := rfl
@[simp] theorem modCore_regions (s : State) (f : Core → Core) : (s.modCore f).regions = s.regions := rfl
@[simp] theorem modCore_nextRid (s : State) (f : Core → Core) : (s.modCore f).nextRid = s.nextRid := rfl
@[simp] theorem modCore_mem (s : State) (f : Core → Core) : (s.modCore f).mem = s.mem := rfl
@[simp] theorem modCore_bad (s : State) (f : Core → Core) : (s.modCore f).bad = s.bad := rfl
@[simp] theorem modCore_lineRecs (s : State) (f : Core → Core) : (s.modCore f).lineRecs = s.lineRecs := rfl
@[simp] theorem modCore_disps (s : State) (f : Core → Core) : (s.modCore f).disps = s.disps := rfl
@[simp] theorem modCore_barRecs (s : State) (f : Core → Core) : (s.modCore f).barRecs = s.barRecs := rfl
@[simp] theorem modCore_trans (s : State) (f : Core → Core) : (s.modCore f).trans = s.trans := rfl
@[simp] theorem modCore_time (s : State) (f : Core → Core) : (s.modCore f).time = s.time := rfl
@[simp] theorem modCore_power (s : State) (f : Core → Core) : (s.modCore f).power = s.power := rfl
@[simp] theorem modCore_mgmt (s : State) (f : Core → Core) : (s.modCore f).mgmt = s.mgmt := rfl
@[simp] theorem modCore_fab (s : State) (f : Core → Core) : (s.modCore f).fab = s.fab := rfl
@[simp] theorem modCore_boot (s : State) (f : Core → Core) : (s.modCore f).boot = s.boot := rfl
@[simp] theorem modCore_hot (s : State) (f : Core → Core) : (s.modCore f).hot = s.hot := rfl
@[simp] theorem modCore_temps (s : State) (f : Core → Core) : (s.modCore f).temps = s.temps := rfl
@[simp] theorem modCore_agenda (s : State) (f : Core → Core) : (s.modCore f).agenda = s.agenda := rfl
@[simp] theorem modCore_nfree (s : State) (f : Core → Core) : (s.modCore f).nfree = s.nfree := rfl
@[simp] theorem modCore_core (s : State) (f : Core → Core) : (s.modCore f).core = f s.core := rfl

/-! ### modIss -/

@[simp] theorem modIss_ctx (s : State) (f : Iss → Iss) : (s.modIss f).ctx = s.ctx := rfl
@[simp] theorem modIss_ctxs (s : State) (f : Iss → Iss) : (s.modIss f).ctxs = s.ctxs := rfl
@[simp] theorem modIss_pre (s : State) (f : Iss → Iss) : (s.modIss f).pre = s.pre := rfl
@[simp] theorem modIss_core (s : State) (f : Iss → Iss) : (s.modIss f).core = s.core := rfl
@[simp] theorem modIss_cores (s : State) (f : Iss → Iss) : (s.modIss f).cores = s.cores := rfl
@[simp] theorem modIss_regions (s : State) (f : Iss → Iss) : (s.modIss f).regions = s.regions := rfl
@[simp] theorem modIss_nextRid (s : State) (f : Iss → Iss) : (s.modIss f).nextRid = s.nextRid := rfl
@[simp] theorem modIss_mem (s : State) (f : Iss → Iss) : (s.modIss f).mem = s.mem := rfl
@[simp] theorem modIss_bad (s : State) (f : Iss → Iss) : (s.modIss f).bad = s.bad := rfl
@[simp] theorem modIss_lineRecs (s : State) (f : Iss → Iss) : (s.modIss f).lineRecs = s.lineRecs := rfl
@[simp] theorem modIss_disps (s : State) (f : Iss → Iss) : (s.modIss f).disps = s.disps := rfl
@[simp] theorem modIss_barRecs (s : State) (f : Iss → Iss) : (s.modIss f).barRecs = s.barRecs := rfl
@[simp] theorem modIss_trans (s : State) (f : Iss → Iss) : (s.modIss f).trans = s.trans := rfl
@[simp] theorem modIss_time (s : State) (f : Iss → Iss) : (s.modIss f).time = s.time := rfl
@[simp] theorem modIss_power (s : State) (f : Iss → Iss) : (s.modIss f).power = s.power := rfl
@[simp] theorem modIss_mgmt (s : State) (f : Iss → Iss) : (s.modIss f).mgmt = s.mgmt := rfl
@[simp] theorem modIss_fab (s : State) (f : Iss → Iss) : (s.modIss f).fab = s.fab := rfl
@[simp] theorem modIss_boot (s : State) (f : Iss → Iss) : (s.modIss f).boot = s.boot := rfl
@[simp] theorem modIss_hot (s : State) (f : Iss → Iss) : (s.modIss f).hot = s.hot := rfl
@[simp] theorem modIss_temps (s : State) (f : Iss → Iss) : (s.modIss f).temps = s.temps := rfl
@[simp] theorem modIss_agenda (s : State) (f : Iss → Iss) : (s.modIss f).agenda = s.agenda := rfl
@[simp] theorem modIss_nfree (s : State) (f : Iss → Iss) : (s.modIss f).nfree = s.nfree := rfl
@[simp] theorem modIss_iss (s : State) (f : Iss → Iss) : (s.modIss f).iss = f s.iss := rfl

/-! ### modMgmt -/

@[simp] theorem modMgmt_ctx (s : State) (f : Mgmt → Mgmt) : (s.modMgmt f).ctx = s.ctx := rfl
@[simp] theorem modMgmt_ctxs (s : State) (f : Mgmt → Mgmt) : (s.modMgmt f).ctxs = s.ctxs := rfl
@[simp] theorem modMgmt_pre (s : State) (f : Mgmt → Mgmt) : (s.modMgmt f).pre = s.pre := rfl
@[simp] theorem modMgmt_iss (s : State) (f : Mgmt → Mgmt) : (s.modMgmt f).iss = s.iss := rfl
@[simp] theorem modMgmt_core (s : State) (f : Mgmt → Mgmt) : (s.modMgmt f).core = s.core := rfl
@[simp] theorem modMgmt_cores (s : State) (f : Mgmt → Mgmt) : (s.modMgmt f).cores = s.cores := rfl
@[simp] theorem modMgmt_regions (s : State) (f : Mgmt → Mgmt) : (s.modMgmt f).regions = s.regions := rfl
@[simp] theorem modMgmt_nextRid (s : State) (f : Mgmt → Mgmt) : (s.modMgmt f).nextRid = s.nextRid := rfl
@[simp] theorem modMgmt_mem (s : State) (f : Mgmt → Mgmt) : (s.modMgmt f).mem = s.mem := rfl
@[simp] theorem modMgmt_bad (s : State) (f : Mgmt → Mgmt) : (s.modMgmt f).bad = s.bad := rfl
@[simp] theorem modMgmt_lineRecs (s : State) (f : Mgmt → Mgmt) : (s.modMgmt f).lineRecs = s.lineRecs := rfl
@[simp] theorem modMgmt_disps (s : State) (f : Mgmt → Mgmt) : (s.modMgmt f).disps = s.disps := rfl
@[simp] theorem modMgmt_barRecs (s : State) (f : Mgmt → Mgmt) : (s.modMgmt f).barRecs = s.barRecs := rfl
@[simp] theorem modMgmt_trans (s : State) (f : Mgmt → Mgmt) : (s.modMgmt f).trans = s.trans := rfl
@[simp] theorem modMgmt_time (s : State) (f : Mgmt → Mgmt) : (s.modMgmt f).time = s.time := rfl
@[simp] theorem modMgmt_power (s : State) (f : Mgmt → Mgmt) : (s.modMgmt f).power = s.power := rfl
@[simp] theorem modMgmt_fab (s : State) (f : Mgmt → Mgmt) : (s.modMgmt f).fab = s.fab := rfl
@[simp] theorem modMgmt_boot (s : State) (f : Mgmt → Mgmt) : (s.modMgmt f).boot = s.boot := rfl
@[simp] theorem modMgmt_hot (s : State) (f : Mgmt → Mgmt) : (s.modMgmt f).hot = s.hot := rfl
@[simp] theorem modMgmt_temps (s : State) (f : Mgmt → Mgmt) : (s.modMgmt f).temps = s.temps := rfl
@[simp] theorem modMgmt_agenda (s : State) (f : Mgmt → Mgmt) : (s.modMgmt f).agenda = s.agenda := rfl
@[simp] theorem modMgmt_nfree (s : State) (f : Mgmt → Mgmt) : (s.modMgmt f).nfree = s.nfree := rfl
@[simp] theorem modMgmt_mgmt (s : State) (f : Mgmt → Mgmt) : (s.modMgmt f).mgmt = f s.mgmt := rfl

/-! ### hold -/

@[simp] theorem hold_ctx (s : State) : s.hold.ctx = s.ctx := rfl
@[simp] theorem hold_core (s : State) : s.hold.core = s.core := rfl
@[simp] theorem hold_mem (s : State) : s.hold.mem = s.mem := rfl
@[simp] theorem hold_held (s : State) : s.hold.iss.held = true := rfl

end Sys2Proof.Machine
end

