-- ==== Sys2Proof/Laws/Registers.lean ====
section
/-!
SUPPORT. What writing a register does and leaves: the one lemma of each write operation, over the frames of Safety.
-/

namespace Sys2Proof.Machine

/-! ### Vectors -/

theorem vget_vset_same {α : Type} [Inhabited α] {n : Nat} (v : Vector α n) (i : Nat) (a : α) (h : i < n) :
    vget (vset v i a) i = a := by
  simp [vget, vset, h]

theorem vget_vset_ne {α : Type} [Inhabited α] {n : Nat} (v : Vector α n) (i j : Nat) (a : α) (h : i ≠ j) :
    vget (vset v i a) j = vget v j := by
  simp [vget, vset, h]

theorem setBit_same {w : Nat} (x : BitVec w) (i : Nat) (b : Bool) (h : i < w) : (setBit x i b).getLsbD i = b := by
  unfold setBit
  cases b <;> simp [h]

theorem setBit_ne {w : Nat} (x : BitVec w) (i j : Nat) (b : Bool) (h : i ≠ j) :
    (setBit x i b).getLsbD j = x.getLsbD j := by
  unfold setBit
  cases b
  · by_cases hj : j < w
    · by_cases hl : j < i
      · simp [hj, hl]
      · have : j - i ≠ 0 := by omega
        simp [hj, this]
    · simp [BitVec.getLsbD_of_ge _ _ (Nat.le_of_not_lt hj)]
  · by_cases hl : j < i
    · simp [hl]
    · have : j - i ≠ 0 := by omega
      simp [this]

/-! ### Frames compose -/

theorem SameMemory.rfl' (s : State) : SameMemory s s := by constructor <;> intros <;> rfl
theorem SamePackage.rfl' (s : State) : SamePackage s s := by constructor <;> rfl
theorem SameSpecial.rfl' (s : State) : SameSpecial s s := by constructor <;> rfl

theorem SameMemory.trans {s t u : State} (h : SameMemory s t) (k : SameMemory t u) : SameMemory s u := by
  cases h; cases k; constructor <;> simp_all only [implies_true]
theorem SamePackage.andThen {s t u : State} (h : SamePackage s t) (k : SamePackage t u) : SamePackage s u := by
  cases h; cases k; constructor <;> simp_all only
theorem SameWorld.trans {s t u : State} (h : SameWorld s t) (k : SameWorld t u) : SameWorld s u := by
  refine ⟨h.memory.trans k.memory, h.package.andThen k.package, ?_, ?_, ?_, ?_⟩ <;> cases h <;> cases k <;> simp_all only
theorem SameUnits.trans {s t u : State} (h : SameUnits s t) (k : SameUnits t u) : SameUnits s u := by
  cases h; cases k; constructor <;> simp_all only

/-- A change of the context acted on is none of the world around it. -/
theorem SameWorld.of_ctx (s : State) (c : Ctx) : SameWorld s { s with ctx := c } := by
  refine ⟨?_, ?_, ?_, ?_, ?_, ?_⟩ <;> first | rfl | (constructor <;> intros <;> rfl)

/-- Registers and what is outstanding to them are no units. -/
theorem SameUnits.of_regs (s : State) (r : Regs) (b : List Pend) (e : List FlagEv) :
    SameUnits s { s with ctx := { s.ctx with r := r, board := b, events := e } } := by
  constructor <;> rfl

theorem SameWorld.rfl' (s : State) : SameWorld s s := .of_ctx s s.ctx
theorem SameUnits.rfl' (s : State) : SameUnits s s := .of_regs s s.ctx.r s.ctx.board s.ctx.events

/-! ### Outstanding results -/

theorem pend_board (s : State) (d : Dest) (lat : Nat) (was : Bool) (p : Pend) (h : p.dst ≠ d) :
    p ∈ (s.pend d lat was).ctx.board ↔ p ∈ s.ctx.board := by
  have new (q : Pend) (e : q.dst = d) : p ≠ q := fun x => h (x ▸ e)
  simp only [State.pend, modCtx_ctx]
  generalize (if d.inOrder = true then _ else _ : Nat) = due
  split <;> simp [h, new]

/-- What outstanding results leave of a state. -/
theorem pend_rest (s : State) (d : Dest) (lat : Nat) (was : Bool) :
    ∃ b, s.pend d lat was = { s with ctx := { s.ctx with board := b } } := ⟨_, rfl⟩

/-- What flags on their way leave of a state. -/
theorem raise_rest (s : State) (fl : BitVec 5) (lat : Nat) :
    ∃ l, s.raise fl lat = { s with ctx := { s.ctx with events := s.ctx.events ++ l } } := by
  unfold State.raise
  split
  · exact ⟨[], by simp⟩
  · exact ⟨_, rfl⟩

/-- An instruction that raises no flag in a slot above the vector ones has none on its way. -/
theorem raise_zero (s : State) (lat : Nat) (h : 5 ≤ s.iss.slot) : s.raise 0 lat = s := by
  simp [State.raise, h]

/-! ### Writing a scalar -/

theorem wrS_zero (s : State) (v : W64) (p : Bool) (lat : Nat) : s.wrS 0 v p lat = s := if_pos rfl

/-- A scalar write in full. -/
theorem wrS_eq (s : State) (d : R6) (v : W64) (p : Bool) (lat : Nat) (h : d ≠ 0) :
    s.wrS d v p lat = (s.modRegs fun r =>
      { r with s := vset r.s d.toNat v, sp := setBit r.sp d.toNat p }).pend (.s d.toNat) lat (s.ctx.r.sp.getLsbD d.toNat) := by
  unfold State.wrS Regs.putS
  rw [if_neg h]
  simp only [if_neg h]

theorem wrS_sNow (s : State) (d : R6) (v : W64) (p : Bool) (lat : Nat) (h : d ≠ 0) : (s.wrS d v p lat).sNow d = v := by
  rw [wrS_eq s d v p lat h]
  unfold State.sNow
  rw [if_neg h]
  exact vget_vset_same s.ctx.r.s d.toNat v d.isLt

theorem wrS_sPoison (s : State) (d : R6) (v : W64) (p : Bool) (lat : Nat) (h : d ≠ 0) :
    (s.wrS d v p lat).sPoison d = p := by
  rw [wrS_eq s d v p lat h]
  have := setBit_same s.ctx.r.sp d.toNat p d.isLt
  have hd : decide (d ≠ 0) = true := by simpa using h
  unfold State.sPoison
  rw [hd]
  exact this

theorem OnlyScalar.rfl' (d : R6) (s : State) : OnlyScalar d s s :=
  { world := .rfl' s, units := .rfl' s, control := rfl, sequencer := rfl, special := .rfl' s, bundle := rfl, free := rfl,
    scalars := fun _ _ => ⟨rfl, rfl⟩, vectors := fun _ _ => ⟨rfl, rfl⟩, preds := fun _ _ => ⟨rfl, rfl⟩,
    events := List.prefix_rfl, board := fun _ _ => Iff.rfl }

theorem wrS_only (s : State) (d : R6) (v : W64) (p : Bool) (lat : Nat) : OnlyScalar d s (s.wrS d v p lat) := by
  by_cases h : d = 0
  · subst h
    rw [wrS_zero]
    exact .rfl' _ s
  · rw [wrS_eq s d v p lat h]
    refine
      { world := .of_ctx s _, units := .of_regs s _ _ s.ctx.events, control := rfl, sequencer := rfl, bundle := rfl, free := rfl,
        special := by constructor <;> rfl, scalars := ?_, vectors := fun _ _ => ⟨rfl, rfl⟩, preds := fun _ _ => ⟨rfl, rfl⟩,
        events := List.prefix_rfl, board := fun q hq => pend_board _ _ _ _ _ hq }
    intro n hn
    by_cases h0 : n = 0
    · subst h0; exact ⟨rfl, rfl⟩
    · have hne : d.toNat ≠ n.toNat := by
        intro heq
        rcases hn with hn | hn
        · exact hn (BitVec.eq_of_toNat_eq heq.symm)
        · exact h0 hn
      refine ⟨?_, ?_⟩
      · unfold State.sNow
        rw [if_neg h0, if_neg h0]
        exact vget_vset_ne s.ctx.r.s d.toNat n.toNat v hne
      · unfold State.sPoison
        exact congrArg (decide (n ≠ 0) && ·) (setBit_ne s.ctx.r.sp d.toNat n.toNat p hne)

/-! ### Writing a vector register -/

theorem wrV_vNow (s : State) (d : R6) (v : VWord) (g : W32) (lat : Nat) (h : physV s.pre.c d < 64) :
    (s.wrV d v g lat).vNow (physV s.pre.c d) = v := vget_vset_same s.ctx.r.v _ v h

theorem wrV_vPoison (s : State) (d : R6) (v : VWord) (g : W32) (lat : Nat) (h : physV s.pre.c d < 64) :
    (s.wrV d v g lat).vPoison (physV s.pre.c d) = g := vget_vset_same s.ctx.r.vp _ g h

/-- A vector name reaches one of the 64 registers (R16). -/
theorem physV_lt (c : Ctl) (n : R6) : physV c n < 64 := by
  unfold physV
  split <;> omega

theorem wrV_only (s : State) (d : R6) (v : VWord) (g : W32) (lat : Nat) :
    OnlyVector (physV s.pre.c d) s (s.wrV d v g lat) := by
  refine
    { world := .of_ctx s _, units := .of_regs s _ _ s.ctx.events, control := rfl, sequencer := rfl, bundle := rfl, free := rfl,
      special := by constructor <;> rfl, scalars := fun _ _ => ⟨rfl, rfl⟩, vectors := ?_, preds := fun _ _ => ⟨rfl, rfl⟩,
      events := List.prefix_rfl, board := fun q hq => pend_board _ _ _ _ _ hq }
  intro k hk
  exact ⟨vget_vset_ne s.ctx.r.v _ k v (Ne.symm hk), vget_vset_ne s.ctx.r.vp _ k g (Ne.symm hk)⟩

/-! ### Writing a predicate register -/

/-- A predicate name reaches one of the 32 registers, and p0 only itself (R16). -/
theorem physP_lt (c : Ctl) (n : R5) : physP c n < 32 := by
  unfold physP
  split <;> omega

theorem physP_zero (c : Ctl) (n : R5) : physP c n = 0 ↔ n = 0 := by
  unfold physP
  constructor
  · intro h
    split at h
    · exact BitVec.eq_of_toNat_eq (by simpa using h)
    · omega
  · rintro rfl
    rfl

theorem OnlyPred.rfl' (d : Nat) (s : State) : OnlyPred d s s :=
  { world := .rfl' s, units := .rfl' s, control := rfl, sequencer := rfl, special := .rfl' s, bundle := rfl, free := rfl,
    scalars := fun _ _ => ⟨rfl, rfl⟩, vectors := fun _ _ => ⟨rfl, rfl⟩, preds := fun _ _ => ⟨rfl, rfl⟩,
    events := List.prefix_rfl, board := fun _ _ => Iff.rfl }

/-- A predicate write in full. -/
theorem wrP_eq (s : State) (d : R5) (v : PWord) (p : Bool) (lat : Nat) (h : d ≠ 0) :
    s.wrP d v p lat = (s.modRegs fun r =>
      { r with p := vset r.p (physP s.pre.c d) v, pp := setBit r.pp (physP s.pre.c d) p }).pend
        (.p (physP s.pre.c d)) lat (s.ctx.r.pp.getLsbD (physP s.pre.c d)) := by
  have h' : ¬ physP s.pre.c d = 0 := fun e => h ((physP_zero _ _).1 e)
  unfold State.wrP Regs.putP
  rw [if_neg h]
  simp only [if_neg h']

theorem wrP_zero (s : State) (v : PWord) (p : Bool) (lat : Nat) : s.wrP 0 v p lat = s := if_pos rfl

theorem wrP_pNow (s : State) (d : R5) (v : PWord) (p : Bool) (lat : Nat) (h : d ≠ 0) :
    (s.wrP d v p lat).pNow (physP s.pre.c d) = v := by
  have h' : ¬ physP s.pre.c d = 0 := fun e => h ((physP_zero _ _).1 e)
  rw [wrP_eq s d v p lat h]
  unfold State.pNow
  rw [if_neg h']
  exact vget_vset_same s.ctx.r.p _ v (physP_lt _ _)

theorem wrP_pPoison (s : State) (d : R5) (v : PWord) (p : Bool) (lat : Nat) (h : d ≠ 0) :
    (s.wrP d v p lat).pPoison (physP s.pre.c d) = p := by
  have h' : ¬ physP s.pre.c d = 0 := fun e => h ((physP_zero _ _).1 e)
  have hd : decide (physP s.pre.c d ≠ 0) = true := by simpa using h'
  rw [wrP_eq s d v p lat h]
  unfold State.pPoison
  rw [hd]
  exact setBit_same s.ctx.r.pp _ p (physP_lt _ _)

theorem wrP_only (s : State) (d : R5) (v : PWord) (p : Bool) (lat : Nat) :
    OnlyPred (physP s.pre.c d) s (s.wrP d v p lat) := by
  by_cases h : d = 0
  · subst h
    rw [wrP_zero]
    exact .rfl' _ s
  · rw [wrP_eq s d v p lat h]
    refine
      { world := .of_ctx s _, units := .of_regs s _ _ s.ctx.events, control := rfl, sequencer := rfl, bundle := rfl, free := rfl,
        special := by constructor <;> rfl, scalars := fun _ _ => ⟨rfl, rfl⟩, vectors := fun _ _ => ⟨rfl, rfl⟩, preds := ?_,
        events := List.prefix_rfl, board := fun q hq => pend_board _ _ _ _ _ hq }
    intro k hk
    by_cases h0 : k = 0
    · subst h0; exact ⟨rfl, rfl⟩
    · have hne : physP s.pre.c d ≠ k := by
        rcases hk with hk | hk
        · exact Ne.symm hk
        · exact absurd hk h0
      refine ⟨?_, ?_⟩
      · unfold State.pNow
        rw [if_neg h0, if_neg h0]
        exact vget_vset_ne s.ctx.r.p _ k v hne
      · unfold State.pPoison
        exact congrArg (decide (k ≠ 0) && ·) (setBit_ne s.ctx.r.pp _ k p hne)

/-! ### Flags after a write -/

/-- What every frame of a register keeps while flags set out. -/
theorem raise_frame {s t : State} (hw : SameWorld s t) (hu : SameUnits s t) (hs : SameSpecial s t)
    (he : s.ctx.events <+: t.ctx.events) (l : List FlagEv) :
    let u : State := { t with ctx := { t.ctx with events := t.ctx.events ++ l } }
    SameWorld s u ∧ SameUnits s u ∧ SameSpecial s u ∧ s.ctx.events <+: u.ctx.events :=
  ⟨hw.trans (.of_ctx t _), hu.trans (.of_regs t t.ctx.r t.ctx.board _), ⟨hs.b, hs.g, hs.f, hs.ft⟩,
    he.trans (List.prefix_append _ _)⟩

theorem OnlyScalar.raise {d : R6} {s t : State} (h : OnlyScalar d s t) (fl : BitVec 5) (lat : Nat) :
    OnlyScalar d s (t.raise fl lat) := by
  obtain ⟨l, e⟩ := raise_rest t fl lat
  have f := raise_frame h.world h.units h.special h.events l
  rw [e]
  exact { h with world := f.1, units := f.2.1, special := f.2.2.1, events := f.2.2.2 }

theorem OnlyPred.raise {d : Nat} {s t : State} (h : OnlyPred d s t) (fl : BitVec 5) (lat : Nat) :
    OnlyPred d s (t.raise fl lat) := by
  obtain ⟨l, e⟩ := raise_rest t fl lat
  have f := raise_frame h.world h.units h.special h.events l
  rw [e]
  exact { h with world := f.1, units := f.2.1, special := f.2.2.1, events := f.2.2.2 }

theorem OnlyVector.raise {d : Nat} {s t : State} (h : OnlyVector d s t) (fl : BitVec 5) (lat : Nat) :
    OnlyVector d s (t.raise fl lat) := by
  obtain ⟨l, e⟩ := raise_rest t fl lat
  have f := raise_frame h.world h.units h.special h.events l
  rw [e]
  exact { h with world := f.1, units := f.2.1, special := f.2.2.1, events := f.2.2.2 }

end Sys2Proof.Machine
end

