-- ==== Sys2Proof/Laws/Vectors.lean ====
section
/-!
SUPPORT. Vectors element by element: what a packed list of elements holds, and what a guarded vector write leaves (R18, R135,
R136).
-/

namespace Sys2Proof.Machine

theorem packEl_lt (w : Nat) (l : List Nat) : packEl w l < 2 ^ (w * l.length) := by
  induction l with
  | nil => simp [packEl]
  | cons x xs ih =>
    have h1 : x % 2 ^ w < 2 ^ w := Nat.mod_lt _ (by positivity)
    have e : 2 ^ (w * (x :: xs).length) = 2 ^ w * 2 ^ (w * xs.length) := by
      rw [← Nat.pow_add, List.length_cons]; ring_nf
    rw [e]
    unfold packEl
    calc x % 2 ^ w + 2 ^ w * packEl w xs < 2 ^ w + 2 ^ w * packEl w xs := by omega
      _ = 2 ^ w * (packEl w xs + 1) := by ring
      _ ≤ _ := Nat.mul_le_mul_left _ ih

theorem elem_packEl (w : Nat) (l : List Nat) (i : Nat) : elem w (packEl w l) i = (l[i]?.getD 0) % 2 ^ w := by
  induction l generalizing i with
  | nil => simp [packEl, elem]
  | cons x xs ih =>
    unfold elem packEl
    cases i with
    | zero => simp [Nat.add_mul_mod_self_left]
    | succ i =>
      have e : 2 ^ (w * (i + 1)) = 2 ^ w * 2 ^ (w * i) := by rw [← Nat.pow_add]; ring_nf
      rw [e, ← Nat.div_div_eq_div_mul, Nat.add_mul_div_left _ _ (by positivity),
        Nat.div_eq_of_lt (Nat.mod_lt _ (by positivity)), Nat.zero_add]
      simpa [elem] using ih i

theorem elem_ofNat (w i N x : Nat) (h : x < 2 ^ N) : elem w (BitVec.ofNat N x).toNat i = elem w x i := by
  rw [BitVec.toNat_ofNat, Nat.mod_eq_of_lt h]

theorem groupMask_bit (w : Nat) (p : Nat → Bool) (j : Nat) (hj : j < 32) :
    (groupMask w p).getLsbD j = groupAny w j p := by
  have hl := packEl_lt 1 ((List.range 32).map fun j => if groupAny w j p then 1 else 0)
  have he := elem_packEl 1 ((List.range 32).map fun j => if groupAny w j p then 1 else 0) j
  unfold groupMask
  generalize packEl 1 ((List.range 32).map fun j => if groupAny w j p then 1 else 0) = N at *
  simp only [List.length_map, List.length_range, Nat.one_mul] at hl
  simp only [BitVec.getLsbD_ofNat, hj, decide_true, Bool.true_and]
  simp [elem, hj] at he
  rw [Nat.testBit_eq_decide_div_mod_eq, he]
  cases groupAny w j p <;> simp

theorem wrE_writes (s : State) (vd : R6) (w lat : Nat) (f : Nat → Option (Nat × Bool)) (hw : w ∈ [2, 4, 8, 16, 32, 64])
    (hv : s.curV vd = s.vNow (physV s.pre.c vd)) :
    VectorWrites s (s.wrE vd w lat f) (physV s.pre.c vd) w f := by
  have hsplit : ∀ i < 2048 / w, i * w / 64 < 32 := by
    intro i hi
    simp only [List.mem_cons, List.not_mem_nil, or_false] at hw
    rcases hw with rfl | rfl | rfl | rfl | rfl | rfl <;> omega
  have hn : w * (2048 / w) ≤ 2048 := Nat.mul_div_le _ _
  have hat : ∀ i, ((((List.range (2048 / w)).map f)[i]?).join) = if i < 2048 / w then f i else none := by
    intro i
    by_cases h : i < 2048 / w
    · simp [h]
    · simp [h]
  constructor
  · intro i hi
    have e : (s.wrE vd w lat f).vNow (physV s.pre.c vd) = (mergeV w (s.curV vd) (s.curVP vd) f).1 :=
      wrV_vNow s vd _ _ lat (physV_lt _ _)
    rw [e]
    unfold mergeV
    simp only [hat]
    rw [elem_ofNat, elem_packEl]
    · simp only [List.getElem?_map, List.getElem?_range hi, Option.map_some, Option.getD_some, if_pos hi]
      cases f i with
      | some x => rfl
      | none => simp only; rw [hv]; unfold elem; rw [Nat.mod_mod]
    · refine lt_of_lt_of_le (packEl_lt _ _) (Nat.pow_le_pow_right (by omega) ?_)
      simpa using hn
  · intro j hj
    have e : (s.wrE vd w lat f).vPoison (physV s.pre.c vd) = (mergeV w (s.curV vd) (s.curVP vd) f).2 :=
      wrV_vPoison s vd _ _ lat (physV_lt _ _)
    rw [e]
    unfold mergeV
    simp only [hat]
    rw [groupMask_bit _ _ _ hj]
    have hmem : ∀ i, i < 2048 / w ∧ i * w / 64 = j ↔ ∃ k < 64 / w, i = j * (64 / w) + k := by
      intro i
      refine ⟨fun h => ⟨i - j * (64 / w), ?_, ?_⟩, ?_⟩
      · obtain ⟨h1, h2⟩ := h
        simp only [List.mem_cons, List.not_mem_nil, or_false] at hw
        rcases hw with rfl | rfl | rfl | rfl | rfl | rfl <;> omega
      · obtain ⟨h1, h2⟩ := h
        simp only [List.mem_cons, List.not_mem_nil, or_false] at hw
        rcases hw with rfl | rfl | rfl | rfl | rfl | rfl <;> omega
      · rintro ⟨k, h1, h2⟩
        simp only [List.mem_cons, List.not_mem_nil, or_false] at hw
        rcases hw with rfl | rfl | rfl | rfl | rfl | rfl <;> constructor <;> omega
    have hw64 : w ≤ 64 := by
      simp only [List.mem_cons, List.not_mem_nil, or_false] at hw
      omega
    unfold groupAny
    rw [if_pos hw64]
    simp only [List.any_eq_true, List.mem_range]
    constructor
    · rintro ⟨k, hk, h⟩
      obtain ⟨h1, h2⟩ := (hmem (j * (64 / w) + k)).2 ⟨k, hk, rfl⟩
      refine ⟨_, h1, h2, ?_⟩
      rw [if_pos h1] at h
      revert h
      cases f (j * (64 / w) + k) with
      | some x => exact id
      | none => intro h; simpa only [inGroup, h2, show s.curVP vd = s.vPoison (physV s.pre.c vd) from rfl] using h
    · rintro ⟨i, h1, h2, h⟩
      obtain ⟨k, hk, rfl⟩ := (hmem i).1 ⟨h1, h2⟩
      refine ⟨k, hk, ?_⟩
      rw [if_pos h1]
      revert h
      cases f (j * (64 / w) + k) with
      | some x => exact id
      | none => intro h; simpa only [inGroup, h2, show s.curVP vd = s.vPoison (physV s.pre.c vd) from rfl] using h

theorem tyWidth_mem (t : BitVec 4) : tyWidth t ∈ [2, 4, 8, 16, 32, 64] := by
  revert t; decide

theorem wrE_done (i : Instr) (s : State) (vd : R6) (w lat : Nat) (f : Nat → Option (Nat × Bool)) (hw : w ∈ [2, 4, 8, 16, 32, 64])
    (h : exec i s = .next (s.wrE vd w lat f)) : VectorDone i s vd w f :=
  ⟨_, h, wrV_only _ _ _ _ _, wrE_writes s vd w lat f hw rfl, rfl, rfl, rfl⟩
end Sys2Proof.Machine
end

