-- ==== Sys2Proof/Tests/Slice0.lean ====
section
/-!
SUPPORT. Tests: words written out from the spec's encodings and what they stand for, terms that are no instructions, single steps
whose results are worked out by hand, and for each statement a state and operands that meet its hypotheses.
-/

open Sys2Proof Sys2Proof.Machine

namespace Sys2Proof.Tests

set_option Elab.async false

/-! ### Decoding -/

/-- Format SR of R57, the opcodes of R64: sd at bit 18, sa at 12, sb at 6. -/
theorem test_decode_scalar_registers_1 : ∀ x ∈ ([
    (0x845FC0, .op (.add 33 5 63)), (0x1886F80, .op (.sub 34 6 62)), (0x28C7F40, .op (.and 35 7 61)),
    (0x3908F00, .op (.or 36 8 60)), (0x4949EC0, .op (.xor 37 9 59)), (0x598AE80, .op (.andn 38 10 58)),
    (0x69CBE40, .op (.shl 39 11 57)), (0x7A0CE00, .op (.shr 40 12 56)), (0x8A4DDC0, .op (.sar 41 13 55)),
    (0x9A8ED80, .op (.rol 42 14 54)), (0xAACFD40, .op (.mul 43 15 53)), (0xBB10D00, .op (.mulh 44 16 52)),
    (0xCB51CC0, .op (.mulhn 45 17 51)), (0xDB92C80, .op (.div 46 18 50)), (0xEBD3C40, .op (.divn 47 19 49)),
    (0xFC14C00, .op (.rem 48 20 48)), (0x10C55BC0, .op (.remn 49 21 47)), (0x11C96B80, .op (.min 50 22 46)),
    (0x12CD7B40, .op (.max 51 23 45)), (0x13D18B00, .op (.minn 52 24 44)), (0x14D59AC0, .op (.maxn 53 25 43)),
    (0x15A11000, .op (.clz 40 17)), (0x16468000, .op (.popc 17 40)), (0x18840C80, .op (.cmpEq 33 0 50))
    ] : List (Nat × Slot)), decodeSlot .scalar false x.1 = .ok x.2 := by decide +kernel

/-- Format SR of R57, the opcodes of R64: sd at bit 18, sa at 12, sb at 6. -/
theorem test_decode_scalar_registers_2 : ∀ x ∈ ([
    (0x19882C40, .op (.cmpNe 34 2 49)), (0x1A8C4C00, .op (.cmpLt 35 4 48)), (0x1B906BC0, .op (.cmpGe 36 6 47)),
    (0x1C948B80, .op (.cmpLtn 37 8 46)), (0x1D98AB40, .op (.cmpGen 38 10 45))
    ] : List (Nat × Slot)), decodeSlot .scalar false x.1 = .ok x.2 := by decide +kernel

/-- Format SI of R57, opcodes 0x20 above the register forms (R64): imm at bit 0. -/
theorem test_decode_scalar_immediates_1 : ∀ x ∈ ([
    (0x2052CFFF, .op (.addImm 20 44 4095)), (0x2156BFDA, .op (.subImm 21 43 4058)), (0x225AAFB5, .op (.andImm 22 42 4021)),
    (0x235E9F90, .op (.orImm 23 41 3984)), (0x24628F6B, .op (.xorImm 24 40 3947)), (0x25667F46, .op (.andnImm 25 39 3910)),
    (0x266A6039, .op (.shlImm 26 38 57)), (0x276E5038, .op (.shrImm 27 37 56)), (0x28724037, .op (.sarImm 28 36 55)),
    (0x29763036, .op (.rolImm 29 35 54)), (0x2A7A2E8D, .op (.mulImm 30 34 3725)), (0x2B7E1E68, .op (.mulhImm 31 33 3688)),
    (0x2C820E43, .op (.mulhnImm 32 32 3651)), (0x2D85FE1E, .op (.divImm 33 31 3614)), (0x2E89EDF9, .op (.divnImm 34 30 3577)),
    (0x2F8DDDD4, .op (.remImm 35 29 3540)), (0x3091CDAF, .op (.remnImm 36 28 3503)), (0x3195BD8A, .op (.minImm 37 27 3466)),
    (0x3299AD65, .op (.maxImm 38 26 3429)), (0x339D9D40, .op (.minnImm 39 25 3392)), (0x34A18D1B, .op (.maxnImm 40 24 3355)),
    (0x38840800, .op (.cmpEqImm 33 0 2048)), (0x39882801, .op (.cmpNeImm 34 2 2049)), (0x3A8C4802, .op (.cmpLtImm 35 4 2050))
    ] : List (Nat × Slot)), decodeSlot .scalar false x.1 = .ok x.2 := by decide +kernel

/-- Format SI of R57, opcodes 0x20 above the register forms (R64): imm at bit 0. -/
theorem test_decode_scalar_immediates_2 : ∀ x ∈ ([
    (0x3B906803, .op (.cmpGeImm 36 6 2051)), (0x3C948804, .op (.cmpLtnImm 37 8 2052)),
    (0x3D98A805, .op (.cmpGenImm 38 10 2053))
    ] : List (Nat × Slot)), decodeSlot .scalar false x.1 = .ok x.2 := by decide +kernel

/-- Floating forms with t at bit 4, m at 2 and aux at 0; formats SQ, SP, SC and SL (R57, R64). -/
theorem test_decode_scalar_others_1 : ∀ x ∈ ([
    (0x40847F0C, .op (.fadd 33 7 60 0 3)), (0x41888ED8, .op (.fsub 34 8 59 1 2)), (0x428C9EA4, .op (.fmul 35 9 58 2 1)),
    (0x4390AE70, .op (.fdiv 36 10 57 3 0)), (0x448C8024, .op (.fsqrt 35 8 2 1)), (0x45909A70, .op (.fmin 36 9 41 3)),
    (0x46909A50, .op (.fmax 36 9 41 1)), (0x48909A60, .op (.fcmpEq 36 9 41 2)), (0x49909A50, .op (.fcmpLt 36 9 41 1)),
    (0x4A909A70, .op (.fcmpLe 36 9 41 3)), (0x4B909A60, .op (.fcmpUn 36 9 41 2)), (0x4C90901A, .op (.cvtif 36 9 1 2 1)),
    (0x4D909026, .op (.cvtfi 36 9 2 1 1)), (0x4E909036, .op (.cvtff 36 9 3 1 2)), (0x50909A56, .op (.fmaF64 36 9 41 22)),
    (0x5194AA95, .op (.fmaF32 37 10 42 21)), (0x5889B200, .op (.pand 17 6 25)), (0x5991F000, .op (.por 18 7 24)),
    (0x5A9A2E00, .op (.pxor 19 8 23)), (0x5BA26C00, .op (.pandn 20 9 22)), (0x608A30C0, .op (.pcmpEq 17 35 3)),
    (0x61924100, .op (.pcmpNe 18 36 4)), (0x629A5140, .op (.pcmpLt 19 37 5)), (0x63A26180, .op (.pcmpGe 20 38 6))
    ] : List (Nat × Slot)), decodeSlot .scalar false x.1 = .ok x.2 := by decide +kernel

/-- Floating forms with t at bit 4, m at 2 and aux at 0; formats SQ, SP, SC and SL (R57, R64). -/
theorem test_decode_scalar_others_2 : ∀ x ∈ ([
    (0x64AA71C0, .op (.pcmpLtn 21 39 7)), (0x65B28200, .op (.pcmpGen 22 40 8)), (0x7092AAAA, .op (.movi 36 0x2AAAA)),
    (0x7192ABCD, .op (.movk 36 2 0xABCD)), (0x7293FFFE, .op (.addpc 36 0x3FFFE))
    ] : List (Nat × Slot)), decodeSlot .scalar false x.1 = .ok x.2 := by decide +kernel

/-- Formats CT, CB, CL, CK, CS and CN of R58 with the fields of R121 to R131, R191 and R194; the opcodes of R65. -/
theorem test_decode_control_1 : ∀ x ∈ ([
    (0xBFFFFF, .op (.pbr 5 0x1FFFFF)), (0x1A0A800, .op (.pbrr 5 42)), (0x2B30000, .op (.br 5 19)),
    (0x3540000, .op (.brn 2 20)), (0x4750000, .op (.call 3 21)), (0x5D6AC00, .op (.chk 6 22 43)),
    (0x8B20001, .op (.loop 44 0x20001)), (0x9801402, .op (.loopi 0x801 0x402)), (0xA000000, .op .blc), (0xA000001, .op .lpop),
    (0x10B49400, .op (.mfc 45 0x25 0)), (0x10B41F00, .op (.mfc 45 7 3)), (0x11B85800, .op (.mtc 46 0x16 0)),
    (0x11B83E00, .op (.mtc 46 15 2)), (0x11B80000, .op (.mtcStatus 46)), (0x11B80400, .op (.mtcFpf 46)),
    (0x11B80800, .op (.mtcFerec 46)), (0x11B82000, .op (.mtcRng 46)), (0x11B83000, .op (.mtcTrpb 46)),
    (0x11B83800, .op (.mtcTrpc 46)), (0x12BC0240, .op (.twait 47 2 1 0)), (0x120003A0, .op (.twait 0 3 2 1)),
    (0x13C30E00, .op (.barArrive 48 0xC3 2)), (0x13C4F101, .op (.barWait 49 0x3C 1))
    ] : List (Nat × Slot)), decodeSlot .control false x.1 = .ok x.2 := by decide +kernel

/-- Formats CT, CB, CL, CK, CS and CN of R58 with the fields of R121 to R131, R191 and R194; the opcodes of R65. -/
theorem test_decode_control_2 : ∀ x ∈ ([
    (0x18000ABC, .op (.cut 0xABC)), (0x19000002, .op (.prio 2)), (0x1A000000, .op .dorm), (0x1B000000, .op .exit),
    (0x1C00BEEF, .op (.trap 0xBEEF)), (0x1D0000EA, .op (.tret 1 1 5 2))
    ] : List (Nat × Slot)), decodeSlot .control false x.1 = .ok x.2 := by decide +kernel

/-- Format VR of R59, the used fields of R140, the opcodes of R66; the fields in the order of the layout. -/
theorem test_decode_vector_1 : ∀ x ∈ ([
    (0x852565004C8400, .op (.vadd ⟨33, 18, 2, 44, 5, 0, 0, 19, 2, 0, 1, 0, 0⟩)),
    (0x1852565004DC400, .op (.vsub ⟨33, 18, 2, 44, 5, 0, 0, 19, 7, 0, 1, 0, 0⟩)),
    (0x2852565004C0400, .op (.vadds ⟨33, 18, 2, 44, 5, 0, 0, 19, 0, 0, 1, 0, 0⟩)),
    (0x3852565004D4400, .op (.vsubs ⟨33, 18, 2, 44, 5, 0, 0, 19, 5, 0, 1, 0, 0⟩)),
    (0x4852565004C4400, .op (.vmul ⟨33, 18, 2, 44, 5, 0, 0, 19, 1, 0, 1, 0, 0⟩)),
    (0x5852565004D8400, .op (.vmulh ⟨33, 18, 2, 44, 5, 0, 0, 19, 6, 0, 1, 0, 0⟩)),
    (0x6852565DDCCC400, .op (.vmad ⟨33, 18, 2, 44, 5, 55, 3, 19, 3, 0, 1, 0, 0⟩)),
    (0x7852565004D0400, .op (.vmin ⟨33, 18, 2, 44, 5, 0, 0, 19, 4, 0, 1, 0, 0⟩)),
    (0x8852565004C8400, .op (.vmax ⟨33, 18, 2, 44, 5, 0, 0, 19, 2, 0, 1, 0, 0⟩)),
    (0x9852400004CC400, .op (.vabs ⟨33, 18, 2, 0, 0, 0, 0, 19, 3, 0, 1, 0, 0⟩)),
    (0xA852400004C4400, .op (.vneg ⟨33, 18, 2, 0, 0, 0, 0, 19, 1, 0, 1, 0, 0⟩)),
    (0xB852565004EC400, .op (.vand ⟨33, 18, 2, 44, 5, 0, 0, 19, 11, 0, 1, 0, 0⟩)),
    (0xC852565004E8400, .op (.vor ⟨33, 18, 2, 44, 5, 0, 0, 19, 10, 0, 1, 0, 0⟩)),
    (0xD852565004E4400, .op (.vxor ⟨33, 18, 2, 44, 5, 0, 0, 19, 9, 0, 1, 0, 0⟩)),
    (0xE852565004E0400, .op (.vandn ⟨33, 18, 2, 44, 5, 0, 0, 19, 8, 0, 1, 0, 0⟩)),
    (0xF852565004DC400, .op (.vshl ⟨33, 18, 2, 44, 5, 0, 0, 19, 7, 0, 1, 0, 0⟩)),
    (0x10852565004CC400, .op (.vshr ⟨33, 18, 2, 44, 5, 0, 0, 19, 3, 0, 1, 0, 0⟩)),
    (0x11852400004D4400, .op (.vpopc ⟨33, 18, 2, 0, 0, 0, 0, 19, 5, 0, 1, 0, 0⟩)),
    (0x12852400004D8400, .op (.vclz ⟨33, 18, 2, 0, 0, 0, 0, 19, 6, 0, 1, 0, 0⟩)),
    (0x13852400004EC400, .op (.vmov ⟨33, 18, 2, 0, 0, 0, 0, 19, 11, 0, 1, 0, 0⟩)),
    (0x20852565004EAE40, .op (.vfadd ⟨33, 18, 2, 44, 5, 0, 0, 19, 10, 5, 1, 9, 0⟩)),
    (0x21852565004EEE40, .op (.vfsub ⟨33, 18, 2, 44, 5, 0, 0, 19, 11, 5, 1, 9, 0⟩)),
    (0x22852565004E2E40, .op (.vfmul ⟨33, 18, 2, 44, 5, 0, 0, 19, 8, 5, 1, 9, 0⟩)),
    (0x23852565DDCEAE40, .op (.vfma ⟨33, 18, 2, 44, 5, 55, 3, 19, 10, 5, 1, 9, 0⟩))
    ] : List (Nat × Slot)), decodeSlot .vector false x.1 = .ok x.2 := by decide +kernel

/-- Format VR of R59, the used fields of R140, the opcodes of R66; the fields in the order of the layout. -/
theorem test_decode_vector_2 : ∀ x ∈ ([
    (0x24852565DDCE6E40, .op (.vfnma ⟨33, 18, 2, 44, 5, 55, 3, 19, 9, 5, 1, 9, 0⟩)),
    (0x25852565004EAE40, .op (.vfdiv ⟨33, 18, 2, 44, 5, 0, 0, 19, 10, 5, 1, 9, 0⟩)),
    (0x26852400004EEE40, .op (.vfsqrt ⟨33, 18, 2, 0, 0, 0, 0, 19, 11, 5, 1, 9, 0⟩)),
    (0x27852565004E8400, .op (.vfmin ⟨33, 18, 2, 44, 5, 0, 0, 19, 10, 0, 1, 0, 0⟩)),
    (0x28852565004EC400, .op (.vfmax ⟨33, 18, 2, 44, 5, 0, 0, 19, 11, 0, 1, 0, 0⟩)),
    (0x29852400004E8400, .op (.vfrcp ⟨33, 18, 2, 0, 0, 0, 0, 19, 10, 0, 1, 0, 0⟩)),
    (0x2A852400004EC400, .op (.vfrsq ⟨33, 18, 2, 0, 0, 0, 0, 19, 11, 0, 1, 0, 0⟩)),
    (0x2B852400004E0400, .op (.vfexp2 ⟨33, 18, 2, 0, 0, 0, 0, 19, 8, 0, 1, 0, 0⟩)),
    (0x2C852400004E4400, .op (.vflog2 ⟨33, 18, 2, 0, 0, 0, 0, 19, 9, 0, 1, 0, 0⟩)),
    (0x30452565004D8405, .op (.vcmp ⟨17, 18, 2, 44, 5, 0, 0, 19, 6, 0, 1, 0, 5⟩)),
    (0x31452565004E8407, .op (.vfcmp ⟨17, 18, 2, 44, 5, 0, 0, 19, 10, 0, 1, 0, 7⟩)),
    (0x32852565004C8000, .op (.vsel ⟨33, 18, 2, 44, 5, 0, 0, 19, 2, 0, 0, 0, 0⟩)),
    (0x33840160004E8400, .op (.vbcst ⟨33, 0, 0, 44, 0, 0, 0, 19, 10, 0, 1, 0, 0⟩)),
    (0x38852400004E9C32, .op (.vcvt ⟨33, 18, 2, 0, 0, 0, 0, 19, 10, 3, 1, 0, 50⟩)),
    (0x39852565004EAE43, .op (.vqnt ⟨33, 18, 2, 44, 5, 0, 0, 19, 10, 5, 1, 9, 3⟩)),
    (0x39852400004EEE61, .op (.vqntScale ⟨33, 18, 2, 0, 0, 0, 0, 19, 11, 5, 1, 9, 33⟩)),
    (0x3A852565004EAE42, .op (.vdqnt ⟨33, 18, 2, 44, 5, 0, 0, 19, 10, 5, 1, 9, 2⟩)),
    (0x40852400004C8406, .op (.vxch ⟨33, 18, 2, 0, 0, 0, 0, 19, 2, 0, 1, 0, 6⟩)),
    (0x41852565004CC400, .op (.vperm ⟨33, 18, 2, 44, 5, 0, 0, 19, 3, 0, 1, 0, 0⟩)),
    (0x42852400004EC400, .op (.vcomp ⟨33, 18, 2, 0, 0, 0, 0, 19, 11, 0, 1, 0, 0⟩)),
    (0x43852400004E0400, .op (.vexp ⟨33, 18, 2, 0, 0, 0, 0, 19, 8, 0, 1, 0, 0⟩)),
    (0x44852565004C843F, .op (.vsld ⟨33, 18, 2, 44, 5, 0, 0, 19, 2, 0, 1, 0, 63⟩)),
    (0x48852400004DC000, .op (.vrsum ⟨33, 18, 2, 0, 0, 0, 0, 19, 7, 0, 0, 0, 0⟩)),
    (0x49852400004C8000, .op (.vrmax ⟨33, 18, 2, 0, 0, 0, 0, 19, 2, 0, 0, 0, 0⟩))
    ] : List (Nat × Slot)), decodeSlot .vector false x.1 = .ok x.2 := by decide +kernel

/-- Format VR of R59, the used fields of R140, the opcodes of R66; the fields in the order of the layout. -/
theorem test_decode_vector_3 : ∀ x ∈ ([
    (0x4A852400004D8000, .op (.vrmin ⟨33, 18, 2, 0, 0, 0, 0, 19, 6, 0, 0, 0, 0⟩)),
    (0x4B852400004E8000, .op (.vrfsum ⟨33, 18, 2, 0, 0, 0, 0, 19, 10, 0, 0, 0, 0⟩)),
    (0x4C852400004EC000, .op (.vrfmax ⟨33, 18, 2, 0, 0, 0, 0, 19, 11, 0, 0, 0, 0⟩))
    ] : List (Nat × Slot)), decodeSlot .vector false x.1 = .ok x.2 := by decide +kernel

/-- Format VS of R59: sb in place of vb and qb; opcodes 0x80 above the VR forms (R66). -/
theorem test_decode_vector_scalar_forms_1 : ∀ x ∈ ([
    (0x80852560004C8400, .op (.vaddS ⟨33, 18, 2, 44, 0, 0, 0, 19, 2, 0, 1, 0, 0⟩)),
    (0x81852560004DC400, .op (.vsubS ⟨33, 18, 2, 44, 0, 0, 0, 19, 7, 0, 1, 0, 0⟩)),
    (0x82852560004C0400, .op (.vaddsS ⟨33, 18, 2, 44, 0, 0, 0, 19, 0, 0, 1, 0, 0⟩)),
    (0x83852560004D4400, .op (.vsubsS ⟨33, 18, 2, 44, 0, 0, 0, 19, 5, 0, 1, 0, 0⟩)),
    (0x84852560004C4400, .op (.vmulS ⟨33, 18, 2, 44, 0, 0, 0, 19, 1, 0, 1, 0, 0⟩)),
    (0x85852560004D8400, .op (.vmulhS ⟨33, 18, 2, 44, 0, 0, 0, 19, 6, 0, 1, 0, 0⟩)),
    (0x86852560DDCCC400, .op (.vmadS ⟨33, 18, 2, 44, 0, 55, 3, 19, 3, 0, 1, 0, 0⟩)),
    (0x87852560004D0400, .op (.vminS ⟨33, 18, 2, 44, 0, 0, 0, 19, 4, 0, 1, 0, 0⟩)),
    (0x88852560004C8400, .op (.vmaxS ⟨33, 18, 2, 44, 0, 0, 0, 19, 2, 0, 1, 0, 0⟩)),
    (0x8B852560004EC400, .op (.vandS ⟨33, 18, 2, 44, 0, 0, 0, 19, 11, 0, 1, 0, 0⟩)),
    (0x8C852560004E8400, .op (.vorS ⟨33, 18, 2, 44, 0, 0, 0, 19, 10, 0, 1, 0, 0⟩)),
    (0x8D852560004E4400, .op (.vxorS ⟨33, 18, 2, 44, 0, 0, 0, 19, 9, 0, 1, 0, 0⟩)),
    (0x8E852560004E0400, .op (.vandnS ⟨33, 18, 2, 44, 0, 0, 0, 19, 8, 0, 1, 0, 0⟩)),
    (0x8F852560004DC400, .op (.vshlS ⟨33, 18, 2, 44, 0, 0, 0, 19, 7, 0, 1, 0, 0⟩)),
    (0x90852560004CC400, .op (.vshrS ⟨33, 18, 2, 44, 0, 0, 0, 19, 3, 0, 1, 0, 0⟩)),
    (0xA0852560004EAE40, .op (.vfaddS ⟨33, 18, 2, 44, 0, 0, 0, 19, 10, 5, 1, 9, 0⟩)),
    (0xA1852560004EEE40, .op (.vfsubS ⟨33, 18, 2, 44, 0, 0, 0, 19, 11, 5, 1, 9, 0⟩)),
    (0xA2852560004E2E40, .op (.vfmulS ⟨33, 18, 2, 44, 0, 0, 0, 19, 8, 5, 1, 9, 0⟩)),
    (0xA3852560DDCEAE40, .op (.vfmaS ⟨33, 18, 2, 44, 0, 55, 3, 19, 10, 5, 1, 9, 0⟩)),
    (0xA4852560DDCE6E40, .op (.vfnmaS ⟨33, 18, 2, 44, 0, 55, 3, 19, 9, 5, 1, 9, 0⟩)),
    (0xA5852560004EAE40, .op (.vfdivS ⟨33, 18, 2, 44, 0, 0, 0, 19, 10, 5, 1, 9, 0⟩)),
    (0xA7852560004E8400, .op (.vfminS ⟨33, 18, 2, 44, 0, 0, 0, 19, 10, 0, 1, 0, 0⟩)),
    (0xA8852560004EC400, .op (.vfmaxS ⟨33, 18, 2, 44, 0, 0, 0, 19, 11, 0, 1, 0, 0⟩)),
    (0xB0452560004D8405, .op (.vcmpS ⟨17, 18, 2, 44, 0, 0, 0, 19, 6, 0, 1, 0, 5⟩))
    ] : List (Nat × Slot)), decodeSlot .vector false x.1 = .ok x.2 := by decide +kernel

/-- Format VS of R59: sb in place of vb and qb; opcodes 0x80 above the VR forms (R66). -/
theorem test_decode_vector_scalar_forms_2 : ∀ x ∈ ([
    (0xB1452560004E8407, .op (.vfcmpS ⟨17, 18, 2, 44, 0, 0, 0, 19, 10, 0, 1, 0, 7⟩))
    ] : List (Nat × Slot)), decodeSlot .vector false x.1 = .ok x.2 := by decide +kernel

/-- GSET and GIDX in format VR (R158, R159), the predicates in format VG (R59); opcodes of S3 alone (R66). -/
theorem test_decode_geometry : ∀ x ∈ ([
    (0xC0152565DDCE8402, .op (.gset ⟨5, 18, 2, 44, 5, 55, 3, 19, 10, 0, 1, 0, 2⟩)),
    (0xC1192400004D8402, .op (.gidx ⟨6, 18, 2, 0, 0, 0, 0, 19, 6, 0, 1, 0, 2⟩)),
    (0xC486332981400000, .op (.gor2 ⟨33, 17, 19, 1, 2, 3, 0, 0, 2, 1⟩)),
    (0xC5863329C0C00000, .op (.gor3 ⟨33, 17, 19, 1, 2, 3, 4, 0, 1, 1⟩)),
    (0xC6863329D1400000, .op (.ginc ⟨33, 17, 19, 1, 2, 3, 5, 0, 2, 1⟩)),
    (0xC7863329CD400000, .op (.gins ⟨33, 17, 19, 1, 2, 3, 4, 6, 2, 1⟩)),
    (0xC8863329F0C00000, .op (.gseg ⟨33, 17, 19, 1, 2, 3, 7, 0, 1, 1⟩))
    ] : List (Nat × Slot)), decodeSlot .vector true x.1 = .ok x.2 := by decide +kernel

/-- Format LS of R63, the opcodes of R69. -/
theorem test_decode_scalar_memory : ∀ x ∈ ([
    (0x849CB080000001, .op (.ldI8 ⟨33, 9, 50, 3, 0, 2147483649⟩)),
    (0x188AC7080000002, .op (.ldN8 ⟨34, 10, 49, 3, 0, 2147483650⟩)),
    (0x28CBC3080000003, .op (.ldI16 ⟨35, 11, 48, 3, 0, 2147483651⟩)),
    (0x390CBF080000004, .op (.ldN16 ⟨36, 12, 47, 3, 0, 2147483652⟩)),
    (0x494DBB080000005, .op (.ldI32 ⟨37, 13, 46, 3, 0, 2147483653⟩)),
    (0x598EB7080000006, .op (.ldN32 ⟨38, 14, 45, 3, 0, 2147483654⟩)),
    (0x69CFB3080000007, .op (.ldI64 ⟨39, 15, 44, 3, 0, 2147483655⟩)),
    (0x8849CA07FFFFFFF, .op (.stN8 ⟨33, 9, 50, 2, 0, 2147483647⟩)),
    (0x988AC607FFFFFFE, .op (.stN16 ⟨34, 10, 49, 2, 0, 2147483646⟩)),
    (0xA8CBC207FFFFFFD, .op (.stN32 ⟨35, 11, 48, 2, 0, 2147483645⟩)),
    (0xB90CBE07FFFFFFC, .op (.stN64 ⟨36, 12, 47, 2, 0, 2147483644⟩)),
    (0xC94DBA07FFFFFFB, .op (.ldsI32 ⟨37, 13, 46, 2, 0, 2147483643⟩)),
    (0xD98EB607FFFFFFA, .op (.ldsN32 ⟨38, 14, 45, 2, 0, 2147483642⟩)),
    (0xE9CFB207FFFFFF9, .op (.ldsI64 ⟨39, 15, 44, 2, 0, 2147483641⟩)),
    (0x10849C9000000101, .op (.ldaN32 ⟨33, 9, 50, 1, 0, 257⟩)), (0x1188AC5400000102, .op (.ldaI64 ⟨34, 10, 49, 1, 1, 258⟩)),
    (0x128CBC1800000103, .op (.stlN32 ⟨35, 11, 48, 1, 2, 259⟩)), (0x1390CBDC00000104, .op (.stlN64 ⟨36, 12, 47, 1, 3, 260⟩)),
    (0x3000000C00000000, .op (.drain ⟨0, 0, 0, 0, 3, 0⟩)), (0x31009C9800000040, .op (.clwb ⟨0, 9, 50, 1, 2, 64⟩)),
    (0x32009C9000000040, .op (.clinv ⟨0, 9, 50, 1, 0, 64⟩)), (0x33009C9400000040, .op (.clfl ⟨0, 9, 50, 1, 1, 64⟩)),
    (0x34849C8400000040, .op (.waita ⟨33, 9, 50, 0, 1, 64⟩))
    ] : List (Nat × Slot)), decodeSlot .memory false x.1 = .ok x.2 := by decide +kernel

/-- Formats LA, LV, LG and LX of R63, the opcodes of R69. -/
theorem test_decode_other_memory : ∀ x ∈ ([
    (0x18849C8000000000, .op (.aadd ⟨33, 9, 50, 0, 0, 0⟩)), (0x1984AC4060000000, .op (.aand ⟨33, 10, 49, 0, 1, 1⟩)),
    (0x1A84BC0080000000, .op (.aor ⟨33, 11, 48, 0, 2, 0⟩)), (0x1B84CBC0E0000000, .op (.axor ⟨33, 12, 47, 0, 3, 1⟩)),
    (0x1C84DB8000000000, .op (.amin ⟨33, 13, 46, 0, 0, 0⟩)), (0x1D84EB4060000000, .op (.amax ⟨33, 14, 45, 0, 1, 1⟩)),
    (0x1E84FB0080000000, .op (.aswp ⟨33, 15, 44, 0, 2, 0⟩)), (0x1F849CACE0000000, .op (.acas ⟨33, 9, 50, 44, 3, 1⟩)),
    (0x20841394EC800001, .op (.vld ⟨33, 0, 9, 50, 19, 11, 0, 8388609⟩)),
    (0x21871394EC800001, .op (.vst ⟨33, 6, 9, 50, 19, 11, 0, 8388609⟩)),
    (0x22841394EC800001, .op (.vlds ⟨33, 0, 9, 50, 19, 11, 0, 8388609⟩)),
    (0x23869394EC800001, .op (.vsts ⟨33, 5, 9, 50, 19, 11, 0, 8388609⟩)),
    (0x248413959B800000, .op (.vgth ⟨33, 0, 9, 50, 5, 19, 7, 0⟩)),
    (0x258713959B800000, .op (.vsct ⟨33, 6, 9, 50, 5, 19, 7, 0⟩)),
    (0x2644139000800001, .op (.pld ⟨17, 0, 9, 50, 0, 0, 0, 8388609⟩)),
    (0x2744139000800001, .op (.pst ⟨17, 0, 9, 50, 0, 0, 0, 8388609⟩)), (0x3884002800000000, .op (.sown ⟨33, 0, 0, 5, 0⟩)),
    (0x3900003000000000, .op (.srel ⟨0, 0, 0, 6, 0⟩)), (0x3A009CB8007FFFFF, .op (.sact ⟨0, 9, 50, 7, 8388607⟩)),
    (0x3B009CA000400001, .op (.spre ⟨0, 9, 50, 4, 4194305⟩)), (0x3B00002400000000, .op (.spreAll ⟨0, 0, 0, 4, 17179869184⟩)),
    (0x3C00001800000000, .op (.sref ⟨0, 0, 0, 3, 0⟩)), (0x3D849C9000012345, .op (.sldx ⟨33, 9, 50, 2, 74565⟩)),
    (0x3E889C8800054321, .op (.sstx ⟨34, 9, 50, 1, 344865⟩))
    ] : List (Nat × Slot)), decodeSlot .memory false x.1 = .ok x.2 := by decide +kernel

/-- A wait/signal block with every half in use: WE at bit 49, WS 0x81, WT 0xC003, SE, SS 0x42, SI 0x99, SPT 1 (R60). -/
def testWait : WaitSig := ⟨1, 129, 49155, 1, 66, 153, 1⟩

/-- Format M of R61 with the fields of R226, ending in testWait; the opcodes of R67. -/
theorem test_decode_matrix : ∀ x ∈ ([
    (0x5223F038007429940, .mat .mcfg ⟨0, 0, 0, 0, 41, 0, 143, testWait⟩),
    (0x100000001C7038007429940, .mat .mfmt ⟨0, 0, 0, 0, 0, 0, 113, testWait⟩),
    (0x2012C0002E3038007429940, .mat .mgoFix ⟨0, 18, 6, 0, 0, 0, 184, testWait⟩),
    (0x2013A000017038007429940, .mat .mgoLoop ⟨0, 19, 5, 0, 0, 0, 5, testWait⟩),
    (0x300010D2957038007429940, .mat .mldw ⟨0, 0, 0, 33, 41, 2, 85, testWait⟩),
    (0x48801081CFB038007429940, .mat .mrdz ⟨34, 0, 0, 33, 0, 7, 62, testWait⟩),
    (0x58C01081887038007429940, .mat .mrdb ⟨35, 0, 0, 33, 0, 6, 33, testWait⟩),
    (0x60000052003038007429940, .mat .mcal ⟨0, 0, 0, 0, 41, 0, 0, testWait⟩),
    (0x70000000297038007429940, .mat .mzclr ⟨0, 0, 0, 0, 0, 0, 165, testWait⟩),
    (0x89000053433038007429940, .mat .mav ⟨36, 0, 0, 0, 41, 5, 12, testWait⟩),
    (0xF0000000003038007429940, .mat .msig ⟨0, 0, 0, 0, 0, 0, 0, testWait⟩)
    ] : List (Nat × Slot)), decodeSlot .matrix false x.1 = .ok x.2 := by decide +kernel

/-- Format E of R62 with the fields of R197 to R207, ending in testWait; the opcodes of R68. -/
theorem test_decode_engine : ∀ x ∈ ([
    (0x295B50003038007429940, .eng .cpy ⟨0, 41, 22, 53, 0, testWait⟩),
    (0x18695B50003038007429940, .eng .cpy2 ⟨33, 41, 22, 53, 0, testWait⟩),
    (0x20295B50003038007429940, .eng .cpy3 ⟨0, 41, 22, 53, 0, testWait⟩),
    (0x38695B51413038007429940, .eng .cpyxScale ⟨33, 41, 22, 53, 1284, testWait⟩),
    (0x38695B52403038007429940, .eng .cpyxAdd ⟨33, 41, 22, 53, 2304, testWait⟩),
    (0x30295B5574F038007429940, .eng .cpyxCast ⟨0, 41, 22, 53, 5587, testWait⟩),
    (0x30295B5700B038007429940, .eng .cpyxRadd ⟨0, 41, 22, 53, 7170, testWait⟩),
    (0x30295B58A03038007429940, .eng .cpyxRmax ⟨0, 41, 22, 53, 8832, testWait⟩),
    (0x48695B50003038007429940, .eng .cpyh ⟨33, 41, 22, 53, 0, testWait⟩),
    (0x80295B50003038007429940, .eng .fcpy ⟨0, 41, 22, 53, 0, testWait⟩),
    (0x98695800003038007429940, .eng .mxredStart ⟨33, 41, 22, 0, 0, testWait⟩),
    (0x98695B56003038007429940, .eng .mxredRelay ⟨33, 41, 22, 53, 6144, testWait⟩),
    (0x98695B58003038007429940, .eng .mxredFinish ⟨33, 41, 22, 53, 8192, testWait⟩),
    (0xA0295800003038007429940, .eng .rsig ⟨0, 41, 22, 0, 0, testWait⟩),
    (0x108695B5A003038007429940, .eng .pmap ⟨33, 41, 22, 53, 10240, testWait⟩),
    (0x11869580C003038007429940, .eng .pmq ⟨33, 41, 22, 0, 12288, testWait⟩),
    (0x128690000003038007429940, .eng .launch ⟨33, 41, 0, 0, 0, testWait⟩),
    (0x130000000003038007429940, .eng .esig ⟨0, 0, 0, 0, 0, testWait⟩)
    ] : List (Nat × Slot)), decodeSlot .engine false x.1 = .ok x.2 := by decide +kernel

/-! ### States of the witnesses

A witness is a concrete state with operands that meet every hypothesis of a statement together. -/

/-- A program of two ADD bundles laid down on core 0, its one context resident, as it stands inside the first bundle: s1 and s6
hold addresses in space 0x2, s2 and s8 offsets of the scratchpad, s3 the number 5, s5 an address in host memory, s7 an address on a
device, s9 to s17 lengths, counts, the program's address and masks of banks; s63 and p31 are poisoned; the region holds eight semaphores on the core, and
the translations of the first sixteen pages of the host are held. -/
def demo : State :=
  let s := State.reset.layProgram (bundleBytes 0 0x000C1080 ++ bundleBytes 0 0x000C1080)
  let regs := [(1, 0x2000000000030000), (2, 0x40), (3, 5), (5, 0x3000000000000100), (6, 0x2000000000030040),
    (7, 0x4003000000000040), (8, 0x80), (9, 0x100), (13, 32), (14, 0x100000020), (15, progVa), (16, 1#64 <<< 63), (17, 0x10000)]
  let r : Regs := { s := regs.foldl (fun v (x : Nat × W64) => vset v x.1 x.2) (Vector.replicate 64 0), sp := 1#64 <<< 63,
                    pp := 1#32 <<< 31 }
  let c : Ctx := { s.ctx with r := r }
  let host : List HostPage := (List.range 16).map fun n => { pasid := 0, page := n, to_ := some (n, true, true) }
  { s with ctx := c, pre := c, iss := { ba := progVa, len := 6, slot := 2, ready := true }, agenda := [],
           mgmt := { s.mgmt with ats := host },
           core := { s.core with grants := [{ rid := 1, base := 0, count := 8 }] } }

/-- The context of a state, and as it stood before its bundle, changed alike. -/
def withCtx (s : State) (f : Ctx → Ctx) : State := { s with ctx := f s.ctx, pre := f s.pre }

/-- The region of the demo changed. -/
def withRegion (s : State) (f : Region → Region) : State := { s with regions := s.regions.map f }

/-- The demo with an E4M3 descriptor with block scales in f0 and in every entry of ft0, and E4M3 without scales under SR in f1. -/
def demoDesc : State :=
  withCtx demo fun c => { c with r := { c.r with f := vset (vset c.r.f 0 0x04207718) 1 0x02207718 } }

/-! ### Scalar, predicate and control statements -/

/-- ComparesAndPredicates, IntegerResults, ScalarFloating, VectorInteger, VectorFloating, VectorCompareResults, LoadsAndReads and
Atomics speak of the rows of tables, none of which is empty. -/
theorem test_meets_tables : intTable ≠ [] ∧ shiftTable ≠ [] ∧ cmpTable ≠ [] ∧ floatTable ≠ [] ∧ floatMinMax ≠ [] ∧
    floatCompares ≠ [] ∧ vIntTable ≠ [] ∧ vLogicTable ≠ [] ∧ vUnTable ≠ [] ∧ vFloatTable ≠ [] ∧ vApproxTable ≠ [] ∧
    (5, fun a b : Int => decide (a ≤ b)) ∈ vcmpTable ∧ vfcmpTable.length = 8 ∧ loadTable ≠ [] ∧ specTable ≠ [] ∧ acqTable ≠ [] ∧
    storeTable ≠ [] ∧ relTable ≠ [] ∧ atomicTable ≠ [] := by
  simp [intTable, shiftTable, cmpTable, floatTable, floatMinMax, floatCompares, vIntTable, vLogicTable, vUnTable, vFloatTable,
    vApproxTable, vcmpTable, vfcmpTable, loadTable, specTable, acqTable, storeTable, relTable, atomicTable]

/-- FloatingArithmetic: finite values with a divisor that is not zero, the largest exponent and fraction of a finite pattern, a
number on its grid and one off it, the largest rounding number, and the NaN and infinity patterns of FP32. -/
theorem test_meets_FloatingArithmetic : (Val.fin false 3 1).finite ∧ (Val.fin true 1 4).finite ∧ (Val.fin true 1 4).exact ≠ 0 ∧
    2 ^ fmt32.eb - 2 < 2 ^ fmt32.eb - 1 ∧ 2 ^ fmt32.mb - 1 < 2 ^ fmt32.mb ∧ (0 < 3 ∧ 0 < 2) ∧ 2 ^ 24 - 1 < 2 ^ 24 ∧
    (∃ q : Nat, ((4 : ℚ) / 2) = q * 2 ^ (1 : Int)) ∧ isNan fmt32 0x7F800001 = true ∧ isNan fmt32 0x3F800000 = false ∧
    0x7F800001 < 2 ^ fmt32.w ∧ decodeVal fmt32 0xBF800000 = .fin true 8388608 8388608 ∧ decodeVal fmt32 0xFF800000 = .inf true := by
  refine ⟨by simp [Val.finite], by simp [Val.finite], by norm_num [Val.exact], by decide, by decide, by decide, by decide, ⟨1, by norm_num⟩, ?_⟩
  decide +kernel

/-- FloatingArithmetic, signs, order and FMA: numbers that cancel, two zeros, a divisor that is none; a product of zero and infinity,
and quiet and signalling NaN patterns of FP32. -/
theorem test_meets_FloatingSigns : (Val.fin false 3 1).exact + (Val.fin true 6 2).exact = 0 ∧ (Val.fin true 0 1).exact + (Val.fin true 0 2).exact = 0 ∧
    (Val.fin true 0 1).finite ∧ (Val.fin true 6 2).exact ≠ 0 ∧ isNan fmt32 0x80000000 = false ∧ isNan fmt32 0 = false ∧
    (∃ n d, decodeVal fmt32 0 = .fin n 0 d) ∧ decodeVal fmt32 0x7F800000 = .inf false ∧
    (∀ x ∈ [0x7F800001, 0x7FC00000], isNan fmt32 x = true ∧ x < 2 ^ fmt32.w) := by
  refine ⟨by norm_num [Val.exact], by norm_num [Val.exact], by simp [Val.finite], by norm_num [Val.exact], by decide +kernel, by decide +kernel,
    ⟨false, _, rfl⟩, by decide +kernel, by decide +kernel⟩

/-- VectorFloating, the approximations: a pattern of FP32 of each class of operands; numbers below and above zero, one, another power of
two and a number that is none. -/
theorem test_meets_Approximations : (∀ a ∈ [0x7F800001, 0x7F800000, 0xFF800000, 0, 0x80000000, 0xBF800000, 0x3F800000, 0x40000000, 0x40400000], a < 2 ^ fmt32.w) ∧
    decodeVal fmt32 0x7F800001 = .nan ∧ decodeVal fmt32 0x7F800000 = .inf false ∧ decodeVal fmt32 0xFF800000 = .inf true ∧
    (∃ d, decodeVal fmt32 0x80000000 = .fin true 0 d) ∧ decodeVal fmt32 0xBF800000 = .fin true 8388608 8388608 ∧
    decodeVal fmt32 0x40000000 = .fin false 8388608 4194304 ∧ decodeVal fmt32 0x40400000 = .fin false 12582912 4194304 ∧
    (Val.fin true 8388608 8388608).exact < 0 ∧ 0 < (Val.fin false 12582912 4194304).exact ∧ (Val.fin false 8388608 4194304).exact = (2 : ℚ) ^ (1 : ℤ) ∧
    (Val.fin false 12582912 4194304).exact = ((3 : ℤ) : ℚ) ∧ (2 : ℝ) ^ (1 : ℤ) ≤ 3 ∧ (3 : ℝ) < 2 ^ ((1 : ℤ) + 1) := by
  refine ⟨by decide +kernel, by decide +kernel, by decide +kernel, by decide +kernel, ⟨_, rfl⟩, by decide +kernel, by decide +kernel,
    by decide +kernel, ?_⟩
  norm_num [Val.exact]

/-- Transfers: clean sources, a guard with bit 0 set and one without. -/
theorem test_meets_Transfers : demo.psS 1 = false ∧ demo.psP 0 = false ∧ (demo.rdP 0).getLsbD 0 = true ∧ demo.psP 1 = false ∧
    (demo.rdP 1).getLsbD 0 = false ∧ demo.psS 63 = true ∧ demo.psP 31 = true := by decide +kernel

/-- The demo with five loop levels, the innermost ending at the bundle in execution. -/
def demoLoops (n : Nat) : State :=
  let l : LoopLevel := { count := 2, start := progVa, last := progVa, index := 7 }
  withCtx demo fun c => { c with q := { c.q with loops := List.replicate n l } }

/-- HardwareLoops: LOOP with a count and without one, LOOPI with its largest count, at the second bundle of the program; five
levels, the innermost of which ends here. -/
theorem test_meets_HardwareLoops : demo.psS 3 = false ∧ (demo.rdS 3).toNat ≠ 0 ∧ (demo.rdS 0).toNat = 0 ∧ (0xFFF : BitVec 12).toNat ≠ 0 ∧
    (demoLoops 5).ctx.q.loops.length < 6 ∧ (∃ ls l, (demoLoops 5).ctx.q.loops = ls ++ [l] ∧ l.last = (demoLoops 5).iss.ba) ∧
    demo.findBundle (demo.iss.ba + 2 * BitVec.ofNat 64 3) = .header (progVa + 6) 1 := by
  refine ⟨by decide +kernel, by decide +kernel, by decide +kernel, by decide, by decide +kernel, ⟨_, _, (rfl : _ = List.replicate 4 _ ++ [_]), ?_⟩, by decide +kernel⟩
  decide +kernel

/-- ControlRegisters: a clean source, the last selectors of each space, and a ring base whose size field is at either end. -/
theorem test_meets_ControlRegisters : demo.psS 1 = false ∧ (15 : BitVec 8).toNat < 16 ∧ (7 : BitVec 8).toNat < 8 ∧
    (∀ x ∈ [0x2000000000020004, 0x3000000000020010], 4 ≤ x % 32 ∧ x % 32 ≤ 16 ∧ (x / 2 ^ 60 = 2 ∨ x / 2 ^ 60 = 3)) := by decide +kernel

/-- The demo with one number issued and complete on timeline C, two issued and one complete on timeline M. -/
def demoLines : State :=
  withCtx demo fun c => { c with tlc := { issued := 5, mark := 5 }, tlm := { issued := 2, mark := 1 } }

/-- SequencerResults, PRIO and TWAIT: a class at either end of the region's range, a number in s3 that timeline C has reached, and
the last number of timeline M, which is outstanding. -/
theorem test_meets_WaitsAndEnds : (demo.region? demo.rid).isSome ∧ (∀ g ∈ demo.regions, g.lim.plo.toNat ≤ (0 : BitVec 2).toNat ∧
    (3 : BitVec 2).toNat ≤ g.lim.phi.toNat) ∧ demoLines.psS 3 = false ∧ demoLines.rdS 3 = 5 ∧
    (demoLines.rdS 3).toNat ≤ (demoLines.pre.tl 0).issued.toNat ∧ (demoLines.rdS 3).toNat ≤ (demoLines.ctx.tl 0).mark.toNat ∧
    (demoLines.ctx.tl 1).mark.toNat < (demoLines.pre.tl 1).issued.toNat := by decide +kernel

/-- The demo with a barrier table of two words at offset 0x50000, whose first expects two arrivals and has one. -/
def demoBar : State :=
  (withRegion demo fun g => { g with work := { g.work with barb := 0x2000000000050000, nbar := 2 } }).poke (seamKey 0x50000)
    (toBytes 8 (7 + 1 * 2 ^ 32 + 2 * 2 ^ 48))

/-- Barriers: the last identifier of the table, and a word with one arrival to come; a wait on another generation (s3 is 5) and on
the one that stands there (the word of the last identifier, with s0). -/
theorem test_meets_Barriers : (demoBar.region? demoBar.rid).isSome ∧ (∀ g ∈ demoBar.regions, g.work.barb ≠ 0 ∧
      (1 : BitVec 8).toNat < g.work.nbar.toNat ∧ g.work.barb + 64 * (0 : BitVec 8).setWidth 64 = 0x2000000000050000 ∧
      g.work.barb + 64 * (1 : BitVec 8).setWidth 64 = 0x2000000000050040) ∧
    demoBar.resolve demoBar.me demoBar.rid 0x2000000000050000 8 Access.both = .ok (.home (seamKey 0x50000) true) ∧
    demoBar.iss.ready = true ∧ (demoBar.beforeArrival (seamKey 0x50000) 1).peek64 (seamKey 0x50000) = 7 + 1 * 2 ^ 32 + 2 * 2 ^ 48 ∧
    demoBar.resolve demoBar.me demoBar.rid 0x2000000000050000 8 Access.load = .ok (.home (seamKey 0x50000) true) ∧
    demoBar.resolve demoBar.me demoBar.rid 0x2000000000050040 8 Access.load = .ok (.home (seamKey 0x50040) true) ∧
    demoBar.psS 3 = false ∧ demoBar.stands (seamKey 0x50000) = false ∧ demoBar.heldWalk demoBar.me demoBar.rid 0x2000000000050000 = false ∧
    bits (demoBar.peek64 (seamKey 0x50000)) 31 0 ≠ (demoBar.rdS 3).toNat % 2 ^ 32 ∧ demoBar.psS 0 = false ∧
    demoBar.stands (seamKey 0x50040) = false ∧ demoBar.heldWalk demoBar.me demoBar.rid 0x2000000000050040 = false ∧
    bits (demoBar.peek64 (seamKey 0x50040)) 31 0 = (demoBar.rdS 0).toNat % 2 ^ 32 := by decide +kernel

/-- The demo with a take table of one id: level 0 takes 1, and the entry of take 1 holds an address. -/
def demoTake : State :=
  ((withCtx demo fun c => { c with c := { c.c with ttab := 0x2000000000060000 } }).poke (seamKey 0x60000)
    (toBytes 8 (1 + 1 * 2 ^ 32))).poke (seamKey 0x60048) (toBytes 8 0x10000)

/-- SequencerResults, CUT: a table whose take is not the context's, with the address it goes to. -/
theorem test_meets_CutPoints : demoTake.pre.c.ttab ≠ 0 ∧ demoTake.pre.c.ttab.toNat % 64 = 0 ∧ demoTake.pre.c.ttab.toNat / 2 ^ 60 = 2 ∧
    demoTake.wordHeld demoTake.pre.c.ttab = false ∧ (demoTake.loadWord demoTake.pre.c.ttab).map (·.1) = some (1 + 1 * 2 ^ 32) ∧
    (1 + 1 * 2 ^ 32) / 2 ^ (2 * demoTake.power.level_.toNat) % 4 = 1 ∧ (0 : BitVec 12).toNat < (1 + 1 * 2 ^ 32) / 2 ^ 32 % 2 ^ 16 ∧
    demoTake.pre.c.take = 0 ∧ (1 + 1 * 2 ^ 32) / 2 ^ 48 % 2 ^ 16 = 0 ∧ (1 + 1 * 2 ^ 32) / 2 ^ 16 % 2 ^ 16 = 0 ∧ 0x10000 % 2 = 0 ∧
    (((demoTake.loadWord demoTake.pre.c.ttab).map fun x => x.2.wordHeld (demoTake.pre.c.ttab + 0x48)) = some false) ∧
    (((demoTake.loadWord demoTake.pre.c.ttab).bind fun x => x.2.loadWord (demoTake.pre.c.ttab + 0x48)).map (·.1)) = some 0x10000 ∧
    ((withCtx demoTake fun c => { c with c := { c.c with take := 1 } }).loadWord demoTake.pre.c.ttab).isSome := by decide +kernel

/-- PreciseTraps, the control class: poisoned sources, a full and an empty loop stack, a level that ends elsewhere, a number that has
not been issued, ring bases of a size or space that is not allowed, a class outside a narrow range, no take table. -/
theorem test_meets_ControlTraps : demo.psS 63 = true ∧ demo.psP 31 = true ∧ (demoLoops 6).ctx.q.loops.length = 6 ∧ demo.ctx.q.loops = [] ∧
    (∃ ls l, ({ demoLoops 1 with iss := { demo.iss with ba := 0 } } : State).ctx.q.loops = ls ++ [l] ∧ l.last ≠ (0 : W64)) ∧
    (demo.pre.tl 0).issued.toNat < (demo.rdS 3).toNat ∧ demo.psS 3 = false ∧
    ((demo.rdS 2).toNat % 32 < 4 ∧ (demo.rdS 7).toNat / 2 ^ 60 ≠ 2 ∧ (demo.rdS 7).toNat / 2 ^ 60 ≠ 3) ∧
    (∀ g ∈ (withRegion demo fun g => { g with lim := { g.lim with plo := 1, phi := 2 } }).regions,
      (0 : BitVec 2).toNat < g.lim.plo.toNat ∧ g.lim.phi.toNat < (3 : BitVec 2).toNat) ∧ demo.pre.c.ttab = 0 := by
  refine ⟨?_, ?_, ?_, ?_, ⟨[], _, rfl, ?_⟩, ?_⟩ <;> decide +kernel

/-- TrapEntries, TRAP: the ring has room at the place of its first record. -/
theorem test_meets_TrapEntry : demo.ctx.sch.life = .resident ∧ demo.ctx.watch = none ∧ demo.core.num = demo.ctx.core ∧ demo.iss.slot < 8 ∧
    (demo.region? demo.ctx.id.rid).map (fun g => g.dom.fpol) = some 0 ∧
    demo.recordPlace demo.ctx = some (0x2000000000020000, seamKey 0x20000) ∧ demo.ctx.sch.pendRec = none ∧
    demo.ctx.sch.outRecs = [] ∧ demo.recReady demo.ctx = true ∧ (demo.writeBackReach demo.ctx.core.toNat 3).recReady demo.ctx = true ∧
    (demo.writeBackReach demo.ctx.core.toNat 3).recordPlace demo.ctx = some (0x2000000000020000, seamKey 0x20000) := by decide +kernel

/-- The demo with a software trap that is to be entered. -/
def demoTrapped : State :=
  let x : Trapped := { t := { cause := 0x19, slot := 2, sres := some 2, detail := 7 }, ba := progVa, xfer := none }
  withCtx demo fun c => { c with q := { c.q with trapped := some x } }

/-- TrapEntries, the entry that waits: a context that has trapped, with room for its record, and with another record under way. -/
theorem test_meets_TrapWaits : demoTrapped.ctx.q.trapped.isSome = true ∧ demoTrapped.ctx.remote = none ∧ demoTrapped.boot.fwerr = false ∧
    demoTrapped.power.retained = false ∧ demoTrapped.ctx.sch.outRecs = [] ∧ demoTrapped.recReady demoTrapped.ctx = true ∧
    demoTrapped.recordPlace demoTrapped.ctx = some (0x2000000000020000, seamKey 0x20000) ∧
    (withCtx demoTrapped fun c => { c with sch := { c.sch with outRecs := [(0, false)] } }).ctx.sch.outRecs ≠ [] := by decide +kernel

/-! ### Vector and geometry statements -/

/-- A vector operand record on registers 1, 2, 3 and 4 with the type t, the rounding code rm, fr and fx. -/
def vecOp (t : BitVec 4) (rm : BitVec 3) (fr : BitVec 4) (fx : BitVec 6) : VR :=
  { vd := 1, va := 2, qa := 0, vb := 3, qb := 1, vc := 4, qc := 2, pg := 0, t := t, rm := rm, zm := 0, fr := fr, fx := fx }

/-- VectorMoves: the largest distance and slide of 64 elements, and a function that packs the elements. -/
theorem test_meets_VectorMoves : 2 ^ (vecOp 2 0 0 5).fx.toNat < tyCount 2 ∧ (vecOp 2 0 0 63).fx.toNat < tyCount 2 ∧
    ∃ f : Nat → Option (Nat × Bool), (∀ i < tyCount 2, f i = some (i, false)) ∧ ∀ j, tyCount 2 ≤ j → f j = none := by
  refine ⟨by decide, by decide, fun i => if i < tyCount 2 then some (i, false) else none, ?_, ?_⟩
  · exact fun i h => if_pos h
  · exact fun j h => if_neg (Nat.not_lt.2 h)

/-- VectorFloating, VectorCompareResults, ConversionsAndReductions: the modes of a fixed code, of a descriptor and of SR. -/
theorem test_meets_ModesOf : (∃ m sr, ModesOf demoDesc (vecOp 10 0 0 0) 64 (fun _ => true) m sr) ∧
    (∃ m, ModesOf demoDesc (vecOp 10 5 1 0) 64 (fun _ => true) m true) ∧ (∃ m, ModesOf demoDesc (vecOp 10 5 0 0) 64 (fun _ => true) m false) ∧
    (vecOp 10 0 0 0).rm = 0 := by
  refine ⟨⟨_, _, by decide, by decide, rfl, fun _ _ => rfl⟩, ⟨_, by decide, fun _ => by decide +kernel, by decide +kernel, fun _ _ => rfl⟩,
    ⟨_, by decide, fun _ => by decide +kernel, by decide +kernel, fun _ _ => rfl⟩, rfl⟩

/-- VectorCompareResults: the last conditions. -/
theorem test_meets_VectorCompareResults : (vecOp 2 0 0 5).fx.toNat = 5 ∧ (vecOp 10 0 0 7).fx.toNat = 7 := by decide

/-- ConversionsAndReductions: the last part of a conversion by four and of one without parts; a quantisation with scales in its last
part, and the four kinds of types. -/
theorem test_meets_ConversionsAndReductions :
    (vecOp 11 0 0 0x38).fx.toNat / 16 = 3 ∧ 3 < max (tyWidth 11) (tyWidth ((vecOp 11 0 0 0x38).fx.setWidth 4)) /
      min (tyWidth 11) (tyWidth ((vecOp 11 0 0 0x38).fx.setWidth 4)) ∧ tyF 11 = true ∧ tyF ((vecOp 11 0 0 0x38).fx.setWidth 4) = true ∧
    (vecOp 2 0 0 6).fx.toNat / 16 < max (tyWidth 2) (tyWidth 6) / min (tyWidth 2) (tyWidth 6) ∧ tyF 2 = false ∧ tyF 6 = false ∧
    (vecOp 2 0 0 6).rm ≠ 5 ∧ descValid (vget demoDesc.pre.r.f 0) = true ∧ descBsk (vget demoDesc.pre.r.f 0) ≠ 0 ∧
    (vecOp 10 0 0 3).fx.toNat % 32 < tyWidth 10 / container (descFmt (vget demoDesc.pre.r.f 0)) := by decide +kernel

/-- The demo with the points (0, 0), (1, 0), (0, 1) and (1, 1) in every lane of g0 to g3, and one that is not finite in lane 31 of g4. -/
def demoPoints : State :=
  let one : VWord := (List.range 32).foldl (fun v i => v + 0x3FF0000000000000 * 2 ^ (64 * i)) (0 : VWord)
  let g := vset (vset (vset demo.ctx.r.g 1 { x := one }) 2 { y := one }) 3 { x := one, y := one }
  let inf : GSlot := { x := (0x7FF0000000000000 : VWord) <<< (64 * 31) }
  withCtx demo fun c => { c with r := { c.r with g := vset g 4 inf } }

/-- A pattern of FP64 that is a finite number. -/
def finitePat (c : Nat) : Bool := match decodeVal fmt64 c with | .fin .. => true | _ => false

/-- A predicate operand record on g0, g1, g2 and ge. -/
def geoOp (ge : R3) (nf : BitVec 1) : VG :=
  { vd := 1, pd := 2, pg := 0, ga := 0, gb := 1, gc := 2, ge := ge, gh := 0, md := 0, nf := nf }

/-- GeometryResults: GSET and GIDX in their forms, on clean registers and on a poisoned one; lanes of finite points, and one that is
not finite, under both policies. -/
theorem test_meets_GeometryResults : (vecOp 10 0 0 3).vd.toNat < 8 ∧ (vecOp 10 0 0 3).fx.toNat < 4 ∧ demo.psP 0 = false ∧ demo.psP 31 = true ∧
    (∀ k < 32, ∀ r ∈ [(2 : R6), 3, 4], (demo.psV r).getLsbD k = false) ∧
    (({ demo with pre := { demo.pre with r := { demo.pre.r with vp := vset demo.pre.r.vp 2 1 } } } : State).psV 2).getLsbD 0 = true ∧
    (∀ i < 32, ∀ g ∈ [(0 : R3), 1, 2, 3], ∀ c ∈ (demoPoints.pt g i).coords false, finitePat c = true) ∧
    (demoPoints.rdP 0).getLsbD (8 * 31) = true ∧ (∃ c ∈ (demoPoints.pt 4 31).coords false, finitePat c = false) ∧
    (geoOp 4 1).nf = 1 ∧ (geoOp 3 0).nf ≠ 1 := by decide +kernel

/-- FloatingArithmetic, rounding into a format: an IEEE format, the descriptor E4M3, one without a sign and one whose largest value
is zero; numbers that underflow, overflow, lie on the grid and beside it; the largest rounding number. -/
theorem test_meets_RoundedValues : fmt32 ∈ ieeeFmts ∧ descValid 0x04207718 = true ∧
    (descValid 0x00000082 = true ∧ (descFmt 0x00000082).sgn = false) ∧
    (descValid 0x00200052 = true ∧ (descFmt 0x00200052).maxf.1 = 0) ∧
    (roundGrid .rtz false 1 (2 ^ 200) (ulpExp fmt32 1 (2 ^ 200))).1 = 0 ∧
    (roundGrid .rne true (2 ^ 200) 1 (ulpExp fmt32 (2 ^ 200) 1)).1 ≠ 0 ∧ (fmt32.maxf.1 < 2 ^ 200 * fmt32.maxf.2) ∧
    (roundGrid .rne false 3 2 (ulpExp fmt32 3 2)).2 = true ∧ (roundGrid .rne false 1 3 (ulpExp fmt32 1 3)).2 = false ∧
    2 ^ 24 - 1 < 2 ^ 24 := by
  refine ⟨by simp [ieeeFmts], ?_⟩
  decide +kernel

/-- FloatingArithmetic, the operations: numbers, zeros of both signs and infinities of FP32, with a divisor that is zero, a sum
of opposite infinities, and a root of a positive number; a range of integers about zero. -/
theorem test_meets_FloatingOperations : (∀ a ∈ [0, 0x80000000, 0x3F800000, 0xBF800000, 0x7F800000, 0xFF800000], isNan fmt32 a = false) ∧
    decodeVal fmt32 0x7F800000 = .inf false ∧ (∃ n d, decodeVal fmt32 0x3F800000 = .fin false n d ∧ n ≠ 0 ∧ d ≠ 0) ∧
    (∃ d, decodeVal fmt32 0x80000000 = .fin true 0 d ∧ d ≠ 0) ∧ addVal .rne (.inf false) (.inf true) = none ∧
    (-2 ^ 63 : Int) ≤ 0 ∧ (0 : Int) ≤ 2 ^ 63 - 1 :=
  ⟨by decide +kernel, by decide +kernel, ⟨8388608, 8388608, by decide +kernel⟩, ⟨713623846352979940529142984724747568191373312, by decide +kernel⟩,
    by decide, by decide, by decide⟩

/-- ConversionsAndReductions, the scale of a block: E4M3 with values of which the first is the largest, all zero, or one that is no
number. -/
theorem test_meets_BlockScales : descValid 0x04207718 = true ∧ (descFmt 0x04207718).maxf.1 ≠ 0 ∧
    (∀ x ∈ [Val.fin true 7 2, .fin false 1 1, .fin false 0 1], x.finite ∧ |x.exact| ≤ ((7 : Nat) : ℚ) / (2 : Nat)) ∧
    (∃ x ∈ [Val.fin true 7 2, .fin false 1 1, .fin false 0 1], |x.exact| = ((7 : Nat) : ℚ) / (2 : Nat)) ∧ ¬(Val.inf true).finite ∧
    (∀ x ∈ [Val.fin true 0 2], x.finite ∧ |x.exact| ≤ ((0 : Nat) : ℚ) / (2 : Nat)) ∧ ((2 : ℚ) ^ (1 : ℤ) ≤ 7 / 2 ∧ (7 / 2 : ℚ) < 2 ^ (2 : ℤ)) := by
  refine ⟨by decide +kernel, by decide +kernel, ?_, ⟨_, List.mem_cons_self, ?_⟩, by simp [Val.finite], ?_, by norm_num⟩ <;>
    norm_num [Val.finite, Val.exact, abs_div]

/-- PreciseTraps, the vector class: a descriptor that is not valid (f1 of the demo), a part of FP64 in FP32 that does not
exist, a distance and a slide of all elements. -/
theorem test_meets_VectorTraps : (vecOp 10 5 2 0).rm = 5 ∧ descValid (vget demo.pre.r.f 2) = false ∧
    tyWidth 10 / container (descFmt (vget demoDesc.pre.r.f 0)) ≤ (vecOp 10 5 0 31).fx.toNat % 32 ∧ descBsk (vget demoDesc.pre.r.f 1) = 0 ∧
    max (tyWidth 11) (tyWidth ((vecOp 11 0 0 0x3A).fx.setWidth 4)) / min (tyWidth 11) (tyWidth ((vecOp 11 0 0 0x3A).fx.setWidth 4)) ≤
      (vecOp 11 0 0 0x3A).fx.toNat / 16 ∧
    tyCount 2 ≤ 2 ^ (vecOp 2 0 0 6).fx.toNat ∧ tyCount 11 ≤ (vecOp 11 0 0 63).fx.toNat := by decide +kernel

/-! ### Memory statements -/

/-- Whether a read is answered, and whether its bytes are uncorrectable. -/
def answered : Got → Bool
  | .val _ bad => !bad
  | _ => false

theorem answered_val {r : Got × State} (h : answered r.1 = true) : ∃ x s1, r = (.val x false, s1) := by
  obtain ⟨g, s⟩ := r
  cases g with
  | val x bad => cases bad with
    | false => exact ⟨x, s, rfl⟩
    | true => exact absurd h (by simp [answered])
  | ask => exact absurd h (by simp [answered])
  | refused => exact absurd h (by simp [answered])

/-- An operand record of a scalar access: sd is s10, the base and the scope are given. -/
def memOp (sa : R6) (sco : BitVec 2) (off : BitVec 32) : LS := { sd := 10, sa := sa, sx := 0, sh := 0, sco := sco, off := off }

/-- The places that s1 and s2 name: a page of space 0x2 that the cache role may hold, and an offset of the scratchpad. -/
def homePlace : Place := .home (seamKey 0x30000) true
def padPlace : Place := .pool 0 (poolKey 0 16 0x40)

/-- LoadsAndReads: loads of every size that reach the scratchpad (s2) and memory (s1) and are answered; a load with acquire at its
place before and after it; an address without a home, for a speculative load. -/
theorem test_meets_ScalarLoads : demo.psS 1 = false ∧ demo.psS 2 = false ∧ demo.psS 0 = false ∧ demo.iss.ready = true ∧
    (∀ n ∈ [1, 2, 4, 8], demo.resolve demo.me demo.rid (addrLS demo (memOp 1 0 0)) n Access.load = .ok homePlace ∧
      demo.resolve demo.me demo.rid (addrLS demo (memOp 2 0 0)) n Access.load = .ok padPlace ∧
      (demo.approach homePlace).iss.ready = true ∧
      (∃ x s1, ((demo.approach homePlace).noteElems [{ i := 0, addr := addrLS demo (memOp 1 0 0) }]).readPlace homePlace
        (addrLS demo (memOp 1 0 0)) n = (.val x false, s1)) ∧
      ∃ x s1, ((demo.approach padPlace).noteElems [{ i := 0, addr := addrLS demo (memOp 2 0 0) }]).readPlace padPlace
        (addrLS demo (memOp 2 0 0)) n = (.val x false, s1)) ∧
    demo.resolve demo.me demo.rid (addrLS demo (memOp 0 0 0x7FFFFFFF)) 4 Access.load = .error fAlign ∧
    ((demo.acquire 2).approach homePlace).resolve demo.me demo.rid (addrLS demo (memOp 1 2 0)) 8 Access.load = .ok homePlace ∧
    ((demo.acquire 2).approach homePlace).iss.ready = true ∧
    ∃ x s1, ((((demo.acquire 2).approach homePlace).approach homePlace).noteElems [{ i := 0, addr := addrLS demo (memOp 1 2 0) }]).readPlace
      homePlace (addrLS demo (memOp 1 2 0)) 8 = (.val x false, s1) := by
  refine ⟨?_, ?_, ?_, ?_, fun n hn => ?_, ?_, ?_, ?_, answered_val (by decide +kernel)⟩
  case refine_5 =>
    simp only [List.mem_cons, List.not_mem_nil, or_false] at hn
    rcases hn with rfl | rfl | rfl | rfl <;>
      refine ⟨?_, ?_, ?_, answered_val ?_, answered_val ?_⟩ <;> decide +kernel
  all_goals decide +kernel

/-- The demo with the line of s1 in the cache role of the core. -/
def demoCached : State :=
  let l : Line := { key := seamKey 0x30000, va := 0x2000000000030000, data := 5, held := BitVec.allOnes 64, dirty := 0, marks := [],
                    by_ := demo.ctx.id, bank := 8 }
  { demo with core := { demo.core with cache := [l] } }

/-- The same with the first half of the line held and dirty. -/
def demoHalf : State :=
  { demoCached with core := { demoCached.core with cache := demoCached.core.cache.map fun l =>
      { l with held := 0xFFFFFFFF, dirty := 0xFFFFFFFF } } }

/-- LoadsAndReads: a context that asks nobody; bytes at a home up to the last of a line; a line of another device; a line that holds
them, one that holds half of them, and none. -/
theorem test_meets_ReadPlaces : demo.ctx.remote = none ∧ seamKey 0x30000 / 2 ^ 60 ≠ 4 ∧ (seamKey 0x30000 + 56) % 64 + 8 ≤ 64 ∧
    (0x4003000000000040 / 2 ^ 60 = 4 ∧ devOf (BitVec.ofNat 64 (lineOf 0x4003000000000040)) ≠ demo.mgmt.devid) ∧
    (demoCached.core.findLine (lineOf (seamKey 0x30000 + 56))).map (fun l => decide (∀ i < 8, l.held.getLsbD (56 + i) = true)) = some true ∧
    (demoHalf.core.findLine (lineOf (seamKey 0x30000 + 28))).map (fun l => (List.range 8).any fun i => !l.held.getLsbD (28 + i)) = some true ∧
    demo.core.findLine (lineOf (seamKey 0x30000)) = none := by
  decide +kernel

/-- LoadsAndReads, the checks of an access: an address of every space that passes, and one that each check refuses: a space that does
not exist, a misaligned one, an offset beyond the scratchpad, its own and another core's, a page that is not there, pages of the host
that it does not give, gives, or gives for reading alone. -/
theorem test_meets_AccessChecks : (0x5000000000000000 : W64).toNat / 2 ^ 60 = 5 ∧ (0x2000000000030001 : W64).toNat % 2 ≠ 0 ∧
    (demo.core.scrKey 0x40).isSome = true ∧ demo.core.scrKey 0x7FFFFFFF = none ∧ ((demo.coreAt 1).scrKey 0x40).isSome = true ∧
    (demo.coreAt 1).scrKey 0x7FFFFFFF = none ∧ clusterOf demo.me * 48 + 47 ≠ demo.me ∧
    (demo.xlate demo.me demo.rid 0x2000000000030000).toOption.isSome = true ∧ (demo.xlate demo.me demo.rid 0x2000FFFFFFFF0000).toOption = none ∧
    demo.hostPage (demo.pasidOf demo.rid) 0 = some (0, true, true) ∧
    (({ demo with mgmt := { demo.mgmt with ats := [{ pasid := 0, page := 0, to_ := none }, { pasid := 0, page := 1, to_ := some (1, true, false) }] } } :
      State).hostPage 0 0, ({ demo with mgmt := { demo.mgmt with ats := [{ pasid := 0, page := 1, to_ := some (1, true, false) }] } } :
      State).hostPage 0 1) = (none, some (1, true, false)) := by
  decide +kernel

/-- LoadsAndReads, the traps: a poisoned base and a clean one that no access may use. -/
theorem test_meets_MemoryTraps : demo.psS 63 = true ∧ demo.psS 4 = false ∧ demo.psS 0 = false ∧
    (∀ n ∈ [2, 4, 8], demo.resolve demo.me demo.rid (addrLS demo (memOp 0 0 0x7FFFFFFF)) n Access.load = .error fAlign ∧
      demo.resolve demo.me demo.rid (addrLS demo (memOp 0 0 0x7FFFFFFF)) n Access.store = .error fAlign) ∧
    demo.resolve demo.me demo.rid (demo.rdS 14) 8 Access.both ≠ .ok padPlace ∧
    2 ≤ (addrLS demo (memOp 1 0 0x7FFF0000)).toNat / 2 ^ 60 ∧
    (demo.resolve demo.me demo.rid (addrLS demo (memOp 1 0 0x7FFF0000)) 0 ⟨false, false⟩).toOption = none := by decide +kernel

/-- ScalarStores: the places of s1 and s2 can be stored to; a release of scope CORE does not reach the page, one of CLUSTER does. -/
theorem test_meets_ScalarStores : demo.psS 10 = false ∧ (∀ n ∈ [1, 2, 4, 8],
      demo.resolve demo.me demo.rid (addrLS demo (memOp 1 0 0)) n Access.store = .ok homePlace ∧
      demo.resolve demo.me demo.rid (addrLS demo (memOp 2 0 0)) n Access.store = .ok padPlace ∧
      homePlace.key % n = 0 ∧ padPlace.key % n = 0) ∧ inReach 0 (seamKey 0x30000) = false ∧ inReach 1 (seamKey 0x30000) = true ∧
    demo.heldKey (lineOf (seamKey 0x30000)) = false := by decide +kernel

/-- The demo with a guard p1 on the last 32-bit element. -/
def demoGuard : State :=
  withCtx demo fun c => { c with r := { c.r with p := vset c.r.p 1 (0xF : PWord).reverse } }

/-- A vector access under p1 from the base sa, and a gather or scatter of it with the indices in v3. -/
def vecMem (sa : R6) : LV := { vd := 1, qd := 0, sa := sa, sx := 0, pg := 1, t := 2, sco := 0, off := 0 }
def gatherMem (sa : R6) : LG := { vd := 1, qd := 0, sa := sa, vb := 3, qb := 0, pg := 1, t := 2, sco := 0 }

/-- VectorMemory: the one active element of each form reaches memory or the scratchpad and is answered, and a predicate's 32 bytes
can be read and stored. -/
theorem test_meets_VectorMemory : demoGuard.psS 1 = false ∧ demoGuard.psS 0 = false ∧ demoGuard.psP 1 = false ∧ demoGuard.iss.ready = true ∧
    (∀ i < tyCount 2, (demoGuard.psV 1).getLsbD (i * tyWidth 2 / 64) = false ∧ (demoGuard.psV 3).getLsbD (i * tyWidth 2 / 64) = false) ∧
    (demoGuard.rdS 1 + (0 : BitVec 24).signExtend 64).toNat % 4 = 0 ∧ (demoGuard.rdS 0).toNat % 4 = 0 ∧
    elemsAt demoGuard 1 2 (unitAddr demoGuard (vecMem 1)) = [{ i := 63, addr := 0x20000000000300FC }] ∧
    elemsAt demoGuard 1 2 (strideAddr demoGuard (vecMem 1)) = [{ i := 63, addr := 0x2000000000030000 }] ∧
    elemsAt demoGuard 1 2 (indexAddr demoGuard (gatherMem 1)) = [{ i := 63, addr := 0x2000000000030000 }] ∧
    AllPass demoGuard Access.load 4 [({ i := 63, addr := 0x2000000000030000 }, homePlace)] ∧
    AllPass demoGuard Access.store 4 [({ i := 63, addr := 0x2000000000030000 }, homePlace)] ∧
    AllPass demoGuard Access.store 4 [({ i := 63, addr := 0x40 }, padPlace)] ∧
    (∃ vs s1, Reads 4 [({ i := 63, addr := 0x2000000000030000 }, homePlace)]
      ((demoGuard.approachAll [({ i := 63, addr := 0x2000000000030000 }, homePlace)]).noteElems [{ i := 63, addr := 0x2000000000030000 }]) vs s1) ∧
    (demoGuard.approachAll [({ i := 63, addr := 0x2000000000030000 }, homePlace)]).iss.ready = true ∧
    FreeStores demoGuard [({ i := 63, addr := 0x2000000000030000 }, homePlace)] ∧
    demoGuard.resolve demoGuard.me demoGuard.rid 0x2000000000030000 32 Access.load = .ok homePlace ∧
    demoGuard.resolve demoGuard.me demoGuard.rid 0x2000000000030000 32 Access.store = .ok homePlace ∧ homePlace.key % 32 = 0 ∧
    (demoGuard.approach homePlace).iss.ready = true ∧
    ∃ x s1, ((demoGuard.approach homePlace).noteElems [{ i := 0, addr := 0x2000000000030000 }]).readPlace homePlace 0x2000000000030000 32 =
      (.val x false, s1) := by
  have h1 : ∀ acc ∈ [Access.load, Access.store], demoGuard.resolve demoGuard.me demoGuard.rid 0x2000000000030000 4 acc = .ok homePlace := by
    decide +kernel
  have h2 : demoGuard.resolve demoGuard.me demoGuard.rid 0x40 4 Access.store = .ok padPlace := by decide +kernel
  obtain ⟨x, s1, h3⟩ := answered_val (r := ((demoGuard.approachAll
    [({ i := 63, addr := 0x2000000000030000 }, homePlace)]).noteElems [{ i := 63, addr := 0x2000000000030000 }]).readPlace homePlace
    0x2000000000030000 4) (by decide +kernel)
  refine ⟨?_, ?_, ?_, ?_, ?_, ?_, ?_, ?_, ?_, ?_, fun y hy => by rw [List.mem_singleton.1 hy]; exact h1 _ (by simp),
    fun y hy => by rw [List.mem_singleton.1 hy]; exact h1 _ (by simp),
    fun y hy => by rw [List.mem_singleton.1 hy]; exact h2, ⟨_, _, .next _ _ _ _ _ _ _ _ _ h3 (.done _)⟩, ?_, .inl ?_, ?_, ?_, ?_, ?_,
    answered_val ?_⟩
  all_goals decide +kernel

/-- VectorMemory, the traps: a poisoned base and guard, a poisoned active element, a misaligned stride, and an active element whose
address no access may use, which is the only one. -/
theorem test_meets_VectorMemoryTraps : demo.psS 63 = true ∧ demo.psP 31 = true ∧ demoGuard.psS 1 = false ∧ demoGuard.psP 1 = false ∧
    ((withCtx demoGuard fun c => { c with r := { c.r with vp := vset c.r.vp 1 0x80000000 } }).psV 1).getLsbD (63 * tyWidth 2 / 64) = true ∧
    (demoGuard.rdP 1).getLsbD (63 * 4) = true ∧ (demoGuard.rdS 3).toNat % 4 ≠ 0 ∧
    elemsAt demoGuard 1 2 (unitAddr demoGuard { vecMem 1 with off := 0x7F0000 }) = [{ i := 63, addr := 0x20000000008200FC }] ∧
    elemFail demoGuard Access.load 4 false { i := 63, addr := 0x5000000000000000 } = some fSpace ∧
    elemFail demoGuard Access.load 4 true { i := 63, addr := 0x2000000000030000 } = some fAlign := by decide +kernel

/-- Atomics: on the scratchpad (s2), on a page (s1) at a scope that goes to the home with nothing on its way there, at CORE scope in the
cache role, and on another device (s7). -/
theorem test_meets_Atomics : demo.psS 11 = false ∧ demo.psS 12 = false ∧ demo.ctx.remote = none ∧
    demo.resolve demo.me demo.rid (demo.rdS 2) 8 Access.both = .ok padPlace ∧ demo.resolve demo.me demo.rid (demo.rdS 1) 4 Access.both = .ok homePlace ∧
    (demo.beginRelease 1).atomicHome (seamKey 0x30000) = .ok (seamKey 0x30000) ∧ seamKey 0x30000 % 8 = 0 ∧
    demo.resolve demo.me demo.rid (demo.rdS 7) 8 Access.both = .ok (.home 0x4003000000000040 true) ∧
    (demo.beginRelease 1).atomicHome 0x4003000000000040 = .error (some 3) ∧
    Free (((demo.approach homePlace).beginRelease 0).acquire 0) homePlace 8 ∧
    ∃ x s4, ((((demo.approach homePlace).beginRelease 0).acquire 0).noteElems [{ i := 0, addr := demo.rdS 1 }]).readPlace homePlace (demo.rdS 1) 8 =
      (.val x false, s4) := by
  refine ⟨?_, ?_, ?_, ?_, ?_, ?_, ?_, ?_, ?_, .inl ?_, answered_val ?_⟩ <;> decide +kernel

/-- FencesAndLines: an offset of the scratchpad; a page that is mapped, and its line in the cache role, dirty, within and beyond the
reach; a space-0x4 address of the own device that no window lets in; a watch with a time (s3) and without one, and one that is armed. -/
theorem test_meets_FencesAndLines : (addrLS demo (memOp 2 0 0)).toNat / 2 ^ 60 < 2 ∧
    demo.resolve demo.me demo.rid (addrLS demo (memOp 1 0 0)) 0 ⟨false, false⟩ = .ok homePlace ∧
    demo.resolve demo.me demo.rid 0x4000000000000040 0 ⟨false, false⟩ = .ok (.home 0x4000000000000040 true) ∧
    devOf (BitVec.ofNat 64 0x4000000000000040) = demo.mgmt.devid ∧ demo.ownFault 0x4000000000000040 = some 0 ∧
    ({ demo with fab := { demo.fab with rat := [(0, 0xE000000000001000)] } } : State).ownFault 0x4000000000000040 = none ∧ demo.ctx.remote = none ∧ demo.lineHeld (memOp 1 0 0) = false ∧ demo.lineHeld (memOp 7 0 0) = false ∧
    demo.resolve demo.me demo.rid (addrLS demo (memOp 7 0 0)) 0 ⟨false, false⟩ = .ok (.home 0x4003000000000040 true) ∧
    devOf (BitVec.ofNat 64 0x4003000000000040) ≠ demo.mgmt.devid ∧
    inReach 0 (lineOf (seamKey 0x30000)) = false ∧ inReach 2 (lineOf (seamKey 0x30000)) = true ∧
    (demoHalf.core.cache.filter fun x => x.key = lineOf (seamKey 0x30000)) = demoHalf.core.cache ∧
    demoHalf.core.findLine (lineOf (seamKey 0x30000)) ≠ none ∧
    demo.resolve demo.me demo.rid (demo.rdS 1 + (0 : BitVec 32).signExtend 64) 0 Access.load = .ok homePlace ∧ demo.ctx.watch = none ∧
    demo.rdS 3 ≠ 0 ∧ demo.rdS 0 = 0 ∧
    (withCtx demo fun c => { c with watch := some ⟨4, seamKey 0x30000, 0x2000000000030000, 1, some 5, none, 0⟩ }).ctx.watch.isSome ∧
    (∀ p ∈ [[], [({ dst := .s 4, due := none } : Pend)]], ({ demo.ctx with board := p } : Ctx).awaits 4 0 = !p.isEmpty) ∧
    demo.ctx.sch.life ≠ .none ∧ (demo.rdS 1).toNat / 2 ^ 60 ≠ 3 := by decide +kernel

/-- The demo with channel 7 of its core held and exposed: bank 15 has row 2,047 open. -/
def demoSeam (open_ : Bool) : State :=
  let b : DBank := if open_ then { row := some 2047, act := some 10, opened := some 10 } else {}
  let h : Chan := { owner := some demo.ctx.id, banks := vset (Vector.replicate 16 ({} : DBank)) 15 b, acts := if open_ then [10] else [] }
  let s := withCtx demo fun c => { c with es := { c.es with held := 0x80 } }
  { s with core := { s.core with chans := vset s.core.chans 7 h, cycle := 1000 } }

/-- An exposed command on the last unit of channel 7, and one on the channel alone. -/
def seamOp (imm : BitVec 35) : LX := { sd := 10, sa := 0, sb := 0, ch := 7, imm := imm }

/-- A cycle that is not known, or that lies the delay back. -/
def agoOk (t : Nat) (x : Option Nat) (d : Nat) : Bool := x.all fun y => decide (y + d ≤ t)

/-- The oldest of four activations lies 40 cycles back. -/
def fourActs (t : Nat) : List Nat → Bool
  | [w, _, _, _] => decide (w + 40 ≤ t)
  | _ => true

/-- The minimums of R257, as a computation. -/
def minimumsOk (h : Chan) (k : XKind) (b t : Nat) : Bool :=
  let closable (j : Nat) : Bool := agoOk t (bankOf h j).opened 68 && agoOk t (bankOf h j).rd 8 && agoOk t (bankOf h j).wr 32
  agoOk t h.sref 440 && match k with
    | .act => agoOk t (bankOf h b).pre 30 && ((List.range 16).all fun j => j == b || agoOk t (bankOf h j).act 8) && fourActs t h.acts
    | .pre => closable b
    | .preAll => (List.range 16).all fun j => !(bankOf h j).row.isSome || closable j
    | .rd => agoOk t (bankOf h b).act 30 && agoOk t h.lastRd 2 && agoOk t h.lastWr 12
    | .wr => agoOk t (bankOf h b).act 30 && agoOk t h.lastRd 2 && agoOk t h.lastWr 2
    | .ref | .rel => true

theorem agoOk_iff (t : Nat) (x : Option Nat) (d : Nat) : agoOk t x d = true ↔ ∀ y, x = some y → y + d ≤ t := by
  cases x <;> simp [agoOk]

theorem fourActs_iff (t : Nat) (l : List Nat) : fourActs t l = true ↔ ∀ w x y z, l = [w, x, y, z] → w + 40 ≤ t := by
  rcases l with _ | ⟨w, _ | ⟨x, _ | ⟨y, _ | ⟨z, _ | _⟩⟩⟩⟩ <;> simp [fourActs]
  exact ⟨fun h _ _ _ _ e _ _ _ => e ▸ h, fun h => h w x y z rfl rfl rfl rfl⟩

theorem minimumsOk_iff (h : Chan) (k : XKind) (b t : Nat) : minimumsOk h k b t = true ↔ MinimumsPassed h k b t := by
  cases k <;> simp only [minimumsOk, MinimumsPassed, Bool.and_eq_true, agoOk_iff, fourActs_iff, and_assoc, and_true, List.all_eq_true,
    List.mem_range, Bool.or_eq_true, beq_iff_eq, Bool.not_eq_true', or_iff_not_imp_left, Bool.not_eq_false]

/-- The checks of an exposed command, as a computation. -/
theorem mayIssue_of (s : State) (o : LX) (k : XKind) (c : Nat)
    (h : c = unitX s o k ∧ (s.psS o.sa = false ∧ s.psS o.sb = false ∧ (k = .wr → s.psS o.sd = false)) ∧ c < 2 ^ 23 ∧
      s.ctx.es.held.getLsbD o.ch.toNat = true ∧ ((chanOfLX s o).owning = none ∧ (chanOfLX s o).releasing = false ∧
      (chanOfLX s o).lent = false ∧ (chanOfLX s o).busy ≤ s.core.cycle) ∧ ((k = .rd ∨ k = .wr →
      (bankOf (chanOfLX s o) (c / 2 ^ 19)).row = some (seamRow c)) ∧ (k = .act → (bankOf (chanOfLX s o) (c / 2 ^ 19)).row = none) ∧
      (k = .ref → ∀ b < 16, (bankOf (chanOfLX s o) b).row = none)) ∧ minimumsOk (chanOfLX s o) k (c / 2 ^ 19) s.core.cycle = true ∧
      s.time.elapsedNs ≤ (chanOfLX s o).refresh + 3900) : MayIssue s o k c :=
  let ⟨a, b, d, e, f, ⟨g, i, j⟩, m, r⟩ := h
  ⟨a, b, d, e, f, ⟨g, fun x => .inl (i x), j⟩, (minimumsOk_iff ..).1 m, fun _ => r⟩

/-- ExposedSeam: each command at the last unit of the last channel, with its row open or closed as it needs; a request for a channel
that is held, and for one that is free. -/
theorem test_meets_ExposedSeam : MayIssue (demoSeam false) (seamOp 0x7FFFFF) .act (2 ^ 23 - 1) ∧ MayIssue (demoSeam true) (seamOp 0x7FFFFF) .rd (2 ^ 23 - 1) ∧
    MayIssue (demoSeam true) (seamOp 0x7FFFFF) .wr (2 ^ 23 - 1) ∧ MayIssue (demoSeam true) (seamOp 0x7FFFFF) .pre (2 ^ 23 - 1) ∧
    MayIssue (demoSeam true) (seamOp 0x400000000) .preAll 0 ∧ MayIssue (demoSeam false) (seamOp 0) .ref 0 ∧ MayIssue (demoSeam true) (seamOp 0) .rel 0 := by
  refine ⟨?_, ?_, ?_, ?_, ?_, ?_, ?_⟩ <;> exact mayIssue_of _ _ _ _ (by decide +kernel)

/-- ExposedSeam, SOWN: the region may take channels; one is held, and one is free. -/
theorem test_meets_ExposedSeamOwn : (demoSeam true).ctx.es.held.getLsbD (seamOp 0).ch.toNat = true ∧
    demo.ctx.es.held.getLsbD (seamOp 0).ch.toNat = false ∧ ((demo.region? demo.rid).any fun g => g.lim.expok) = true ∧
    (chanOfLX demo (seamOp 0)).owner = none := by decide +kernel

/-- The demo with channel 7 as in `demoSeam`, in an early cycle, when a read or a close of its open row comes too soon. -/
def demoEarly (strict counted : Bool) : State :=
  let s := demoSeam true
  withCtx { s with core := { s.core with cycle := 39 } } fun c => { c with
    es := { c.es with strict := strict }
    q := { c.q with counted := counted } }

/-- The same channel, busy for one cycle more. -/
def demoBusy : State :=
  let s := demoSeam true
  let h := { chanOfLX s (seamOp 0) with busy := 1001 }
  { s with core := { s.core with chans := vset s.core.chans 7 h } }

/-- SeamTraps, clause by clause: a poisoned sa; a unit beyond the channel; a channel that is not held, and one that is busy; a
closed row; a row that is open, and a read and a close of it too early, strict and lenient, counted and not. -/
theorem test_meets_SeamTraps :
    ¬XClean demo { seamOp 0 with sa := 63 } .rd ∧ XClean demo (seamOp 0) .wr ∧ 2 ^ 23 ≤ unitX demo { seamOp 0x7FFFFF with sa := 1 } .act ∧
    ¬XOwns demo (seamOp 0) ∧ XOwns (demoSeam true) (seamOp 0) ∧
    ¬XOpen demoBusy (seamOp 0) ∧
    XOpen (demoSeam true) (seamOp 0) ∧ ¬XRow (demoSeam true) (seamOp 0) .rd 0 ∧
    XOpen (demoEarly false false) (seamOp 0x7FFFFF) ∧ XRow (demoEarly false true) (seamOp 0x7FFFFF) .rd 0x7FFFFF ∧
    ¬XTime (demoEarly true false) (seamOp 0x7FFFFF) .rd 0x7FFFFF ∧ ¬XTime (demoEarly false true) (seamOp 0x7FFFFF) .pre 0x7FFFFF := by
  refine ⟨by unfold XClean; decide +kernel, by unfold XClean; decide +kernel, by decide +kernel, by unfold XOwns; decide +kernel,
    by unfold XOwns; decide +kernel, by unfold XOpen; decide +kernel, by unfold XOpen; decide +kernel, by unfold XRow; decide +kernel,
    by unfold XOpen; decide +kernel, by unfold XRow; decide +kernel, ?_, ?_⟩ <;>
    exact fun h => absurd ((minimumsOk_iff ..).2 h.1) (by decide +kernel)

/-! ### Matrix statements -/

/-- A block that waits for nothing and signals nothing. -/
def noBlock : WaitSig := ⟨0, 0, 0, 0, 0, 0, 0⟩

/-- A matrix-class operand record: sa and imm, and the tile bank's width code or the tile in zt. -/
def matOp (sa : R6) (imm : BitVec 8) : FM := { vd := 1, va := 2, qa := 0, sd := 0, sa := sa, zt := 0, imm := imm, w := noBlock }

/-- An entry of the matrix queue of a kind, with its number; started in cycle 5 or not. -/
def entry (k : MKind) (num : W64) (started : Bool) : MEntry :=
  { kind := k, num := num, imm := 3, w := noBlock, ba := progVa, af := 0x04207718, wf := 0x04207718, cfg := vset (Vector.replicate 16 0) 1 (1#64 <<< 50),
    started := if started then some 5 else none }

/-- demoDesc with a nest of one tile operation configured on tile bank 0, whose record fits it, a loop level of index 0, and a matrix
queue; the core stands at cycle 9,000. -/
def demoMatrix (q : List MEntry) (ls : List MLoad) : State :=
  let rec_ : TileRec := ⟨0, 0, true, false, 0, 0, 0, []⟩
  let lv : LoopLevel := ⟨2, progVa, progVa, 0⟩
  let s := withCtx demoDesc fun c =>
    { c with q := { c.q with loops := [lv] }, tlm := { issued := 9, mark := 0 },
             mx := { c.mx with shadow := vset (Vector.replicate 16 0) 1 (1#64 <<< 50), queue := q, loads := ls } }
  { s with core := { s.core with cycle := 9000, pool := { s.core.pool with tiles := [rec_] } } }

/-- MatrixCommands: the first, the last and the rows word of a set; a nest that no check rejects, behind three entries, by ft0 and by
the loop's index; a tile at an aligned address for a bank in the TILE role; masks of banks and tiles; four entries. -/
theorem test_meets_MatrixCommands : Passes demo noBlock ∧ demo.pre.c.mhold = true ∧ demo.psS 2 = false ∧
    (demo.rdS 2).toNat < 2 ^ 48 ∧ (let s := demoMatrix [entry .zclr 1 false, entry .zclr 2 false, entry .zclr 3 false] [];
      s.ctx.mx.queue.length = 3 ∧ s.pre.r.entry ((matOp 0 8).imm.toNat / 16) = some (0x04207718, 0x04207718, 0x04207718) ∧
      (s.pre.q.loops[(matOp 0 0).imm.toNat]?).map (fun l => s.pre.r.entry (l.index.toNat % 16)) = some (some (0x04207718, 0x04207718, 0x04207718)) ∧
      mgoReject s.core.pool (2 ^ 15 * s.core.pool.lb.length) (readCfg s.ctx.mx.shadow) 0x04207718 0x04207718 = none) ∧
    demo.ctx.tlm.issued.toNat ≤ demo.ctx.tlm.mark.toNat ∧ demo.ctx.mx.loads = [] ∧
    (demoMatrix [] []).ctx.tlm.mark.toNat < (demoMatrix [] []).ctx.tlm.issued.toNat ∧ (demoMatrix [] []).ctx.mx.loads = [] ∧
    (demo.rdS 1).toNat % 64 = 0 ∧ (∀ x ∈ mldwSpans (matOp 1 31) (demo.rdS 1) 0, x.fault = none) ∧ (0 : W64).toNat % 64 = 0 ∧
    (∀ x ∈ mldwSpans (matOp 1 95) (demo.rdS 1) 0, x.fault = none) ∧ (matOp 1 95).imm.getLsbD 6 = true ∧ demo.psS 0 = false ∧
    (matOp 1 31).imm.getLsbD 5 = false ∧ demo.core.pool.isTile ((matOp 1 31).imm.toNat % 32) = true ∧ demo.ctx.mx.queue = [] ∧
    (demo.rdS 3).toNat < 2 ^ 32 ∧ (∀ j < 32, (demo.rdS 3).getLsbD j = true → demo.core.pool.isTile j = true) ∧
    (demoMatrix (List.replicate 4 (entry .zclr 1 false)) []).ctx.mx.queue.length = 4 := by
  refine ⟨.inl (by decide +kernel), ?_⟩
  decide +kernel

/-- PreciseTraps, the matrix class: a context that does not hold the engine, a poisoned source, indices and values beyond their
range, an entry that is not valid and a loop level that is not there; for MLDW poisoned scales, a tile in the host's space, a
tile at no multiple of 64, a reserved width, and a bank that a queued nest of another record names. -/
theorem test_meets_MatrixTraps : (withCtx demo fun c => { c with c := { c.c with mhold := false } }).pre.c.mhold = false ∧ demo.psS 63 = true ∧
    demo.ctx.mx.queue.length < 4 ∧ 15 < (16 : BitVec 8).toNat ∧ 32 ≤ (demo.rdS 13).toNat ∧ 2 ^ 32 ≤ (demo.rdS 14).toNat ∧
    demo.pre.r.entry ((matOp 0 8).imm.toNat / 16) = none ∧ demo.pre.q.loops.length ≤ (matOp 0 0).imm.toNat ∧
    ({ matOp 1 64 with sd := 63 } : FM).imm.getLsbD 6 = true ∧
    (mldwSpans (matOp 5 0) (demo.rdS 5) 0).findSome? Span.fault = some 0x3000000000000100 ∧
    (∀ x ∈ mldwSpans (matOp 3 0) (demo.rdS 3) 0, x.fault = none) ∧ (demo.rdS 3).toNat % 64 ≠ 0 ∧
    (let s := demoMatrix [entry .nest 1 false] [];
      s.core.pool.isTile ((matOp 1 0).imm.toNat % 32) = true ∧ s.core.pool.sameRecord (matOp 1 0x20) = false ∧
      ∃ e ∈ s.ctx.mx.queue, (matOp 1 0x20).imm.toNat % 32 ∈ e.banks) := by decide +kernel

/-- TileReads: row 5 of a tile, by the output descriptor of ft0, which is valid and rounds to nearest; one that rounds under SR; one that
is not valid, for the trap of MAV. -/
theorem test_meets_TileReads : Passes demoDesc noBlock ∧ demoDesc.pre.c.mhold = true ∧ demoDesc.psS 3 = false ∧ (demoDesc.rdS 3).toNat < 32 ∧
    bits (vget demoDesc.pre.r.ft 0).toNat 15 12 = 0 ∧ descValid (vget demoDesc.pre.r.f (bits (vget demoDesc.pre.r.ft 0).toNat 11 8)) = true ∧
    descRnd (vget demoDesc.pre.r.f (bits (vget demoDesc.pre.r.ft 0).toNat 11 8)) ≠ 2 ∧
    descValid (vget demoDesc.pre.r.f 1) = true ∧ descRnd (vget demoDesc.pre.r.f 1) = 2 ∧ bits 0x100 11 8 = 1 ∧ bits 0x100 15 12 = 0 ∧
    descValid (vget demoDesc.pre.r.f 2) = false ∧ bits 0x200 11 8 = 2 := by
  refine ⟨.inl (by decide +kernel), ?_⟩
  decide +kernel

/-- MatrixArithmetic: 32 products of the largest magnitudes; a reading that does not clip at S = 5, and one that need not; the last
index vector of a nest of two levels. -/
theorem test_meets_MatrixArithmetic :
    (List.replicate 32 (⟨false, 511⟩ : QElem)).length ≤ 32 ∧ (∀ x ∈ List.replicate 32 (⟨false, 511⟩ : QElem), x.q < 512) ∧
    (readBlock 5 0 { h := 3, pos := 7, neg := 2 } false 0 0).clip = false ∧ max 7 2 * 2 ^ 0 ≤ lmax 5 ∧
    (let c := readCfg (vset (vset (vset (Vector.replicate 16 0) 1 (2#64 <<< 50)) 4 3) 6 1);
      [3, 1].length = c.levels.length ∧ (∀ x ∈ [3, 1].zip c.levels, x.1 ≤ x.2.cnt) ∧ rankOf ([3, 1].zip c.levels) = 7 ∧ c.total = 8) := by
  decide +kernel

/-- The context that the demo's events are about. -/
def demoId : CtxId := ⟨1, 0⟩

/-- MatrixProgress: a nest and an MZCLR that may start behind a started entry, one that waits behind an MCAL, an MCAL before and at
its turn, a nest and an MCAL that are over, an MLDW whose tile is there. -/
theorem test_meets_MatrixEvents :
    (∀ k ∈ [MKind.nest, .zclr], let e := { entry k 2 false with imm := 0x80 }; let s := demoMatrix ([entry .nest 1 true] ++ e :: []) [];
      (s.focus demoId).isSome ∧ s.ctx.sch.life = .resident ∧ (entry .nest 1 true).started.isSome ∧ e.started = none ∧ e.num = 2 ∧
      [entry .nest 1 true].length < 2 ∧ (entry .nest 1 true).kind ≠ .cal ∧
      (e.kind = .zclr → ∀ z ∈ (entry .nest 1 true).tiles, z ∉ e.writes) ∧ s.nestInvalid e = none) ∧
    (entry .cal 1 true).kind = .cal ∧ (demoMatrix [entry .cal 2 false] []).ctx.tlm.mark.toNat + 1 ≠ (2 : W64).toNat ∧
    (demoMatrix [entry .cal 1 false] []).ctx.tlm.mark.toNat + 1 = (1 : W64).toNat ∧
    (let e := { entry .nest 1 true with step := 1 }; let s := demoMatrix [e] [];
      (s.ctx.mx.queue.find? fun e => e.num = 1 && e.kind = .nest && e.started.isSome) = some e ∧ (readCfg e.cfg).total ≤ e.step) ∧
    (let l : MLoad := { num := 2, o := matOp 1 3, ba := progVa, src := 0x2000000000030000, scl := 0, tile := some ⟨3, 0, false, false, 0, 0, 0, []⟩ };
      let s := demoMatrix [] [l];
      (s.ctx.mx.loads.find? fun l => !l.isSig && l.num = 2) = some l ∧ s.core.bankFree l.o.bank ≤ s.core.cycle ∧
      l.tile.map (·.bank) = some l.o.bank) ∧
    ((demoMatrix [entry .cal 1 true] []).ctx.mx.queue.find? fun e => e.num = 1 && e.kind = .cal) = some (entry .cal 1 true) ∧
    (entry .cal 1 true).started = some 5 ∧ 5 + 4096 ≤ (demoMatrix [entry .cal 1 true] []).core.cycle := by decide +kernel

/-- A tile operation that has started in a cycle on bank 0. -/
def aRun (t : Nat) : TileStart := ⟨t, ⟨0, 0, false, false, 0, 0, 0, []⟩⟩

/-- MatrixProgress: the one tile operation of a nest on bank 0 and tile 0: that may start, that has started already, and that is over. -/
theorem test_meets_TileOperations :
    let e := entry .nest 1 true; let g := readCfg e.cfg; let s := demoMatrix [e] []
    let busy := { e with runs := [aRun 8000] }; let done := demoMatrix [{ e with runs := [aRun 7000] }] []
    s.focus demoId = some s ∧ (s.ctx.mx.queue.find? fun e => e.num = 1 && e.kind = .nest) = some e ∧
    (g.gen (·.dw) g.wbase e.step).toNat = 0 ∧ (g.gen (·.dz) g.zbase e.step).toNat = 0 ∧ e.runs = [] ∧ e.step + e.runs.length < g.total ∧
    e.at0 + 8 ≤ s.core.cycle ∧ s.core.bankFree 0 ≤ s.core.cycle ∧ (∀ x ∈ s.ctx.mx.queue, ∀ r ∈ x.runs, r.tile.bank ≠ 0) ∧
    s.ctx.mx.loads = [] ∧ s.ctx.mx.queue.takeWhile (fun x => x.num ≠ 1) = [] ∧ (s.core.pool.tile? 0).isSome ∧
    (demoMatrix [busy] []).core.cycle < 8000 + 1024 ∧ g.total ≤ busy.step + busy.runs.length ∧
    7000 + 1024 ≤ done.core.cycle ∧ ((List.range g.rows).mapM fun m => done.aRow { e with runs := [aRun 7000] } g e.step m).isSome := by
  refine ⟨rfl, ?_⟩
  decide +kernel

/-! ### Engine statements -/

/-- An engine-class operand record. -/
def engOp (sd sa sb sc : R6) (fn : BitVec 14) : FE := { sd := sd, sa := sa, sb := sb, sc := sc, fn := fn, w := noBlock }

/-- OperandRanges: a range that ends at the last byte of the scratchpad's space, one that leaves it, and one whose base may not lie there;
a shape whose pitches go down; a command that moves bytes. -/
theorem test_meets_OperandRanges :
    (⟨0x0FFFFFFFFFFFFFE0, flatReach 32, [0]⟩ : Span).fault = none ∧
    (⟨0x0FFFFFFFFFFFFFE0, flatReach 33, [0]⟩ : Span).fault = some 0x1000000000000000 ∧ InSpace (0x0FFFFFFFFFFFFFE0 : W64) [0] ∧
    ¬InSpace (0x2000000000000000 : W64) [0, 1] ∧
    (let h : CopyShape := ⟨2, 3, 32, -64, 0, -8, 0⟩; 0 < h.p ∧ 0 < h.r ∧ 0 < h.l) ∧
    ((0x80 : W64), 32) ∈ ({ op := .cpy, o := engOp 0 2 8 9 0, tl := 0, num := 1, sd := 0, sa := 0x40, sb := 0x80, sc := 32, ba := 0 } : Cmd).srcRows := by
  unfold InSpace
  decide +kernel

/-- EngineCommands: operands within the spaces and limits of every row; a length beyond its limit, a length that leaves the space, an
operand in a space that is not allowed, a poisoned one; a queue of 16. -/
theorem test_meets_EngineCommands :
    (∀ x ∈ [(EOp.cpy, engOp 0 2 1 9 0), (.cpy2, engOp 0 2 1 14 0), (.cpyxScale, engOp 3 2 1 9 0x400), (.cpyxAdd, engOp 3 2 1 9 0x900),
        (.cpyxCast, engOp 0 2 1 9 0x1510), (.cpyxRadd, engOp 0 2 1 9 0x1904), (.cpyxRmax, engOp 0 2 1 9 0x2100), (.cpyh, engOp 15 2 1 9 0),
        (.fcpy, engOp 0 7 1 9 0), (.mxredStart, engOp 13 7 1 0 0), (.mxredRelay, engOp 13 2 1 8 0x1000), (.mxredFinish, engOp 13 2 1 8 0x2000),
        (.rsig, engOp 0 7 3 0 0), (.esig, engOp 0 0 0 0 0)],
      (∀ y ∈ (demo.readCmd x.1 x.2).spans, y.fault = none) ∧ LimitsOf demo x.1 x.2) ∧
    (∀ y ∈ (demo.readCmd .cpy (engOp 0 2 8 14 0)).spans, y.fault = none) ∧ ¬LimitsOf demo .cpy (engOp 0 2 8 14 0) ∧
    (demo.readCmd .cpy (engOp 0 2 8 7 0)).spans.findSome? Span.fault = some 0x1000000000000000 ∧
    ¬SpacesOf demo .cpy (engOp 0 7 1 9 0) ∧ PoisonedOperand demo (engOp 0 63 1 9 0) ∧ ¬PoisonedOperand demo (engOp 15 2 1 9 0) ∧
    Passes demo noBlock ∧ demo.ctx.queue.length < 16 ∧ 16 ≤ (List.replicate 16 (demo.readCmd .cpy (engOp 0 2 8 9 0))).length := by
  unfold SpacesOf LimitsOf InSpace PoisonedOperand Passes
  refine ⟨?_, by decide +kernel⟩
  intro x hx
  simp only [List.mem_cons, List.not_mem_nil, or_false] at hx
  rcases hx with rfl | rfl | rfl | rfl | rfl | rfl | rfl | rfl | rfl | rfl | rfl | rfl | rfl | rfl <;> dsimp only <;> decide +kernel

/-- A command with its row, operands as read, timeline and number. -/
def command (op : EOp) (o : FE) (tl : BitVec 2) (sd sa sb sc : W64) : Cmd :=
  { op := op, o := o, tl := tl, num := 1, sd := sd, sa := sa, sb := sb, sc := sc, ba := progVa }

/-- A copy of 32 bytes from offset 0x80 of the scratchpad to offset 0x40. -/
def padCopy : Cmd := command .cpy (engOp 0 2 8 9 0) 0 0 0x40 0x80 32

/-- The demo at cycle 100 with commands in the queue and started. -/
def demoEngine (q run : List Cmd) : State :=
  let s := withCtx demo fun c => { c with queue := q, running := run, tlc := { issued := 1, mark := 0 }, tlf := { issued := 1, mark := 0 } }
  { s with core := { s.core with cycle := 100 } }

/-- The descriptor of a CPY3 at offset 0x40: one layer of one row of 32 bytes, and one of a row of 2^32 - 1 bytes in two rows. -/
def demoCube (rows : Nat) : State := demo.poke (poolKey 0 16 0x40) (toBytes 8 (rows * 2 ^ 32 + (if rows = 1 then 32 else 2 ^ 32 - 1)) ++
  List.replicate 8 0 ++ toBytes 8 1 ++ List.replicate 8 0)

/-- EngineCommands, CPY3: descriptors within the limit and beyond it. -/
theorem test_meets_CopyCubes : ∀ n ∈ [1, 2], InSpace ((demoCube n).rdS 2) [0] ∧ ((demoCube n).rdS 2).toNat % 32 = 0 ∧
    ¬PoisonedOperand (demoCube n) (engOp 0 8 1 2 0) ∧
    ∃ rs, (demoCube n).route (demoCube n).me (demoCube n).rid Access.load ((demoCube n).rdS 2) 32 = .ok rs ∧
      (let d := (demoCube n).readDesc rs
       let w (i : Nat) : Nat := (d.getD i 0).toNat
       (∀ x ∈ ({ (demoCube n).readCmd .cpy3 (engOp 0 8 1 2 0) with desc := d } : Cmd).spans, x.fault = none) ∧
         ((w 0 / 2 ^ 32 * (w 0 % 2 ^ 32) * (w 2 % 2 ^ 32) ≤ 2 ^ 32 ∧ w 2 / 2 ^ 32 = 0) ↔ n = 1)) := by
  unfold InSpace PoisonedOperand
  intro n hn
  simp only [List.mem_cons, List.not_mem_nil, or_false] at hn
  rcases hn with rfl | rfl <;>
    exact ⟨by decide +kernel, by decide +kernel, by decide +kernel, [⟨poolKey 0 16 0x40, 32⟩], by decide +kernel⟩

/-- The demo where the region may own banks in the cache role, with banks and a role asked for. -/
def demoPool : State := withRegion demo fun g => { g with lim := { g.lim with bcch := 63, bscr := 48 } }

/-- PoolCommands: a bank that holds the role already, one that the budget refuses, one that it allows; a block's address. -/
theorem test_meets_PoolCommands : Passes demo noBlock ∧ demo.psS 16 = false ∧ (demo.rdS 0).toNat < 2 ^ 32 ∧
    (demo.region? demo.rid).isSome ∧ (demo.poolReq (engOp 10 16 0 0 0x2000)).faulty demo.core.pool = false ∧ (demo.poolReq (engOp 10 16 0 0 0x2000)).changing demo.core.pool = [] ∧
    (demo.poolReq (engOp 10 16 0 0 0x1000)).faulty demo.core.pool = false ∧ (demo.poolReq (engOp 10 16 0 0 0x1000)).changing demo.core.pool = [63] ∧
    demo.poolRefusal (demo.poolReq (engOp 10 16 0 0 0x1000)) = some 5 ∧ demoPool.poolRefusal (demoPool.poolReq (engOp 10 16 0 0 0x1000)) = none ∧
    (demoPool.poolReq (engOp 10 16 0 0 0x1000)).faulty demoPool.core.pool = false ∧
    InSpace (demo.rdS 1) [2, 3] ∧ (demo.rdS 1).toNat % 256 = 0 ∧ InSpace (demo.rdS 5) [2, 3] ∧ (demo.rdS 5).toNat % 256 = 0 := by
  refine ⟨.inl (by decide +kernel), ?_⟩
  unfold InSpace
  decide +kernel

/-- PoolCommands, the traps: a poisoned operand, a second mask above 32 bits, no bank at all, a block on the scratchpad and one at no
multiple of 256. -/
theorem test_meets_PoolTraps : demo.psS 63 = true ∧ demo.psS 14 = false ∧ 2 ^ 32 ≤ (demo.rdS 14).toNat ∧
    (demo.poolReq (engOp 10 0 0 0 0x2000)).faulty demo.core.pool = true ∧ ¬InSpace (demo.rdS 2) [2, 3] ∧ demo.psS 2 = false ∧
    InSpace (demo.rdS 6) [2, 3] ∧ (demo.rdS 6).toNat % 256 ≠ 0 ∧ demo.psS 6 = false := by
  unfold InSpace
  decide +kernel

/-- Whether the bytes of a command's sources are there. -/
def readDone : SrcRead → Bool
  | .ok .. => true
  | _ => false

theorem readDone_ok {r : SrcRead} (h : readDone r = true) : ∃ bs bad, r = .ok bs bad := by
  cases r with
  | ok bs bad => exact ⟨bs, bad, rfl⟩
  | wait => exact absurd h (by simp [readDone])
  | fail => exact absurd h (by simp [readDone])

/-- A copy from another device to offset 0x80, on timeline F. -/
def fabricCopy : Cmd := command .fcpy (engOp 0 8 7 9 0) 2 0 0x80 0x4003000000000040 32

/-- A copy of 32 bytes of the host's page 20, which the host has answered with no translation. -/
def hostCopy : Cmd := { command .cpy (engOp 0 2 8 9 0) 0 0 0x40 0x3000000000014000 32 with waiting := true }

/-- The demo with that copy, and that answer held. -/
def demoRefused : State :=
  let s := demoEngine [] [hostCopy]
  { s with mgmt := { s.mgmt with ats := { pasid := 0, page := 20, to_ := none } :: s.mgmt.ats } }

/-- EngineEvents: an ESIG, a copy and an FCPY at the head of a queue, with engines that have room and without one. -/
theorem test_meets_EngineStarts :
    (∀ x ∈ [command .esig (engOp 0 0 0 0 0) 3 0 0 0 0, padCopy, fabricCopy], (demoEngine [x] []).focus demoId = some (demoEngine [x] []) ∧
      (demoEngine [x] []).ctx.sch.life.starts = true ∧ (demoEngine [x] []).inStream 0 < 2048 ∧ (demoEngine [x] []).touchesHeld x = false ∧
      (demoEngine [x] []).ctx.remote = none) ∧
    fabricCopy.op ∈ [EOp.fcpy, .mxredStart, .mxredRelay, .mxredFinish] ∧ (demoEngine [fabricCopy] []).onEngine 0 = 0 ∧
    (let busy := demoEngine [fabricCopy] ((List.range 128).map fun k => { fabricCopy with engine := some (k % 8) });
      ∀ e < 8, busy.onEngine e = 16) := by
  refine ⟨?_, by decide +kernel, by decide +kernel, by decide +kernel⟩
  intro x hx
  simp only [List.mem_cons, List.not_mem_nil, or_false] at hx
  rcases hx with rfl | rfl | rfl <;> exact ⟨rfl, by decide +kernel⟩

/-- EngineEvents: a copy that has run its time, one that may go on, one that waits for a page of the host, one whose sources have not been
read, one whose destination does not exist. -/
theorem test_meets_EngineEvents :
    Runs (demoEngine [] [padCopy]) padCopy 0 1 ∧ padCopy.op ≠ .cpyh ∧ GrantLive (demoEngine [] [padCopy]) ∧
    (∃ bs bad, (demoEngine [] [padCopy]).readSrc padCopy = .ok bs bad) ∧ padCopy.src = none ∧ padCopy.waiting = false ∧
    (demoEngine [] [padCopy]).routeAll 0 1 padCopy.dstAccess padCopy.dstRows = .ok [⟨poolKey 0 16 0x40, 32⟩] ∧
    (demoEngine [] [padCopy]).reduceOrdered padCopy [⟨poolKey 0 16 0x40, 32⟩] = true ∧
    (let x : Cmd := { padCopy with waiting := true };
      (demoEngine [] [x]).ctx.cmd? 0 1 = some x ∧ x.remoteSrc (demoEngine [] [x]) = false ∧ x.remoteDst (demoEngine [] [x]) = false ∧
      (demoEngine [] [x]).routeAll 0 1 Access.load x.srcRows ≠ .wait ∧ (demoEngine [] [x]).routeAll 0 1 x.dstAccess x.dstRows ≠ .wait) ∧
    (let s := demoRefused;
      s.ctx.cmd? 0 1 = some hostCopy ∧ hostCopy.remoteSrc s = false ∧ hostCopy.src = none ∧ (0x3000000000014000, 32) ∈ hostCopy.srcRows ∧
      (0x3000000000014000, 32) ∈ pieces (32 / 2048 + 2) (0x3000000000014000 : W64) 32 ∧
      (match s.resolve s.me s.rid 0x3000000000014000 0 Access.load with | .error f => f.rank == 3 | .ok _ => false) = true ∧
      s.routeAll s.me s.rid Access.load hostCopy.srcRows = .wait) ∧
    (let x := command .cpy (engOp 0 2 8 9 0) 0 0 0x40 0x800000 32;
      (demoEngine [] [x]).ctx.cmd? 0 1 = some x ∧ (demoEngine [] [x]).mayFail x .remote = true ∧ (demoEngine [] [x]).ctx.sch.life = .resident) ∧
    ((demoEngine [] []).region? 1).map (fun g => g.dom.fpol) = some 0 := by
  refine ⟨⟨by decide +kernel, by decide +kernel, by decide +kernel, by decide +kernel⟩, by decide, ?_, readDone_ok (by decide +kernel), ?_⟩
  · intro g hg
    have h : (demoEngine [] [padCopy]).core.grantOf (demoEngine [] [padCopy]).rid = some { rid := 1, base := 0, count := 8 } := by decide +kernel
    rw [h] at hg
    exact Option.some.inj hg ▸ rfl
  · decide +kernel

/-- EngineResults: a copy, transforms of integers and of numbers, a cast, hops of 32 elements, an RSIG with its place. -/
theorem test_meets_EngineResults : padCopy.op ∈ [EOp.cpy, .cpy2, .cpy3, .cpyh, .fcpy] ∧
    (∀ x ∈ [(EOp.cpyxScale, (0x100 : BitVec 14)), (.cpyxAdd, 0x904), (.cpyxRadd, 0x1904), (.cpyxRmax, 0x2500), (.cpyxCast, 0x1510)],
      let c := command x.1 (engOp 3 2 8 9 x.2) 0 3 0x40 0x80 32;
      isX c.op = true ∧ (List.replicate 32 (0 : Byte)).length % (tyWidth c.o.xT / 8) = 0) ∧
    tyF (command .cpyxScale (engOp 3 2 8 9 0x100) 0 3 0x40 0x80 32).o.xT = false ∧
    tyF (command .cpyxRmax (engOp 3 2 8 9 0x2500) 0 3 0x40 0x80 32).o.xT = true ∧
    (command .cpyxAdd (engOp 3 2 8 9 0x904) 0 3 0x40 0x80 32).o.xRm = 4 ∧
    (bytesAt demo [⟨poolKey 0 16 0x40, 32⟩]).length = (List.replicate 32 (0 : Byte)).length ∧
    isMx (command .mxredStart (engOp 13 7 1 0 0) 2 32 0 0 0).op = true ∧ isMx (command .mxredFinish (engOp 13 7 1 0 0) 2 32 0 0 0).op = true ∧
    (command .mxredStart (engOp 13 7 1 0 0) 2 32 0 0 0).sd.toNat % 32 = 0 ∧
    (command .rsig (engOp 0 7 3 0 0) 2 0 0 0 0).op = .rsig := by decide +kernel

/-- A copy with an arrival whose bytes are written. -/
def arrivalCopy : Cmd := { command .cpyh (engOp 15 2 8 9 0) 0 progVa 0x40 0x80 32 with wrote := true }

/-- A dormant context of the demo's region on its core, in bank 1. -/
def sleeper : Ctx := { progCtx 1 with id := ⟨1, 1⟩, bank := 1, sch := { (progCtx 1).sch with life := .dormant } }

/-- Arrivals: a CPYH that is over, with a queue that has room and with a context that sleeps; an arrival that waits for it. -/
theorem test_meets_Arrivals : (demoEngine [] [arrivalCopy]).focus demoId = some (demoEngine [] [arrivalCopy]) ∧
    (demoEngine [] [arrivalCopy]).ctx.cmd? 0 1 = some arrivalCopy ∧ arrivalCopy.op = .cpyh ∧ arrivalCopy.wrote = true ∧ arrivalCopy.seqs = [] ∧
    arrivalCopy.failed = false ∧ arrivalCopy.waiting = false ∧ arrivalCopy.at0 + arrivalCopy.minCycles ≤ (demoEngine [] [arrivalCopy]).core.cycle ∧
    (demoEngine [] [arrivalCopy]).me < 1152 ∧ ((demoEngine [] [arrivalCopy]).coreAt 0).arrivals.length < 32 ∧
    (let s : State := { demo with ctxs := [sleeper], core := { demo.core with arrivals := [⟨1, progVa, 0, 0, 0⟩] } };
      (s.coreAt 0).arrivals[0]? = some ⟨1, progVa, 0, 0, 0⟩ ∧ sleeper ∈ s.allCtxs ∧ sleeper.sch.life = .dormant ∧ sleeper.core.toNat = 0 ∧
      sleeper.id.rid = 1) := by
  refine ⟨rfl, ?_, ?_, ?_, ?_, ?_, ?_, ?_, ?_, ?_, ?_, List.mem_cons_of_mem _ (List.mem_singleton.2 rfl), ?_⟩ <;> decide +kernel

/-! ### Traps, saves and schedulers -/

/-- The demo with its context changed. -/
def demoCtx (f : Ctx → Ctx) : State := { demo with ctx := f demo.ctx }

/-- The demo with the scheduling state of its context changed. -/
def demoSched (f : Sched → Sched) : State := demoCtx fun c => { c with sch := f c.sch }

/-- The demo 2 s after its start. -/
def demoLate : State := { demo with time := { demo.time with elapsed := 2000000000 * 105000 } }

/-- A watch on the first line of the seam, with or without a cause seen. -/
def aWatch (d : Option Nat) (seen : Option (BitVec 2)) : Watch :=
  { sd := 1, line := seamKey 0, addr := 0x2000000000000000, sco := 1, deadline := d, seen := seen }

/-- LandingEvents: a geometric result that is due, a watch that has seen a store, and one whose time is over. -/
theorem test_meets_LandingEvents :
    (∃ u, (demoCtx fun c => { c with board := [{ dst := .geo, due := some 0 }] }).focus demoId = some u ∧
      u.ctx.board = [{ dst := .geo, due := some 0 }] ∧ 0 ≤ u.core.cycle) ∧
    (∃ u, (demoCtx fun c => { c with watch := some (aWatch none (some 2)) }).focus demoId = some u ∧
      u.ctx.watch = some (aWatch none (some 2)) ∧ (aWatch none (some 2)).seen = some 2) ∧
    ∃ u, ({ demoLate with ctx := { demo.ctx with watch := some (aWatch (some 5) none) } } : State).focus demoId = some u ∧
      u.ctx.watch = some (aWatch (some 5) none) ∧ 5 ≤ demoLate.time.elapsedNs :=
  ⟨⟨_, rfl, rfl, by decide +kernel⟩, ⟨_, rfl, rfl, rfl⟩, ⟨_, rfl, rfl, by decide +kernel⟩⟩

/-- The demo with the guard's traps of channels 7 and 2 to come, and records that wait or none. -/
def demoGuarded (out : List (BitVec 512 × Bool)) : State :=
  demoCtx fun c => { c with q := { c.q with guard := [7, 2] }, sch := { c.sch with outRecs := out } }

/-- TrapEntries, the guard: the trap comes before the first bundle of the program; its ring has room, with nothing that its record
would wait for, or with a record before it. -/
theorem test_meets_GuardTrapRule : ∀ out ∈ [[], [((9 : BitVec 512), false)]], ∃ u, (demoGuarded out).focus demoId = some u ∧
    u.ctx.q.guard = [7, 2] ∧ u.ctx.q.trapped = none ∧ u.ctx.sch.life = .resident ∧
    u.ctx.remote = none ∧ u.ctx.watch = none ∧ u.findBundle u.ctx.q.pc = .header progVa 1 ∧ u.core.num = u.ctx.core ∧
    (u.region? u.ctx.id.rid).map (fun g => g.dom.fpol) = some 0 ∧ u.ctx.sch.pendRec = none ∧ u.ctx.sch.outRecs = out ∧
    (u.writeBackReach u.ctx.core.toNat 3).recReady u.ctx = true ∧
    (u.writeBackReach u.ctx.core.toNat 3).recordPlace u.ctx = some (0x2000000000020000, seamKey 0x20000) := by
  intro out h
  simp only [List.mem_cons, List.not_mem_nil, or_false] at h
  rcases h with rfl | rfl <;> exact ⟨_, rfl, by decide +kernel⟩

/-- A record at the ring's first place that holds a context: precise, with the slots committed or not, with a transfer or not. -/
def aHold (prec ac pt : Bool) : HoldRec :=
  { addr := 0x2000000000020000, prec := prec, ac := ac, pt := pt, rt := true, ba := progVa, tgt := progVa + 6, key := seamKey 0x20000 }

/-- The demo with its context held by such a record, to whose disposition released writes have given words. -/
def demoHeld (ws : List W64) : State :=
  let s := demoSched fun x => { x with life := .held, hold := some (aHold true false true) }
  { s with disps := ws.map fun w => (seamKey 0x20000, w) }

/-- The demo with a record on its way to the ring, whose context has results that are due later, or none. -/
def demoOut (p : List Pend) (pend : Option (BitVec 512)) : State :=
  let s := demoSched fun x => { x with outRecs := [(9, true)], pendRec := pend }
  { s with ctx := { s.ctx with board := p } }

/-- RecordsAndDispositions: a record that must wait, one for a ring with room, and one that finds another pending. -/
theorem test_meets_OutRecords : ∃ x, (demoOut [] none).ctx? demoId = some x ∧ x.sch.outRecs = [(9, true)] ∧ x.sch.life = .resident ∧
    (demoOut [] none).recReady x = true ∧ x.sch.pendRec = none ∧
    (demoOut [] none).recordPlace x = some (0x2000000000020000, seamKey 0x20000) ∧
    (∃ y, (demoOut [{ dst := .s 1, due := some 99 }] none).ctx? demoId = some y ∧ y.sch.life = .resident ∧
      (demoOut [{ dst := .s 1, due := some 99 }] none).recReady y = false) ∧
    ∃ y, (demoOut [] (some 8)).ctx? demoId = some y ∧ y.sch.pendRec = some 8 ∧ (demoOut [] (some 8)).recReady y = true ∧
      ((demoOut [] (some 8)).region? 1).map (fun g => g.dom.fpol) = some 0 :=
  ⟨_, rfl, rfl, rfl, by decide +kernel, rfl, by decide +kernel, ⟨_, rfl, by decide +kernel⟩, ⟨_, rfl, by decide +kernel⟩⟩

/-- The demo with a pending record, with room in the ring or without. -/
def demoPend (full : Bool) : State :=
  let s := demoSched fun x => { x with pendRec := some 9, pendHolds := true }
  if full then withCtx s fun c => { c with c := { c.c with pidx := 1 <<< (c.c.trpb.toNat % 32), cidx := 0 } } else s

/-- RecordsAndDispositions: a record to write with room in the ring and without; a context held, with each disposition written; the
four forms of a record that a disposition answers. -/
theorem test_meets_RecordsAndDispositions :
    (∃ x, (demoPend false).ctx? demoId = some x ∧ x.sch.outRecs = [] ∧ x.sch.pendRec = some 9 ∧ x.sch.life = .resident ∧
      (demoPend false).pendRoom x = true ∧ ((demoPend false).writeBackReach x.core.toNat 3).recReady x = true ∧
      ((demoPend false).writeBackReach x.core.toNat 3).recordSlot x = some (0x2000000000020000, seamKey 0x20000)) ∧
    (∃ x, (demoPend true).ctx? demoId = some x ∧ (demoPend true).pendRoom x = false) ∧
    (∀ op ∈ [0, 1, 2, 3], let s := demoHeld [4, BitVec.ofNat 64 (op * 2 ^ 60 + 0x10000), 5];
      ∃ x, s.ctx? demoId = some x ∧ x.sch.life = .held ∧ x.sch.hold = some (aHold true false true) ∧ x.sch.disp = none ∧
        (s.disps.filter fun e => e.1 = (aHold true false true).key).map (·.2) = [4] ++ BitVec.ofNat 64 (op * 2 ^ 60 + 0x10000) :: [5]) ∧
    ∀ h ∈ [aHold false false false, aHold true true false, aHold true false true, aHold true false false], ∀ op ∈ [(1 : BitVec 2), 2],
      let c : Ctx := { demo.ctx with sch := { demo.ctx.sch with hold := some h, disp := some (op, progVa) } }
      c.sch.disp = some (op, progVa) ∧ c.sch.hold = some h ∧ h.diverted = false := by
  refine ⟨⟨_, rfl, by decide +kernel⟩, ⟨_, rfl, by decide +kernel⟩, ?_, by decide +kernel⟩
  intro op h
  simp only [List.mem_cons, List.not_mem_nil, or_false] at h
  rcases h with rfl | rfl | rfl | rfl <;> exact ⟨_, rfl, by decide +kernel⟩

/-- RecordsAndDispositions, the fields: a record for a ring with room; one that finds another pending; one that must wait for a result
that is due later; a fault that reaches the domain. -/
theorem test_meets_RecordFields : let r : Rec := { cause := 0x0D, slot := 6, prec := false, ba := progVa, tl := 3 }
    reaches r.cause r.detail = true ∧ r.cause < 2 ^ 8 ∧ r.slot < 8 ∧ r.detail < 2 ^ 32 ∧ r.lmask < 2 ^ 32 ∧ r.tl < 4 ∧
    (∃ g, demo.region? demoId.rid = some g ∧ g.dom.fpol = 0) ∧
    (∃ x, demo.ctx? demoId = some x ∧ x.sch.life = .resident ∧ x.sch.outRecs = [] ∧ x.sch.pendRec = none ∧ x.sch.hold = none ∧
      (demo.writeBackReach x.core.toNat 3).recReady x = true ∧
      (demo.writeBackReach x.core.toNat 3).recordPlace x = some (0x2000000000020000, seamKey 0x20000)) ∧
    (∃ x, (demoPend false).ctx? demoId = some x ∧ x.sch.pendRec.isSome = true ∧
      ((demoPend false).writeBackReach x.core.toNat 3).recReady x = true) ∧
    ∃ x, (demoOut [{ dst := .s 1, due := some 99 }] none).ctx? demoId = some x ∧
      ((demoOut [{ dst := .s 1, due := some 99 }] none).writeBackReach x.core.toNat 3).recReady x = false :=
  ⟨by decide +kernel, by decide +kernel, by decide +kernel, by decide +kernel, by decide +kernel, by decide +kernel,
    ⟨progRegion 1, rfl, by decide +kernel⟩, ⟨_, rfl, by decide +kernel⟩, ⟨_, rfl, by decide +kernel⟩, ⟨_, rfl, by decide +kernel⟩⟩

/-- The demo with requests for its context, a watch or none, and a stop or none. -/
def demoAsked (w : Option Watch) (stop : Option SaveEnd) : State :=
  demoCtx fun c => { c with watch := w, sch := { c.sch with reqs := [.management], stopAt := stop } }

/-- The demo with its context dormant in a loss of supply. -/
def demoLoss : State := { demoSched (fun x => { x with life := .dormant }) with power := { demo.power with lossOn := true } }

/-- The demo with its context on its way to its save area in a loss of supply. -/
def demoLossSaving : State :=
  { demoSched (fun x => { x with life := .saving, saveFor := some .management }) with power := { demo.power with lossOn := true } }

/-- RequestsAndSaves, the requests: for a resident context, for a dormant one in a loss of supply; one that lands, with a watch and
without one; one that may not land yet. -/
theorem test_meets_RequestsRule :
    (∃ x, demo.ctx? demoId = some x ∧ demo.mayRequest x .management = true ∧ x.sch.life = .resident) ∧
    (∃ x, demoLoss.ctx? demoId = some x ∧ demoLoss.mayRequest x .supplyLoss = true ∧ x.sch.life = .dormant) ∧
    (∃ x, demoLossSaving.ctx? demoId = some x ∧ demoLossSaving.mayRequest x .supplyLoss = true ∧ x.sch.life = .saving) ∧
    (∀ w ∈ [none, some (aWatch none none)], ∀ e ∈ [none, some SaveEnd.held], ∃ u, (demoAsked w e).focus demoId = some u ∧
      u.ctx.sch.life = .resident ∧ u.ctx.core = u.core.num ∧ u.ctx.sch.reqs ≠ [] ∧ u.ctx.remote = none ∧ u.ctx.q.trapped = none ∧
      u.ctx.q.loops = [] ∧ u.ctx.board = [] ∧ u.findBundle u.ctx.q.pc = .header progVa 1 ∧ u.core.saving = none ∧
      (∀ d ∈ u.ctxs, d.canSave u.me = false) ∧ u.ctx.watch = w) ∧
    { dst := .geo, due := some 9 } ∈ ({ demo.ctx with board := [{ dst := .geo, due := some 9 }] } : Ctx).board ∧ demo.core.cycle < 9 := by
  refine ⟨⟨_, rfl, by decide +kernel⟩, ⟨_, rfl, by decide +kernel⟩, ⟨_, rfl, by decide +kernel⟩, ?_, by decide +kernel⟩
  intro w hw e he
  simp only [List.mem_cons, List.not_mem_nil, or_false] at hw he
  rcases hw with rfl | rfl <;> rcases he with rfl | rfl <;> exact ⟨_, rfl, by decide +kernel⟩

/-- The demo in a save that nothing holds up, without matrix state. -/
def demoSaving (e : SaveEnd) : State :=
  let s := demoCtx fun c => { c with c := { c.c with mhold := false }, sch := { c.sch with life := .saving, saveEnd := e } }
  { s with core := { s.core with saving := some demoId, grants := [] } }

theorem savedParts_written {s : State} {c : Ctx} {core pcl cycle n : Nat} {rs : List Run} (hm : c.c.mhold = false)
    (hn : (c.savedBase pcl cycle false).length = n) (h : s.areaRuns c core 0 n Access.store = some rs) :
    s.writeArea c core (savedParts c pcl cycle none) = some (s.pokeRuns rs (c.savedBase pcl cycle false)) := by
  simp [State.writeArea, savedParts, hm, hn, h]

theorem spanned {rs : List Run} (h : (rs.all fun r => rs.all fun q => r == q || (r.key + r.n ≤ q.key || q.key + q.n ≤ r.key)) = true)
    (hd : rs.Nodup) : Apart rs := by
  refine List.Pairwise.imp_of_mem ?_ hd
  intro a b ha hb hab
  have := List.all_eq_true.1 (List.all_eq_true.1 h a ha) b hb
  simpa [hab] using this

theorem saves_meet {s : State} {e : SaveEnd} {rs : List Run}
    (hf : s.focus demoId = some s ∧ s.saveReady = true ∧ s.ctx.sch.saveEnd = e ∧ s.ctx.c.mhold = false ∧ s.core.grantOf demoId.rid = none)
    (hl : (s.ctx.savedBase 0 0 false).length = 0x7E00) (hr : s.areaRuns s.ctx 0 0 0x7E00 Access.store = some rs)
    (hc : s.classOf s.ctx = 0 ∧ s.me = 0 ∧ s.core.cycle = 0) (ha : Apart rs) :
    ∃ u, s.focus demoId = some u ∧ u.saveReady = true ∧ u.ctx.sch.saveEnd = e ∧ u.ctx.c.mhold = false ∧ u.core.grantOf demoId.rid = none ∧
      ∃ rs, u.areaRuns u.ctx u.me 0 (u.ctx.savedBase (u.classOf u.ctx) u.core.cycle false).length Access.store = some rs ∧ Apart rs ∧
        u.writeArea u.ctx u.me (savedParts u.ctx (u.classOf u.ctx) u.core.cycle none) =
          some (u.pokeRuns rs (u.ctx.savedBase (u.classOf u.ctx) u.core.cycle false)) := by
  refine ⟨s, hf.1, hf.2.1, hf.2.2.1, hf.2.2.2.1, hf.2.2.2.2, rs, ?_, ha, ?_⟩
  · rw [hc.1, hc.2.1, hc.2.2, hl]; exact hr
  · rw [hc.1, hc.2.1, hc.2.2]
    exact savedParts_written hf.2.2.2.1 hl hr

theorem restored_isSome {s : State} {c : Ctx} {core : Nat} (hl : c.sch.life ≠ .pending) (hm : c.c.mhold = false)
    (h : (s.areaRuns c core 0 0x7E00 Access.load).isSome = true) : (s.restored c core).isSome = true := by
  obtain ⟨rs, h⟩ := Option.isSome_iff_exists.1 h
  simp [State.restored, State.readArea, hl, hm, h]

/-- The runs of the low part of the area, one a piece of 2048 bytes. -/
def areaPieces : List Run := (List.range 16).map fun i => ⟨seamKey (0x100000 + 2048 * i), if i = 15 then 1536 else 2048⟩

theorem areaPieces_apart : Apart areaPieces := spanned (by decide +kernel) (by decide +kernel)

theorem demoSaving_meets : ∀ e ∈ [SaveEnd.saved, .held, .retired], ((demoSaving e).focus demoId = some (demoSaving e) ∧
      (demoSaving e).saveReady = true ∧ (demoSaving e).ctx.sch.saveEnd = e ∧ (demoSaving e).ctx.c.mhold = false ∧
      (demoSaving e).core.grantOf demoId.rid = none) ∧
    ((demoSaving e).areaRuns (demoSaving e).ctx 0 0 0x7E00 Access.store = some areaPieces) ∧
    (demoSaving e).classOf (demoSaving e).ctx = 0 ∧ (demoSaving e).me = 0 ∧ (demoSaving e).core.cycle = 0 := by
  intro e he
  simp only [List.mem_cons, List.not_mem_nil, or_false] at he
  rcases he with rfl | rfl | rfl <;> exact ⟨⟨rfl, by decide +kernel⟩, by decide +kernel⟩

theorem demoSaving_bytes (e : SaveEnd) : ((demoSaving e).ctx.savedBase 0 0 false).length = 0x7E00 := by
  cases e <;> decide +kernel

/-- RequestsAndSaves, the saves: one that writes its area, ends each of the three ways, and one that is abandoned. -/
theorem test_meets_SavesRule :
    (∀ e ∈ [SaveEnd.saved, .held, .retired], ∃ u, (demoSaving e).focus demoId = some u ∧ u.saveReady = true ∧ u.ctx.sch.saveEnd = e ∧
      u.ctx.c.mhold = false ∧ u.core.grantOf demoId.rid = none ∧
      ∃ rs, u.areaRuns u.ctx u.me 0 (u.ctx.savedBase (u.classOf u.ctx) u.core.cycle false).length Access.store = some rs ∧ Apart rs ∧
        u.writeArea u.ctx u.me (savedParts u.ctx (u.classOf u.ctx) u.core.cycle none) =
          some (u.pokeRuns rs (u.ctx.savedBase (u.classOf u.ctx) u.core.cycle false))) ∧
    ∃ u, ({ demoSaving .saved with mem := [] } : State).focus demoId = some u ∧ u.saveReady = true ∧
      (u.areaFault u.ctx u.me).map (·.1) = some .page ∧ (u.region? u.ctx.id.rid).map (fun g => g.dom.fpol) = some 0 :=
  ⟨fun e he => saves_meet (demoSaving_meets e he).1 (demoSaving_bytes e) (demoSaving_meets e he).2.1 (demoSaving_meets e he).2.2
    areaPieces_apart, ⟨_, rfl, by decide +kernel⟩⟩

/-- SaveRoundTrip: six loop levels, a full queue of commands as they are encoded, the highest class, a PC in the seam, a pending record,
a matrix queue. -/
theorem test_meets_SaveRoundTrip :
    let c : Ctx := { (demoLoops 6).ctx with queue := List.replicate 16 padCopy }
    c.q.loops.length ≤ 6 ∧ c.queue.length ≤ 16 ∧ 3 < 4 ∧ c.q.pc.toNat / 2 ^ 48 = 0x2000 ∧ c.q.pc.toNat % 2 = 0 ∧
    (∀ x ∈ c.queue, readEngine (x.o.toWord (eOpcode x.op)) = some (x.op, x.o)) ∧ (some (9 : BitVec 512) ≠ some 0) ∧
    (demoMatrix [entry .nest 1 true] []).ctx.c.mhold = true ∧ (demoMatrix [entry .nest 1 true] []).ctx.mx.queue.length ≤ 4 := by decide +kernel

/-- The region of the demo, in cluster 0 alone, whose contexts may move and hold two cores. -/
def roam (g : Region) : Region :=
  { g with lim := { g.lim with cmax := 2, rmax := 2, migok := true }, work := { g.work with clmask := 1 } }

/-- The demo as roam has it, its context without matrix state, in a column that has been hot for 2 s. -/
def demoHot : State :=
  let s := withRegion (demoCtx fun c => { c with c := { c.c with mhold := false } }) roam
  { s with hot := [(0, 0)], time := demoLate.time }

/-- A context of a region of its own, of class 2, which waits and may only go back to core 0. -/
def waiter : Ctx :=
  { progCtx 2 with c := { (progCtx 2).c with base := 2 }, sch := { (progCtx 2).sch with life := .saved, lastCore := some 0 } }

/-- The demo with such a context waiting, each REG bank of core 0 gone but the one in use. -/
def demoWaits : State :=
  let s := demoCtx fun c => { c with c := { c.c with mhold := false } }
  { s with ctxs := [waiter], regions := progRegion 2 :: s.regions
           core := { s.core with pool := { s.core.pool with roles := (Vector.replicate 96 2).set 0 0 } } }

/-- SchedulerDecisions, retirement, temperatures at either end and between, migration and the request for a waiting context. -/
theorem test_meets_SchedulersRule :
    (∃ x, (demoSched fun x => { x with life := .retiring }).ctx? demoId = some x ∧
      (demoSched fun x => { x with life := .retiring }).retireReady x = true) ∧
    ((23 : BitVec 5).toNat < 24 ∧ ([105, 104, 95, 94, 0x80, 0x7F] : List (BitVec 8)).length = 6 ∧
      ((demo.mgmt.thot.toNat : Int) ≤ (105 : BitVec 8).toInt) ∧ (104 : BitVec 8).toInt < demo.mgmt.thot.toNat ∧
      (demo.mgmt.trel.toNat : Int) ≤ (95 : BitVec 8).toInt ∧ (94 : BitVec 8).toInt < demo.mgmt.trel.toNat) ∧
    (∃ x, demoHot.ctx? demoId = some x ∧ demoHot.tooHot x = true ∧ x.sch.target = none ∧ (demoHot.refuge x).isSome) ∧
    ∃ v, demoWaits.ctx? ⟨2, 0⟩ = some waiter ∧ demoWaits.victims waiter = [v] ∧ demoWaits.ctx? v.id = some v ∧ v.sch.life = .resident := by
  refine ⟨⟨_, rfl, by decide +kernel⟩, by decide +kernel, ⟨_, rfl, by decide +kernel⟩, ⟨demoWaits.ctx, ?_⟩⟩
  decide +kernel

/-- A context whose life and last core are given, of a region in cluster 0 that the demo is alone in. -/
def demoPlace (life : Life) (last : Option (BitVec 11)) : State :=
  withRegion (demoCtx fun c => { c with c := { c.c with mhold := false }, core := 0, sch := { c.sch with life := life, lastCore := last } }) fun g =>
    { g with work := { g.work with clmask := 1 } }

/-- SchedulerDecisions, placement: a context that has never run, and a saved one that goes back to its core. -/
theorem test_meets_PlacementsRule : ∀ e ∈ [(Life.pending, none, 0, 0), (.saved, some 0, 0, 0)], let s := demoPlace e.1 e.2.1
    ∃ x, s.ctx? demoId = some x ∧ x.waiting = true ∧ (s.region? demoId.rid).isSome ∧ s.pickCore x = some e.2.2.1 ∧
      s.outranked x (e.2.2.1 / 48) = false ∧ (x.sch.lastCore = none ∨ x.sch.lastCore = some (BitVec.ofNat 11 e.2.2.1)) ∧
      s.freeBank e.2.2.1 = some e.2.2.2 ∧ ((s.coreAt e.2.2.1).runFor demoId.rid 0).isSome ∧ x.sch.image = false ∧
      ((s.catchUp e.2.2.1).restored x e.2.2.1).isSome := by
  intro e he
  simp only [List.mem_cons, List.not_mem_nil, or_false] at he
  rcases he with rfl | rfl
  · exact ⟨_, rfl, by decide +kernel⟩
  · refine ⟨_, rfl, ?_, ?_, ?_, ?_, ?_, ?_, ?_, ?_, restored_isSome (by decide) (by decide) ?_⟩ <;> decide +kernel

/-! ### Seam, memory, pool, regions -/

/-- The demo with channel 7 of its core in a given state, its context in possession or not. -/
def demoChan (late : Bool) (h : Chan) : State :=
  let s := if late then demoLate else demo
  { s with core := { s.core with chans := s.core.chans.set 7 h } }

/-- SeamEvents: a channel that is being taken, one that is being given back, over or not, and one in possession that the guard refreshes. -/
theorem test_meets_SeamEvents :
    (chanAt (demoChan false { owner := some demoId, owning := some 3 }) 0 7).owner = some demoId ∧
    (chanAt (demoChan false { owner := some demoId, owning := some 3 }) 0 7).owning = some 3 ∧
    (chanAt (demoChan false { owner := some demoId, releasing := true }) 0 7).releasing = true ∧
    ((demoChan false { owner := some demoId, releasing := true }).ctx? demoId).isSome ∧
    (chanAt (demoChan false { owner := some demoId, releasing := true }) 0 7).busy ≤ demo.core.cycle ∧
    demo.core.cycle < (chanAt (demoChan false { owner := some demoId, releasing := true, busy := 9 }) 0 7).busy ∧
    (chanAt (demoChan true { owner := some demoId }) 0 7).owning = none ∧
    (chanAt (demoChan true { owner := some demoId }) 0 7).refresh + 4400 ≤ (demoChan true { owner := some demoId }).time.elapsedNs ∧
    ((demoChan true { owner := some demoId }).ctx? demoId).map (fun x => x.sch.life.inArea) = some false := by decide +kernel

/-- A store of the context in flight to a key, with the record of a release. -/
def aStore (key : Nat) (addr : W64) : Flight :=
  { seq := 0, ctx := demoId, wb := false, ba := progVa, addr := addr, key := key, data := 7, mask := 1, sent := none, mark := some ⟨3, 0, demoId⟩ }

/-- The demo with stores in flight to the seam, to another core's scratchpad and to this device as it names itself. -/
def demoFlight : State :=
  { demo with
    core := { demo.core with flight := [aStore (seamKey 64) 0x2000000000000040, aStore (5 * 2 ^ 60 + 1 * 2 ^ 48) 0x1001000000000000,
      aStore (4 * 2 ^ 60) 0x4000000000000000] }
    fab := { demo.fab with nextSeq := 1, rat := [(0, 0xE000000000001000)] } }

/-- The demo with a dirty line of the host in its cache role, and one of the seam that a store has reached before. -/
def demoDirty : State :=
  let f (seq : Nat) : Flight := { aStore (seamKey 64) 0x2000000000000040 with seq := seq }
  { demo with
    core := { demo.core with cache := [{ key := 3 * 2 ^ 60 + 64, va := 0x3000000000000040, data := 7, held := 1, dirty := 1, by_ := demoId, bank := 60 }], flight := [f 0, f 1] }
    fab := { demo.fab with nextSeq := 2 } }

/-- MemoryEvents: a store that may perform at each kind of home, and one behind another; a line of the host, dirty with its home
free, and one that is none; a store that the remote side refuses, of a live context. -/
theorem test_meets_MemoryEvents :
    (∀ e ∈ [(0, seamKey 64), (1, poolKey 1 16 0), (2, seamKey 0)], ∃ f, (demoFlight.coreAt 0).flight[e.1]? = some f ∧
      demoFlight.canPerform 0 f = true ∧
      (if f.key / 2 ^ 60 = 5 then (demoFlight.coreAt (f.key % 2 ^ 60 / 2 ^ 48)).scrKey (f.key % 2 ^ 48) = some e.2
        else if f.key / 2 ^ 60 = 4 then devOf (BitVec.ofNat 64 f.key) = demoFlight.mgmt.devid ∧
          demoFlight.remoteKey demoFlight.mgmt.devid f.key Access.store = some e.2
        else e.2 = f.key)) ∧
    ((demoDirty.coreAt 0).flight[1]?.map (demoDirty.canPerform 0)) = some false ∧
    (let f := aStore (4 * 2 ^ 60 + 2 ^ 48) 0x4001000000000000;
      demoFlight.canPerform 0 f = true ∧ devOf (BitVec.ofNat 64 f.key) ≠ demoFlight.mgmt.devid) ∧
    (∃ h, (demoHeld []).ctx.sch.hold = some h ∧ h.key = seamKey 0x20000) ∧
    (3 * 2 ^ 60 + 64) / 2 ^ 60 = 3 ∧ (3 * 2 ^ 60 + 64) % 64 = 0 ∧ seamKey 0 / 2 ^ 60 ≠ 3 ∧
    (∀ c ∈ demoDirty.core :: demoDirty.cores, ∀ f ∈ c.flight, f.wb = true → f.key ≠ 3 * 2 ^ 60 + 64) ∧ demoDirty.cores = [] ∧
    demoDirty.leavingLine 0 (3 * 2 ^ 60 + 64) = false ∧ (demoDirty.core.findLine (3 * 2 ^ 60 + 64)).map (·.dirty) = some 1 ∧
    demoDirty.clearWay 0 (3 * 2 ^ 60 + 64) ∧
    ∃ x g, demoFlight.ctx? demoId = some x ∧ x.sch.life = .resident ∧
      ((demoFlight.coreAt x.core.toNat).flight.find? fun f => f.ctx = demoId && f.ba = progVa && f.addr = 0x4000000000000000) =
        some (aStore (4 * 2 ^ 60) 0x4000000000000000) ∧ demoFlight.region? demoId.rid = some g ∧ g.dom.fpol = 0 := by
  unfold State.clearWay
  refine ⟨fun e he => ?_, ?_, ?_, ⟨_, rfl, rfl⟩, by decide, by decide, ?_, ?_, ?_, ?_, ?_, ?_, ⟨_, _, rfl, ?_, ?_, (rfl : _ = some (progRegion 1)), ?_⟩⟩
  case refine_1 =>
    simp only [List.mem_cons, List.not_mem_nil, or_false] at he
    rcases he with rfl | rfl | rfl <;> exact ⟨_, rfl, by decide +kernel⟩
  all_goals decide +kernel

/-- A change of the banks 16 and 95 to a role, into bank 17 or none, its leave steps over in cycle 10 or not. -/
def aChange (rel : Bool) (fin : Option Nat) : PoolChange :=
  { ctx := demoId, banks := if rel then [16] else [95], targets := if rel then [17] else [], role := if rel then 1 else 2,
    rel := rel, w := noBlock, leaveDone := fin, targetDone := fin, tileDone := fin }

/-- The demo with a change at cycle 1000 of its core. -/
def demoChange (rel : Bool) (fin : Option Nat) : State :=
  { demo with core := { demo.core with cycle := 1000, pool := { demo.core.pool with change := some (aChange rel fin) } } }

/-- PoolChanges: a change that goes on, and one that completes, with a relocation and without one. -/
theorem test_meets_PoolChanges : ∀ rel ∈ [true, false],
    (demoChange rel none).core.pool.change.isSome ∧ (∀ j ∈ (aChange rel none).banks ++ (aChange rel none).targets, j < 96) ∧
    (aChange rel (some 10)).doneAt.isSome ∧
    (let u (fin : Option Nat) : State := (demoChange rel fin).writeBackIf 0 ((demoChange rel fin).coreAt 0).leaving;
      ((((u none).dropLeft 0).watchChange 0 (aChange rel none)).doneAt.all fun n => 1000 < n) = true ∧
      ((((u (some 10)).dropLeft 0).watchChange 0 (aChange rel (some 10))).doneAt.any fun n => n ≤ 1000) = true) ∧
    (∀ l ∈ ((demoChange rel none).coreAt 0).cache, ((demoChange rel none).coreAt 0).leaving l = true → l.dirty = 0) ∧
    (rel = true → ((aChange rel none).banks ++ (aChange rel none).targets).Nodup ∧
      ((aChange rel none).banks.filter fun j => (demoChange rel none).core.pool.role j = 2).length = (aChange rel none).targets.length) ∧
    (rel = false → (aChange rel none).targets = []) ∧
    ((demoChange rel none).coreAt 0).grantOf 1 = some { rid := 1, base := 0, count := 8 } := by decide +kernel

theorem test_meets_PoolChanges_memory : MemoryCanonical demo ∧ MemoryCanonical State.reset := by
  unfold MemoryCanonical
  decide +kernel

/-- The bytes of a block of kind 0 with one context and the demo's tables, entry and ring, NPRED predecessors. -/
def aBlock (npred : Nat) : List Byte :=
  [2 ^ 48 + 0x00A00000 + npred, progVa.toNat, 0, 1, 1 + 1 * 2 ^ 16, 0, 0, 12, 0x1000, 0, 0x2000000000200000, 0x2000000000030004].flatMap (toBytes 8)

/-- The demo with a block at offset 0x8000 of the seam that a LAUNCH has submitted. -/
def demoLaunch (npred : Nat) : State :=
  (demoCtx fun c => { c with launches := [{ sd := 3, block := 0x2000000000008000, w := noBlock, ba := progVa }] }).poke (seamKey 0x8000)
    (aBlock npred)

/-- LaunchesAndConditions, LAUNCH: a decision that nothing holds up, which accepts the block; a region that may start and one that
waits for a predecessor. -/
theorem test_meets_LaunchesRule :
    (∃ u l, (demoLaunch 0).focus demoId = some u ∧ u.ctx.launches = [l] ∧ u.releasePending 2 = false ∧
      u.homeKey u.me 1 l.block Access.both = .ok (seamKey 0x8000) ∧ u.blockHeld (u.region? 1) (seamKey 0x8000) = false ∧ u.heldWalk u.me 1 l.block = false ∧
      (u.region? 1).isSome ∧ (u.core.grantOf u.rid).map (·.reserved) = some false ∧
      u.launchCode { parent := u.region? 1 } l.block (some (seamKey 0x8000)) = 0) ∧
    ∀ n ∈ [0, 1], let s := withRegion (demo.poke (seamKey 0x40C8) (toBytes 8 0)) fun g =>
        { g with st := 1, work := { g.work with npred := BitVec.ofNat 16 n } }
      (s.region? 1).map (fun r => (r.st, r.stopping, decide (r.work.npred.toNat ≤ leNat (s.peek (r.bkey + 0xC8) 2)))) =
        some (1, none, decide (n = 0)) := by
  refine ⟨⟨_, _, rfl, rfl, by decide +kernel⟩, by decide +kernel⟩

/-- The demo whose region is of a kind, its condition word at offset 0x40000, its table of children at 0x40100: the second is the block. -/
def demoChoice (kind : BitVec 2) (v : Nat) : State :=
  (withRegion ((demo.poke (seamKey 0x8000) (aBlock 0)).poke (seamKey 0x40000) (toBytes 8 v ++ List.replicate 248 0 ++ toBytes 8 0 ++
    toBytes 8 0x2000000000008000)) fun g =>
    { g with work := { g.work with kind := kind, entry := 0x2000000000040000, arg := 0x2000000000040100, nsel := if kind = 3 then 2 else 0 } })

/-- The word of a read that gives one. -/
def readWord : WordRead → Option Nat
  | .ok x => some x
  | _ => none

theorem readWord_ok {r : WordRead} {x : Nat} (h : readWord r = some x) : r = .ok x := by
  cases r <;> simp_all [readWord]

/-- LaunchesAndConditions, choices: a condition that selects an empty entry, one that selects the block, which is accepted, one that
selects none; and a block that is refused. -/
theorem test_meets_ConditionsRule :
    (∀ e ∈ [(1, 5, some 0), (1, 0, some 1), (2, 0, none), (2, 1, some 0), (3, 1, some 1), (3, 2, none)], let s := demoChoice e.1 e.2.1
      ∃ r, s.region? 1 = some r ∧ r.work.kind ≠ 0 ∧ r.st = 2 ∧ r.child = none ∧ r.done = false ∧ r.stopping = none ∧
        s.readRegion r r.work.entry = .ok e.2.1 ∧ Selects r.work e.2.1 r.iter = e.2.2) ∧
    (∀ s ∈ [demoChoice 1 0, (demoChoice 1 0).poke (seamKey 0x8002) [1]], ∃ r, s.region? 1 = some r ∧
      s.readRegion r (r.work.arg + BitVec.ofNat 64 8) = .ok 0x2000000000008000 ∧ mem23 0x2000000000008000 256 = true ∧
      s.regionKey r 0x2000000000008000 Access.both = some (seamKey 0x8000)) ∧
    (demoChoice 1 0).launchCode { parent := (demoChoice 1 0).region? 1 } 0x2000000000008000 (some (seamKey 0x8000)) = 0 ∧
    ((demoChoice 1 0).poke (seamKey 0x8002) [1]).launchCode { parent := (demoChoice 1 0).region? 1 } 0x2000000000008000
      (some (seamKey 0x8000)) = 1 ∧
    (∃ r, (demoChoice 1 5).region? 1 = some r ∧ (demoChoice 1 5).readRegion r r.work.arg = .ok 0) ∧
    (∀ s ∈ [demoChoice 1 0, (demoChoice 1 0).poke (seamKey 0x8002) [1]], ∃ r, s.region? 1 = some r ∧
      s.regionHeld r 0x2000000000008000 = false ∧ s.blockHeld (some r) (seamKey 0x8000) = false) := by
  refine ⟨?_, ?_, by decide +kernel, by decide +kernel, ⟨_, rfl, readWord_ok (by decide +kernel)⟩, ?_⟩
  · intro e he
    simp only [List.mem_cons, List.not_mem_nil, or_false] at he
    rcases he with rfl | rfl | rfl | rfl | rfl | rfl <;>
      refine ⟨_, rfl, ?_, ?_, ?_, ?_, ?_, readWord_ok ?_, ?_⟩ <;> decide +kernel
  · intro s hs
    simp only [List.mem_cons, List.not_mem_nil, or_false] at hs
    rcases hs with rfl | rfl <;> exact ⟨_, rfl, readWord_ok (by decide +kernel), by decide +kernel, by decide +kernel⟩
  · intro s hs
    simp only [List.mem_cons, List.not_mem_nil, or_false] at hs
    rcases hs with rfl | rfl <;> exact ⟨_, rfl, by decide +kernel⟩

/-- A state with every channel of core 0 held. -/
def allHeld (s : State) : State :=
  { s with core := { s.core with chans := Vector.replicate 8 { owner := some demoId, refresh := 0 } } }

/-- Whether a read is held, or bad. -/
def readIs (held : Bool) : WordRead → Bool
  | .held => held
  | .bad => !held
  | .ok _ => false

theorem readIs_held {r : WordRead} (h : readIs true r = true) : r = .held := by cases r <;> simp_all [readIs]
theorem readIs_bad {r : WordRead} (h : readIs false r = true) : r = .bad := by cases r <;> simp_all [readIs]

/-- LaunchesAndConditions, choices: a condition, and an entry, that a held channel keeps back; a condition that cannot be read. -/
theorem test_meets_ConditionsRule_waits :
    (∃ r, (allHeld (demoChoice 1 0)).region? 1 = some r ∧ (allHeld (demoChoice 1 0)).readRegion r r.work.entry = .held) ∧
    (allHeld (demoChoice 1 0)).blockHeld none (seamKey 0x8000) = true ∧
    ∃ r, ({ demoChoice 1 0 with bad := [seamKey 0x40000 / 8] } : State).region? 1 = some r ∧
      ({ demoChoice 1 0 with bad := [seamKey 0x40000 / 8] } : State).readRegion r r.work.entry = .bad :=
  ⟨⟨_, rfl, readIs_held (by decide +kernel)⟩, by decide +kernel, ⟨_, rfl, readIs_bad (by decide +kernel)⟩⟩

/-- The demo whose context has retired, its region cleaned up or not. -/
def demoOver (fl : Option (List Nat)) : State :=
  withRegion (demoSched fun x => { x with life := .retired }) fun g => { g with cleaned := fl, parent := some 9 }

/-- The signal of a LAUNCH of a context of region 9 on core 0. -/
def aSignal : LaunchSig := { ctx := ⟨9, 0⟩, core := 0, sco := 2, ss := 3, si := 4 }

/-- The region that is over, launched with that signal by a context that lives. -/
def demoSignal : State :=
  let s := withRegion (demoOver (some [])) fun g => { g with sig := some aSignal }
  let p : Ctx := { progCtx 9 with id := ⟨9, 0⟩, bank := 1 }
  { s with ctxs := [p], core := { s.core with grants := [{ rid := 9, base := 0, count := 8 }] } }

/-- RegionEnds: a region that is over, before its clean-up and after it, with its parent, with a signal; one that meters at and below a
budget, with its block's channel held or not. -/
theorem test_meets_RegionEnds :
    (∀ fl ∈ [none, some [], some [77]], ∃ r, (demoOver fl).region? 1 = some r ∧ (demoOver fl).regionOver r = true ∧
      (demoOver fl).farStores 1 = false ∧ (demoOver fl).endHeld r = false ∧ r.cleaned = fl ∧ r.parent = some 9 ∧
      (fl.getD []).all (fun q => !(demoOver fl).flying q) = true ∧ r.sig = none ∧ r.work.succ.all (· == 0) = true) ∧
    (∀ kind ∈ [(1 : BitVec 2), 2], let q : Region := { progRegion 9 with work := { (progRegion 9).work with kind := kind }, child := some 1 }
      ({ demoOver (some []) with regions := q :: (demoOver (some [])).regions } : State).region? 9 = some q ∧ q.child = some 1) ∧
    (∃ r, demoSignal.region? 1 = some r ∧ demoSignal.regionOver r = true ∧ r.cleaned = some [] ∧ r.sig = some aSignal ∧
      ((demoSignal.ctx? aSignal.ctx).map fun x => x.sch.life) = some .resident ∧ aSignal.ctx.rid ≠ 1 ∧
      (demoSignal.coreAt aSignal.core.toNat).granted aSignal.ctx.rid aSignal.ss.toNat = true) ∧
    demo.region? 2 = none ∧ demo.stands (progRegion 1).bkey = false ∧ (allHeld demo).stands (progRegion 1).bkey = true ∧
    (demoOver (some [])).owesRecords 1 = false ∧
    (demo.region? 1).map (fun r => (r.lim.ebud, r.stopping, r.dom.fpol)) = some (0, none, 0) ∧
    ((withRegion demo fun g => { g with lim := { g.lim with ebud := 100 } }).region? 1).map (fun r => (r.lim.ebud, r.stopping, r.dom.fpol)) =
      some (100, none, 0) := by
  refine ⟨?_, by decide +kernel, ⟨_, rfl, by decide +kernel⟩, by decide +kernel⟩
  intro fl h
  simp only [List.mem_cons, List.not_mem_nil, or_false] at h
  rcases h with rfl | rfl | rfl <;> exact ⟨_, rfl, by decide +kernel⟩

/-- The demo with one entry in a command queue of 16 at the start of host memory. -/
def demoHost (w0 w1 : Nat) : State :=
  let s := demo.poke (hostKey 0x1000) (toBytes 8 w0 ++ toBytes 8 w1)
  { s with mgmt := { s.mgmt with hcq := { base := 0x3000000000001004, tail := 1 } } }

/-- HostCommands: a well-formed entry and a malformed one of each OP, an OP that is none, and a STOP of a live region and of another; a block
that the host lets the device read, one that it does not, and one whose tables are held. -/
theorem test_meets_HostCommands :
    (∀ e ∈ [(1, 0x3000000000008000, true), (1, 0x3000000000008000 + 8, true), (2, 1, true), (2, 2, true), (2, 2 ^ 32, true), (3, 0, true),
        (3 + 256, 0, false), (0, 0, true), (255, 0, true), (2 + 256, 1, false)],
      (demoHost (5 * 2 ^ 32 + e.1) e.2.1).nextCmd.map (fun c => (c.tag, c.clean, c.op, c.arg.toNat)) = some (5, e.2.2, e.1 % 256, e.2.1)) ∧
    mem23 0x3000000000008000 256 = true ∧ mem23 0x3000000000008008 256 = false ∧
    (demo.region? 1).isSome ∧ demo.region? 2 = none ∧
    (let block (s : State) (a : Nat) : Option Nat := (s.hostXlate s.mgmt.mpasid a Access.both).toOption
     let s := demo.poke (hostKey 0x8000) (aBlock 0)
     let u : State := { s with mgmt := { s.mgmt with ats := { pasid := 0, page := 20, to_ := none } :: s.mgmt.ats } }
     block s 0x8000 = some (hostKey 0x8000) ∧ s.blockHeld none (hostKey 0x8000) = false ∧ (allHeld s).blockHeld none (hostKey 0x8000) = true ∧
       block u 0x14000 = none) := by decide +kernel

/-- The demo that device 1 may reach with the demo's tables and that has routes by port 17. -/
def demoFab (f : Fabric → Fabric) : State :=
  let ports := demo.fab.ports.set 17 { state := 2 }
  { demo with fab := f { demo.fab with rat := [(1, 0xE000000000001000)], ports := ports, rtab := [(2, 0x80001111)] } }

/-- PacketsAndAnswers, requests: one that came before, one that is new and refused, one that performs, of each kind; a packet for the
device itself and one for another. -/
theorem test_meets_PacketsRule : let s := demoFab id
    (1, 0, 7) ∈ (demoFab fun f => { f with seen := [(1, 0, 7)] }).fab.seen ∧
    Fresh s 1 0 7 0x4000000000030000 ∧ Fresh s 1 2 7 0x4000000000030000 ∧ s.remoteKey 3 0x4000000000030000 Access.store = none ∧
    s.remoteKey 1 0x4000000000030000 Access.store = some (seamKey 0x30000) ∧
    s.remoteKey 1 0x4000000000030000 Access.both = some (seamKey 0x30000) ∧ s.heldRequest 1 0x4000000000030000 s.fab.nextSeq = false ∧
    (allHeld s).heldRequest 1 0x4000000000030000 s.fab.nextSeq = true ∧ (pieces 2 (0x4000000000030000 : W64) 32).map (·.1) = [0x4000000000030000] ∧
    ({ s with bad := [seamKey 0x30000 / 8] } : State).isBad (seamKey 0x30000) 8 = true ∧ s.isBad (seamKey 0x30000) 8 = false ∧
    (atomicTable[7]?).isSome ∧ (seamKey 0x30000) % 8 = 0 ∧
    (∀ acc ∈ [Access.store, Access.load], s.remoteRuns 1 0x4000000000030000 32 acc = some [⟨seamKey 0x30000, 32⟩]) ∧
    (0 : BitVec 12) = s.mgmt.devid ∧ (2 : BitVec 12) ≠ s.mgmt.devid ∧ s.fab.route 2 0 ≠ .none ∧ s.fab.route 3 0 = .none := by
  unfold Fresh
  decide +kernel

/-- A request of this device that has left, or waits for a port. -/
def aSent (port : Option (BitVec 5)) : Sent := { seq := 4, dst := 1, port := port, body := .read 0x4001000000030000 64 }

/-- The demo waiting for the data of an LD of device 1, whose address is in s7. -/
def demoRemote : State :=
  let c := { demo.ctx with r := { demo.ctx.r with s := vset demo.ctx.r.s 7 0x4001000000030000 } }
  let o : LS := { sd := 3, sa := 7, sx := 0, sh := 0, sco := 0, off := 0 }
  let r : Remote :=
    { seq := 4, instr := .ldI64 o, iss := { ba := progVa, len := 6, slot := 5, ready := true }, regs := c.r, ctl := c.c,
      addr := 0x4001000000030000 }
  { demo with ctx := { c with remote := some r }, fab := { demo.fab with out := [aSent (some 17)] } }

/-- PacketsAndAnswers, answers: a copy and a store of the core that an answer ends; requests with a port, without one, and without a
route. -/
theorem test_meets_Answers :
    (∀ p ∈ [some 17, none], let s := { demoFlight with fab := { demo.fab with out := [aSent p] } }
      (s.fab.out.find? fun x => x.seq = 4) = some (aSent p) ∧ s.outstanding 4 = (if p.isSome then some (aSent p) else none) ∧
      (∀ c ∈ s.allCtxs, c.remote = none) ∧ (∀ c ∈ s.core :: s.cores, ∀ f ∈ c.flight, f.sent ≠ some 4)) ∧
    demo.fab.route 1 (aSent none).body.lane = .none ∧ (demoFab id).fab.route 2 0 = .port 17 ∧
    (let s : State := { demo with core := { demo.core with flight := [{ aStore (4 * 2 ^ 60 + 2 ^ 48) 0x4001000000000000 with sent := some 4 }] } }
      ∃ f ∈ s.core.flight, f.sent = some 4) := by
  refine ⟨by decide +kernel, by decide +kernel, by decide +kernel, ⟨_, List.mem_cons_self, rfl⟩⟩

/-- The load that the demo waits for. -/
def remoteLd : LS := { sd := 3, sa := 7, sx := 0, sh := 0, sco := 0, off := 0 }

/-- The demo once the data have come, as the LD runs again. -/
def demoReturned : State :=
  let r := demoRemote.ctx.remote.map fun r => { r with got := [(lineOf 0x4001000000030000, 9, false)] }
  let c := { demoRemote.ctx with remote := r }
  { demoRemote with
    fab := { demoRemote.fab with out := [] }
    ctx := c
    pre := c
    iss := { ba := progVa, len := 6, slot := 5, ready := true } }

/-- PacketsAndAnswers, the data of a load: the LD that waits for them, and the place it reads. -/
theorem test_meets_LoadDataReturn :
    (∃ u r, demoRemote.focus demoId = some u ∧ u.ctx.remote = some r ∧ r.seq = 4 ∧ u.outstanding 4 = some (aSent (some 17)) ∧
      (∃ a n, (aSent (some 17)).body = .read a n) ∧ r.instr = .ldI64 remoteLd) ∧
    demoReturned.psS 7 = false ∧ demoReturned.psS 0 = false ∧ addrLS demoReturned remoteLd = 0x4001000000030000 ∧
    demoReturned.resolve demoReturned.me demoReturned.rid 0x4001000000030000 8 Access.load = .ok (.home 0x4001000000030000 true) ∧
    Walks demoReturned 0x4001000000030000 ∧
    Free (demoReturned.approach (.home 0x4001000000030000 true)) (.home 0x4001000000030000 true) 8 ∧
    ∃ x s1, ((demoReturned.approach (.home 0x4001000000030000 true)).noteElems [{ i := 0, addr := 0x4001000000030000 }]).readPlace
      (.home 0x4001000000030000 true) 0x4001000000030000 8 = (.val x false, s1) :=
  by refine ⟨⟨_, _, rfl, rfl, ?_, ?_, ⟨_, _, rfl⟩, rfl⟩, ?_, ?_, ?_, ?_, .inl ?_, .inl ?_, answered_val ?_⟩ <;> decide +kernel

/-! ### Ports, the host, power and starts -/

/-- The demo with port 17 in a state since its start, enabled or not. -/
def demoPort (late : Bool) (n : BitVec 4) (en : Bool) : State :=
  let s := if late then demoLate else demo
  { s with fab := { s.fab with ports := s.fab.ports.set 17 { state := n, en := en } } }

/-- Ports: the last port in each state, before and after 200 ms, and disabled; a route by it, open and with the lane of its packet
paused. -/
theorem test_meets_Ports : (17 : BitVec 5).toNat < 18 ∧ (∀ n ∈ [0, 1, 2, 3, 4], (portAt (demoPort true n true) 17).state = n) ∧
    (portAt (demoPort true 3 true) 17).since + 200000000 < (demoPort true 3 true).time.elapsed / 105000 ∧
    (demoPort false 3 true).time.elapsed / 105000 ≤ (portAt (demoPort false 3 true) 17).since + 200000000 ∧
    (portAt (demoPort false 3 true) 17).since + 4000000 = 4000000 ∧ (demoPort false 3 true).time.elapsed / 105000 ≤ 4000000 ∧
    (let s : State := { demoPort false 3 true with time := { demo.time with elapsed := 5000000 * 105000 } };
      (portAt s 17).attempt + 4000000 < s.time.elapsedNs ∧ s.time.elapsedNs ≤ (portAt s 17).since + 200000000) ∧
    (portAt (demoPort true 4 false) 17).en = false ∧ (portAt (demoPort true 4 true) 17).en = true ∧
    (demoFab id).fab.route 2 0 = .port 17 ∧
    ((demoFab fun f => { f with ports := vset f.ports 17 { state := 2, paused := 1 } }).fab.route 2 0 = .wait) ∧
    (let e := assocD 0 2 (demoFab id).fab.rtab
     e.getLsbD 31 = true ∧ e.extractLsb' 0 5 = (17 : BitVec 5) ∧ (e.extractLsb' 8 5).toNat < 18) := by decide +kernel

/-- HostInterface: a resident context and none, the offset and the value of THERM with the meaning of its write, the last RAT entry, a
size that is none and an offset that is not aligned; the sources of TIME. -/
theorem test_meets_HostInterface : (demo.ctx? demoId).map (fun x => x.sch.life) = some .resident ∧ demo.ctx? ⟨1, 1⟩ = none ∧
    4095 < 4096 ∧ ((3 ≠ 4 ∧ 3 ≠ 8) ∧ (0x14 : BitVec 24).toNat % 8 ≠ 0) ∧
    (∃ t, Gives (.thermWrite 0x5F69) demo t) ∧ (3 : W64).toNat % 4 = 3 ∧ (0x1102 : W64).toNat % 4 ≠ 3 ∧ demo.time.src ≠ 1 ∧
    ({ demo with time := { demo.time with src := 1 } } : State).time.src = 1 ∧
    ({ demoPort true 2 true with time := { demo.time with src := 2, port := 17 } } : State).time.src = 2 ∧
    (portAt (demoPort true 2 true) 17).state = 2 := by
  refine ⟨by decide +kernel, by decide +kernel, by decide, by decide, ⟨_, rfl⟩, ?_⟩
  decide +kernel

/-- The demo with an invalidation of the page at offset 0x30000 in progress, and a store in flight to an address or none. -/
def demoInvalid (kind : BitVec 2) (addr : Option W64) : State :=
  let f : List Flight := addr.toList.map fun a => aStore (seamKey 0x30000) a
  { demo with core := { demo.core with flight := f }, mgmt := { demo.mgmt with tiJob := some (kind, 1, 0x30000) } }

/-- TranslationInvalidation: each kind, with a store in flight that it covers and without one; none in progress; the last page of the
space; a host page that a store in flight uses, and one that none does. -/
theorem test_meets_TranslationInvalidation : demo.mgmt.tiJob = none ∧ (0xFFFFFFFF0000 : W64).toNat < 2 ^ 48 ∧
    (0x5 : W64).getLsbD 0 = true ∧ (0x5 : W64).extractLsb' 2 2 ≠ (3 : BitVec 2) ∧
    (∀ kind ∈ [(0 : BitVec 2), 1, 2], (demoInvalid kind none).mgmt.tiJob = some (kind, 1, 0x30000) ∧ kind ≠ 3 ∧
      ¬UsedCovered (demoInvalid kind none) kind.toNat 1 0x30000 ∧
      UsedCovered (demoInvalid kind (some 0x2000000000038000)) kind.toNat 1 0x30000) ∧
    (let s := demoInvalid 0 (some 0x3000000000003040);
      s.core.flight = [aStore (seamKey 0x30000) 0x3000000000003040] ∧ (0x3000000000003040 : W64).toNat / 2 ^ 60 = 3 ∧
      s.pasidOf (aStore (seamKey 0x30000) 0x3000000000003040).ctx.rid = 0 ∧
      (0x3000000000003040 : W64).toNat % 2 ^ 57 / 4096 = 3 ∧
      (0x3000 : W64).toNat % 2 ^ 57 < (3 + 1) * 4096 ∧ 3 * 4096 < (0x3000 : W64).toNat % 2 ^ 57 + 4096) := by
  refine ⟨by decide +kernel, by decide, by decide, by decide, ?_, by decide +kernel⟩
  intro kind h
  simp only [List.mem_cons, List.not_mem_nil, or_false] at h
  refine ⟨rfl, by rcases h with rfl | rfl | rfl <;> decide, ?_, ⟨_, List.mem_cons_self, _, List.mem_cons_self, by decide, ?_⟩⟩
  · rintro ⟨c, hc, f, hf, -⟩
    rw [(List.mem_singleton.1 hc : c = _)] at hf
    exact absurd hf (List.not_mem_nil)
  · exact ⟨fun _ => by decide, fun _ => by decide⟩

/-- A state without contexts, 2 s after its start, with a given state of the supply. -/
def noContexts (p : Power) : State := { State.reset with power := p, time := demoLate.time }

/-- PowerEvents: a droop that is over and one that is not, a loss that is over, resident and dormant contexts with the link up and down,
an idle package for each tolerance, one that is not. -/
theorem test_meets_PowerEvents :
    (let p := (noContexts { droop := true, droopAt := 0 }).power;
      p.droop = true ∧ p.lossOn = false ∧ p.droopAt + 1000000 ≤ (noContexts {}).time.elapsed / 105000) ∧
    ((noContexts { droop := true, droopAt := 2000000000 }).time.elapsed / 105000 < 2000000000 + 1000000) ∧ demo.power.droop = false ∧
    demo.power.lossOn = false ∧ demo.mgmt.linkUp = true ∧ ({ demo with mgmt := { demo.mgmt with linkUp := false } } : State).mgmt.linkUp = false ∧
    (let s : State := { demo with ctxs := [sleeper] };
      (s.ctx? demoId).map (fun x => x.sch.life) = some .resident ∧ (s.ctx? ⟨1, 1⟩).map (fun x => x.sch.life) = some .dormant) ∧
    (let p := (noContexts { lossOn := true, lossAt := 0 }).power;
      p.lossOn = true ∧ p.retained = false ∧ p.lossAt + 8000000 ≤ (noContexts {}).time.elapsed / 105000) ∧
    (∀ l ∈ [0, 2000, 59999, 60000, 1499999, 1500000], (noContexts { ltrSnoop := l, ltrNoSnoop := 2000000 }).isIdle = true) ∧
    demo.isIdle = false := by decide +kernel

/-- A report of firmware whose signature verifies or not, of a version, of a seam that is failing. -/
def aReport (ok : Bool) (version : Nat) : StartReport := { sigOk := ok, version := version, testsOk := true, seams := [(1151, 2)] }

/-- The demo where the fused counter stands at 5. -/
def demoFused : State := { demo with boot := { demo.boot with rollback := 5 } }

/-- The demo in a loss of supply whose pool images are kept, with a byte of the scratchpad in them. -/
def demoKept : State :=
  { demo with
    power := { demo.power with lossOn := true, retained := true }
    boot := { demo.boot with images := [demo.core], imageMem := [⟨poolKey 0 16 0, 1⟩] } }

/-- StartsAndIdentity, ResetMaps: reports that verify, with a version that is old, and not; a warm start requested and not; a loss that
has been kept, with images of every core and without contexts that are lost, and with one whose region stands. -/
theorem test_meets_Starts : Verified demoFused (aReport true 5) ∧ ¬Verified demoFused (aReport true 4) ∧ ¬Verified demoFused (aReport false 5) ∧
    demo.boot.wreq = false ∧ ({ demo with boot := { demo.boot with wreq := true } } : State).boot.wreq = true ∧ demo.power.lossOn = false ∧
    demo.cores = [] ∧ demoKept.power.lossOn = true ∧ demoKept.power.retained = true ∧ demoKept.fab.out = [] ∧ demoKept.boot.lost = [] ∧
    (∀ c ∈ demoKept.core :: demoKept.cores, ∃ i ∈ demoKept.boot.images, i.num = c.num) ∧ MemoryCanonical demoKept ∧
    MemoryCanonical { demoKept with mem := demoKept.boot.imageMem } ∧ (∀ c ∈ demoKept.boot.imageMem, c.1 / 2 ^ 60 = 1) ∧
    (demoKept.boot.images.find? fun i => i.num = demoKept.core.num).isSome ∧ (demo.region? demoId.rid).isSome ∧ 1151 < 1152 := by
  unfold Verified MemoryCanonical
  decide +kernel

/-! ### Steps, decoding and the machine as a whole -/

/-- The demo as its core begins a cycle. -/
def demoCycle : State := (demo.focusCore 0).landDue

/-- The bundle at the demo's PC. -/
def demoBundle : Bun := { ba := progVa, hdr := readHeader 1, len := 6, slots := [(0, 0x000C1080)] }

/-- Whether a step goes on. -/
def goesOn : Host.Outcome State Fault Refusal → Bool
  | .next _ => true
  | _ => false

theorem goesOn_next {o : Host.Outcome State Fault Refusal} (h : goesOn o = true) : ∃ t, o = .next t := by
  cases o with
  | next t => exact ⟨t, rfl⟩
  | fault e => exact absurd h (by simp [goesOn])
  | refused r => exact absurd h (by simp [goesOn])

/-- The next bundle of a state, where it is one to run. -/
def nextRun : NextBun → Option Bun
  | .run b => some b
  | _ => none

theorem nextRun_run {x : NextBun × State} {b : Bun} {s : State} (h : nextRun x.1 = some b) (hs : x.2 = s) : x = (.run b, s) := by
  obtain ⟨n, u⟩ := x
  cases n <;> simp_all [nextRun]

theorem demoCycle_ready : demoCycle.ready = (.run demoBundle, demoCycle) :=
  have h1 : nextRun demoCycle.ready.1 = some demoBundle := by decide +kernel
  have h2 : demoCycle.ready.2 = demoCycle := by decide +kernel
  nextRun_run h1 h2

theorem demoCycle_runs : ∃ z, exec (.add 3 1 2) ((demoCycle.noteQueues.noteAddr demoBundle.ba).upWith demoBundle 0) = .next z :=
  have h : goesOn (exec (.add 3 1 2) ((demoCycle.noteQueues.noteAddr demoBundle.ba).upWith demoBundle 0)) = true := by decide +kernel
  goesOn_next h

/-- StepRunsDecoded: an event on the agenda and none, a bundle that decodes, and a cycle of core 0 that runs the ADD of its one slot. -/
theorem test_meets_StepRunsDecoded :
    (State.reset.withFetchWord 32 0).agenda = [.issueCycle 0] ∧ demo.agenda = [] ∧ (demo.firstOf demo.events).isNone = true ∧
    decodeSlot .scalar false 0x000C1080 = .ok (.op (.add 3 1 2)) ∧
    (demo.findBundle demo.ctx.q.pc = .header progVa 1 ∧ (demo.fetchPlace progVa).isOk = true) ∧
    slotValues (presentSlots 1) ((demo.fetchBytes (seamKey progPa) 6 true).drop 2) = some [(0, 0x000C1080)] ∧
    demo.decodeCheck demoBundle = none ∧
    demo.boot.fwerr = false ∧ demo.power.retained = false ∧ demoCycle.lodgers = [demoId] ∧ demoCycle.focus demoId = some demoCycle ∧
    demoCycle.ready = (.run demoBundle, demoCycle) ∧ demoCycle.ctx.q.reent = none ∧
    demoCycle.ctx.c.mhold = true ∧ ∃ z, exec (.add 3 1 2) ((demoCycle.noteQueues.noteAddr demoBundle.ba).upWith demoBundle 0) = .next z := by
  refine ⟨by decide +kernel, rfl, by decide +kernel, rfl, ?_, by decide +kernel, by decide +kernel, rfl, rfl, by decide +kernel, rfl, demoCycle_ready,
    rfl, rfl, demoCycle_runs⟩
  decide +kernel

/-- SequencerResults, the empty bundle; EveryRowGoesOn: the last core and the first that is none. -/
theorem test_meets_Sequencer : (demo.ctx.sch.life = .resident ∧ demo.ctx.remote = none ∧ demo.ctx.q.reent = none ∧
      demo.ctx.q.trapped = none ∧ demo.fetchHeld (demo.ctx.q.pc + 2) 2 = false) ∧
    (1151 : BitVec 11).toNat < 1152 ∧ 1152 ≤ (1152 : BitVec 11).toNat := by decide +kernel

/-- SequencerResults, the end of a bundle: no transfer, one to an address that PC can hold, one to an odd address and one in another space;
an EXIT and a DORM with nothing that comes for the context; a DORM below the slot of a trap whose bundle has been entered again. -/
theorem test_meets_BundleEnds : demo.ctx.halted = false ∧ demo.iss.xfer = none ∧ demo.iss.exiting = false ∧ demo.iss.dorming = false ∧
    (progVa + 6).toNat / 2 ^ 48 = 0x2000 ∧ (progVa + 6).toNat % 2 = 0 ∧ (progVa + 7).toNat % 2 ≠ 0 ∧ (0x3000000000000000 : W64).toNat / 2 ^ 48 ≠ 0x2000 ∧
    (∀ a ∈ (demo.coreAt demo.me).arrivals, a.rid ≠ demo.rid) ∧ demo.ctx.sch.stopAt = none ∧ demo.ctx.sch.reqs = [] ∧
    (let s := withCtx demo fun c => { c with q := { c.q with parting := some (progVa, false), reent := some none }, c := { c.c with sres := 3 } };
      s.ctx.q.parting = some (s.iss.ba, false) ∧ s.pre.q.reent.isSome = true ∧ 2 < s.pre.firstSlot) := by decide +kernel

/-- The demo with a second context on its core, at a bundle of one slot with a word. -/
def demoTwo (n w : Nat) : State :=
  let d : Ctx := { progCtx 1 with id := ⟨1, 1⟩, bank := 1, q := { (progCtx 1).q with pc := progVa + 0x40 } }
  ({ demo with ctxs := [d] } : State).poke (seamKey (progPa + 0x40)) (bundleBytes n w)

/-- The candidates of a core's cycle. -/
def survey (s : State) : List Cand :=
  let s1 := (s.focusCore 0).landDue
  (State.survey s1.lodgers s1).1

/-- StepRunsDecoded, the cycle: no context that can issue; one; two whose bundles merge, and two that meet in slot 0; the slots of a
bundle: a context that stands, a slot that SRES suppresses, and two ADD and SUB slots that write s3. -/
theorem test_meets_Cycles : survey (demoSched fun x => { x with life := .dormant }) = [] ∧ (survey demo).length = 1 ∧
    (∃ p c, survey (demoTwo 1 0x00904000) = [p, c] ∧ mergeable p c = true) ∧ (∃ p c, survey (demoTwo 0 0x000C1080) = [p, c] ∧ mergeable p c = false) ∧
    (demoCtx fun c => { c with sch := { c.sch with life := .dormant } }).ctx.halted = true ∧
    (1 : Nat) < (withCtx demo fun c => { c with q := { c.q with reent := some none }, c := { c.c with sres := 3 } }).pre.firstSlot ∧
    demo.ctx.halted = false ∧ demo.pre.firstSlot = 0 ∧ demo.iss.arrived = none ∧
    decodeSlot .scalar false 0x000C1080 = .ok (.op (.add 3 1 2)) ∧ decodeSlot .scalar false 0x010C1080 = .ok (.op (.sub 3 1 2)) :=
  ⟨by decide +kernel, by decide +kernel, ⟨_, _, rfl, by decide +kernel⟩, ⟨_, _, rfl, by decide +kernel⟩, by decide +kernel, by decide +kernel,
    by decide +kernel, by decide +kernel, by decide +kernel, by decide +kernel, by decide +kernel⟩

/-- EncodingRoundTrip: an instruction of each class in legal form, with its word. -/
theorem test_meets_EncodingRoundTrip :
    ((Instr.add 3 1 2).wf = true ∧ (encode (.add 3 1 2)).isSome) ∧ ((Instr.loopi 0xFFF 2).wf = true ∧ (encode (.loopi 0xFFF 2)).isSome) ∧
    ((Instr.vadd (vecOp 2 0 0 0)).wf = false ∧
      (Instr.vadd { vecOp 2 0 0 0 with vc := 0, qc := 0 }).wf = true ∧ (encode (.vadd { vecOp 2 0 0 0 with vc := 0, qc := 0 })).isSome) ∧
    ((Instr.ldI64 (memOp 1 0 8)).wf = true ∧ (encode (.ldI64 (memOp 1 0 8))).isSome) ∧
    isEvent (.add 3 1 2) = false ∧ isEvent (.issueCycle 0) = true ∧
    0x000C1080 < 2 ^ wordBits .scalar ∧ decodeSlot .scalar false 0x000C1080 = .ok (.op (.add 3 1 2)) := by decide +kernel

/-- StepKeepsMemoryCanonical: a state in canonical form that goes on. -/
theorem test_meets_StepKeepsMemoryCanonical : MemoryCanonical demo ∧ ∃ t, step demo = .next t :=
  ⟨by unfold MemoryCanonical; decide +kernel, goesOn_next (by decide +kernel)⟩

/-- CheckTransfers, LoopPop: poisoned and clean sources; a level and none; the least and the greatest immediate that is reserved. -/
theorem test_meets_Corrections : demo.psS 63 = true ∧ demo.psS 0 = false ∧ demo.psP 31 = true ∧ demo.psP 0 = false ∧
    (∃ ls l, (demoLoops 1).ctx.q.loops = ls ++ [l]) ∧ demo.ctx.q.loops = [] ∧ 1 < 2 ∧ 2 < 2 ^ 24 ∧ 1 < 2 ^ 24 - 1 ∧
    demo.ctx.sch.life = .resident ∧ demo.ctx.remote = none ∧ demo.ctx.q.trapped = none :=
  by refine ⟨?_, ?_, ?_, ?_, ⟨[], _, rfl⟩, ?_⟩ <;> decide +kernel

/-- The demo at the beginning of a cycle with a header whose lowest or highest reserved bit is a one. -/
def demoReserved (b : Nat) : State := demoCycle.poke (seamKey progPa) (toBytes 2 (1 + 2 ^ b))

/-- ReservedHeaderTraps: both ends of the field. -/
theorem test_meets_ReservedHeaderTraps : ∀ b ∈ [10, 15], let s := demoReserved b
    s.boot.fwerr = false ∧ s.power.retained = false ∧ (s.focusCore 0).landDue.lodgers = [demoId] ∧
    ∃ u, (s.focusCore 0).landDue.focus demoId = some u ∧ u.mayFetch = true ∧ u.findBundle u.ctx.q.pc = .header progVa (1 + 2 ^ b) ∧
      (u.fetchPlace progVa).isOk = true ∧ 1 + 2 ^ b < 2 ^ 16 ∧ (1 + 2 ^ b) / 2 ^ 10 ≠ 0 := by
  intro b hb
  simp only [List.mem_cons, List.not_mem_nil, or_false] at hb
  rcases hb with rfl | rfl
  · exact ⟨by decide +kernel, by decide +kernel, by decide +kernel, _, rfl, by decide +kernel⟩
  · exact ⟨by decide +kernel, by decide +kernel, by decide +kernel, _, rfl, by decide +kernel⟩

/-- ReservedHeaderTraps, the words: an opcode between two ranges, one of the geometry unit outside slot 3, and an unused bit. -/
theorem test_meets_ReservedWords : demo.ctx.halted = false ∧ demo.pre.c.mhold = true ∧
    (∀ x ∈ ([(.scalar, false, 0x17 * 2 ^ 24), (.vector, false, 0xC0 * 2 ^ 56), (.engine, false, 0xFF * 2 ^ 88)] : List (SlotClass × Bool × Nat)),
      x.2.2 < 2 ^ wordBits x.1 ∧ ∀ r ∈ opcodeRanges x.1 x.2.1, x.2.2 / 2 ^ (wordBits x.1 - 8) < r.1 ∨ r.2 < x.2.2 / 2 ^ (wordBits x.1 - 8)) ∧
    (∃ e, decodeSlot (slotClass 0) (0 == 3) 0x000C1081 = .error e) ∧ (∃ e, decodeSlot (slotClass 5) (5 == 3) (2 ^ 96 - 1) = .error e) ∧
    ∃ e, decodeSlot (slotClass 6) (6 == 3) (2 ^ 96 - 1) = .error e ∧ e ≠ .form :=
  ⟨by decide +kernel, by decide +kernel, by decide +kernel, ⟨_, rfl⟩, ⟨_, rfl⟩, ⟨_, rfl, by decide +kernel⟩⟩

/-! ### Terms that are no instructions

One term for each check of Sys2Proof/WellFormed.lean, beside a neighbour in legal form. -/

/-- Fields of a term: type t, third operand register vc, rounding rm with descriptor fr, extra field fx, other B and C parts. -/
def vr (t : BitVec 4) (qb vc : Nat) (rm : BitVec 3) (zm : BitVec 1) (fr : BitVec 4) (fx : BitVec 6) : VR :=
  { vd := 1, va := 2, qa := 0, vb := 0, qb := BitVec.ofNat 3 qb, vc := BitVec.ofNat 6 vc, qc := 0, pg := 0, t := t, rm := rm, zm := zm,
    fr := fr, fx := fx }

/-- R52, R60, R120, R124, R128, R131: control fields and the wait/signal block. -/
theorem test_refuses_control_terms : (Instr.loop 1 0).wf = false ∧ (Instr.loop 1 1).wf = true ∧ (Instr.loopi 1 0).wf = false ∧
    (Instr.mfc 1 0x17 0).wf = false ∧ (Instr.mfc 1 0x18 0).wf = true ∧ (Instr.mfc 1 0x26 0).wf = false ∧ (Instr.mfc 1 16 1).wf = false ∧
    (Instr.mfc 1 16 2).wf = false ∧ (Instr.mfc 1 8 3).wf = false ∧ (Instr.mtc 1 0x04 0).wf = false ∧ (Instr.mtc 1 16 1).wf = false ∧
    (Instr.mtc 1 16 2).wf = false ∧ (Instr.mtc 1 0 3).wf = false ∧ (Instr.tret 1 0 0 0).wf = false ∧ (Instr.tret 0 0 1 0).wf = false ∧
    (Instr.tret 1 1 1 0).wf = true ∧ (Instr.twait 1 0 3 0).wf = false ∧ (Instr.twait 1 0 0 1).wf = false ∧ (Instr.esig { sd := 0, sa := 0, sb := 0, sc := 0, fn := 0, w := { noWait with ws := 1 } }).wf = false ∧
    (Instr.esig { sd := 0, sa := 0, sb := 0, sc := 0, fn := 0, w := { noWait with wt := 1 } }).wf = false ∧
    (Instr.esig { sd := 0, sa := 0, sb := 0, sc := 0, fn := 0, w := { noWait with si := 1 } }).wf = false ∧
    (Instr.esig { sd := 0, sa := 0, sb := 0, sc := 0, fn := 0, w := { noWait with spt := 1 } }).wf = false ∧
    (Instr.esig { sd := 0, sa := 0, sb := 0, sc := 0, fn := 0, w := { noWait with se := 1, spt := 2 } }).wf = false := by decide

/-- R59, R133, R138, R140, R146, R149: the fields of a vector instruction. -/
theorem test_refuses_vector_terms : (Instr.vadd (vr 2 0 0 0 0 0 0)).wf = true ∧ (Instr.vadd (vr 8 0 0 0 0 0 0)).wf = false ∧
    (Instr.vadd (vr 2 0 1 0 0 0 0)).wf = false ∧ (Instr.vadd (vr 2 0 0 1 0 0 0)).wf = false ∧ (Instr.vadd (vr 2 0 0 0 0 1 0)).wf = false ∧
    (Instr.vadd (vr 2 0 0 0 0 0 1)).wf = false ∧ (Instr.vaddS (vr 2 1 0 0 0 0 0)).wf = false ∧ (Instr.vabs (vr 4 0 0 0 0 0 0)).wf = false ∧
    (Instr.vabs (vr 2 1 0 0 0 0 0)).wf = false ∧ (Instr.vand (vr 12 0 0 0 0 0 0)).wf = false ∧ (Instr.vfadd (vr 7 0 0 0 0 0 0)).wf = false ∧
    (Instr.vfadd (vr 8 0 0 6 0 0 0)).wf = false ∧ (Instr.vfadd (vr 8 0 0 4 0 1 0)).wf = false ∧ (Instr.vfadd (vr 8 0 0 5 0 1 0)).wf = true ∧
    (Instr.vcmp { vr 2 0 0 0 0 0 0 with vd := 32 }).wf = false ∧ (Instr.vcmp (vr 2 0 0 0 0 0 6)).wf = false ∧
    (Instr.vfcmp (vr 8 0 0 0 0 0 8)).wf = false ∧ (Instr.vsel (vr 2 0 0 0 1 0 0)).wf = false ∧ (Instr.vrsum (vr 2 0 0 0 1 0 0)).wf = false ∧
    (Instr.vrfmax (vr 2 0 0 0 0 0 0)).wf = false ∧ (Instr.vcvt (vr 0 0 0 0 0 0 3)).wf = false ∧ (Instr.vcvt (vr 3 0 0 0 0 0 0)).wf = false ∧
    (Instr.vcvt (vr 0 0 0 0 0 0 12)).wf = false ∧ (Instr.vcvt (vr 0 0 0 0 0 0 2)).wf = true ∧ (Instr.vqnt (vr 8 0 0 0 0 0 32)).wf = false ∧
    (Instr.vqntScale (vr 8 0 0 0 0 0 31)).wf = false ∧ (Instr.vqntScale (vr 8 1 0 0 0 0 32)).wf = false ∧
    (Instr.vdqnt (vr 8 0 0 6 0 0 0)).wf = false ∧ (Instr.vxch (vr 2 0 0 0 0 0 8)).wf = false ∧ (Instr.vsld (vr 2 0 1 0 0 0 0)).wf = false ∧
    (Instr.vbcst { vr 2 0 0 0 0 0 0 with va := 1 }).wf = false := by decide

/-- R59, R162, R167: the fields of a geometry instruction. -/
theorem test_refuses_geometry_terms : (Instr.gset (vr 10 0 0 0 0 0 4)).wf = false ∧ (Instr.gset (vr 2 0 0 0 0 0 0)).wf = false ∧
    (Instr.gset (vr 10 0 1 0 0 0 1)).wf = false ∧ (Instr.gset { vr 10 0 0 0 0 0 0 with vd := 8 }).wf = false ∧
    (Instr.gidx (vr 6 0 0 0 0 0 1)).wf = false ∧ (Instr.gidx (vr 5 0 0 0 0 0 0)).wf = false ∧
    (Instr.gor2 { geoOp 0 0 with md := 3 }).wf = false ∧ (Instr.gor2 (geoOp 1 0)).wf = false ∧ (Instr.gor3 (geoOp 1 0)).wf = true ∧
    (Instr.gor3 { geoOp 1 0 with gh := 1 }).wf = false ∧ (Instr.gseg { geoOp 1 0 with md := 2 }).wf = false := by decide

/-- R69, R181, R186 to R189: the fields of a memory instruction. -/
theorem test_refuses_memory_terms : (Instr.ldI64 (memOp 1 1 0)).wf = false ∧ (Instr.ldaI64 (memOp 1 1 0)).wf = true ∧
    (Instr.drain (memOp 1 0 0)).wf = false ∧ (Instr.clwb (memOp 1 0 0)).wf = false ∧
    (Instr.clinv { memOp 1 1 0 with sd := 0 }).wf = false ∧ (Instr.waita { memOp 1 1 0 with sh := 1 }).wf = false ∧
    (Instr.aadd { sd := 0, sa := 0, sb := 0, sc := 1, sco := 0, w := 0 }).wf = false ∧
    (Instr.acas { sd := 0, sa := 0, sb := 0, sc := 1, sco := 0, w := 0 }).wf = true ∧
    (Instr.vld { vd := 0, qd := 1, sa := 0, sx := 0, pg := 0, t := 0, sco := 0, off := 0 }).wf = false ∧
    (Instr.vst { vd := 0, qd := 1, sa := 0, sx := 0, pg := 0, t := 0, sco := 0, off := 0 }).wf = true ∧
    (Instr.vgth { vd := 0, qd := 0, sa := 0, vb := 0, qb := 0, pg := 0, t := 12, sco := 0 }).wf = false ∧
    (Instr.vsct { vd := 0, qd := 0, sa := 0, vb := 0, qb := 0, pg := 0, t := 0, sco := 1 }).wf = false ∧
    (Instr.pld { vd := 32, qd := 0, sa := 0, sx := 0, pg := 0, t := 0, sco := 0, off := 0 }).wf = false ∧
    (Instr.sown { sd := 0, sa := 1, sb := 0, ch := 0, imm := 0 }).wf = false ∧ (Instr.srel { sd := 1, sa := 0, sb := 0, ch := 0, imm := 0 }).wf = false ∧
    (Instr.sact { sd := 0, sa := 1, sb := 0, ch := 0, imm := 0x800000 }).wf = false ∧
    (Instr.spreAll { sd := 0, sa := 0, sb := 0, ch := 0, imm := 0 }).wf = false := by decide

/-- R196 to R207, R226 to R235: the fields of a matrix and of an engine instruction. -/
theorem test_refuses_command_terms :
    let m (imm : BitVec 8) (sd zt : Nat) : FM :=
      { vd := 0, va := 0, qa := 0, sd := BitVec.ofNat 6 sd, sa := 0, zt := BitVec.ofNat 3 zt, imm := imm, w := noWait }
    let e (sd sc : Nat) (fn : BitVec 14) : FE := { sd := BitVec.ofNat 6 sd, sa := 0, sb := 0, sc := BitVec.ofNat 6 sc, fn := fn, w := noWait }
    MOp.mcfg.wf (m 4 1 0) = false ∧ MOp.mfmt.wf (m 18 0 0) = false ∧ MOp.mfmt.wf (m 128 0 0) = false ∧ MOp.mgoFix.wf (m 9 0 0) = false ∧
    MOp.mgoLoop.wf (m 6 0 0) = false ∧ MOp.mldw.wf (m 0 0 3) = false ∧ MOp.mldw.wf (m 0 1 0) = false ∧ MOp.mldw.wf (m 64 1 0) = true ∧
    MOp.mrdz.wf (m 64 0 0) = false ∧ MOp.mcal.wf (m 1 0 0) = false ∧ MOp.mzclr.wf (m 0 0 1) = false ∧ MOp.mav.wf (m 16 0 0) = false ∧
    MOp.msig.wf { m 0 0 0 with vd := 1 } = false ∧ EOp.cpy.wf (e 1 0 0) = false ∧ EOp.cpy2.wf (e 0 0 1) = false ∧
    EOp.cpyxScale.wf (e 0 0 0x800) = false ∧ EOp.cpyxScale.wf (e 0 0 0x600) = false ∧ EOp.cpyxScale.wf (e 0 0 1) = false ∧
    EOp.cpyxScale.wf (e 0 0 0x401) = true ∧ EOp.cpyxRadd.wf (e 1 0 0x1800) = false ∧ EOp.cpyxAdd.wf (e 0 0 0x808) = false ∧
    EOp.cpyxRmax.wf (e 0 0 0x2401) = false ∧ EOp.cpyxCast.wf (e 0 0 0x1061) = false ∧ EOp.fcpy.wf (e 0 0 1) = false ∧
    EOp.mxredStart.wf (e 0 1 0) = false ∧ EOp.mxredRelay.wf (e 0 0 0) = false ∧ EOp.mxredFinish.wf (e 0 0 0x2001) = false ∧
    EOp.rsig.wf (e 1 0 0) = false ∧ EOp.pmap.wf (e 0 1 0x2001) = false ∧ EOp.pmap.wf (e 0 1 0x2000) = true ∧
    EOp.pmq.wf (e 0 0 1) = false ∧ EOp.launch.wf (e 0 0 1) = false := by decide

/-! ### Words and single steps

The words of the example are those of the spec's chapter on encoding; the other results are worked out by hand from the rules that each
theorem names. -/

/-- Chapter "Bundles and Encoding", the worked bundle: two ADDs with immediates in S0 and S1, and the vector slots of the other example. -/
theorem test_decode_worked_example : decodeSlot .scalar false 0x20140001 = .ok (.op (.addImm 5 0 1)) ∧
    decodeSlot .scalar false 0x20185000 = .ok (.op (.addImm 6 5 0)) ∧
    decodeSlot .vector true 0x0004201900008000 =
      .ok (.op (.vadd { vd := 1, va := 2, qa := 0, vb := 3, qb := 1, vc := 0, qc := 0, pg := 0, t := 2, rm := 0, zm := 0, fr := 0, fx := 0 })) ∧
    slotValues (presentSlots 3) ([0x01, 0x00, 0x14, 0x20, 0x00, 0x50, 0x18, 0x20] : List Byte) =
      some [(0, 0x20140001), (1, 0x20185000)] := by decide +kernel

/-- Words that are no instruction: an opcode beyond the table, a reserved field that is not zero, a reserved type code (R51, R52). -/
theorem test_decode_refuses : (decodeSlot .scalar false 0xFF000000).isOk = false ∧ (decodeSlot .scalar false 0x000C1081).isOk = false ∧
    (decodeSlot .vector true 0x0004201900030000).isOk = false ∧ (decodeSlot .control false 0x0A000002).isOk = false := by decide +kernel

/-- The state after an instruction of the demo's bundle. -/
def after (i : Instr) (s : State := demo) : State :=
  match exec i s with
  | .next t => t
  | _ => s

/-- R46, R57, R105: the first step after a MOVI s4, 5 is laid down writes s4 and passes its six bytes. -/
theorem test_step_movi :
    (match step (State.reset.withFetchWord 32 0x70100005) with
      | .next t => t.ctx.r.s[4]! == 5 && t.ctx.q.pc == progVa + 6 && t.core.cycle == 1
      | _ => false) = true := by decide +kernel

/-- R102: a sum that wraps; s5 holds 0x3000000000000100 and s9 0x100. -/
theorem test_exec_sub_wraps : (after (.sub 4 0 3)).sNow 4 = 0xFFFFFFFFFFFFFFFB ∧ (after (.sub 4 0 3)).sNow 3 = 5 := by decide +kernel

/-- R14: a write of s0 is discarded. -/
theorem test_exec_zero_register : (after (.addImm 0 3 1)).sNow 0 = 0 := by decide +kernel

/-- R102: SAR keeps the sign, SHR does not; s16 holds 2^63. -/
theorem test_exec_shifts : (after (.sarImm 4 16 63)).sNow 4 = 0xFFFFFFFFFFFFFFFF ∧ (after (.shrImm 4 16 63)).sNow 4 = 1 := by decide +kernel

/-- R103: division by zero, and the remainder of it. -/
theorem test_exec_division_by_zero : (after (.div 4 3 0)).sNow 4 = 0xFFFFFFFFFFFFFFFF ∧ (after (.rem 4 3 0)).sNow 4 = 5 := by decide +kernel

/-- R102: 2^63 times 2^63 is 2^126, read unsigned or signed. -/
theorem test_exec_high_product : (after (.mulhn 4 16 16)).sNow 4 = 0x4000000000000000 ∧ (after (.mulh 4 16 16)).sNow 4 = 0x4000000000000000 ∧
    (after (.mulh 4 16 3)).sNow 4 = 0xFFFFFFFFFFFFFFFD := by decide +kernel

/-- R104: -2^63 is below 5 signed, above it unsigned. -/
theorem test_exec_compare : (after (.cmpLt 4 16 3)).sNow 4 = 1 ∧ (after (.cmpLtn 4 16 3)).sNow 4 = 0 := by decide +kernel

/-- R105: MOVK replaces bits 31 to 16 of 0x3000000000000100. -/
theorem test_exec_movk : (after (.movk 5 1 0xABCD)).sNow 5 = 0x30000000ABCD0100 := by decide +kernel

/-- R100: a poisoned source poisons the result. -/
theorem test_exec_poison : (after (.add 4 3 63)).sPoison 4 = true ∧ (after (.add 4 3 3)).sPoison 4 = false := by decide +kernel

/-- The demo with patterns in s18 and s19. -/
def withPair (a b : W64) : State :=
  withCtx demo fun c => { c with r := { c.r with s := vset (vset c.r.s 18 a) 19 b } }

/-- R89, R106: FP32 1 + 2^-24 is half a step above 1 and goes to even; toward plus infinity it goes up. -/
theorem test_exec_fadd_ties : (after (.fadd 4 18 19 1 0) (withPair 0x3F800000 0x33800000)).sNow 4 = 0x3F800000 ∧
    (after (.fadd 4 18 19 1 2) (withPair 0x3F800000 0x33800000)).sNow 4 = 0x3F800001 := by decide +kernel

/-- R93: the quiet NaN of the first NaN operand. -/
theorem test_exec_fmul_nan : (after (.fmul 4 18 19 1 0) (withPair 0x7F800123 0x3F800000)).sNow 4 = 0x7FC00123 := by decide +kernel

/-- R109: a NaN converts to the value that the rule gives, and 2.5 to 2 under ties to even. -/
theorem test_exec_cvtfi : (after (.cvtfi 4 18 1 0 0) (withPair 0x40200000 0)).sNow 4 = 2 ∧
    (after (.cvtfi 4 18 1 2 0) (withPair 0x40200000 0)).sNow 4 = 3 := by decide +kernel

/-- R111: p0 is all ones. -/
theorem test_exec_pandn : (after (.pandn 1 0 0)).pNow 1 = 0 ∧ (after (.por 1 0 2)).pNow 1 = BitVec.allOnes 256 := by decide +kernel

/-- The demo with 0xFF in every byte of v2 and 0x01 in every byte of v3. -/
def demoBytes : State :=
  withCtx demo fun c => { c with r := { c.r with v := vset (vset c.r.v 2 (BitVec.allOnes 2048)) 3 (BitVec.allOnes 2048 / 255) } }

/-- An operand record of a plain binary vector instruction on v1, v2 and v3. -/
def plain (t : BitVec 4) : VR :=
  { vd := 1, va := 2, qa := 0, vb := 3, qb := 0, vc := 0, qc := 0, pg := 0, t := t, rm := 0, zm := 0, fr := 0, fx := 0 }

/-- R141: -1 + 1 in bytes wraps to 0; 255 + 1 saturates in unsigned bytes; -1 - 1 is -2 in signed ones. -/
theorem test_exec_vector_integers : (after (.vadd (plain 0)) demoBytes).vNow 1 = 0 ∧
    (after (.vadds (plain 4)) demoBytes).vNow 1 = BitVec.allOnes 2048 ∧
    ((after (.vsub (plain 0)) demoBytes).vNow 1).extractLsb' 0 16 = 0xFEFE := by decide +kernel

/-- R153: the sum of 256 ones in bytes wraps to 0, in 16-bit elements 128 times 0x0101 is 0x8080. -/
theorem test_exec_vrsum : let o : VR := { plain 0 with va := 3, vb := 0 }
    (after (.vrsum o) demoBytes).vNow 1 = 0 ∧ ((after (.vrsum { o with t := 1 }) demoBytes).vNow 1).extractLsb' 0 32 = 0x80808080 := by
  decide +kernel

/-- R178, R181: s8 holds 0x80; its byte is stored, and read back with its sign. -/
theorem test_exec_store_load : (after (.ldI8 { memOp 1 0 3 with sd := 4 }) (after (.stN8 { memOp 1 0 3 with sd := 8 }))).sNow 4 =
    0xFFFFFFFFFFFFFF80 := by decide +kernel

/-- R120: LOOPI with a count pushes a level that ends 2 * 9 bytes after the bundle. -/
theorem test_exec_loopi : (after (.loopi 3 9)).ctx.q.loops = [{ count := 3, start := progVa + 6, last := progVa + 18, index := 0 }] := by
  decide +kernel

/-- R117: CALL through b2 writes b7 with the address after the bundle. -/
theorem test_exec_call : (after (.call 2 0)).bNow 7 = progVa + 6 := by decide +kernel

/-- R130, R316: TRAP saves the context and writes a record with the code as its detail and the bundle as its BA. -/
theorem test_exec_trap : let t := after (.trap 9)
    t.ctx.sch.life = .saving ∧ t.ctx.c.pidx = 1 ∧ t.peek64 (seamKey 0x20008) = progVa.toNat ∧ t.peek64 (seamKey 0x20000) % 2 ^ 32 = 9 := by decide +kernel

/-- R37, R230: MCFG writes the shadow register that imm names. -/
theorem test_exec_mcfg : let o : FM := { vd := 0, va := 0, qa := 0, sd := 0, sa := 3, zt := 0, imm := 4, w := noBlock }
    vget (after (.mcfg o)).ctx.mx.shadow 4 = 5 := by decide +kernel

end Sys2Proof.Tests
end

section
open Sys2Proof Sys2Proof.Machine

namespace Sys2Proof.Proofs.MemoryBytes

/-- A byte reads as the first cell at its key or above says, where such a cell stands at the key. -/
def headByte (l : List Host.Cell) (k : Nat) : Byte :=
  match l with
  | c :: _ => if c.1 = k then c.2 else unlisted k
  | [] => unlisted k

theorem readByte_eq_headByte (m : List Host.Cell) (k : Nat) : readByte m k = headByte (m.dropWhile fun c => c.1 < k) k := rfl

/-- Cells below a key do not bear on the byte there. -/
theorem readByte_append_of_lt {l r : List Host.Cell} {j : Nat} (h : ∀ c ∈ l, c.1 < j) : readByte (l ++ r) j = readByte r j := by
  rw [readByte_eq_headByte, readByte_eq_headByte, List.dropWhile_append_of_pos (by simpa using h)]

/-- Where the cells of a list begin above a key, the byte there is unlisted. -/
theorem readByte_of_head_gt {m : List Host.Cell} {j : Nat} (h : ∀ c ∈ m.head?, j < c.1) : readByte m j = unlisted j := by
  cases m with
  | nil => rfl
  | cons c m =>
    have hc : j < c.1 := h c rfl
    rw [readByte_eq_headByte, List.dropWhile_cons_of_neg (by simp; omega)]
    exact if_neg (by omega)

/-- The first cell that stands at a key or above it, whatever the order of the cells. -/
theorem le_of_mem_head_dropWhile {m : List Host.Cell} {n : Nat} : ∀ c ∈ (m.dropWhile fun c => c.1 < n).head?, n ≤ c.1 := by
  intro c hc
  have := List.head?_dropWhile_not (fun c : Host.Cell => decide (c.1 < n)) m
  rw [hc] at this
  simpa using this

/-- Reading at a key passes over the cells below a smaller one. -/
theorem readByte_dropWhile {m : List Host.Cell} {n j : Nat} (h : n ≤ j) :
    readByte (m.dropWhile fun c => c.1 < n) j = readByte m j := by
  conv_rhs => rw [← List.takeWhile_append_dropWhile (p := fun c : Host.Cell => decide (c.1 < n)) (l := m)]
  exact (readByte_append_of_lt fun c hc => lt_of_lt_of_le (lt_of_mem_takeWhile hc) h).symm

theorem cellsFor_cons (k : Nat) (b : Byte) (bs : List Byte) :
    cellsFor k (b :: bs) = if b = unlisted k then cellsFor (k + 1) bs else (k, b) :: cellsFor (k + 1) bs := rfl

/-- The first cell of n bytes from key k on and cells from k + n on stands at k or above. -/
theorem le_of_mem_head_cellsFor {k : Nat} {bs : List Byte} {r : List Host.Cell} (hr : ∀ c ∈ r.head?, k + bs.length ≤ c.1) :
    ∀ c ∈ (cellsFor k bs ++ r).head?, k ≤ c.1 := by
  intro c hc
  rw [List.head?_append] at hc
  cases hb : cellsFor k bs with
  | nil =>
    rw [hb] at hc
    exact le_trans (Nat.le_add_right _ _) (hr c hc)
  | cons d l =>
    rw [hb] at hc
    obtain rfl : d = c := Option.some.inj hc
    exact (mem_cellsFor (hb ▸ List.mem_cons_self)).1

/-- The cells for bytes from key k on, before cells above them: each byte reads as it was listed. -/
theorem readByte_cellsFor {k j : Nat} {bs : List Byte} {r : List Host.Cell} (hj : k ≤ j) (hb : j - k < bs.length)
    (hr : ∀ c ∈ r.head?, k + bs.length ≤ c.1) : readByte (cellsFor k bs ++ r) j = bs[j - k] := by
  induction bs generalizing k with
  | nil => simp at hb
  | cons b bs ih =>
    have hr' : ∀ c ∈ r.head?, k + 1 + bs.length ≤ c.1 := fun c hc => by
      have := hr c hc
      simp only [List.length_cons] at this
      omega
    have hhead := le_of_mem_head_cellsFor hr'
    rcases Nat.eq_or_lt_of_le hj with rfl | hlt
    · simp only [Nat.sub_self, List.getElem_cons_zero]
      rw [cellsFor_cons]
      split
      · next hu => rw [readByte_of_head_gt hhead, hu]
      · rw [readByte_eq_headByte, List.cons_append, List.dropWhile_cons_of_neg (by simp)]
        exact if_pos rfl
    · have hb' : j - (k + 1) < bs.length := by
        simp only [List.length_cons] at hb
        omega
      have hidx : (b :: bs)[j - k] = bs[j - (k + 1)] := by
        simp only [show j - k = j - (k + 1) + 1 by omega, List.getElem_cons_succ]
      rw [hidx, ← ih hlt hb' hr']
      rw [cellsFor_cons]
      split
      · rfl
      · exact readByte_append_of_lt (l := [(k, b)]) (r := cellsFor (k + 1) bs ++ r) (by simpa using hlt)

/-- A byte that is written reads as it was written. -/
theorem readByte_writeRun_inside {m : List Host.Cell} {k j : Nat} {bs : List Byte} (hj : k ≤ j) (hb : j - k < bs.length) :
    readByte (writeRun m k bs) j = bs[j - k] := by
  unfold writeRun
  rw [List.append_assoc, readByte_append_of_lt fun c hc => lt_of_lt_of_le (lt_of_mem_takeWhile hc) hj]
  exact readByte_cellsFor hj hb le_of_mem_head_dropWhile

/-- A byte above those that are written reads as before. -/
theorem readByte_writeRun_above {m : List Host.Cell} {k j : Nat} {bs : List Byte} (hj : k + bs.length ≤ j) :
    readByte (writeRun m k bs) j = readByte m j := by
  unfold writeRun
  rw [readByte_append_of_lt, readByte_dropWhile hj]
  intro c hc
  rcases List.mem_append.1 hc with hc | hc
  · have := lt_of_mem_takeWhile hc
    omega
  · have := (mem_cellsFor hc).2.1
    omega

/-- Cells before those that begin above a key decide alone what it reads. -/
theorem readByte_append_of_head_gt {l r : List Host.Cell} {j : Nat} (h : ∀ c ∈ r.head?, j < c.1) :
    readByte (l ++ r) j = readByte l j := by
  induction l with
  | nil => exact readByte_of_head_gt h
  | cons c l ih =>
    rw [readByte_eq_headByte, readByte_eq_headByte, List.cons_append]
    by_cases hc : c.1 < j
    · rw [List.dropWhile_cons_of_pos (by simpa using hc), List.dropWhile_cons_of_pos (by simpa using hc)]
      rwa [readByte_eq_headByte, readByte_eq_headByte] at ih
    · rw [List.dropWhile_cons_of_neg (by simpa using hc), List.dropWhile_cons_of_neg (by simpa using hc)]
      rfl

/-- A byte below those that are written reads as before. -/
theorem readByte_writeRun_below {m : List Host.Cell} {k j : Nat} {bs : List Byte} (hj : j < k) :
    readByte (writeRun m k bs) j = readByte m j := by
  unfold writeRun
  rw [List.append_assoc, readByte_append_of_head_gt fun c hc =>
    lt_of_lt_of_le hj (le_of_mem_head_cellsFor le_of_mem_head_dropWhile c hc)]
  conv_rhs => rw [← List.takeWhile_append_dropWhile (p := fun c : Host.Cell => decide (c.1 < k)) (l := m)]
  exact (readByte_append_of_head_gt fun c hc => lt_of_lt_of_le hj (le_of_mem_head_dropWhile c hc)).symm

/-- What a byte reads as after a write of bytes from key k on. -/
theorem readByte_writeRun (m : List Host.Cell) (k : Nat) (bs : List Byte) (j : Nat) :
    readByte (writeRun m k bs) j = if h : k ≤ j ∧ j - k < bs.length then bs[j - k]'h.2 else readByte m j := by
  split
  · next h => exact readByte_writeRun_inside h.1 h.2
  · next h =>
    rcases Nat.lt_or_ge j k with hlt | hge
    · exact readByte_writeRun_below hlt
    · exact readByte_writeRun_above (by omega)

/-- A run of bytes is read byte by byte. -/
theorem readRun_eq_map (n k : Nat) (m : List Host.Cell) : readRun n k m = (List.range n).map fun i => readByte m (k + i) := by
  induction n generalizing k m with
  | zero => rfl
  | succ n ih =>
    have hhead : readRun (n + 1) k m = readByte m k :: readRun n (k + 1) (m.dropWhile fun c => c.1 < k) := rfl
    have htail : ∀ i, readByte (m.dropWhile fun c => c.1 < k) (k + 1 + i) = readByte m (k + (i + 1)) := fun i => by
      rw [readByte_dropWhile (by omega)]
      congr 1
      omega
    rw [hhead, ih, List.range_succ_eq_map, List.map_cons, List.map_map]
    exact congrArg _ (List.map_congr_left fun i _ => htail i)

@[simp] theorem poke_mem (s : State) (k : Nat) (bs : List Byte) : (s.poke k bs).mem = writeRun s.mem k bs := rfl

/-- The bytes just written at a key stand there. -/
theorem peek_poke (s : State) (k : Nat) (bs : List Byte) : (s.poke k bs).peek k bs.length = bs := by
  unfold State.peek
  rw [readRun_eq_map]
  refine List.ext_getElem (by simp) fun i hi hb => ?_
  rw [List.getElem_map, List.getElem_range, poke_mem, readByte_writeRun_inside (Nat.le_add_right _ _) (by omega)]
  simp only [Nat.add_sub_cancel_left]

/-- Settles O53: a write is cells between those below and those above it, and a read looks at the first cell that is not below. -/
theorem memoryReadsWrites : Obligations.MemoryReadsWrites := ⟨readByte_writeRun, peek_poke⟩

end Sys2Proof.Proofs.MemoryBytes
end

section
open Sys2Proof Sys2Proof.Machine

namespace Sys2Proof.Proofs.GoingOn

/-! ### What goes on -/

/-- A step's outcome is a next state: the machine neither faults nor refuses. -/
def GoesOn (o : Out) : Prop := ∃ t, o = .next t

@[simp] theorem goesOn_next (s : State) : GoesOn (.next s) := ⟨s, rfl⟩

@[simp] theorem trap_goesOn (s : State) (cause detail lmask : Nat) (faddr : W64) : GoesOn (s.trap cause detail lmask faddr) :=
  ⟨_, rfl⟩

@[simp] theorem trapFail_goesOn (s : State) (w : Nat) (f : Fail) : GoesOn (s.trapFail w f) := ⟨_, rfl⟩

/-! ### The shared forms of the slot instructions -/

@[simp] theorem branch_goesOn (s : State) (b : R3) (pg : R5) (want : Bool) (f : State → State) :
    GoesOn (State.branch s b pg want f) := by
  fun_cases State.branch <;> exact goesOn_next _

@[simp] theorem openLoop_goesOn (s : State) (n off : Nat) : GoesOn (State.openLoop s n off) := by
  fun_cases State.openLoop <;> exact goesOn_next _

@[simp] theorem mtcWith_goesOn (s : State) (a : R6) (f : W64 → State → State) : GoesOn (State.mtcWith s a f) := by
  fun_cases State.mtcWith <;> exact goesOn_next _

@[simp] theorem vRound_goesOn (s : State) (o : VR) (n w lat : Nat) (act : Nat → Bool) (base : Nat)
    (f : RMode → Nat → Nat × BitVec 5) (ps : Nat → Bool) :
    GoesOn (State.vRound s o n w lat act base f ps) := by
  fun_cases State.vRound <;> exact goesOn_next _

@[simp] theorem vfBin_goesOn (s : State) (o : VR) (vs : Bool) (lat : Nat) (op : Fmt → RMode → Nat → Nat → Nat × BitVec 5) :
    GoesOn (State.vfBin s o vs lat op) :=
  vRound_goesOn _ _ _ _ _ _ _ _ _

@[simp] theorem vfTern_goesOn (s : State) (o : VR) (vs neg : Bool) : GoesOn (State.vfTern s o vs neg) :=
  vRound_goesOn _ _ _ _ _ _ _ _ _

theorem dividing_goesOn {s : State} {o : VR} {r : Out} (h : GoesOn r) : GoesOn (s.dividing o r) := by
  obtain ⟨t, rfl⟩ := h
  fun_cases State.dividing <;> exact goesOn_next _

@[simp] theorem vConv_goesOn (s : State) (o : VR) : GoesOn (State.vConv s o) := by
  fun_cases State.vConv <;> simp

@[simp] theorem fillSlot_goesOn (s : State) (o : VR) (wide : Bool) (regs : List R6) (f : Nat → GSlot → GSlot) :
    GoesOn (State.fillSlot s o wide regs f) := by
  fun_cases State.fillSlot <;> exact goesOn_next _

@[simp] theorem predicate_goesOn (s : State) (o : VG) (three : Bool) (gs : List R3) (top : Nat) (eval : List Pt → LaneRes) :
    GoesOn (State.predicate s o three gs top eval) := by
  fun_cases State.predicate <;> exact goesOn_next _

/-- A read goes on where its failure does. -/
theorem loadWith_goesOn {s : State} {i : Instr} {n : Nat} {mis : Bool} {es : List Elem}
    {done : State → List (Nat × Nat × Bool) → State} {fail : State → Fail → Out} (h : ∀ t f, GoesOn (fail t f)) :
    GoesOn (s.loadWith i n mis es done fail) := by
  fun_cases State.loadWith <;> simp [h]

@[simp] theorem load_goesOn (s : State) (i : Instr) (w n : Nat) (mis : Bool) (es : List Elem)
    (done : State → List (Nat × Nat × Bool) → State) : GoesOn (s.load i w n mis es done) :=
  loadWith_goesOn fun _ _ => trapFail_goesOn _ _ _

@[simp] theorem ld_goesOn (s : State) (i : Instr) (o : LS) (n : Nat) (signed : Bool) : GoesOn (State.ld s i o n signed) := by
  fun_cases State.ld <;> simp

@[simp] theorem lds_goesOn (s : State) (i : Instr) (o : LS) (n : Nat) (signed : Bool) : GoesOn (State.lds s i o n signed) := by
  fun_cases State.lds
  · exact trap_goesOn _ _ _ _ _
  · exact loadWith_goesOn fun _ _ => goesOn_next _

@[simp] theorem lda_goesOn (s : State) (i : Instr) (o : LS) (n : Nat) (signed : Bool) : GoesOn (State.lda s i o n signed) := by
  fun_cases State.lda <;> simp

@[simp] theorem store_goesOn (s : State) (w n : Nat) (misaligned : Bool) (es : List Elem) (val : Nat → Nat) :
    GoesOn (State.store s w n misaligned es val) := by
  fun_cases State.store <;> exact goesOn_next _

@[simp] theorem st_goesOn (s : State) (o : LS) (n : Nat) : GoesOn (State.st s o n) := by
  fun_cases State.st <;> simp

@[simp] theorem stl_goesOn (s : State) (o : LS) (n : Nat) : GoesOn (State.stl s o n) := by
  fun_cases State.stl <;> exact goesOn_next _

@[simp] theorem atomicBack_goesOn (s : State) (op : BitVec 3) (o : LA) (k lat : Nat) (r : Remote) :
    GoesOn (State.atomicBack s op o k lat r) := by
  fun_cases State.atomicBack <;> exact goesOn_next _

@[simp] theorem atomicCached_goesOn (s : State) (i : Instr) (op : BitVec 3) (o : LA) (p : Place) (lat : Nat) (mis : Bool) :
    GoesOn (State.atomicCached s i op o p lat mis) := by
  fun_cases State.atomicCached <;> exact goesOn_next _

@[simp] theorem atomicFault_goesOn (s : State) (a : W64) : GoesOn (State.atomicFault s a) :=
  trap_goesOn _ _ _ _ _

@[simp] theorem atomicAway_goesOn (s : State) (i : Instr) (op : BitVec 3) (o : LA) (k lat : Nat) :
    GoesOn (State.atomicAway s i op o k lat) := by
  fun_cases State.atomicAway <;> simp

@[simp] theorem atomic_goesOn (s : State) (i : Instr) (op : BitVec 3) (o : LA) : GoesOn (State.atomic s i op o) := by
  fun_cases State.atomic
  case case8 | case9 => split <;> simp
  all_goals simp

@[simp] theorem vecLoad_goesOn (s : State) (i : Instr) (vd : R6) (pg : R5) (t : BitVec 4) (misaligned : Bool) (es : List Elem) :
    GoesOn (State.vecLoad s i vd pg t misaligned es) :=
  load_goesOn _ _ _ _ _ _ _

@[simp] theorem vecStore_goesOn (s : State) (vd : R6) (pg : R5) (t : BitVec 4) (badAddr : Bool) (idx : Nat)
    (misaligned : Bool) (es : List Elem) :
    GoesOn (State.vecStore s vd pg t badAddr idx misaligned es) := by
  fun_cases State.vecStore <;> simp

@[simp] theorem lineOp_goesOn (s : State) (i : Instr) (o : LS) (f : State → Nat → State) : GoesOn (State.lineOp s i o f) := by
  fun_cases State.lineOp <;> exact goesOn_next _

@[simp] theorem exposed_goesOn (s : State) (o : LX) (k : XKind) (f : State → Chan → Nat → State) :
    GoesOn (State.exposed s o k f) := by
  fun_cases State.exposed <;> exact goesOn_next _

/-- A slot with a wait and a signal goes on where what it runs does. -/
theorem s56_goesOn {s : State} {w : WaitSig} {run : State → Out} (h : ∀ t, GoesOn (run t)) : GoesOn (s.s56 w run) := by
  fun_cases State.s56 <;> simp [h]

theorem s5_goesOn {s : State} {w : WaitSig} {run : State → Out} (h : ∀ t, GoesOn (run t)) : GoesOn (s.s5 w run) :=
  s56_goesOn fun t => by split_ifs <;> simp [h]

theorem s5Queue_goesOn {s : State} {o : FM} {run : State → Out} (h : ∀ t, GoesOn (run t)) : GoesOn (s.s5Queue o run) :=
  s5_goesOn fun t => by split_ifs <;> simp [h]

@[simp] theorem mgo_goesOn (s : State) (o : FM) (entry : Nat) : GoesOn (State.mgo s o entry) := by
  fun_cases State.mgo <;> exact goesOn_next _

@[simp] theorem mrd_goesOn (s : State) (o : FM) (file : Matrix → Vector (BitVec 4096) 256) : GoesOn (State.mrd s o file) :=
  s5_goesOn fun _ => goesOn_next _

@[simp] theorem queueCmd_goesOn (s : State) (c : Cmd) : GoesOn (State.queueCmd s c) := by
  fun_cases State.queueCmd <;> exact goesOn_next _

@[simp] theorem engine_goesOn (s : State) (op : EOp) (o : FE) : GoesOn (State.engine s op o) :=
  s56_goesOn fun t => by split_ifs <;> simp

theorem poolOp_goesOn {s : State} {o : FE} {act : State → PoolReq → Option Nat → Out} (h : ∀ t q c, GoesOn (act t q c)) :
    GoesOn (s.poolOp o act) :=
  s56_goesOn fun t => by
    dsimp only
    split_ifs <;> simp [h]

/-! ### Scalar, control, vector and memory rows with branches of their own -/

@[simp] theorem execCall_goesOn (b : R3) (pg : R5) (s : State) : GoesOn (execCall b pg s) :=
  branch_goesOn _ _ _ _ _

@[simp] theorem execMtc_goesOn (a : R6) (sel : BitVec 8) (spc : BitVec 2) (s : State) : GoesOn (execMtc a sel spc s) :=
  mtcWith_goesOn _ _ _

@[simp] theorem execMtcRng_goesOn (a : R6) (s : State) : GoesOn (execMtcRng a s) :=
  mtcWith_goesOn _ _ _

@[simp] theorem execMtcTrpc_goesOn (a : R6) (s : State) : GoesOn (execMtcTrpc a s) :=
  mtcWith_goesOn _ _ _

@[simp] theorem execMtcFpf_goesOn (a : R6) (s : State) : GoesOn (execMtcFpf a s) :=
  mtcWith_goesOn _ _ _

@[simp] theorem execMtcStatus_goesOn (a : R6) (s : State) : GoesOn (execMtcStatus a s) :=
  mtcWith_goesOn _ _ _

@[simp] theorem execMtcFerec_goesOn (a : R6) (s : State) : GoesOn (execMtcFerec a s) :=
  mtcWith_goesOn _ _ _

@[simp] theorem execGset_goesOn (o : VR) (s : State) : GoesOn (execGset o s) := by
  unfold execGset
  exact fillSlot_goesOn _ _ _ _ _

@[simp] theorem execGidx_goesOn (o : VR) (s : State) : GoesOn (execGidx o s) := by
  unfold execGidx
  exact fillSlot_goesOn _ _ _ _ _

@[simp] theorem execClwb_goesOn (o : LS) (s : State) : GoesOn (execClwb o s) :=
  lineOp_goesOn _ _ _ _

@[simp] theorem execClinv_goesOn (o : LS) (s : State) : GoesOn (execClinv o s) :=
  lineOp_goesOn _ _ _ _

@[simp] theorem execClfl_goesOn (o : LS) (s : State) : GoesOn (execClfl o s) :=
  lineOp_goesOn _ _ _ _

@[simp] theorem execPbrr_goesOn (b : R3) (a : R6) (s : State) : GoesOn (execPbrr b a s) := by
  fun_cases execPbrr <;> exact goesOn_next _

@[simp] theorem execLoop_goesOn (a : R6) (off : BitVec 18) (s : State) : GoesOn (execLoop a off s) := by
  fun_cases execLoop <;> simp

@[simp] theorem execMtcTrpb_goesOn (a : R6) (s : State) : GoesOn (execMtcTrpb a s) := by
  fun_cases execMtcTrpb <;> exact goesOn_next _

@[simp] theorem execTwait_goesOn (a : R6) (sco tl : BitVec 2) (all : BitVec 1) (s : State) :
    GoesOn (execTwait a sco tl all s) := by
  fun_cases execTwait <;> exact goesOn_next _

@[simp] theorem execBarArrive_goesOn (d : R6) (id : BitVec 8) (sco : BitVec 2) (s : State) :
    GoesOn (execBarArrive d id sco s) := by
  fun_cases execBarArrive <;> exact goesOn_next _

@[simp] theorem execBarWait_goesOn (a : R6) (id : BitVec 8) (sco : BitVec 2) (s : State) : GoesOn (execBarWait a id sco s) := by
  fun_cases execBarWait <;> exact goesOn_next _

@[simp] theorem execCut_goesOn (id : BitVec 12) (s : State) : GoesOn (execCut id s) := by
  fun_cases execCut <;> exact goesOn_next _

@[simp] theorem execPrio_goesOn (c : BitVec 2) (s : State) : GoesOn (execPrio c s) := by
  fun_cases execPrio <;> exact goesOn_next _

@[simp] theorem execVqnt_goesOn (o : VR) (s : State) : GoesOn (execVqnt o s) := by
  fun_cases execVqnt <;> simp

@[simp] theorem execVqntScale_goesOn (o : VR) (s : State) : GoesOn (execVqntScale o s) := by
  fun_cases execVqntScale <;> exact goesOn_next _

@[simp] theorem execVdqnt_goesOn (o : VR) (s : State) : GoesOn (execVdqnt o s) := by
  fun_cases execVdqnt <;> simp

@[simp] theorem execVxch_goesOn (o : VR) (s : State) : GoesOn (execVxch o s) := by
  fun_cases execVxch <;> exact goesOn_next _

@[simp] theorem execVsld_goesOn (o : VR) (s : State) : GoesOn (execVsld o s) := by
  fun_cases execVsld <;> exact goesOn_next _

@[simp] theorem execVld_goesOn (o : LV) (s : State) : GoesOn (execVld o s) := by
  fun_cases execVld <;> simp

@[simp] theorem execVlds_goesOn (o : LV) (s : State) : GoesOn (execVlds o s) := by
  fun_cases execVlds <;> simp

@[simp] theorem execVgth_goesOn (o : LG) (s : State) : GoesOn (execVgth o s) := by
  fun_cases execVgth <;> simp

@[simp] theorem execPld_goesOn (o : LV) (s : State) : GoesOn (execPld o s) := by
  fun_cases execPld <;> simp

@[simp] theorem execPst_goesOn (o : LV) (s : State) : GoesOn (execPst o s) := by
  fun_cases execPst <;> simp

@[simp] theorem execWaita_goesOn (o : LS) (s : State) : GoesOn (execWaita o s) := by
  fun_cases execWaita <;> exact goesOn_next _

@[simp] theorem execSown_goesOn (o : LX) (s : State) : GoesOn (execSown o s) := by
  fun_cases execSown <;> exact goesOn_next _

@[simp] theorem execBlc_goesOn (s : State) : GoesOn (execBlc s) := by
  fun_cases execBlc <;> exact goesOn_next _

@[simp] theorem execLpop_goesOn (s : State) : GoesOn (execLpop s) := by
  fun_cases execLpop <;> exact goesOn_next _

@[simp] theorem execSrel_goesOn (o : LX) (s : State) : GoesOn (execSrel o s) :=
  exposed_goesOn _ _ _ _

@[simp] theorem execSpre_goesOn (o : LX) (s : State) : GoesOn (execSpre o s) :=
  exposed_goesOn _ _ _ _

@[simp] theorem execSpreAll_goesOn (o : LX) (s : State) : GoesOn (execSpreAll o s) :=
  exposed_goesOn _ _ _ _

@[simp] theorem execSref_goesOn (o : LX) (s : State) : GoesOn (execSref o s) :=
  exposed_goesOn _ _ _ _

@[simp] theorem execSldx_goesOn (o : LX) (s : State) : GoesOn (execSldx o s) :=
  exposed_goesOn _ _ _ _

@[simp] theorem execSstx_goesOn (o : LX) (s : State) : GoesOn (execSstx o s) :=
  exposed_goesOn _ _ _ _

@[simp] theorem execSact_goesOn (o : LX) (s : State) : GoesOn (execSact o s) :=
  exposed_goesOn _ _ _ _

/-! ### Matrix and engine rows with branches of their own -/

@[simp] theorem execMcfg_goesOn (o : FM) (s : State) : GoesOn (execMcfg o s) :=
  s5_goesOn fun t => by
    dsimp only
    split_ifs <;> simp

@[simp] theorem execMfmt_goesOn (o : FM) (s : State) : GoesOn (execMfmt o s) :=
  s5_goesOn fun _ => goesOn_next _

@[simp] theorem execMgoFix_goesOn (o : FM) (s : State) : GoesOn (execMgoFix o s) :=
  s5Queue_goesOn fun _ => mgo_goesOn _ _ _

@[simp] theorem execMgoLoop_goesOn (o : FM) (s : State) : GoesOn (execMgoLoop o s) :=
  s5Queue_goesOn fun t => by split <;> simp

@[simp] theorem execMldw_goesOn (o : FM) (s : State) : GoesOn (execMldw o s) :=
  s5_goesOn fun t => by
    dsimp only
    (repeat' split) <;> simp

@[simp] theorem execMcal_goesOn (o : FM) (s : State) : GoesOn (execMcal o s) :=
  s5Queue_goesOn fun t => by
    dsimp only
    split_ifs <;> simp

@[simp] theorem execMzclr_goesOn (o : FM) (s : State) : GoesOn (execMzclr o s) :=
  s5Queue_goesOn fun t => by
    dsimp only
    split_ifs <;> simp

@[simp] theorem execMav_goesOn (o : FM) (s : State) : GoesOn (execMav o s) :=
  s5_goesOn fun t => by
    dsimp only
    split_ifs <;> simp

@[simp] theorem execMsig_goesOn (o : FM) (s : State) : GoesOn (execMsig o s) :=
  s5_goesOn fun _ => goesOn_next _

@[simp] theorem execCpy3_goesOn (o : FE) (s : State) : GoesOn (execCpy3 o s) :=
  s56_goesOn fun t => by
    dsimp only
    (repeat' split) <;> simp

@[simp] theorem execPmap_goesOn (o : FE) (s : State) : GoesOn (execPmap o s) :=
  poolOp_goesOn fun t q c => by
    dsimp only
    split
    · exact goesOn_next _
    · split_ifs <;> exact goesOn_next _

@[simp] theorem execLaunch_goesOn (o : FE) (s : State) : GoesOn (execLaunch o s) :=
  s56_goesOn fun t => by
    dsimp only
    split_ifs <;> simp

/-! ### Events -/

@[simp] theorem serve_goesOn (s : State) (src : BitVec 12) (seq : Nat) (addr : W64) (acc : Access)
    (f : State → Nat → Answer × State) :
    GoesOn (State.serve s src seq addr acc f) := by
  fun_cases State.serve <;> exact goesOn_next _

@[simp] theorem serveRange_goesOn (s : State) (src : BitVec 12) (lane seq : Nat) (addr : W64) (n : Nat) (acc : Access)
    (f : State → List Run → (Answer × List Byte) × State) :
    GoesOn (State.serveRange s src lane seq addr n acc f) := by
  fun_cases State.serveRange <;> exact goesOn_next _

@[simp] theorem hostCmd_goesOn (s : State) (mine : Nat → Bool) (good : HostCmd → Bool) (run : State → HostCmd → State) :
    GoesOn (State.hostCmd s mine good run) := by
  fun_cases State.hostCmd <;> exact goesOn_next _

@[simp] theorem execWaitaWake_goesOn (c : CtxId) (s : State) : GoesOn (execWaitaWake c s) := by
  fun_cases execWaitaWake <;> exact goesOn_next _

@[simp] theorem execAcknowledgment_goesOn (seq : Nat) (ans : Answer) (s : State) : GoesOn (execAcknowledgment seq ans s) := by
  fun_cases execAcknowledgment <;> exact goesOn_next _

@[simp] theorem execPerformAtHome_goesOn (core : BitVec 11) (k : Nat) (s : State) : GoesOn (execPerformAtHome core k s) := by
  fun_cases execPerformAtHome <;> exact goesOn_next _

@[simp] theorem execVectorResultLand_goesOn (c : CtxId) (s : State) : GoesOn (execVectorResultLand c s) := by
  fun_cases execVectorResultLand <;> exact goesOn_next _

@[simp] theorem execGeometryComplete_goesOn (c : CtxId) (s : State) : GoesOn (execGeometryComplete c s) := by
  fun_cases execGeometryComplete <;> exact goesOn_next _

@[simp] theorem execWaitaTimeout_goesOn (c : CtxId) (s : State) : GoesOn (execWaitaTimeout c s) := by
  fun_cases execWaitaTimeout <;> exact goesOn_next _

@[simp] theorem execSownComplete_goesOn (core : BitVec 11) (ch : BitVec 3) (s : State) : GoesOn (execSownComplete core ch s) := by
  fun_cases execSownComplete <;> exact goesOn_next _

@[simp] theorem execSrelComplete_goesOn (core : BitVec 11) (ch : BitVec 3) (s : State) : GoesOn (execSrelComplete core ch s) := by
  fun_cases execSrelComplete <;> exact goesOn_next _

@[simp] theorem execGuardRefresh_goesOn (core : BitVec 11) (ch : BitVec 3) (s : State) : GoesOn (execGuardRefresh core ch s) := by
  fun_cases execGuardRefresh <;> exact goesOn_next _

@[simp] theorem execRemoteStoreFault_goesOn (c : CtxId) (ba addr : W64) (s : State) :
    GoesOn (execRemoteStoreFault c ba addr s) := by
  fun_cases execRemoteStoreFault <;> exact goesOn_next _

@[simp] theorem execMatrixEntryStart_goesOn (c : CtxId) (s : State) : GoesOn (execMatrixEntryStart c s) := by
  fun_cases execMatrixEntryStart <;> exact goesOn_next _

@[simp] theorem execTileOperation_goesOn (c : CtxId) (num : W64) (s : State) : GoesOn (execTileOperation c num s) := by
  fun_cases execTileOperation <;> exact goesOn_next _

@[simp] theorem execNestComplete_goesOn (c : CtxId) (num : W64) (s : State) : GoesOn (execNestComplete c num s) := by
  fun_cases execNestComplete <;> exact goesOn_next _

@[simp] theorem execMldwComplete_goesOn (c : CtxId) (num : W64) (s : State) : GoesOn (execMldwComplete c num s) := by
  fun_cases execMldwComplete <;> exact goesOn_next _

@[simp] theorem execMcalComplete_goesOn (c : CtxId) (num : W64) (s : State) : GoesOn (execMcalComplete c num s) := by
  fun_cases execMcalComplete <;> exact goesOn_next _

@[simp] theorem execEngineQueueRelease_goesOn (c : CtxId) (s : State) : GoesOn (execEngineQueueRelease c s) := by
  fun_cases execEngineQueueRelease <;> exact goesOn_next _

@[simp] theorem execEngineOpComplete_goesOn (c : CtxId) (tl : BitVec 2) (num : W64) (s : State) :
    GoesOn (execEngineOpComplete c tl num s) := by
  fun_cases execEngineOpComplete <;> exact goesOn_next _

@[simp] theorem execEngineOpFailure_goesOn (c : CtxId) (tl : BitVec 2) (num : W64) (why : EngineFault) (done : Nat) (s : State) :
    GoesOn (execEngineOpFailure c tl num why done s) := by
  fun_cases execEngineOpFailure <;> exact goesOn_next _

@[simp] theorem execPageFaultReplay_goesOn (c : CtxId) (tl : BitVec 2) (num : W64) (s : State) :
    GoesOn (execPageFaultReplay c tl num s) := by
  fun_cases execPageFaultReplay <;> exact goesOn_next _

@[simp] theorem execArrivalDelivery_goesOn (core : BitVec 11) (k : Nat) (s : State) : GoesOn (execArrivalDelivery core k s) := by
  fun_cases execArrivalDelivery <;> exact goesOn_next _

@[simp] theorem execPoolChangeComplete_goesOn (core : BitVec 11) (s : State) : GoesOn (execPoolChangeComplete core s) := by
  fun_cases execPoolChangeComplete <;> exact goesOn_next _

@[simp] theorem execHostSnoop_goesOn (core : BitVec 11) (access : HostAccess) (s : State) :
    GoesOn (execHostSnoop core access s) := by
  fun_cases execHostSnoop <;> exact goesOn_next _

@[simp] theorem execTrapEntry_goesOn (c : CtxId) (s : State) : GoesOn (execTrapEntry c s) := by
  fun_cases execTrapEntry <;> exact goesOn_next _

@[simp] theorem execPendingRecordWrite_goesOn (c : CtxId) (s : State) : GoesOn (execPendingRecordWrite c s) := by
  fun_cases execPendingRecordWrite <;> exact goesOn_next _

@[simp] theorem execDispEnd_goesOn (c : CtxId) (s : State) : GoesOn (execDispEnd c s) := by
  fun_cases execDispEnd <;> exact goesOn_next _

@[simp] theorem execPreemptionRequest_goesOn (c : CtxId) (kind : ReqKind) (s : State) :
    GoesOn (execPreemptionRequest c kind s) := by
  fun_cases execPreemptionRequest <;> exact goesOn_next _

@[simp] theorem execPreemptionLand_goesOn (c : CtxId) (s : State) : GoesOn (execPreemptionLand c s) := by
  fun_cases execPreemptionLand <;> exact goesOn_next _

@[simp] theorem execSaveComplete_goesOn (c : CtxId) (s : State) : GoesOn (execSaveComplete c s) := by
  unfold execSaveComplete
  split
  · exact goesOn_next _
  · next t _ =>
    split
    · exact goesOn_next _
    · dsimp only
      generalize t.writeArea _ _ _ = area
      cases area <;> exact goesOn_next _

@[simp] theorem execSaveAbandoned_goesOn (c : CtxId) (why : SaveFault) (s : State) : GoesOn (execSaveAbandoned c why s) := by
  fun_cases execSaveAbandoned <;> exact goesOn_next _

@[simp] theorem execPlacement_goesOn (c : CtxId) (s : State) : GoesOn (execPlacement c s) := by
  fun_cases execPlacement <;> exact goesOn_next _

@[simp] theorem execMigrationDecision_goesOn (c : CtxId) (s : State) : GoesOn (execMigrationDecision c s) := by
  fun_cases execMigrationDecision <;> exact goesOn_next _

@[simp] theorem execClassPreemptRequest_goesOn (c : CtxId) (s : State) : GoesOn (execClassPreemptRequest c s) := by
  fun_cases execClassPreemptRequest <;> exact goesOn_next _

@[simp] theorem execTemperatureRefresh_goesOn (cluster : BitVec 5) (temps : List (BitVec 8)) (s : State) :
    GoesOn (execTemperatureRefresh cluster temps s) := by
  fun_cases execTemperatureRefresh <;> exact goesOn_next _

@[simp] theorem execContextRetire_goesOn (c : CtxId) (s : State) : GoesOn (execContextRetire c s) := by
  fun_cases execContextRetire <;> exact goesOn_next _

@[simp] theorem execLaunchDecision_goesOn (c : CtxId) (s : State) : GoesOn (execLaunchDecision c s) := by
  fun_cases execLaunchDecision <;> exact goesOn_next _

@[simp] theorem execRegionStart_goesOn (rid : BitVec 32) (s : State) : GoesOn (execRegionStart rid s) := by
  fun_cases execRegionStart <;> exact goesOn_next _

@[simp] theorem execRegionConditionEval_goesOn (rid : BitVec 32) (s : State) : GoesOn (execRegionConditionEval rid s) := by
  fun_cases execRegionConditionEval <;> exact goesOn_next _

@[simp] theorem execRegionComplete_goesOn (rid : BitVec 32) (s : State) : GoesOn (execRegionComplete rid s) := by
  fun_cases execRegionComplete <;> exact goesOn_next _

@[simp] theorem execRegionBlockUpdate_goesOn (rid : BitVec 32) (energy : EnergyBill) (s : State) :
    GoesOn (execRegionBlockUpdate rid energy s) := by
  fun_cases execRegionBlockUpdate <;> exact goesOn_next _

@[simp] theorem execRemoteAtomicPacket_goesOn (src : BitVec 12) (seq : Nat) (op : BitVec 3) (w : BitVec 1) (addr b c : W64)
    (s : State) :
    GoesOn (execRemoteAtomicPacket src seq op w addr b c s) := by
  fun_cases execRemoteAtomicPacket <;> simp

@[simp] theorem execRemoteSignalPacket_goesOn (src : BitVec 12) (seq : Nat) (addr addend : W64) (s : State) :
    GoesOn (execRemoteSignalPacket src seq addr addend s) := by
  fun_cases execRemoteSignalPacket <;> simp

@[simp] theorem execCopyDataPacket_goesOn (src : BitVec 12) (seq : Nat) (write : Bool) (addr : W64) (data : List Byte)
    (len : Nat) (s : State) :
    GoesOn (execCopyDataPacket src seq write addr data len s) := by
  fun_cases execCopyDataPacket <;> simp

@[simp] theorem execPacketForward_goesOn (dst : BitVec 12) (body : Forwarded) (s : State) :
    GoesOn (execPacketForward dst body s) := by
  fun_cases execPacketForward <;> exact goesOn_next _

@[simp] theorem execRouteFailure_goesOn (seq : Nat) (s : State) : GoesOn (execRouteFailure seq s) := by
  fun_cases execRouteFailure <;> exact goesOn_next _

@[simp] theorem execAtsInvalidation_goesOn (pasid : BitVec 20) (addr : W64) (size : Nat) (s : State) :
    GoesOn (execAtsInvalidation pasid addr size s) := by
  fun_cases execAtsInvalidation <;> exact goesOn_next _

@[simp] theorem execWarmResume_goesOn (r : StartReport) (s : State) : GoesOn (execWarmResume r s) := by
  fun_cases execWarmResume <;> exact goesOn_next _

@[simp] theorem execColdStart_goesOn (r : StartReport) (s : State) : GoesOn (execColdStart r s) := by
  fun_cases execColdStart <;> exact goesOn_next _

@[simp] theorem execWarmStart_goesOn (r : StartReport) (s : State) : GoesOn (execWarmStart r s) := by
  fun_cases execWarmStart <;> exact goesOn_next _

@[simp] theorem execSourceReadsFinished_goesOn (c : CtxId) (tl : BitVec 2) (num : W64) (s : State) :
    GoesOn (execSourceReadsFinished c tl num s) := by
  fun_cases execSourceReadsFinished <;> exact goesOn_next _

@[simp] theorem execHostLinkChange_goesOn (up : Option Bool) (report : Option LinkReport) (s : State) :
    GoesOn (execHostLinkChange up report s) := by
  fun_cases execHostLinkChange <;> exact goesOn_next _

@[simp] theorem execHostCmdLaunch_goesOn (s : State) : GoesOn (execHostCmdLaunch s) := by
  fun_cases execHostCmdLaunch <;> simp

@[simp] theorem execInvalidationComplete_goesOn (s : State) : GoesOn (execInvalidationComplete s) := by
  fun_cases execInvalidationComplete <;> exact goesOn_next _

@[simp] theorem execSupplyLoss_goesOn (s : State) : GoesOn (execSupplyLoss s) := by
  fun_cases execSupplyLoss <;> exact goesOn_next _

@[simp] theorem execPoolImageRetention_goesOn (s : State) : GoesOn (execPoolImageRetention s) := by
  fun_cases execPoolImageRetention <;> exact goesOn_next _

@[simp] theorem execRemoteStorePacket_goesOn (src : BitVec 12) (seq : Nat) (addr : W64) (data : BitVec 512) (mask : BitVec 64)
    (s : State) :
    GoesOn (execRemoteStorePacket src seq addr data mask s) := by
  unfold execRemoteStorePacket
  exact serve_goesOn _ _ _ _ _ _

@[simp] theorem execMxReducePacket_goesOn (src : BitVec 12) (seq : Nat) (addr : W64) (data : List Byte) (s : State) :
    GoesOn (execMxReducePacket src seq addr data s) := by
  unfold execMxReducePacket
  exact serveRange_goesOn _ _ _ _ _ _ _ _

@[simp] theorem execHostCmdStop_goesOn (s : State) :
    GoesOn (execHostCmdStop s) := by
  unfold execHostCmdStop
  exact hostCmd_goesOn _ _ _ _

@[simp] theorem execHostCmdNop_goesOn (s : State) :
    GoesOn (execHostCmdNop s) := by
  unfold execHostCmdNop
  exact hostCmd_goesOn _ _ _ _

/-! ### Slots -/

/-- The rows of the scalar, the control, the vector and the memory class, which execOp runs. -/
def isPlainRow (i : Instr) : Bool :=
  match i.cls with
  | some .scalar | some .control | some .vector | some .memory => true
  | _ => false

/-- A plain row's meaning is that of its instruction; execOp leaves the state to every other. -/
theorem execOp_eq (i : Instr) (s : State) : execOp i s = if isPlainRow i then exec i s else .next s := by
  cases i <;> rfl

theorem exec_mat (m : MOp) (o : FM) (s : State) : exec (Slot.mat m o).toInstr s = execMat m o s := by
  cases m <;> rfl

theorem exec_eng (e : EOp) (o : FE) (s : State) : exec (Slot.eng e o).toInstr s = execEng e o s := by
  cases e <;> rfl

@[simp] theorem execOp_goesOn (i : Instr) (s : State) : GoesOn (execOp i s) := by
  cases i with
  | add | sub | and | or | xor | andn | shl | shr | sar | rol | mul | mulh | mulhn | div | divn | rem | remn | min | max
  | minn | maxn | clz | popc | addImm | subImm | andImm | orImm | xorImm | andnImm | shlImm | shrImm | sarImm | rolImm
  | mulImm | mulhImm | mulhnImm | divImm | divnImm | remImm | remnImm | minImm | maxImm | minnImm | maxnImm | cmpEq | cmpNe
  | cmpLt | cmpGe | cmpLtn | cmpGen | cmpEqImm | cmpNeImm | cmpLtImm | cmpGeImm | cmpLtnImm | cmpGenImm | fadd | fsub | fmul
  | fdiv | fsqrt | fmin | fmax | fcmpEq | fcmpLt | fcmpLe | fcmpUn | cvtif | cvtfi | cvtff | fmaF64 | fmaF32 | pand | por
  | pxor | pandn | pcmpEq | pcmpNe | pcmpLt | pcmpGe | pcmpLtn | pcmpGen | movi | movk | addpc | pbr | chk | mfc | trap
  | tret | vadd | vsub | vadds | vsubs | vmul | vmulh | vmad | vmin | vmax | vabs | vneg | vand | vor | vxor | vandn | vshl
  | vshr | vpopc | vclz | vmov | vaddS | vsubS | vaddsS | vsubsS | vmulS | vmulhS | vmadS | vminS | vmaxS | vandS | vorS
  | vxorS | vandnS | vshlS | vshrS | vfmin | vfmax | vfminS | vfmaxS | vfrcp | vfrsq | vfexp2 | vflog2 | vcmp | vfcmp
  | vcmpS | vfcmpS | vsel | vbcst | vperm | vcomp | vexp | vrsum | vrmax | vrmin | vrfsum | vrfmax | drain | dorm | exit =>
    exact goesOn_next _
  | pbrr => exact execPbrr_goesOn _ _ _
  | call => exact execCall_goesOn _ _ _
  | br | brn => exact branch_goesOn _ _ _ _ _
  | loop => exact execLoop_goesOn _ _ _
  | loopi => exact openLoop_goesOn _ _ _
  | mtc => exact execMtc_goesOn _ _ _ _
  | mtcTrpc => exact execMtcTrpc_goesOn _ _
  | mtcFpf => exact execMtcFpf_goesOn _ _
  | mtcStatus => exact execMtcStatus_goesOn _ _
  | mtcRng => exact execMtcRng_goesOn _ _
  | mtcFerec => exact execMtcFerec_goesOn _ _
  | mtcTrpb => exact execMtcTrpb_goesOn _ _
  | twait => exact execTwait_goesOn _ _ _ _ _
  | barArrive => exact execBarArrive_goesOn _ _ _ _
  | barWait => exact execBarWait_goesOn _ _ _ _
  | cut => exact execCut_goesOn _ _
  | prio => exact execPrio_goesOn _ _
  | vfadd | vfsub | vfmul | vfaddS | vfsubS | vfmulS => exact vfBin_goesOn _ _ _ _ _
  | vfma | vfnma | vfmaS | vfnmaS => exact vfTern_goesOn _ _ _ _
  | vfdiv | vfdivS => exact dividing_goesOn (vfBin_goesOn _ _ _ _ _)
  | vfsqrt => exact dividing_goesOn (vRound_goesOn _ _ _ _ _ _ _ _ _)
  | vcvt => exact vConv_goesOn _ _
  | vqnt => exact execVqnt_goesOn _ _
  | vqntScale => exact execVqntScale_goesOn _ _
  | vdqnt => exact execVdqnt_goesOn _ _
  | vxch => exact execVxch_goesOn _ _
  | vsld => exact execVsld_goesOn _ _
  | gset => exact execGset_goesOn _ _
  | gidx => exact execGidx_goesOn _ _
  | gor2 | gor3 | ginc | gins | gseg => exact predicate_goesOn _ _ _ _ _ _
  | ldI8 | ldN8 | ldI16 | ldN16 | ldI32 | ldN32 | ldI64 => exact ld_goesOn _ _ _ _ _
  | stN8 | stN16 | stN32 | stN64 => exact st_goesOn _ _ _
  | ldsI32 | ldsN32 | ldsI64 => exact lds_goesOn _ _ _ _ _
  | ldaN32 | ldaI64 => exact lda_goesOn _ _ _ _ _
  | stlN32 | stlN64 => exact stl_goesOn _ _ _
  | aadd | aand | aor | axor | amin | amax | aswp | acas => exact atomic_goesOn _ _ _ _
  | vld => exact execVld_goesOn _ _
  | vst | vsct | vsts => exact vecStore_goesOn _ _ _ _ _ _ _ _
  | vlds => exact execVlds_goesOn _ _
  | vgth => exact execVgth_goesOn _ _
  | pld => exact execPld_goesOn _ _
  | pst => exact execPst_goesOn _ _
  | clwb => exact execClwb_goesOn _ _
  | clinv => exact execClinv_goesOn _ _
  | clfl => exact execClfl_goesOn _ _
  | waita => exact execWaita_goesOn _ _
  | sown => exact execSown_goesOn _ _
  | srel => exact execSrel_goesOn _ _
  | spre => exact execSpre_goesOn _ _
  | spreAll => exact execSpreAll_goesOn _ _
  | sref => exact execSref_goesOn _ _
  | sldx => exact execSldx_goesOn _ _
  | sstx => exact execSstx_goesOn _ _
  | sact => exact execSact_goesOn _ _
  | blc => exact execBlc_goesOn _
  | lpop => exact execLpop_goesOn _
  | _ => exact goesOn_next _

@[simp] theorem execMat_goesOn (m : MOp) (o : FM) (s : State) : GoesOn (execMat m o s) := by
  cases m with
  | mcfg => exact execMcfg_goesOn _ _
  | mfmt => exact execMfmt_goesOn _ _
  | mgoFix => exact execMgoFix_goesOn _ _
  | mgoLoop => exact execMgoLoop_goesOn _ _
  | mldw => exact execMldw_goesOn _ _
  | mrdz | mrdb => exact mrd_goesOn _ _ _
  | mcal => exact execMcal_goesOn _ _
  | mzclr => exact execMzclr_goesOn _ _
  | mav => exact execMav_goesOn _ _
  | msig => exact execMsig_goesOn _ _

@[simp] theorem execEng_goesOn (e : EOp) (o : FE) (s : State) : GoesOn (execEng e o s) := by
  cases e with
  | cpy | cpy2 | cpyxScale | cpyxAdd | cpyxCast | cpyxRadd | cpyxRmax | cpyh | fcpy | mxredStart | mxredRelay | mxredFinish
  | rsig | esig => exact engine_goesOn _ _ _
  | cpy3 => exact execCpy3_goesOn _ _
  | pmap => exact execPmap_goesOn _ _
  | pmq => exact poolOp_goesOn fun _ _ _ => goesOn_next _
  | launch => exact execLaunch_goesOn _ _

@[simp] theorem execSlot_goesOn (x : Slot) (s : State) : GoesOn (execSlot x s) := by
  cases x with
  | op i => exact execOp_goesOn i s
  | mat m o => exact execMat_goesOn m o s
  | eng e o => exact execEng_goesOn e o s

/-! ### Bundles and cycles -/

@[simp] theorem execBefore_goesOn (s : State) (y : Slot) : GoesOn (s.execBefore y) := by
  unfold State.execBefore
  split
  · exact execSlot_goesOn y s
  · next a _ =>
    obtain ⟨t, ht⟩ := execSlot_goesOn y (s.unarrive a)
    rw [ht]
    split <;> simp

@[simp] theorem runSlot_goesOn (s : State) (b : Bun) (x : Nat × Nat) : GoesOn (s.runSlot b x) := by
  fun_cases State.runSlot <;> simp

@[simp] theorem runSlots_nil (b : Bun) (s : State) : State.runSlots b [] s = .next s := rfl

theorem runSlots_cons {s t : State} {b : Bun} {x : Nat × Nat} (h : s.runSlot b x = .next t) (xs : List (Nat × Nat)) :
    State.runSlots b (x :: xs) s = State.runSlots b xs t := by
  rw [State.runSlots, h]

@[simp] theorem runSlots_goesOn (b : Bun) (xs : List (Nat × Nat)) (s : State) : GoesOn (State.runSlots b xs s) := by
  induction xs generalizing s with
  | nil => exact goesOn_next s
  | cons x xs ih =>
    obtain ⟨t, ht⟩ := runSlot_goesOn s b x
    rw [runSlots_cons ht]
    exact ih t

/-- A bundle that issues runs its slots on the state that comes up for it, and ends. -/
theorem issue_of_runSlots {s t : State} {b : Bun} (h : State.runSlots b b.slots ((s.noteAddr b.ba).upWith b 0) = .next t) :
    s.issue b = .next t.finishIf := by
  have hup : s.issue b = match State.runSlots b b.slots ((s.noteAddr b.ba).upWith b 0) with
    | .next t => .next t.finishIf
    | o => o := rfl
  rw [hup, h]

@[simp] theorem issue_goesOn (s : State) (b : Bun) : GoesOn (s.issue b) := by
  obtain ⟨t, ht⟩ := runSlots_goesOn b b.slots ((s.noteAddr b.ba).upWith b 0)
  exact ⟨_, issue_of_runSlots ht⟩

@[simp] theorem issueCand_goesOn (s : State) (c : Cand) : GoesOn (s.issueCand c) := by
  fun_cases State.issueCand <;> simp

@[simp] theorem issueCands_goesOn (s : State) (l : List Cand) : GoesOn (s.issueCands l) := by
  cases l with
  | nil => exact goesOn_next s
  | cons p rest =>
    obtain ⟨t, ht⟩ := issueCand_goesOn s p
    unfold State.issueCands
    simp only [ht]
    split
    · next c _ =>
      obtain ⟨u, hu⟩ := issueCand_goesOn t c
      simp only [hu]
      split <;> exact goesOn_next _
    · exact goesOn_next t

@[simp] theorem execEmptyBundle_goesOn (ib mi : Bool) (s : State) : GoesOn (execEmptyBundle ib mi s) := by
  fun_cases execEmptyBundle <;> simp

@[simp] theorem execLoadDataReturn_goesOn (c : CtxId) (seq : Nat) (ans : Answer) (s : State) :
    GoesOn (execLoadDataReturn c seq ans s) := by
  unfold execLoadDataReturn
  split
  · exact goesOn_next s
  · split
    · exact goesOn_next s
    · dsimp only
      split
      · exact goesOn_next s
      · split
        · exact goesOn_next _
        · exact execOp_goesOn _ _

theorem execIssueCycle_goesOn {core : BitVec 11} (h : core.toNat < 1152) (s : State) : GoesOn (execIssueCycle core s) := by
  unfold execIssueCycle
  rw [if_neg (show ¬Config.cores ≤ core.toNat from Nat.not_le.2 h)]
  split
  · exact goesOn_next s
  · dsimp only
    split
    · exact goesOn_next _
    · exact issueCands_goesOn _ _

theorem exec_issueCycle_of_le {core : BitVec 11} (h : 1152 ≤ core.toNat) (s : State) :
    exec (.issueCycle core) s = .fault .noSuchCore :=
  if_pos (show Config.cores ≤ core.toNat from h)

/-! ### Every row -/

theorem exec_goesOn (i : Instr) (hc : ∀ c, i = .issueCycle c → c.toNat < 1152) (s : State) : GoesOn (exec i s) := by
  by_cases h : isPlainRow i
  · have := execOp_goesOn i s
    rwa [execOp_eq, if_pos h] at this
  · cases i with
    | issueCycle c => exact execIssueCycle_goesOn (hc c rfl) s
    | waitaWake => exact execWaitaWake_goesOn _ _
    | acknowledgment => exact execAcknowledgment_goesOn _ _ _
    | hostDoorbell | cacheEviction | patrolScrub | seamChannelFailMark | dispRetry | dispDivert | flitReplay | lanePause
    | laneResume | linkRetrain | retrainAttemptFail | linkUp | linkDown | portEnable | portDisable | eventQueueDrain
    | hcqbWrite | evqbWrite | devidWrite | thermWrite | preqWrite | tlbInvalidatePage | tlbInvalidateRegion | pgrantWrite
    | tctlWrite | tsetWrite | ptpExchange | registerWrite | shockLatch | challenge | getMeasurements | tlbInvalidateAll
    | transportRequest | warmStartRequest | droopOnset | droopEnd | idleEntry | idleExit | getVersion | getCapabilities
    | negotiateAlgorithms | getDigests | getCertificate => exact goesOn_next _
    | loadDataReturn => exact execLoadDataReturn_goesOn _ _ _ _
    | performAtHome => exact execPerformAtHome_goesOn _ _ _
    | emptyBundle => exact execEmptyBundle_goesOn _ _ _
    | vectorResultLand => exact execVectorResultLand_goesOn _ _
    | geometryComplete => exact execGeometryComplete_goesOn _ _
    | waitaTimeout => exact execWaitaTimeout_goesOn _ _
    | sownComplete => exact execSownComplete_goesOn _ _ _
    | srelComplete => exact execSrelComplete_goesOn _ _ _
    | guardRefresh => exact execGuardRefresh_goesOn _ _ _
    | remoteStoreFault => exact execRemoteStoreFault_goesOn _ _ _ _
    | matrixEntryStart => exact execMatrixEntryStart_goesOn _ _
    | tileOperation => exact execTileOperation_goesOn _ _ _
    | nestComplete => exact execNestComplete_goesOn _ _ _
    | mldwComplete => exact execMldwComplete_goesOn _ _ _
    | mcalComplete => exact execMcalComplete_goesOn _ _ _
    | engineQueueRelease => exact execEngineQueueRelease_goesOn _ _
    | engineOpComplete => exact execEngineOpComplete_goesOn _ _ _ _
    | engineOpFailure => exact execEngineOpFailure_goesOn _ _ _ _ _ _
    | pageFaultReplay => exact execPageFaultReplay_goesOn _ _ _ _
    | arrivalDelivery => exact execArrivalDelivery_goesOn _ _ _
    | poolChangeComplete => exact execPoolChangeComplete_goesOn _ _
    | hostSnoop => exact execHostSnoop_goesOn _ _ _
    | trapEntry => exact execTrapEntry_goesOn _ _
    | pendingRecordWrite => exact execPendingRecordWrite_goesOn _ _
    | dispEnd => exact execDispEnd_goesOn _ _
    | preemptionRequest => exact execPreemptionRequest_goesOn _ _ _
    | preemptionLand => exact execPreemptionLand_goesOn _ _
    | saveComplete => exact execSaveComplete_goesOn _ _
    | saveAbandoned => exact execSaveAbandoned_goesOn _ _ _
    | placement => exact execPlacement_goesOn _ _
    | migrationDecision => exact execMigrationDecision_goesOn _ _
    | classPreemptRequest => exact execClassPreemptRequest_goesOn _ _
    | temperatureRefresh => exact execTemperatureRefresh_goesOn _ _ _
    | contextRetire => exact execContextRetire_goesOn _ _
    | launchDecision => exact execLaunchDecision_goesOn _ _
    | regionStart => exact execRegionStart_goesOn _ _
    | regionConditionEval => exact execRegionConditionEval_goesOn _ _
    | regionComplete => exact execRegionComplete_goesOn _ _
    | regionBlockUpdate => exact execRegionBlockUpdate_goesOn _ _ _
    | remoteStorePacket => exact execRemoteStorePacket_goesOn _ _ _ _ _ _
    | remoteAtomicPacket => exact execRemoteAtomicPacket_goesOn _ _ _ _ _ _ _ _
    | remoteSignalPacket => exact execRemoteSignalPacket_goesOn _ _ _ _ _
    | copyDataPacket => exact execCopyDataPacket_goesOn _ _ _ _ _ _ _
    | mxReducePacket => exact execMxReducePacket_goesOn _ _ _ _ _
    | packetForward => exact execPacketForward_goesOn _ _ _
    | routeFailure => exact execRouteFailure_goesOn _ _
    | atsInvalidation => exact execAtsInvalidation_goesOn _ _ _ _
    | warmResume => exact execWarmResume_goesOn _ _
    | coldStart => exact execColdStart_goesOn _ _
    | warmStart => exact execWarmStart_goesOn _ _
    | sourceReadsFinished => exact execSourceReadsFinished_goesOn _ _ _ _
    | hostLinkChange => exact execHostLinkChange_goesOn _ _ _
    | hostCmdLaunch => exact execHostCmdLaunch_goesOn _
    | hostCmdStop => exact execHostCmdStop_goesOn _
    | hostCmdNop => exact execHostCmdNop_goesOn _
    | invalidationComplete => exact execInvalidationComplete_goesOn _
    | supplyLoss => exact execSupplyLoss_goesOn _
    | poolImageRetention => exact execPoolImageRetention_goesOn _
    | mcfg o => exact execMat_goesOn .mcfg o s
    | mfmt o => exact execMat_goesOn .mfmt o s
    | mgoFix o => exact execMat_goesOn .mgoFix o s
    | mgoLoop o => exact execMat_goesOn .mgoLoop o s
    | mldw o => exact execMat_goesOn .mldw o s
    | mrdz o => exact execMat_goesOn .mrdz o s
    | mrdb o => exact execMat_goesOn .mrdb o s
    | mcal o => exact execMat_goesOn .mcal o s
    | mzclr o => exact execMat_goesOn .mzclr o s
    | mav o => exact execMat_goesOn .mav o s
    | msig o => exact execMat_goesOn .msig o s
    | cpy o => exact execEng_goesOn .cpy o s
    | cpy2 o => exact execEng_goesOn .cpy2 o s
    | cpy3 o => exact execEng_goesOn .cpy3 o s
    | cpyxScale o => exact execEng_goesOn .cpyxScale o s
    | cpyxAdd o => exact execEng_goesOn .cpyxAdd o s
    | cpyxCast o => exact execEng_goesOn .cpyxCast o s
    | cpyxRadd o => exact execEng_goesOn .cpyxRadd o s
    | cpyxRmax o => exact execEng_goesOn .cpyxRmax o s
    | cpyh o => exact execEng_goesOn .cpyh o s
    | fcpy o => exact execEng_goesOn .fcpy o s
    | mxredStart o => exact execEng_goesOn .mxredStart o s
    | mxredRelay o => exact execEng_goesOn .mxredRelay o s
    | mxredFinish o => exact execEng_goesOn .mxredFinish o s
    | rsig o => exact execEng_goesOn .rsig o s
    | esig o => exact execEng_goesOn .esig o s
    | pmap o => exact execEng_goesOn .pmap o s
    | pmq o => exact execEng_goesOn .pmq o s
    | launch o => exact execEng_goesOn .launch o s
    | _ => exact absurd rfl h

/-- Settles O55: every arm ends with a next state on each of its branches, and a cycle runs nothing but such arms. -/
theorem everyRowGoesOn : Obligations.EveryRowGoesOn :=
  ⟨fun i s hc => exec_goesOn i hc s, fun _ s h => exec_issueCycle_of_le h s⟩

end Sys2Proof.Proofs.GoingOn
end



section
open Sys2Proof Sys2Proof.Machine
namespace Sys2Proof.Proofs.Cycles
open GoingOn

/-- What a reading of a slot of the scalar, control, vector or memory class holds: a plain row, or nothing. -/
def ReadsPlain (r : Reading) : Prop := ∀ x ∈ r, isPlainRow x.1 = true

@[simp] theorem readsPlain_none : ReadsPlain none := by simp [ReadsPlain]

theorem readsPlain_some {x : Instr × List (Nat × Nat)} (h : isPlainRow x.1 = true) : ReadsPlain (some x) := by
  simp [ReadsPlain, h]

theorem readScalar_plain (w : Nat) : ReadsPlain (readScalar w) := by
  unfold readScalar
  split
  case h_86 => exact readsPlain_none
  all_goals exact readsPlain_some rfl

theorem readMemory_plain (w : Nat) : ReadsPlain (readMemory w) := by
  unfold readMemory
  split
  case h_43 => exact readsPlain_some (by split <;> rfl)
  case h_47 => exact readsPlain_none
  all_goals exact readsPlain_some rfl

theorem readVector_plain (s3 : Bool) (w : Nat) : ReadsPlain (readVector s3 w) := by
  unfold readVector
  dsimp only
  split
  case h_75 => exact readsPlain_some (by split <;> rfl)
  case h_83 => exact readsPlain_none
  case h_76 | h_77 | h_78 | h_79 | h_80 | h_81 | h_82 =>
    split
    · exact readsPlain_some rfl
    · exact readsPlain_none
  all_goals exact readsPlain_some rfl

theorem readControl_plain (w : Nat) : ReadsPlain (readControl w) := by
  unfold readControl
  dsimp only
  split
  case h_17 =>
    split
    · exact readsPlain_some rfl
    split
    · exact readsPlain_some rfl
    · exact readsPlain_none
  case h_18 =>
    refine readsPlain_some ?_
    split
    · split <;> rfl
    · rfl
  case h_19 => exact readsPlain_some (by split <;> rfl)
  case h_20 => exact readsPlain_none
  all_goals exact readsPlain_some rfl

theorem readSlot_of_decodeSlot {cls : SlotClass} {s3 : Bool} {w : Nat} {y : Slot} (h : decodeSlot cls s3 w = .ok y) :
    ∃ rsv, readSlot cls s3 w = some (y, rsv) := by
  unfold decodeSlot at h
  split at h
  · cases h
  next i rsv hr =>
  split at h
  · split at h
    · cases h; exact ⟨rsv, hr⟩
    · cases h
  · cases h

/-- An instruction that a slot value holds as itself is one of a plain row: the matrix and the engine class hold rows. -/
theorem isPlainRow_of_decodeSlot {cls : SlotClass} {s3 : Bool} {w : Nat} {i : Instr}
    (h : decodeSlot cls s3 w = .ok (.op i)) : isPlainRow i = true := by
  obtain ⟨rsv, hr⟩ := readSlot_of_decodeSlot h
  have key {r : Reading} (hp : ReadsPlain r) (hx : (r.map fun x => (Slot.op x.1, x.2)) = some (.op i, rsv)) :
      isPlainRow i = true := by
    obtain ⟨x, hmem, he⟩ := Option.map_eq_some_iff.1 hx
    cases he
    exact hp x hmem
  cases cls with
  | scalar => exact key (readScalar_plain w) hr
  | control => exact key (readControl_plain w) hr
  | vector => exact key (readVector_plain s3 w) hr
  | memory => exact key (readMemory_plain w) hr
  | matrix => simp [readSlot] at hr
  | engine => simp [readSlot] at hr

/-- The machine's meaning of what a slot value decodes to is that of its instruction. -/
theorem execSlot_of_decodeSlot {cls : SlotClass} {s3 : Bool} {w : Nat} {y : Slot} (h : decodeSlot cls s3 w = .ok y) (s : State) :
    execSlot y s = exec y.toInstr s := by
  cases y with
  | op i => exact (execOp_eq i s).trans (if_pos (isPlainRow_of_decodeSlot h))
  | mat m o => exact (exec_mat m o s).symm
  | eng e o => exact (exec_eng e o s).symm

theorem eq_six_of_slotClass {n : Nat} (h : slotClass n = .engine) : n = 6 := by
  unfold slotClass at h
  split at h <;> simp_all

/-- Only slot 6 holds a row of the engine class. -/
theorem eq_six_of_decodeSlot_eng {n : Nat} {s3 : Bool} {w : Nat} {e : EOp} {o : FE}
    (h : decodeSlot (slotClass n) s3 w = .ok (.eng e o)) : n = 6 := by
  obtain ⟨rsv, hr⟩ := readSlot_of_decodeSlot h
  refine eq_six_of_slotClass ?_
  cases hc : slotClass n <;> simp_all [readSlot]

/-! ### A slot of a bundle -/

theorem decode_of_decodeSlot {b : Bun} {n w : Nat} {y : Slot} (h : decodeSlot (slotClass n) (n == 3) w = .ok y)
    (hret : ∀ rt p tb ra, y ≠ .op (.tret rt p tb ra)) : b.decode (n, w) = some y := by
  have hbad : tretBad b y = false := by
    unfold tretBad
    split
    · exact absurd rfl (hret _ _ _ _)
    · rfl
  simp [Bun.decode, decodeAt, h, hbad]

theorem storedAhead_eq_none {y : Slot} (h : ∀ o, y ≠ .eng .cpy3 o) (s : State) (b : Bun) : s.storedAhead b y = none := by
  unfold State.storedAhead
  split
  · exact absurd rfl (h _)
  · rfl

theorem runSlot_of_halted {s : State} (h : s.ctx.halted = true) (b : Bun) (x : Nat × Nat) : s.runSlot b x = .next s := by
  simp [State.runSlot, h]

/-- The state in which slot n of a bundle comes to run, and with what memory will be after the store that a CPY3 there sees. -/
def inSlot (s : State) (n : Nat) : State := { s with iss := { s.iss with slot := n } }
def runningIn (s : State) (n : Nat) (later : Option (List Host.Cell)) : State :=
  { s with iss := { s.iss with slot := n, later := later } }

section
variable {s : State} {b : Bun} {n w : Nat} {y : Slot}

/-- A slot that holds an instruction, of a context that goes on: SRES suppresses it, or its instruction runs. -/
theorem runSlot_of_decodeSlot (hgo : s.ctx.halted = false) (h : decodeSlot (slotClass n) (n == 3) w = .ok y)
    (hret : ∀ rt p tb ra, y ≠ .op (.tret rt p tb ra)) (hmat : n = 5 → s.pre.c.mhold = true) :
    s.runSlot b (n, w) =
      if n < s.pre.firstSlot then .next (inSlot s n) else (runningIn s n ((inSlot s n).storedAhead b y)).execBefore y := by
  have hmat' : ¬((n = 5 && !s.pre.c.mhold && decide (s.pre.firstSlot ≤ 5)) = true) := by
    by_cases h5 : n = 5
    · simp [hmat h5]
    · simp [h5]
  unfold State.runSlot
  rw [if_neg (by simp [hgo])]
  dsimp only [State.modIss]
  rw [if_neg hmat', decode_of_decodeSlot h hret]
  rfl

theorem execBefore_of_arrived_none (ha : s.iss.arrived = none) (y : Slot) : s.execBefore y = execSlot y s := by
  simp [State.execBefore, ha]

theorem runSlot_runs (hgo : s.ctx.halted = false) (h : decodeSlot (slotClass n) (n == 3) w = .ok y)
    (hret : ∀ rt p tb ra, y ≠ .op (.tret rt p tb ra)) (hmat : n = 5 → s.pre.c.mhold = true)
    (hfirst : s.pre.firstSlot ≤ n) (ha : s.iss.arrived = none)
    (hlater : (inSlot s n).storedAhead b y = none) :
    s.runSlot b (n, w) = exec y.toInstr (runningIn s n none) := by
  rw [runSlot_of_decodeSlot hgo h hret hmat, if_neg (Nat.not_lt.2 hfirst), hlater,
    execBefore_of_arrived_none (s := runningIn s n none) ha,
    execSlot_of_decodeSlot h]

end

/-! ### Two scalar slots -/

theorem vget_vset_same {α : Type} [Inhabited α] {n i : Nat} (v : Vector α n) (h : i < n) (a : α) : vget (vset v i a) i = a := by
  simp [vget, vset, h]

theorem sNow_wrS {d : R6} (hd : d ≠ 0) (s : State) (v : W64) (p : Bool) (lat : Nat) : (s.wrS d v p lat).sNow d = v := by
  simp only [State.sNow, State.wrS, if_neg hd, State.pend, State.modCtx, State.modRegs, Regs.putS]
  exact vget_vset_same _ d.isLt v

@[simp] theorem wrS_pre (s : State) (d : R6) (v : W64) (p : Bool) (lat : Nat) : (s.wrS d v p lat).pre = s.pre := by
  unfold State.wrS; split <;> rfl

@[simp] theorem wrS_iss (s : State) (d : R6) (v : W64) (p : Bool) (lat : Nat) : (s.wrS d v p lat).iss = s.iss := by
  unfold State.wrS; split <;> rfl

@[simp] theorem wrS_halted (s : State) (d : R6) (v : W64) (p : Bool) (lat : Nat) :
    (s.wrS d v p lat).ctx.halted = s.ctx.halted := by
  unfold State.wrS; split <;> rfl

theorem rdS_congr {s t : State} (h : t.pre = s.pre) (n : R6) : t.rdS n = s.rdS n := by
  simp [State.rdS, h]

/-- The states that an ADD in slot 0 and a SUB in slot 1 leave. -/
def addedIn (s : State) (d a b : R6) : State :=
  let u := runningIn s 0 none
  u.wrS d (u.rdS a + u.rdS b) ([a, b].any u.psS) 1
def subbedIn (s : State) (d a b : R6) : State :=
  let u := runningIn s 1 none
  u.wrS d (u.rdS a - u.rdS b) ([a, b].any u.psS) 1

theorem runSlot_add {s : State} {w : Nat} {d p q : R6} (b : Bun) (hgo : s.ctx.halted = false) (hfirst : s.pre.firstSlot = 0)
    (ha : s.iss.arrived = none) (h : decodeSlot .scalar false w = .ok (.op (.add d p q))) :
    s.runSlot b (0, w) = .next (addedIn s d p q) :=
  (runSlot_runs (n := 0) hgo h (by simp) (by simp) (by omega) ha (storedAhead_eq_none (by simp) _ b)).trans rfl

theorem runSlot_sub {s : State} {w : Nat} {d p q : R6} (b : Bun) (hgo : s.ctx.halted = false) (hfirst : s.pre.firstSlot = 0)
    (ha : s.iss.arrived = none) (h : decodeSlot .scalar false w = .ok (.op (.sub d p q))) :
    s.runSlot b (1, w) = .next (subbedIn s d p q) :=
  (runSlot_runs (n := 1) hgo h (by simp) (by simp) (by omega) ha (storedAhead_eq_none (by simp) _ b)).trans rfl

theorem slotsRule : SlotsRule := by
  refine ⟨fun s b => runSlots_nil b s, fun s t b x xs h => runSlots_cons h xs, fun s b x h => runSlot_of_halted h b x, ?_, ?_⟩
  · intro s b n w y hgo h hret hmat
    refine ⟨fun hlow => ?_, fun hfirst ha hcpy => ?_⟩
    · exact (runSlot_of_decodeSlot hgo h hret hmat).trans (if_pos hlow)
    · exact runSlot_runs hgo h hret hmat hfirst ha (storedAhead_eq_none hcpy _ b)
  · intro s b w1 w2 d a1 b1 a2 b2 hgo hfirst ha hd h1 h2
    have hpre : (addedIn s d a1 b1).pre = s.pre := wrS_pre ..
    have run1 := runSlot_add b hgo hfirst ha h1
    have run2 := runSlot_sub (s := addedIn s d a1 b1) b ((wrS_halted ..).trans hgo) (by rw [hpre, hfirst])
      ((congrArg Iss.arrived (wrS_iss ..)).trans ha) h2
    have hrd (n : R6) : (runningIn (addedIn s d a1 b1) 1 none).rdS n = s.rdS n := rdS_congr hpre n
    have hz : (subbedIn (addedIn s d a1 b1) d a2 b2).sNow d = s.rdS a2 - s.rdS b2 := by
      rw [← hrd a2, ← hrd b2]
      exact sNow_wrS hd _ _ _ _
    exact ⟨_, by rw [runSlots_cons run1, runSlots_cons run2, runSlots_nil], hz, fun hda => hda ▸ hz⟩
/-! ### The next bundle -/

theorem nextBundle_of_header {u : State} {a : W64} {h : Nat} (hf : u.findBundle u.ctx.q.pc = .header a h) :
    u.nextBundle = u.bundleAt a h := by
  simp [State.nextBundle, hf]

theorem bundleAt_of_fetchPlace {u : State} {a : W64} {h k : Nat} {cached : Bool} (hk : u.fetchPlace a = .ok (k, cached))
    {vs : List (Nat × Nat)}
    (hv : slotValues (presentSlots (readHeader h).mask)
      ((u.fetchBytes k (bundleLength (readHeader h).mask) cached).drop 2) = some vs)
    (hc : u.decodeCheck { ba := a, hdr := readHeader h, len := bundleLength (readHeader h).mask, slots := vs } = none) :
    u.bundleAt a h = .run { ba := a, hdr := readHeader h, len := bundleLength (readHeader h).mask, slots := vs } := by
  simp [State.bundleAt, hk, hv, hc]

/-! ### Focus -/

@[simp] theorem reset_num (n : BitVec 11) : (Core.reset n).num = n := rfl

theorem coreAt_num (s : State) {n : Nat} (h : n < 2048) : (s.coreAt n).num.toNat = n := by
  unfold State.coreAt
  split
  · assumption
  · cases hf : s.cores.find? fun c => c.num.toNat = n with
    | none => simp [h]
    | some c => simpa using List.find?_some hf

@[simp] theorem focusCore_ctx (s : State) (n : Nat) : (s.focusCore n).ctx = s.ctx := by
  unfold State.focusCore; split <;> rfl

@[simp] theorem focusCore_boot (s : State) (n : Nat) : (s.focusCore n).boot = s.boot := by
  unfold State.focusCore; split <;> rfl

@[simp] theorem focusCore_power (s : State) (n : Nat) : (s.focusCore n).power = s.power := by
  unfold State.focusCore; split <;> rfl

theorem focusCore_num (s : State) {n : Nat} (h : n < 2048) : (s.focusCore n).core.num.toNat = n := by
  unfold State.focusCore
  split
  · assumption
  · exact coreAt_num s h

theorem focusCore_of_num {s : State} {n : Nat} (h : s.core.num.toNat = n) : s.focusCore n = s := if_pos h

/-- Where a context has come into focus it is the context acted on, its core is the core acted on, and the machine runs. -/
structure Focused (u : State) (id : CtxId) : Prop where
  id : u.ctx.id = id
  core : u.core.num.toNat = u.ctx.core.toNat
  boot : u.boot.fwerr = false
  power : u.power.retained = false

theorem focused_of_focus {s u : State} {id : CtxId} (h : s.focus id = some u) : Focused u id := by
  unfold State.focus at h
  split at h
  · cases h
  next hrun =>
  obtain ⟨hboot, hpower⟩ : s.boot.fwerr = false ∧ s.power.retained = false := by simpa using hrun
  split at h
  · next hid =>
    cases h
    exact ⟨by simpa using hid.2, by rw [focusCore_num _ s.ctx.core.isLt, focusCore_ctx], by simpa, by simpa⟩
  · split at h
    · next c hc =>
      cases h
      exact ⟨by simpa using List.find?_some hc, by rw [focusCore_num _ c.core.isLt, focusCore_ctx], by simpa, by simpa⟩
    · cases h

theorem focus_of_focused {u : State} {id : CtxId} (h : Focused u id) (hlife : u.ctx.sch.life ≠ .none) : u.focus id = some u := by
  unfold State.focus
  rw [if_neg (by simp [h.boot, h.power]), if_pos ⟨hlife, h.id⟩, focusCore_of_num h.core]

/-! ### What a probe, a note and a candidate leave -/

theorem not_halted_of_ready {u v : State} {b : Bun} (h : u.ready = (.run b, v)) : u.ctx.halted = false := by
  by_contra hh
  have hh : u.ctx.halted = true := by simpa using hh
  rw [State.ready, if_pos hh] at h
  cases h

theorem life_of_not_halted {c : Ctx} (h : c.halted = false) : c.sch.life = .resident := by
  simp only [Ctx.halted, Bool.or_eq_false_iff, decide_eq_false_iff_not, not_not] at h
  exact h.1.1

theorem not_waiting_of_resident {c : Ctx} (h : c.sch.life = .resident) : c.waiting = false := by
  simp [Ctx.waiting, h]

theorem noteQueues_ctx {u : State} (h : u.ctx.sch.life = .resident) : u.noteQueues.ctx = u.ctx := by
  simp [State.noteQueues, State.mapCtx, not_waiting_of_resident h]

theorem focused_noteQueues {u : State} {id : CtxId} (h : Focused u id) (hl : u.ctx.sch.life = .resident) :
    Focused u.noteQueues id := by
  have hc := noteQueues_ctx hl
  exact ⟨by rw [hc, h.id], by rw [hc]; exact h.core, h.boot, h.power⟩

theorem ctx?_of_focused {u : State} {id : CtxId} (h : Focused u id) (hl : u.ctx.sch.life = .resident) :
    u.ctx? id = some u.ctx := by
  simp [State.ctx?, State.allCtxs, hl, h.id]

/-- A core with one resident context whose next bundle can issue: the survey names it alone. -/
theorem survey_singleton {s u : State} {id : CtxId} {b : Bun} (hf : s.focus id = some u) (hr : u.ready = (.run b, u)) :
    State.survey [id] s =
      ([{ id := id, cls := u.classOf u.ctx, lic := u.ctx.sch.lic, bank := u.ctx.bank.toNat, next := .run b,
          first := u.ctx.firstSlot }], u) := by
  have hfoc := focused_of_focus hf
  have hl := life_of_not_halted (not_halted_of_ready hr)
  simp [State.survey, State.probe, hf, hr, State.cand, ctx?_of_focused hfoc hl, hfoc.id, insertCand]

theorem issueCands_singleton {s t : State} {c : Cand} (h : s.issueCand c = .next t) : s.issueCands [c] = .next t := by
  simp [State.issueCands, h]

theorem issueCand_of_focus {s u : State} {c : Cand} {b : Bun} (hf : s.focus c.id = some u) (hn : c.next = .run b) :
    s.issueCand c = u.issue b := by
  simp [State.issueCand, hf, hn]

/-! ### A core's cycle -/

section
variable {s : State} {core : BitVec 11} (hcore : core.toNat < 1152) (hboot : s.boot.fwerr = false)
  (hpower : s.power.retained = false)
include hcore hboot hpower

theorem gives_issueCycle {t : State} {r : List Cand × State}
    (hr : State.survey (s.focusCore core.toNat).landDue.lodgers (s.focusCore core.toNat).landDue = r)
    (ht : r.2.noteQueues.issueCands r.1 = .next t) : Gives (.issueCycle core) s (t.focusCore core.toNat).endCycle := by
  have hexec : exec (.issueCycle core) s = execIssueCycle core s := rfl
  rw [Gives, hexec, execIssueCycle, if_neg (show ¬Config.cores ≤ core.toNat from Nat.not_le.2 hcore),
    if_neg (by simp [hboot, hpower])]
  simp [hr, ht]

theorem gives_issueCycle_of_one {u z : State} {id : CtxId} {b : Bun}
    (hlod : (s.focusCore core.toNat).landDue.lodgers = [id]) (hf : (s.focusCore core.toNat).landDue.focus id = some u)
    (hr : u.ready = (.run b, u)) (hz : State.runSlots b b.slots ((u.noteQueues.noteAddr b.ba).upWith b 0) = .next z) :
    Gives (.issueCycle core) s (z.finishIf.focusCore core.toNat).endCycle := by
  have hfoc := focused_of_focus hf
  have hl := life_of_not_halted (not_halted_of_ready hr)
  have hnext : u.noteQueues.focus id = some u.noteQueues :=
    focus_of_focused (focused_noteQueues hfoc hl) (by rw [noteQueues_ctx hl, hl]; decide)
  refine gives_issueCycle hcore hboot hpower (by rw [hlod, survey_singleton hf hr]) ?_
  exact issueCands_singleton ((issueCand_of_focus hnext rfl).trans (issue_of_runSlots hz))

end

theorem gives_issueCycle_of_not_running {s : State} {core : BitVec 11} (hcore : core.toNat < 1152)
    (h : s.boot.fwerr = true ∨ s.power.retained = true) : Gives (.issueCycle core) s s := by
  have hexec : exec (.issueCycle core) s = execIssueCycle core s := rfl
  rw [Gives, hexec, execIssueCycle, if_neg (show ¬Config.cores ≤ core.toNat from Nat.not_le.2 hcore), if_pos (by simpa using h)]

/-! ### A step -/

@[simp] theorem noteTrans_ctx (s : State) (core : Nat) (rid : BitVec 32) (va : Nat) : (s.noteTrans core rid va).ctx = s.ctx := by
  fun_cases State.noteTrans <;> rfl

@[simp] theorem noteHost_ctx (s : State) (pasid : BitVec 20) (page : Nat) : (s.noteHost pasid page).ctx = s.ctx := by
  fun_cases State.noteHost <;> rfl

@[simp] theorem noteAddr_ctx (s : State) (a : W64) : (s.noteAddr a).ctx = s.ctx := by
  unfold State.noteAddr; split <;> simp

/-- A bundle of one slot runs its instruction on the state that comes up for it. -/
theorem runSlots_one {u z : State} {b : Bun} {n w : Nat} {y : Slot} (hslots : b.slots = [(n, w)])
    (h : decodeSlot (slotClass n) (n == 3) w = .ok y) (hret : ∀ rt p tb ra, y ≠ .op (.tret rt p tb ra))
    (hgo : u.ctx.halted = false) (hre : u.ctx.q.reent = none) (hmat : n = 5 → u.ctx.c.mhold = true)
    (hz : exec y.toInstr (u.upWith b n) = .next z) : State.runSlots b b.slots (u.upWith b 0) = .next z := by
  have hlater : (inSlot (u.upWith b 0) n).storedAhead b y = none := by
    by_cases hcpy : ∃ o, y = .eng .cpy3 o
    · obtain ⟨o, rfl⟩ := hcpy
      have h6 := eq_six_of_decodeSlot_eng h
      simp [State.storedAhead, hslots, h6]
    · exact storedAhead_eq_none (fun o ho => hcpy ⟨o, ho⟩) _ b
  have hfirst : u.ctx.firstSlot = 0 := by simp [Ctx.firstSlot, hre]
  have hrun : (u.upWith b 0).runSlot b (n, w) = exec y.toInstr (u.upWith b n) :=
    runSlot_runs (s := u.upWith b 0) hgo h hret hmat (hfirst.trans_le n.zero_le) rfl hlater
  rw [hslots, runSlots_cons (hrun.trans hz), runSlots_nil]

theorem stepsRule : StepsRule := by
  refine ⟨?_, ?_, fun _ _ _ _ s h => execSlot_of_decodeSlot h s, ?_, ?_, ?_⟩
  · intro s i rest h
    simp [step, h]
  · intro s h hfirst
    simp only [step, h, State.drive, hfirst]
    rfl
  · intro u a h k cached hf hk hd len vs hv hc
    rw [nextBundle_of_header hf]
    exact bundleAt_of_fetchPlace hk hv hc
  · intro s core hcore h
    exact gives_issueCycle_of_not_running hcore h
  · intro s u core id b hcore hboot hpower s1 hlod hf hr up
    have cycle {z : State} (hz : State.runSlots b b.slots (up 0) = .next z) :
        Gives (.issueCycle core) s (z.finishIf.focusCore core.toNat).endCycle :=
      gives_issueCycle_of_one hcore hboot hpower hlod hf hr hz
    have hgo := not_halted_of_ready hr
    have hctx : (u.noteQueues.noteAddr b.ba).ctx = u.ctx := (noteAddr_ctx ..).trans (noteQueues_ctx (life_of_not_halted hgo))
    refine ⟨?_, ?_⟩
    · obtain ⟨z, hz⟩ := runSlots_goesOn b b.slots (up 0)
      exact ⟨z, hz, cycle hz⟩
    · intro n w y hslots h hret hre hmat
      obtain ⟨z, hz⟩ : GoesOn (exec y.toInstr (up n)) := execSlot_of_decodeSlot h (up n) ▸ execSlot_goesOn y _
      exact ⟨z, hz, cycle (runSlots_one hslots h hret (hctx ▸ hgo) (hctx ▸ hre) (hctx ▸ hmat) hz)⟩

/-! ### What every cycle does -/

/-- The order of R312: a higher class, then a smaller LIC, then a lower bank. -/
def Precedes (a b : Cand) : Prop := b.cls < a.cls ∨ (a.cls = b.cls ∧ (a.lic < b.lic ∨ (a.lic = b.lic ∧ a.bank ≤ b.bank)))

theorem precedes_of_before {a b : Cand} (h : a.before b = true) : Precedes a b := by
  simp only [Cand.before, Bool.or_eq_true, Bool.and_eq_true, decide_eq_true_eq] at h
  unfold Precedes; omega

theorem precedes_of_not_before {a b : Cand} (h : ¬a.before b = true) : Precedes b a := by
  simp only [Cand.before, Bool.or_eq_true, Bool.and_eq_true, decide_eq_true_eq] at h
  unfold Precedes; omega

theorem Precedes.trans {a b c : Cand} (h : Precedes a b) (k : Precedes b c) : Precedes a c := by
  unfold Precedes at *; omega

@[simp] theorem mem_insertCand {a x : Cand} {l : List Cand} : x ∈ insertCand a l ↔ x = a ∨ x ∈ l := by
  induction l with
  | nil => simp [insertCand]
  | cons b bs ih =>
    unfold insertCand
    split
    · simp
    · simp [ih]; tauto

theorem pairwise_insertCand {a : Cand} {l : List Cand} (h : l.Pairwise Precedes) : (insertCand a l).Pairwise Precedes := by
  induction l with
  | nil => simp [insertCand]
  | cons b bs ih =>
    obtain ⟨hb, hbs⟩ := List.pairwise_cons.1 h
    unfold insertCand
    split
    · next hab =>
      have hab := precedes_of_before hab
      refine List.pairwise_cons.2 ⟨fun x hx => ?_, h⟩
      rcases List.mem_cons.1 hx with rfl | hx
      · exact hab
      · exact hab.trans (hb x hx)
    · next hab =>
      refine List.pairwise_cons.2 ⟨fun x hx => ?_, ih hbs⟩
      rcases mem_insertCand.1 hx with rfl | hx
      · exact precedes_of_not_before hab
      · exact hb x hx

theorem mem_foldr_insertCand {x : Cand} {l : List Cand} : x ∈ l.foldr insertCand [] ↔ x ∈ l := by
  induction l with
  | nil => simp
  | cons a l ih => simp [ih]

theorem pairwise_foldr_insertCand (l : List Cand) : (l.foldr insertCand []).Pairwise Precedes := by
  induction l with
  | nil => exact .nil
  | cons a l ih => exact pairwise_insertCand ih

theorem mem_of_mem_probe {ids : List CtxId} {s : State} {x : CtxId × NextBun} (h : x ∈ (State.probe ids s).1) : x.1 ∈ ids := by
  induction ids generalizing s with
  | nil => simp [State.probe] at h
  | cons id rest ih =>
    unfold State.probe at h
    split at h
    · exact List.mem_cons_of_mem _ (ih h)
    · rcases List.mem_cons.1 h with rfl | h
      · exact List.mem_cons_self
      · exact List.mem_cons_of_mem _ (ih h)

/-- A candidate is a context of the survey as the tries leave it, which can issue. -/
theorem cand_eq_some {s : State} {x : CtxId × NextBun} {c : Cand} (h : s.cand x = some c) :
    c.id = x.1 ∧ c.next ≠ .none ∧ ∃ d, s.ctx? c.id = some d ∧ c.cls = s.classOf d ∧ c.lic = d.sch.lic ∧ c.bank = d.bank.toNat ∧
      c.first = d.firstSlot := by
  unfold State.cand at h
  split at h
  · cases h
  · cases h
  · next d hd hne =>
    cases h
    have hid : d.id = x.1 := by
      have := List.find?_some hd
      simp only [Bool.and_eq_true, decide_eq_true_eq] at this
      exact this.2
    exact ⟨hid, hne, d, by rw [hid]; exact hd, rfl, rfl, rfl, rfl⟩

theorem survey_spec {ids : List CtxId} {s : State} {c : Cand} (h : c ∈ (State.survey ids s).1) :
    c.id ∈ ids ∧ c.next ≠ .none ∧ ∃ x, (State.survey ids s).2.ctx? c.id = some x ∧ c.cls = (State.survey ids s).2.classOf x ∧
      c.lic = x.sch.lic ∧ c.bank = x.bank.toNat ∧ c.first = x.firstSlot := by
  obtain ⟨x, hx, hc⟩ := List.mem_filterMap.1 (mem_foldr_insertCand.1 h)
  obtain ⟨hid, hne, hd⟩ := cand_eq_some hc
  exact ⟨hid ▸ mem_of_mem_probe hx, hne, hd⟩

section
variable {s y : State} {p c : Cand} {pre post : List Cand}

theorem issueCands_alone {rest : List Cand} (hy : s.issueCand p = .next y) (h : ∀ c ∈ rest, mergeable p c = false) :
    s.issueCands (p :: rest) = .next y := by
  have hf : rest.find? (mergeable p) = none := List.find?_eq_none.2 (by simpa using h)
  simp [State.issueCands, hy, hf]

theorem find?_partner (hpre : ∀ d ∈ pre, mergeable p d = false) (hc : mergeable p c = true) :
    (pre ++ c :: post).find? (mergeable p) = some c :=
  List.find?_eq_some_iff_append.2 ⟨hc, pre, post, rfl, by simpa using hpre⟩

theorem issueCands_held (hy : s.issueCand p = .next y) (hpre : ∀ d ∈ pre, mergeable p d = false) (hc : mergeable p c = true)
    (hr : y.stillReady c = false) : s.issueCands (p :: (pre ++ c :: post)) = .next y := by
  simp [State.issueCands, hy, find?_partner hpre hc, hr]

theorem issueCands_merged {x : State} (hy : s.issueCand p = .next y) (hpre : ∀ d ∈ pre, mergeable p d = false)
    (hc : mergeable p c = true) (hr : y.stillReady c = true) (hx : y.issueCand c = .next x) :
    s.issueCands (p :: (pre ++ c :: post)) = .next ((x.agePartner p.id).agePartner c.id) := by
  simp [State.issueCands, hy, find?_partner hpre hc, hr, hx]

end

/-- What the chosen contexts leave, as R54 and R312 give it: nothing, the primary's bundle alone, or the partner's after it. -/
theorem issueCands_spec {q z : State} {l : List Cand} (hz : q.issueCands l = .next z) :
    (l = [] → z = q) ∧
      ∀ p rest, l = p :: rest → ∃ y, q.issueCand p = .next y ∧
        ((∀ c ∈ rest, mergeable p c = false) → z = y) ∧
        ∀ pre c post, rest = pre ++ c :: post → (∀ d ∈ pre, mergeable p d = false) → mergeable p c = true →
          (y.stillReady c = false → z = y) ∧
          (y.stillReady c = true → ∃ x, y.issueCand c = .next x ∧ z = (x.agePartner p.id).agePartner c.id) := by
  have eq_of {t : State} (ht : q.issueCands l = .next t) : z = t := by
    rw [hz] at ht
    exact Host.Outcome.next.inj ht
  refine ⟨?_, ?_⟩
  · rintro rfl
    exact eq_of rfl
  · rintro p rest rfl
    obtain ⟨y, hy⟩ := issueCand_goesOn q p
    refine ⟨y, hy, fun h => eq_of (issueCands_alone hy h), ?_⟩
    rintro pre c post rfl hpre hc
    refine ⟨fun hr => eq_of (issueCands_held hy hpre hc hr), fun hr => ?_⟩
    obtain ⟨x, hx⟩ := issueCand_goesOn y c
    exact ⟨x, hx, eq_of (issueCands_merged hy hpre hc hr hx)⟩

/-- Counting the banks of a cycle changes the regions only. -/
theorem countBanks_eq (s : State) : ∃ rs, s.countBanks = { s with regions := rs } := by
  have fold (l : List (BitVec 32 × BitVec 2)) :
      ∀ s : State, ∃ rs, l.foldl (fun s x => s.modRegion x.1 fun r => r.countBank x.2) s = { s with regions := rs } := by
    induction l with
    | nil => exact fun s => ⟨s.regions, rfl⟩
    | cons x l ih =>
      intro s
      obtain ⟨rs, h⟩ := ih (s.modRegion x.1 fun r => r.countBank x.2)
      exact ⟨rs, h⟩
  unfold State.countBanks
  split
  · exact ⟨s.regions, rfl⟩
  · exact fold _ s

theorem endCycle_spec (u : State) :
    u.endCycle.core.cycle = u.core.cycle + 1 ∧ u.endCycle.core.clock = u.core.clock + Config.cycleUnits + u.time.stretch ∧
      u.endCycle.ctx = u.ctx ∧ u.endCycle.mem = u.mem := by
  obtain ⟨rs, h⟩ := countBanks_eq u
  simp [State.endCycle, h, State.modCore]

theorem mem_ports {p : Cand} {f : BitVec 3} : f ∈ p.ports ↔ ∃ x ∈ p.slots, ∃ g ∈ slotFields x, g.2.1 = f := by
  simp only [Cand.ports, List.mem_map, List.mem_flatMap]
  constructor
  · rintro ⟨g, ⟨x, hx, hg⟩, rfl⟩
    exact ⟨x, hx, g, hg, rfl⟩
  · rintro ⟨x, hx, g, hg, rfl⟩
    exact ⟨g, ⟨x, hx, hg⟩, rfl⟩

theorem mem_slots_of_run {p : Cand} {b : Bun} (h : p.next = .run b) {x : Nat × Nat} :
    x ∈ p.slots ↔ x ∈ b.slots ∧ p.first ≤ x.1 := by
  simp [Cand.slots, h, Bun.live]

theorem merges_of_run {p : Cand} {b : Bun} (h : p.next = .run b) : p.merges = !b.hdr.mi := by
  simp [Cand.merges, h]

theorem mergeable_iff {p c : Cand} {bp bc : Bun} (hp : p.next = .run bp) (hc : c.next = .run bc) :
    mergeable p c = true ↔ bp.hdr.mi = false ∧ bc.hdr.mi = false ∧
      ∀ x ∈ bp.slots, ∀ y ∈ bc.slots, p.first ≤ x.1 → c.first ≤ y.1 →
        x.1 ≠ y.1 ∧ ∀ f ∈ slotFields x, ∀ g ∈ slotFields y, f.2.1 ≠ g.2.1 := by
  simp only [mergeable, Bool.and_eq_true, merges_of_run hp, merges_of_run hc, List.all_eq_true, decide_eq_true_eq,
    Bool.not_eq_true', List.contains_eq_mem, decide_eq_false_iff_not, mem_ports, mem_slots_of_run hp, mem_slots_of_run hc]
  constructor
  · rintro ⟨⟨⟨hmp, hmc⟩, hslots⟩, hports⟩
    refine ⟨hmp, hmc, fun x hx y hy hfx hfy => ⟨hslots x ⟨hx, hfx⟩ y ⟨hy, hfy⟩, fun f hf g hg hfg => ?_⟩⟩
    exact hports f.2.1 ⟨x, ⟨hx, hfx⟩, f, hf, rfl⟩ ⟨y, ⟨hy, hfy⟩, g, hg, hfg.symm⟩
  · rintro ⟨hmp, hmc, h⟩
    refine ⟨⟨⟨hmp, hmc⟩, fun x hx y hy => (h x hx.1 y hy.1 hx.2 hy.2).1⟩, ?_⟩
    rintro _ ⟨x, hx, f, hf, rfl⟩ ⟨y, hy, g, hg, hfg⟩
    exact (h x hx.1 y hy.1 hx.2 hy.2).2 f hf g hg hfg.symm

theorem cyclesRule : CyclesRule := by
  refine ⟨?_, endCycle_spec, fun p c bp bc hp hc => mergeable_iff hp hc⟩
  intro s core hcore hboot hpower s1 r q
  obtain ⟨z, hz⟩ := issueCands_goesOn q r.1
  obtain ⟨hnone, hsome⟩ := issueCands_spec hz
  exact ⟨z, gives_issueCycle hcore hboot hpower rfl hz, hnone, hsome, pairwise_foldr_insertCand _, fun c hc => survey_spec hc⟩

/-- Settles O49, by what a cycle of one ready context, a slot of its bundle, and the choice of two candidates do. -/
theorem stepRunsDecoded : Obligations.StepRunsDecoded := ⟨stepsRule, slotsRule, cyclesRule⟩

end Sys2Proof.Proofs.Cycles
end

section
open Sys2Proof Sys2Proof.Machine
namespace Sys2Proof.Proofs.Lines
open MemoryBytes

/-! ### Bytes of a number -/

theorem leBytes_eq_map (n x : Nat) : leBytes n x = (List.range n).map fun i => BitVec.ofNat 8 (x / 2 ^ (8 * i)) := by
  induction n generalizing x with
  | zero => rfl
  | succ n ih =>
    rw [leBytes, ih, List.range_succ_eq_map, List.map_cons, List.map_map]
    simp only [Nat.mul_zero, Nat.pow_zero, Nat.div_one, List.cons.injEq, true_and]
    refine List.map_congr_left fun i _ => ?_
    rw [Function.comp, Nat.div_div_eq_div_mul, show (256 : Nat) = 2 ^ 8 from rfl, ← Nat.pow_add, Nat.add_comm 8, Nat.mul_succ]

@[simp] theorem length_leBytes (n x : Nat) : (leBytes n x).length = n := by simp [leBytes_eq_map]

theorem leNat_leBytes (n x : Nat) : leNat (leBytes n x) = x % 2 ^ (8 * n) := by
  induction n generalizing x with
  | zero => simp [leBytes, leNat, Nat.mod_one]
  | succ n ih =>
    rw [leBytes, leNat, ih, Nat.mul_succ, Nat.pow_add, Nat.mul_comm (2 ^ (8 * n)), Nat.mod_mul, BitVec.toNat_ofNat]

/-- The bytes of a line. -/
theorem ofBytes_toBytes (d : BitVec 512) : ofBytes 512 (toBytes 64 d.toNat) = d := by
  rw [ofBytes, toBytes, leNat_leBytes]
  simp

theorem lineByte_eq (d : BitVec 512) (i : Nat) : lineByte d i = BitVec.ofNat 8 (d.toNat / 2 ^ (8 * i)) := by
  simp [lineByte, BitVec.extractLsb', Nat.shiftRight_eq_div_pow]

@[simp] theorem mergeLine_allOnes (old new : BitVec 512) : mergeLine old new (BitVec.allOnes 64) = new := by
  have hbytes : ((List.range 64).map fun i => if (BitVec.allOnes 64).getLsbD i then lineByte new i else lineByte old i) =
      toBytes 64 new.toNat := by
    rw [toBytes, leBytes_eq_map]
    refine List.map_congr_left fun i hi => ?_
    have hon : (BitVec.allOnes 64).getLsbD i = true := by
      rw [BitVec.getLsbD_allOnes]
      simpa using hi
    rw [if_pos hon, lineByte_eq]
  rw [mergeLine, hbytes, ofBytes_toBytes]

/-- What stands at a key where bytes have just been written. -/
theorem readRun_writeRun_same (m : List Host.Cell) (k : Nat) (bs : List Byte) :
    readRun bs.length k (writeRun m k bs) = bs := by
  rw [readRun_eq_map]
  refine List.ext_getElem (by simp) fun i hi hb => ?_
  rw [List.getElem_map, List.getElem_range, readByte_writeRun_inside (Nat.le_add_right _ _) (by omega)]
  simp only [Nat.add_sub_cancel_left]

theorem peek_pokeLine (s : State) (k : Nat) (d : BitVec 512) :
    (s.pokeLine k d (BitVec.allOnes 64)).peek k 64 = toBytes 64 d.toNat := by
  have hmem : (s.pokeLine k d (BitVec.allOnes 64)).mem = writeRun s.mem k (toBytes 64 d.toNat) := by
    rw [State.pokeLine, if_neg (by decide)]
    simp only [mergeLine_allOnes]
    rfl
  have := readRun_writeRun_same s.mem k (toBytes 64 d.toNat)
  rwa [toBytes, length_leBytes, ← toBytes, ← hmem] at this

/-! ### Words of a record -/

theorem packEl_div_mod (w : Nat) (l : List Nat) (i : Nat) : packEl w l / 2 ^ (w * i) % 2 ^ w = l[i]?.getD 0 % 2 ^ w := by
  induction l generalizing i with
  | nil => simp [packEl]
  | cons x xs ih =>
    cases i with
    | zero => simp [packEl]
    | succ i =>
      rw [packEl, Nat.mul_succ, Nat.add_comm (w * i), Nat.pow_add, ← Nat.div_div_eq_div_mul,
        Nat.add_mul_div_left _ _ (Nat.two_pow_pos w), Nat.div_eq_of_lt (Nat.mod_lt _ (Nat.two_pow_pos w)), Nat.zero_add, ih]
      rfl

theorem packEl_lt_two_pow (w : Nat) (l : List Nat) : packEl w l < 2 ^ (w * l.length) := by
  induction l with
  | nil => simp [packEl]
  | cons x xs ih =>
    have hx := Nat.mod_lt x (Nat.two_pow_pos w)
    have hm := Nat.mul_le_mul_left (2 ^ w) (Nat.succ_le_of_lt ih)
    rw [packEl, List.length_cons, Nat.mul_succ, Nat.add_comm (w * _), Nat.pow_add]
    rw [Nat.mul_succ] at hm
    omega

/-- The 64-bit words of a record (R316) that hold more than one field. -/
def recWord0 (r : Rec) : Nat :=
  r.cause % 256 * 2 ^ 56 + r.slot % 8 * 2 ^ 53 + r.sres.toNat * 2 ^ 50 + (if r.prec then 1 else 0) * 2 ^ 49 +
    (if r.pt then 1 else 0) * 2 ^ 48 + (if r.rt then 1 else 0) * 2 ^ 47 + (if r.ac then 1 else 0) * 2 ^ 46 + r.detail % 2 ^ 32
def recWord4 (c : Ctx) (r : Rec) : Nat := c.id.rid.toNat * 2 ^ 32 + r.lmask % 2 ^ 32
def recWord5 (c : Ctx) (r : Rec) : Nat := c.id.num.toNat * 2 ^ 48 + r.tl % 4 * 2 ^ 43 + c.core.toNat * 2 ^ 32

/-- The words of a record. -/
def recWords (c : Ctx) (time : W64) (r : Rec) : List Nat :=
  [recWord0 r, r.ba.toNat, r.faddr.toNat, r.tgt.toNat, recWord4 c r, recWord5 c r, time.toNat, 0]

theorem toNat_recBytes (c : Ctx) (time : W64) (r : Rec) : (recBytes c time r).toNat = packEl 64 (recWords c time r) :=
  (BitVec.toNat_ofNat _ _).trans (Nat.mod_eq_of_lt (packEl_lt_two_pow 64 (recWords c time r)))

/-- Bits of a packed number that lie in one of its words. -/
theorem bits_packEl {l : List Nat} {i lo hi x : Nat} (hlo : 64 * i ≤ lo) (hhi : hi < 64 * i + 64) (hle : lo ≤ hi + 1)
    (hx : l[i]? = some x) :
    bits (packEl 64 l) hi lo = x / 2 ^ (lo - 64 * i) % 2 ^ (hi + 1 - lo) := by
  have hword := packEl_div_mod 64 l i
  rw [hx, Option.getD_some] at hword
  have cut (y : Nat) : y % 2 ^ 64 / 2 ^ (lo - 64 * i) % 2 ^ (hi + 1 - lo) = y / 2 ^ (lo - 64 * i) % 2 ^ (hi + 1 - lo) := by
    have hsplit : 2 ^ 64 = 2 ^ (lo - 64 * i) * 2 ^ (64 - (lo - 64 * i)) := by rw [← Nat.pow_add]; congr 1; omega
    rw [hsplit, Nat.mod_mul_right_div_self, Nat.mod_mod_of_dvd _ (Nat.pow_dvd_pow 2 (by omega))]
  rw [bits, ← cut x, ← hword, cut, Nat.div_div_eq_div_mul, ← Nat.pow_add, Nat.add_sub_cancel' hlo]

section
variable (c : Ctx) (time : W64) (r : Rec)

theorem bits_recBytes {i x lo hi : Nat} (hx : (recWords c time r)[i]? = some x) (hlo : 64 * i ≤ lo) (hhi : hi < 64 * i + 64)
    (hle : lo ≤ hi + 1) : bits (recBytes c time r).toNat hi lo = x / 2 ^ (lo - 64 * i) % 2 ^ (hi + 1 - lo) := by
  rw [toNat_recBytes, bits_packEl hlo hhi hle hx]

theorem bits_recBytes_word {i lo hi : Nat} {x : W64} (hx : (recWords c time r)[i]? = some x.toNat) (hlo : lo = 64 * i)
    (hhi : hi = lo + 63) : bits (recBytes c time r).toNat hi lo = x.toNat := by
  subst hlo hhi
  rw [bits_recBytes c time r hx (by omega) (by omega) (by omega), Nat.sub_self, Nat.pow_zero, Nat.div_one,
    show 64 * i + 63 + 1 - 64 * i = 64 by omega, Nat.mod_eq_of_lt x.isLt]

theorem bits_recBytes_zero {lo hi : Nat} (hhi : hi < 64) (hle : lo ≤ hi + 1) :
    bits (recBytes c time r).toNat hi lo = recWord0 r / 2 ^ (lo - 64 * 0) % 2 ^ (hi + 1 - lo) :=
  bits_recBytes c time r (i := 0) rfl (by omega) (by omega) hle

theorem bits_recBytes_four {lo hi : Nat} (hlo : 256 ≤ lo) (hhi : hi < 320) (hle : lo ≤ hi + 1) :
    bits (recBytes c time r).toNat hi lo = recWord4 c r / 2 ^ (lo - 64 * 4) % 2 ^ (hi + 1 - lo) :=
  bits_recBytes c time r (i := 4) rfl (by omega) (by omega) hle

theorem bits_recBytes_five {lo hi : Nat} (hlo : 320 ≤ lo) (hhi : hi < 384) (hle : lo ≤ hi + 1) :
    bits (recBytes c time r).toNat hi lo = recWord5 c r / 2 ^ (lo - 64 * 5) % 2 ^ (hi + 1 - lo) :=
  bits_recBytes c time r (i := 5) rfl (by omega) (by omega) hle

end

/-- A record says the fields that it is made of, each as its place in the 64 bytes holds it (R316). -/
theorem recBytes_says (c : Ctx) (time : W64) (r : Rec) : RecordSays (recBytes c time r).toNat c time
    { r with cause := r.cause % 256, slot := r.slot % 8, detail := r.detail % 2 ^ 32, lmask := r.lmask % 2 ^ 32,
             tl := r.tl % 4 } := by
  have flag (b : Bool) : (if b then 1 else 0) < 2 := by cases b <;> decide
  have hprec := flag r.prec
  have hpt := flag r.pt
  have hrt := flag r.rt
  have hac := flag r.ac
  have h0 {lo hi : Nat} := bits_recBytes_zero c time r (lo := lo) (hi := hi)
  have h4 {lo hi : Nat} := bits_recBytes_four c time r (lo := lo) (hi := hi)
  have h5 {lo hi : Nat} := bits_recBytes_five c time r (lo := lo) (hi := hi)
  unfold RecordSays
  dsimp only
  refine ⟨?_, ?_, ?_, ?_, ?_, ?_, ?_, ?_, ?_, ?_, ?_, ?_, ?_, ?_, ?_, ?_, ?_, ?_, ?_, ?_, ?_⟩
  case refine_10 => exact bits_recBytes_word c time r (i := 1) rfl (by omega) (by omega)
  case refine_11 => exact bits_recBytes_word c time r (i := 2) rfl (by omega) (by omega)
  case refine_12 => exact bits_recBytes_word c time r (i := 3) rfl (by omega) (by omega)
  case refine_13 | refine_14 => rw [h4 (by omega) (by omega) (by omega), recWord4]; omega
  case refine_15 | refine_16 | refine_17 | refine_18 | refine_19 => rw [h5 (by omega) (by omega) (by omega), recWord5]; omega
  case refine_20 => exact bits_recBytes_word c time r (i := 6) rfl (by omega) (by omega)
  case refine_21 => exact bits_recBytes_word c time r (i := 7) (x := 0) rfl (by omega) (by omega)
  all_goals rw [h0 (by omega) (by omega), recWord0]; omega

end Sys2Proof.Proofs.Lines
end

section
open Sys2Proof Sys2Proof.Machine
namespace Sys2Proof.Proofs.Lines

/-! ### What the memory system looks at: neither the bundle in issue, nor a context, nor whose save a core runs -/

/-- The state with another bundle in issue, other contexts, and another save in the core acted on. -/
def recast (s : State) (i : Iss) (c : Ctx) (cs : List Ctx) (sv : Option CtxId) : State :=
  { s with iss := i, ctx := c, ctxs := cs, core := { s.core with saving := sv } }

section
variable (s : State) (i : Iss) (c : Ctx) (cs : List Ctx) (sv : Option CtxId)

theorem coreAt_recast (n : Nat) : ∃ sv', (recast s i c cs sv).coreAt n = { s.coreAt n with saving := sv' } := by
  by_cases h : s.core.num.toNat = n
  · have hl : (recast s i c cs sv).coreAt n = (recast s i c cs sv).core := if_pos h
    have hr : s.coreAt n = s.core := if_pos h
    exact ⟨sv, by rw [hl, hr]; rfl⟩
  · have hl : (recast s i c cs sv).coreAt n = (s.cores.find? fun c => c.num.toNat = n).getD (Core.reset (BitVec.ofNat 11 n)) :=
      if_neg h
    have hr : s.coreAt n = (s.cores.find? fun c => c.num.toNat = n).getD (Core.reset (BitVec.ofNat 11 n)) := if_neg h
    exact ⟨_, by rw [hl, hr]⟩

@[simp] theorem scrKey_recast (n off : Nat) : ((recast s i c cs sv).coreAt n).scrKey off = (s.coreAt n).scrKey off := by
  obtain ⟨sv', h⟩ := coreAt_recast s i c cs sv n
  rw [h]; rfl

@[simp] theorem cchBanks_recast (n : Nat) : ((recast s i c cs sv).coreAt n).cchBanks = (s.coreAt n).cchBanks := by
  obtain ⟨sv', h⟩ := coreAt_recast s i c cs sv n
  rw [h]; rfl

@[simp] theorem chans_recast (n : Nat) : ((recast s i c cs sv).coreAt n).chans = (s.coreAt n).chans := by
  obtain ⟨sv', h⟩ := coreAt_recast s i c cs sv n
  rw [h]

@[simp] theorem absent_recast (pa : Nat) : (recast s i c cs sv).absent pa = s.absent pa := rfl
@[simp] theorem isBad_recast (k n : Nat) : (recast s i c cs sv).isBad k n = s.isBad k n := rfl
@[simp] theorem peek64_recast (k : Nat) : (recast s i c cs sv).peek64 k = s.peek64 k := rfl
@[simp] theorem region?_recast (rid : BitVec 32) : (recast s i c cs sv).region? rid = s.region? rid := rfl
@[simp] theorem held_recast (core : Nat) (rid : BitVec 32) (va : Nat) : (recast s i c cs sv).held core rid va = s.held core rid va := rfl
@[simp] theorem hit_recast (t : Trans) (va : Nat) : (recast s i c cs sv).hit t va = s.hit t va := rfl
@[simp] theorem hostXlate_recast (p : BitVec 20) (va : Nat) (acc : Access) :
    (recast s i c cs sv).hostXlate p va acc = s.hostXlate p va acc := rfl
@[simp] theorem pasidOf_recast (rid : BitVec 32) : (recast s i c cs sv).pasidOf rid = s.pasidOf rid := rfl
@[simp] theorem ratOf_recast (d : BitVec 12) : (recast s i c cs sv).ratOf d = s.ratOf d := rfl
@[simp] theorem channelOf_recast (k : Nat) : (recast s i c cs sv).channelOf k = s.channelOf k := rfl
@[simp] theorem seamState_recast (k : Nat) : (recast s i c cs sv).seamState k = s.seamState k := rfl
@[simp] theorem isAway_recast (k : Nat) : (recast s i c cs sv).isAway k = s.isAway k := rfl

@[simp] theorem walkFrom_recast (fuel table va : Nat) : walkFrom (recast s i c cs sv) fuel table va = walkFrom s fuel table va := by
  induction fuel generalizing table with
  | zero => rfl
  | succ fuel ih =>
    simp only [walkFrom, absent_recast, isBad_recast, peek64_recast, ih]
    rfl

@[simp] theorem walkEntries_recast (fuel table va : Nat) :
    walkEntries (recast s i c cs sv) fuel table va = walkEntries s fuel table va := by
  induction fuel generalizing table with
  | zero => rfl
  | succ fuel ih => simp only [walkEntries, absent_recast, peek64_recast, ih]

@[simp] theorem walkPage_recast (root : BitVec 28) (va : Nat) : (recast s i c cs sv).walkPage root va = s.walkPage root va := by
  simp [State.walkPage]

@[simp] theorem walk_recast (root : BitVec 28) (va : Nat) : (recast s i c cs sv).walk root va = s.walk root va := by
  simp [State.walk]

@[simp] theorem xlatePage_recast (core : Nat) (rid : BitVec 32) (va : Nat) :
    (recast s i c cs sv).xlatePage core rid va = s.xlatePage core rid va := by
  simp only [State.xlatePage, region?_recast, walkPage_recast, held_recast, hit_recast]
  rfl

@[simp] theorem xlate_recast (core : Nat) (rid : BitVec 32) (va : Nat) :
    (recast s i c cs sv).xlate core rid va = s.xlate core rid va := by
  simp [State.xlate]

@[simp] theorem resolve_recast (own : Nat) (rid : BitVec 32) (a : W64) (n : Nat) (acc : Access) :
    (recast s i c cs sv).resolve own rid a n acc = s.resolve own rid a n acc := by
  simp only [State.resolve, scrKey_recast, cchBanks_recast, xlate_recast, hostXlate_recast, pasidOf_recast]

@[simp] theorem homeKey_recast (core : Nat) (rid : BitVec 32) (a : W64) (acc : Access) :
    (recast s i c cs sv).homeKey core rid a acc = s.homeKey core rid a acc := by
  simp only [State.homeKey, resolve_recast]

@[simp] theorem remoteKey_recast (d : BitVec 12) (va : Nat) (acc : Access) :
    (recast s i c cs sv).remoteKey d va acc = s.remoteKey d va acc := by
  simp only [State.remoteKey, ratOf_recast, walk_recast]

@[simp] theorem homeOf_recast (k : Nat) : (recast s i c cs sv).homeOf k = s.homeOf k := by
  simp only [State.homeOf, remoteKey_recast, scrKey_recast]
  rfl

@[simp] theorem awayOrRefused_recast (k : Nat) : (recast s i c cs sv).awayOrRefused k = s.awayOrRefused k := by
  simp only [State.awayOrRefused, remoteKey_recast]
  rfl

@[simp] theorem heldKey_recast (k : Nat) : (recast s i c cs sv).heldKey k = s.heldKey k := by
  simp only [State.heldKey, chans_recast, seamState_recast]

@[simp] theorem behind_recast (k n : Nat) : (recast s i c cs sv).behind k n = s.behind k n := by
  simp only [State.behind, homeOf_recast, channelOf_recast]
  rfl

@[simp] theorem blocked_recast (k n : Nat) : (recast s i c cs sv).blocked k n = s.blocked k n := by
  simp only [State.blocked, heldKey_recast, behind_recast]

@[simp] theorem heldTables_recast (root : BitVec 28) (va n : Nat) :
    (recast s i c cs sv).heldTables root va n = s.heldTables root va n := by
  simp only [State.heldTables, walkEntries_recast, blocked_recast]

@[simp] theorem heldRequest_recast (d : BitVec 12) (va n : Nat) :
    (recast s i c cs sv).heldRequest d va n = s.heldRequest d va n := by
  simp only [State.heldRequest, ratOf_recast, heldTables_recast, remoteKey_recast, blocked_recast]

@[simp] theorem stands_recast (k : Nat) : (recast s i c cs sv).stands k = s.stands k := by
  simp only [State.stands, State.heldHome, heldRequest_recast, blocked_recast]
  rfl

@[simp] theorem heldWalk_recast (core : Nat) (rid : BitVec 32) (a : W64) :
    (recast s i c cs sv).heldWalk core rid a = s.heldWalk core rid a := by
  simp only [State.heldWalk, held_recast, region?_recast, heldTables_recast]
  rfl

end
end Sys2Proof.Proofs.Lines
end

section
open Sys2Proof Sys2Proof.Machine
namespace Sys2Proof.Proofs.Lines

/-! ### The bundle in issue, the control registers and the sequencer do not bear on what lines do -/

/-- The state with another bundle in issue, and other control registers and another sequencer of the context acted on. -/
def withFrame (s : State) (i : Iss) (c : Ctl) (q : Seqr) : State := { s with iss := i, ctx := { s.ctx with c := c, q := q } }

section
variable (s : State) (i : Iss) (c : Ctl) (q : Seqr)

@[simp] theorem coreAt_withFrame (n : Nat) : (withFrame s i c q).coreAt n = s.coreAt n := rfl
@[simp] theorem homeOf_withFrame (k : Nat) : (withFrame s i c q).homeOf k = s.homeOf k := homeOf_recast ..
@[simp] theorem isAway_withFrame (k : Nat) : (withFrame s i c q).isAway k = s.isAway k := rfl
@[simp] theorem stands_withFrame (k : Nat) : (withFrame s i c q).stands k = s.stands k := stands_recast ..
@[simp] theorem awayOrRefused_withFrame (k : Nat) : (withFrame s i c q).awayOrRefused k = s.awayOrRefused k :=
  awayOrRefused_recast ..
@[simp] theorem homeKey_withFrame (core : Nat) (rid : BitVec 32) (a : W64) (acc : Access) :
    (withFrame s i c q).homeKey core rid a acc = s.homeKey core rid a acc := homeKey_recast ..
@[simp] theorem heldWalk_withFrame (core : Nat) (rid : BitVec 32) (a : W64) :
    (withFrame s i c q).heldWalk core rid a = s.heldWalk core rid a := heldWalk_recast ..

theorem putCore_withFrame (k : Core) : (withFrame s i c q).putCore k = withFrame (s.putCore k) i c q := by
  unfold State.putCore withFrame
  dsimp only
  split_ifs <;> rfl

theorem wakeCtx_frame (k n : Nat) (x : Ctx) : wakeCtx k n { x with c := c, q := q } = { wakeCtx k n x with c := c, q := q } := by
  unfold wakeCtx
  dsimp only
  split
  · split_ifs <;> rfl
  · rfl

theorem wake_withFrame (k n : Nat) : (withFrame s i c q).wake k n = withFrame (s.wake k n) i c q := by
  simp only [State.wake, withFrame, wakeCtx_frame]

theorem pokeLine_withFrame (k : Nat) (d : BitVec 512) (m : BitVec 64) :
    (withFrame s i c q).pokeLine k d m = withFrame (s.pokeLine k d m) i c q := by
  unfold State.pokeLine
  simp only [wake_withFrame]
  split_ifs <;> rfl

theorem recordLine_withFrame (k : Nat) (m : Option Mark) :
    (withFrame s i c q).recordLine k m = withFrame (s.recordLine k m) i c q := by
  cases m <;> rfl

theorem perform_withFrame (k : Nat) (d : BitVec 512) (m : BitVec 64) (x : Option Mark) :
    (withFrame s i c q).perform k d m x = withFrame (s.perform k d m x) i c q := by
  simp only [State.perform, pokeLine_withFrame, recordLine_withFrame]

theorem freshSeq_withFrame : (withFrame s i c q).freshSeq = (s.freshSeq.1, withFrame s.freshSeq.2 i c q) := rfl

theorem send_withFrame (d : BitVec 12) (p : Packet) :
    (withFrame s i c q).send d p = ((s.send d p).1, withFrame (s.send d p).2 i c q) := rfl

theorem addFlight_withFrame (n : Nat) (f : Nat → Flight) :
    (withFrame s i c q).addFlight n f = withFrame (s.addFlight n f) i c q := by
  simp only [State.addFlight, freshSeq_withFrame, coreAt_withFrame, putCore_withFrame]

theorem toHome_withFrame (n : Nat) (id : CtxId) (wb : Bool) (ba a : W64) (k : Nat) (d : BitVec 512) (m : BitVec 64)
    (x : Option Mark) : (withFrame s i c q).toHome n id wb ba a k d m x = withFrame (s.toHome n id wb ba a k d m x) i c q := by
  simp only [State.toHome, coreAt_withFrame, homeOf_withFrame, isAway_withFrame, stands_withFrame, awayOrRefused_withFrame,
    addFlight_withFrame, send_withFrame, perform_withFrame]
  split_ifs <;> rfl

theorem noteLeft_frame (n : Nat) (l : Line) (x : Ctx) :
    Ctx.noteLeft n l { x with c := c, q := q } = { Ctx.noteLeft n l x with c := c, q := q } := by
  unfold Ctx.noteLeft
  dsimp only
  split_ifs <;> rfl

/-- The line of another device that leaves is noted by the contexts that wait for it. -/
def noteLine (s : State) (n : Nat) (l : Line) : State :=
  if l.key / 2 ^ 60 = 4 then { s with ctx := s.ctx.noteLeft n l, ctxs := s.ctxs.map (Ctx.noteLeft n l) } else s

/-- A line's dirty bytes in the cache role are clean. -/
def cleanLine (s : State) (n : Nat) (l : Line) : State :=
  s.putCore { s.coreAt n with
    cache := replaceIf (fun m => m.key = l.key) (fun m => { m with dirty := 0, marks := [] }) (s.coreAt n).cache }

theorem writeBack_eq (n : Nat) (l : Line) : s.writeBack n l =
    cleanLine ((noteLine s n l).toHome n l.by_ true 0 l.va l.key l.data l.dirty l.mark) n l := rfl

theorem noteLine_withFrame (n : Nat) (l : Line) : noteLine (withFrame s i c q) n l = withFrame (noteLine s n l) i c q := by
  unfold noteLine withFrame
  dsimp only
  simp only [noteLeft_frame]
  split_ifs <;> rfl

theorem writeBack_withFrame (n : Nat) (l : Line) : (withFrame s i c q).writeBack n l = withFrame (s.writeBack n l) i c q := by
  simp only [writeBack_eq, noteLine_withFrame, toHome_withFrame, cleanLine, coreAt_withFrame, putCore_withFrame]

theorem writeBackReach_withFrame (n : Nat) (sco : BitVec 2) :
    (withFrame s i c q).writeBackReach n sco = withFrame (s.writeBackReach n sco) i c q := by
  unfold State.writeBackReach State.writeBackIf
  rw [coreAt_withFrame]
  generalize List.filter _ (s.coreAt n).cache = ls
  induction ls generalizing s with
  | nil => rfl
  | cons l ls ih => rw [List.foldl_cons, List.foldl_cons, writeBack_withFrame, ih]

end

/-! ### What write-backs and writes at homes keep -/

/-- A context as before, but for what its watch has seen and the bytes that it waits for. -/
structure CtxKept (c d : Ctx) : Prop where
  eq : d = { c with watch := d.watch, remote := d.remote }
  watch : c.watch = none → d.watch = none
  remote : d.remote.isNone = c.remote.isNone

theorem CtxKept.refl (c : Ctx) : CtxKept c c := ⟨rfl, id, rfl⟩

theorem CtxKept.trans {c d e : Ctx} (h : CtxKept c d) (k : CtxKept d e) : CtxKept c e :=
  ⟨by rw [k.eq, h.eq], fun hc => k.watch (h.watch hc), k.remote.trans h.remote⟩

section
variable {c d : Ctx} (h : CtxKept c d)
include h

theorem CtxKept.id : d.id = c.id := by rw [h.eq]
theorem CtxKept.core : d.core = c.core := by rw [h.eq]
theorem CtxKept.regs : d.r = c.r := by rw [h.eq]
theorem CtxKept.ctl : d.c = c.c := by rw [h.eq]
theorem CtxKept.seqr : d.q = c.q := by rw [h.eq]
theorem CtxKept.sch : d.sch = c.sch := by rw [h.eq]
theorem CtxKept.events : d.events = c.events := by rw [h.eq]
theorem CtxKept.board : d.board = c.board := by rw [h.eq]

end

theorem ctxKept_wakeCtx (k n : Nat) (c : Ctx) : CtxKept c (wakeCtx k n c) := by
  unfold wakeCtx
  split
  · next w hw =>
    split_ifs
    · exact ⟨rfl, fun hn => by simp [hn] at hw, rfl⟩
    · exact .refl c
  · exact .refl c

theorem ctxKept_noteLeft (n : Nat) (l : Line) (c : Ctx) : CtxKept c (c.noteLeft n l) := by
  unfold Ctx.noteLeft
  split_ifs
  · exact ⟨rfl, id, by simp⟩
  · exact .refl c

/-- A state whose context acted on is kept, with the regions and the clocks. -/
structure Kept (s t : State) : Prop where
  ctx : CtxKept s.ctx t.ctx
  regions : t.regions = s.regions
  time : t.time = s.time
  core : t.core.num = s.core.num

theorem Kept.refl (s : State) : Kept s s := ⟨.refl _, rfl, rfl, rfl⟩

theorem Kept.trans {s t u : State} (h : Kept s t) (k : Kept t u) : Kept s u :=
  ⟨h.ctx.trans k.ctx, k.regions.trans h.regions, k.time.trans h.time, k.core.trans h.core⟩

section
variable (s : State)

theorem kept_putCore (k : Core) : Kept s (s.putCore k) := by
  unfold State.putCore
  split_ifs with h
  · exact ⟨.refl _, rfl, rfl, h.symm⟩
  · exact ⟨.refl _, rfl, rfl, rfl⟩
  · exact ⟨.refl _, rfl, rfl, rfl⟩

theorem kept_pokeLine (k : Nat) (d : BitVec 512) (m : BitVec 64) : Kept s (s.pokeLine k d m) := by
  unfold State.pokeLine
  split_ifs
  · exact .refl s
  · exact ⟨ctxKept_wakeCtx k 64 s.ctx, rfl, rfl, rfl⟩

theorem kept_recordLine (k : Nat) (m : Option Mark) : Kept s (s.recordLine k m) := by
  cases m <;> exact ⟨.refl _, rfl, rfl, rfl⟩

theorem kept_perform (k : Nat) (d : BitVec 512) (m : BitVec 64) (x : Option Mark) : Kept s (s.perform k d m x) :=
  (kept_pokeLine s k d m).trans (kept_recordLine _ k x)

theorem kept_send (d : BitVec 12) (p : Packet) : Kept s (s.send d p).2 := ⟨.refl _, rfl, rfl, rfl⟩

theorem kept_addFlight (n : Nat) (f : Nat → Flight) : Kept s (s.addFlight n f) :=
  (show Kept s s.freshSeq.2 from ⟨.refl _, rfl, rfl, rfl⟩).trans (kept_putCore _ _)

theorem kept_toHome (n : Nat) (id : CtxId) (wb : Bool) (ba a : W64) (k : Nat) (d : BitVec 512) (m : BitVec 64)
    (x : Option Mark) : Kept s (s.toHome n id wb ba a k d m x) := by
  unfold State.toHome
  dsimp only
  split_ifs
  · exact .refl s
  · exact kept_addFlight s _ _
  · exact (kept_send s _ _).trans (kept_addFlight _ _ _)
  · exact kept_addFlight s _ _
  · exact kept_addFlight s _ _
  · exact kept_perform s _ _ _ _

theorem kept_noteLine (n : Nat) (l : Line) : Kept s (noteLine s n l) := by
  unfold noteLine
  split_ifs
  · exact ⟨ctxKept_noteLeft n l s.ctx, rfl, rfl, rfl⟩
  · exact .refl s

theorem kept_writeBack (n : Nat) (l : Line) : Kept s (s.writeBack n l) := by
  rw [writeBack_eq]
  exact ((kept_noteLine s n l).trans (kept_toHome _ _ _ _ _ _ _ _ _ _)).trans (kept_putCore _ _)

theorem kept_writeBackIf (n : Nat) (p : Line → Bool) : Kept s (s.writeBackIf n p) := by
  unfold State.writeBackIf
  generalize List.filter _ (s.coreAt n).cache = ls
  induction ls generalizing s with
  | nil => exact .refl s
  | cons l ls ih => exact (kept_writeBack s n l).trans (ih _)

theorem kept_writeBackReach (n : Nat) (sco : BitVec 2) : Kept s (s.writeBackReach n sco) := kept_writeBackIf s n _

theorem kept_wakeInvalid (n k : Nat) : Kept s (s.wakeInvalid n k) := by
  refine ⟨?_, rfl, rfl, rfl⟩
  unfold State.wakeInvalid
  dsimp only
  split_ifs
  · exact ctxKept_wakeCtx _ _ _
  · exact .refl _

theorem kept_invalidate (n k : Nat) : Kept s (s.invalidate n k) := by
  unfold State.invalidate
  dsimp only
  split_ifs
  · exact (kept_putCore s _).trans (kept_wakeInvalid _ n k)
  · exact .refl s

theorem kept_evict (n k : Nat) : Kept s (s.evict n k) := by
  unfold State.evict
  split
  · split_ifs
    · exact kept_writeBack s n _
    · exact (kept_writeBack s n _).trans (kept_invalidate _ n k)
  · exact .refl s

end
end Sys2Proof.Proofs.Lines
end

section
open Sys2Proof Sys2Proof.Machine
namespace Sys2Proof.Proofs.TrapEntries
open Lines

/-! ### The ring of a context that is not in its save area -/

section
variable {s : State} {c d : Ctx}

theorem ringOf_of_running (h : c.sch.life.inArea = false) : s.ringOf c = (c.c.trpb, c.c.pidx, c.c.cidx) := by
  rw [State.ringOf, h]; rfl

/-- Two contexts that stand alike before the ring: neither in its save area, of the same name, core, results and ring. -/
structure RingAlike (c d : Ctx) : Prop where
  area : c.sch.life.inArea = false ∧ d.sch.life.inArea = false
  id : d.id = c.id
  core : d.core = c.core
  trpb : d.c.trpb = c.c.trpb
  pidx : d.c.pidx = c.c.pidx
  cidx : d.c.cidx = c.c.cidx

theorem recordPlace_congr (h : RingAlike c d) : s.recordPlace d = s.recordPlace c := by
  simp only [State.recordPlace, State.recordSlot, ringOf_of_running h.area.1, ringOf_of_running h.area.2, h.id, h.core, h.trpb,
    h.pidx, h.cidx]

theorem recReady_congr (h : RingAlike c d) (hev : d.events = c.events) (hboard : d.board = c.board)
    (hrem : d.remote.isNone = c.remote.isNone) : s.recReady d = s.recReady c := by
  simp only [State.recReady, State.ringHeld, State.schedHeld, Ctx.landed, ringOf_of_running h.area.1, ringOf_of_running h.area.2,
    h.area.1, h.area.2, h.id, h.core, h.trpb, h.pidx, h.cidx, hev, hboard, hrem, Bool.false_and]

theorem recordPlace_recast (i : Iss) (x : Ctx) (cs : List Ctx) (sv : Option CtxId) (hc : c.sch.life.inArea = false) :
    (recast s i x cs sv).recordPlace c = s.recordPlace c := by
  simp only [State.recordPlace, State.recordSlot, ringOf_of_running hc, homeKey_recast]

theorem recReady_withFrame (i : Iss) (k : Ctl) (q : Seqr) (hc : c.sch.life.inArea = false) :
    (withFrame s i k q).recReady c = s.recReady c := by
  simp only [State.recReady, State.ringHeld, State.schedHeld, ringOf_of_running hc, coreAt_withFrame, heldWalk_withFrame,
    homeKey_withFrame, stands_withFrame]

end

/-! ### A save begins -/

theorem ctx?_self {s : State} (h : s.ctx.sch.life ≠ .none) : s.ctx? s.ctx.id = some s.ctx := by
  simp [State.ctx?, State.allCtxs, h]

theorem claimSave_recast {s : State} (id : CtxId) {n : Nat} (hn : s.core.num.toNat = n) :
    ∃ sv, s.claimSave id n = recast s s.iss s.ctx s.ctxs sv := by
  have hcore : s.coreAt n = s.core := if_pos hn
  unfold State.claimSave
  rw [hcore]
  dsimp only
  split_ifs
  · exact ⟨some id, if_pos rfl⟩
  · exact ⟨s.core.saving, rfl⟩

/-- The save of the context acted on begins where no watch of it is armed. -/
theorem startSave_recast {s : State} (hlife : s.ctx.sch.life ≠ .none) (hwatch : s.ctx.watch = none)
    (hcore : s.core.num = s.ctx.core) (kind : ReqKind) (e : SaveEnd) :
    ∃ cs sv, s.startSave s.ctx.id kind e = recast s s.iss (s.ctx.beginSave kind e) cs sv := by
  have hquit : s.quitWatch s.ctx.id = s := by simp [State.quitWatch, ctx?_self hlife, hwatch]
  have hstart : s.startSave s.ctx.id kind e =
      (s.mapCtx (fun x => x.id = s.ctx.id) fun x => x.beginSave kind e).claimSave s.ctx.id s.ctx.core.toNat := by
    simp only [State.startSave, ctx?_self hlife, hquit]
  have hctx : (s.mapCtx (fun x => x.id = s.ctx.id) fun x => x.beginSave kind e).ctx = s.ctx.beginSave kind e :=
    if_pos (by simp)
  obtain ⟨sv, hsv⟩ := claimSave_recast (s := s.mapCtx (fun x => x.id = s.ctx.id) fun x => x.beginSave kind e) s.ctx.id
    (n := s.ctx.core.toNat) (congrArg BitVec.toNat hcore)
  exact ⟨_, sv, by rw [hstart, hsv, hctx]; rfl⟩

/-! ### A record meets the ring -/

/-- What the ring leaves of a context that is not in its save area: its name, its registers and sequencer, and of its control
registers all but PIDX and LOST; PIDX is given. -/
structure RingLeaves (s t : State) (pidx : W32) : Prop where
  regions : t.regions = s.regions
  id : t.ctx.id = s.ctx.id
  r : t.ctx.r = s.ctx.r
  q : t.ctx.q = s.ctx.q
  sres : t.ctx.c.sres = s.ctx.c.sres
  pidx : t.ctx.c.pidx = pidx
  life : t.ctx.sch.life = s.ctx.sch.life
  saveEnd : t.ctx.sch.saveEnd = s.ctx.sch.saveEnd

theorem setRing_ctx {s : State} {c : Ctx} (hc : c.sch.life.inArea = false) (hid : s.ctx.id = c.id) (pidx : W32) (lost : Bool) :
    (s.setRing c pidx lost).ctx = { s.ctx with c := { s.ctx.c with pidx := pidx, lost := s.ctx.c.lost || lost } } := by
  simp [State.setRing, hc, State.mapCtx, hid]

theorem setRing_eq {s : State} {c : Ctx} (hc : c.sch.life.inArea = false) (pidx : W32) (lost : Bool) :
    ∃ x xs, s.setRing c pidx lost = { s with ctx := x, ctxs := xs } := by
  simp only [State.setRing, hc, State.mapCtx]
  exact ⟨_, _, rfl⟩

/-- The context of a record as the write of the record leaves its home. -/
def written (s : State) (c : Ctx) (k : Nat) (d : BitVec 512) : State :=
  ((s.writeBackReach c.core.toNat 3).evict c.core.toNat k).perform k d (BitVec.allOnes 64)
    (some { sco := 3, core := c.core, ctx := c.id })

theorem kept_written (s : State) (c : Ctx) (k : Nat) (d : BitVec 512) : Kept s (written s c k d) :=
  ((kept_writeBackReach s _ _).trans (kept_evict _ _ _)).trans (kept_perform _ _ _ _ _)

theorem peek_written (s : State) (c : Ctx) (k : Nat) (d : BitVec 512) :
    (written s c k d).peek k 64 = toBytes 64 d.toNat :=
  peek_pokeLine ((s.writeBackReach c.core.toNat 3).evict c.core.toNat k) k d

theorem putRecord_spec {s : State} (hc : s.ctx.sch.life.inArea = false) (k : Nat) (d : BitVec 512) :
    RingLeaves s (s.putRecord s.ctx k d) (s.ctx.c.pidx + 1) ∧ (s.putRecord s.ctx k d).peek k 64 = toBytes 64 d.toNat := by
  have hkept := kept_written s s.ctx k d
  let u : State := { written s s.ctx k d with disps := (written s s.ctx k d).disps.filter fun x => x.1 ≠ lineOf k }
  have hput : s.putRecord s.ctx k d = u.setRing s.ctx (s.ctx.c.pidx + 1) false := by
    have hring : (u.ringOf s.ctx).2.1 = s.ctx.c.pidx := by rw [ringOf_of_running hc]
    rw [← hring]
    rfl
  have hu : CtxKept s.ctx u.ctx := hkept.ctx
  have hctx := setRing_ctx (s := u) hc hu.id (s.ctx.c.pidx + 1) false
  obtain ⟨x, xs, hset⟩ := setRing_eq (s := u) hc (s.ctx.c.pidx + 1) false
  rw [hput]
  refine ⟨⟨?_, ?_, ?_, ?_, ?_, ?_, ?_, ?_⟩, ?_⟩
  · rw [hset]; exact hkept.regions
  · rw [hctx]; exact hu.id
  · rw [hctx]; exact hu.regs
  · rw [hctx]; exact hu.seqr
  · rw [hctx]; exact (congrArg Ctl.sres hu.ctl :)
  · rw [hctx]
  · rw [hctx]; exact (congrArg Sched.life hu.sch :)
  · rw [hctx]; exact (congrArg Sched.saveEnd hu.sch :)
  · rw [hset]; exact peek_written s s.ctx k d

theorem ringRec_of_place {s : State} (hp : s.ctx.sch.pendRec = none) (d : BitVec 512) {a : W64} {k : Nat}
    (h : s.recordPlace s.ctx = some (a, k)) : s.ringRec s.ctx d = (.at_ a k, s.putRecord s.ctx k d) := by
  simp [State.ringRec, hp, h]

section
variable {s : State} (hc : s.ctx.sch.life.inArea = false) (hp : s.ctx.sch.pendRec = none) (d : BitVec 512)
include hc hp

/-- A record that the ring does not take is kept pending. -/
theorem ringRec_of_full (h : s.recordPlace s.ctx = none) :
    (s.ringRec s.ctx d).1 = .full ∧ RingLeaves s (s.ringRec s.ctx d).2 s.ctx.c.pidx := by
  have hctx := setRing_ctx hc rfl s.ctx.c.pidx true
  obtain ⟨x, xs, hset⟩ := setRing_eq (s := s) hc s.ctx.c.pidx true
  have hring : (s.ringOf s.ctx).2.1 = s.ctx.c.pidx := by rw [ringOf_of_running hc]
  simp only [State.ringRec, hp, h, hring, hc, Option.isSome_none, Bool.false_eq_true, if_false, Bool.false_and]
  rw [hset] at hctx
  have hx : x = { s.ctx with c := { s.ctx.c with pidx := s.ctx.c.pidx, lost := s.ctx.c.lost || true } } := hctx
  rw [hset]
  refine ⟨trivial, ?_⟩
  constructor <;> simp [State.mapCtx, hx]

/-- What the ring leaves of a context whether it takes the record or not. -/
theorem ringRec_leaves : ∃ p, RingLeaves s (s.ringRec s.ctx d).2 p := by
  cases h : s.recordPlace s.ctx with
  | none => exact ⟨_, (ringRec_of_full hc hp d h).2⟩
  | some x => exact ⟨_, by rw [ringRec_of_place hp d h]; exact (putRecord_spec hc x.2 d).1⟩

end

/-! ### A trap is entered -/

/-- The context acted on with the trap taken off, and its save begun. -/
def saving (s : State) : State := (s.modSeq fun q => { q with trapped := none }).startSave s.ctx.id .trapEntry (s.ctx.sch.stopAt.getD .held)

theorem enterTrap_of_waiting {s : State} {x : Trapped} (hx : s.ctx.q.trapped = some x)
    (h : s.ctx.sch.outRecs ≠ [] ∨ s.recReady s.ctx = false) : s.enterTrap = s := by
  have hcond : (decide (s.ctx.sch.outRecs ≠ []) || !s.recReady s.ctx) = true := by simpa using h
  simp only [State.enterTrap, hx]
  exact if_pos hcond

/-- The trap's record: its bytes, what the ring makes of it, and the holding record. -/
def trapRecord (s : State) (x : Trapped) : RecOut × State :=
  (saving s).ringRec (saving s).ctx (recBytes (saving s).ctx (saving s).time.now (x.record (saving s).ctx.c.sres))

def heldBy (x : Trapped) : RecOut → Option HoldRec
  | .at_ a k => some (x.hold a k)
  | _ => none

/-- The context is held by its record, where the record was written. -/
def holding (s : State) (x : Trapped) : State :=
  let h := heldBy x (trapRecord s x).1
  (trapRecord s x).2.mapCtx (fun c => c.id = s.ctx.id) fun c =>
    if h.isNone && (saving s).ctx.sch.pendRec.isSome then c
    else { c with sch := { c.sch with hold := h, pendHolds := h.isNone || c.sch.pendHolds } }

theorem enterTrap_of_ready {s : State} {x : Trapped} {g : Region} (hx : s.ctx.q.trapped = some x)
    (hout : s.ctx.sch.outRecs = []) (hready : s.recReady s.ctx = true)
    (hreg : (holding s x).region? s.ctx.id.rid = some g) (hpol : g.dom.fpol = 0) : s.enterTrap = holding s x := by
  have hcond : ¬(decide (s.ctx.sch.outRecs ≠ []) || !s.recReady s.ctx) = true := by simp [hout, hready]
  have henter : s.enterTrap = match (holding s x).region? s.ctx.id.rid with
      | some g => if (reaches x.t.cause x.t.detail || (heldBy x (trapRecord s x).1).isNone) && g.dom.fpol ≠ 0 then
          (holding s x).domainStop g 0x10 else holding s x
      | none => holding s x := by
    simp only [State.enterTrap, hx]
    exact if_neg hcond
  rw [henter, hreg]
  exact if_neg (by simp [hpol])

/-- What the entry of a trap leaves of its context: its registers, where it stands, and the trap taken off; its save has begun, and
the ring has PIDX. -/
structure Entering (s t : State) (pidx : W32) : Prop where
  r : t.ctx.r = s.ctx.r
  q : t.ctx.q = { s.ctx.q with trapped := none, cold := Vector.replicate 8 true }
  sres : t.ctx.c.sres = s.ctx.c.sres
  pidx : t.ctx.c.pidx = pidx
  life : t.ctx.sch.life = .saving
  saveEnd : t.ctx.sch.saveEnd = s.ctx.sch.stopAt.getD .held

section
variable {s : State} {x : Trapped} {g : Region} (hlife : s.ctx.sch.life = .resident) (hwatch : s.ctx.watch = none)
  (hcore : s.core.num = s.ctx.core) (hpend : s.ctx.sch.pendRec = none)
include hlife hwatch hcore

theorem saving_recast : ∃ cs sv, saving s = recast s s.iss
    (Ctx.beginSave { s.ctx with q := { s.ctx.q with trapped := none } } .trapEntry (s.ctx.sch.stopAt.getD .held)) cs sv := by
  have hl : s.ctx.sch.life ≠ .none := by rw [hlife]; decide
  obtain ⟨cs, sv, h⟩ := startSave_recast (s := s.modSeq fun q => { q with trapped := none }) hl hwatch hcore .trapEntry
    (s.ctx.sch.stopAt.getD .held)
  exact ⟨cs, sv, h⟩

include hpend

theorem holding_ctx {p : W32} (h : RingLeaves (saving s) (trapRecord s x).2 p) :
    Entering s (holding s x) p ∧ (holding s x).ctx.sch.hold = heldBy x (trapRecord s x).1 ∧
      (holding s x).regions = s.regions := by
  obtain ⟨cs, sv, hs⟩ := saving_recast hlife hwatch hcore
  have hid : (trapRecord s x).2.ctx.id = s.ctx.id := by rw [h.id, hs]; rfl
  have hctx : (holding s x).ctx = { (trapRecord s x).2.ctx with sch := { (trapRecord s x).2.ctx.sch with
      hold := heldBy x (trapRecord s x).1,
      pendHolds := (heldBy x (trapRecord s x).1).isNone || (trapRecord s x).2.ctx.sch.pendHolds } } := by
    have hp : (saving s).ctx.sch.pendRec = none := by rw [hs]; exact hpend
    simp [holding, State.mapCtx, hid, hp]
  refine ⟨⟨?_, ?_, ?_, ?_, ?_, ?_⟩, ?_, ?_⟩
  · rw [hctx]; exact h.r.trans (by rw [hs]; rfl)
  · rw [hctx]; exact h.q.trans (by rw [hs]; rfl)
  · rw [hctx]; exact h.sres.trans (by rw [hs]; rfl)
  · rw [hctx]; exact h.pidx
  · rw [hctx]; exact h.life.trans (by rw [hs]; rfl)
  · rw [hctx]; exact h.saveEnd.trans (by rw [hs]; rfl)
  · rw [hctx]
  · exact h.regions.trans (by rw [hs]; rfl)

end
end Sys2Proof.Proofs.TrapEntries
end

section
open Sys2Proof Sys2Proof.Machine
namespace Sys2Proof.Proofs.TrapEntries
open Lines

/-! ### The record of an entered trap -/

theorem record_congr (c d : Ctx) (hid : d.id = c.id) (hcore : d.core = c.core) (time : W64) (r : Rec) :
    recBytes d time r = recBytes c time r := by
  simp only [recBytes, hid, hcore]

section
variable {s v t : State} {x : Trapped} {sres : BitVec 3} {a : W64} {k : Nat} {p : W32}

/-- An entry whose record stands at its place is what R314, R316 and R317 give. -/
theorem entered_of_entering (h : Entering v t p) (hsch : v.ctx.sch = s.ctx.sch) (hp : p = s.ctx.c.pidx + 1) (hhold : t.ctx.sch.hold = some (x.hold a k))
    (hrec : t.peek k 64 = toBytes 64 (recBytes s.ctx s.time.now (x.record sres)).toNat)
    (hdetail : x.t.detail < 2 ^ 32) (hcause : x.t.cause < 2 ^ 8) (hslot : x.t.slot < 8) : Entered s t x sres.toNat a k := by
  have hnum : leNat (t.peek k 64) = (recBytes s.ctx s.time.now (x.record sres)).toNat := by
    rw [hrec, toBytes, leNat_leBytes, Nat.mod_eq_of_lt (recBytes s.ctx s.time.now (x.record sres)).isLt]
  obtain ⟨r1, r2, r3, r4, r5, r6, r7, r8, r9, r10, r11, r12, r13, r14, r15, r16, r17, r18, r19, r20, r21⟩ :=
    recBytes_says s.ctx s.time.now (x.record sres)
  refine ⟨⟨h.life, by rw [h.saveEnd, hsch], by rw [h.q]⟩, h.pidx.trans hp, by rw [hhold]; rfl, ?_⟩
  rw [hnum]
  exact ⟨r1.trans (Nat.mod_eq_of_lt hcause), r2.trans (Nat.mod_eq_of_lt hslot), r3, r4, r5, r7, r9.trans (Nat.mod_eq_of_lt hdetail),
    r10, r11, r12, r13, r14, r16, r17, r19, r20⟩

end

section
variable {s : State} {x : Trapped} {g : Region} (hlife : s.ctx.sch.life = .resident) (hwatch : s.ctx.watch = none)
  (hcore : s.core.num = s.ctx.core) (hreg : s.region? s.ctx.id.rid = some g) (hpol : g.dom.fpol = 0)
  (hpend : s.ctx.sch.pendRec = none) (hx : s.ctx.q.trapped = some x)
include hlife hwatch hcore hreg hpol hpend hx

/-- The entry of a trap once nothing of its context is outstanding. -/
theorem enterTrap_spec (hout : s.ctx.sch.outRecs = []) (hready : s.recReady s.ctx = true) :
    (∃ p, Entering s s.enterTrap p) ∧
      ∀ a k, s.recordPlace s.ctx = some (a, k) → Entering s s.enterTrap (s.ctx.c.pidx + 1) ∧
        s.enterTrap.ctx.sch.hold = some (x.hold a k) ∧
        s.enterTrap.peek k 64 = toBytes 64 (recBytes s.ctx s.time.now (x.record s.ctx.c.sres)).toNat := by
  obtain ⟨cs, sv, hs⟩ := saving_recast hlife hwatch hcore
  have harea : (saving s).ctx.sch.life.inArea = false := by rw [hs]; rfl
  have hp : (saving s).ctx.sch.pendRec = none := by rw [hs]; exact hpend
  obtain ⟨p, hleaves⟩ := ringRec_leaves harea hp (recBytes (saving s).ctx (saving s).time.now (x.record (saving s).ctx.c.sres))
  obtain ⟨hent, hhold, hregs⟩ := holding_ctx hlife hwatch hcore hpend hleaves
  have hreg' : (holding s x).region? s.ctx.id.rid = some g := by rw [State.region?, hregs]; exact hreg
  rw [enterTrap_of_ready hx hout hready hreg' hpol]
  refine ⟨⟨p, hent⟩, fun a k hplace => ?_⟩
  have halike : RingAlike s.ctx (saving s).ctx := by rw [hs]; exact ⟨⟨by rw [hlife]; rfl, rfl⟩, rfl, rfl, rfl, rfl, rfl⟩
  have hplace' : (saving s).recordPlace (saving s).ctx = some (a, k) := by
    rw [recordPlace_congr halike, ← hplace]
    conv_lhs => rw [hs]
    exact recordPlace_recast _ _ _ _ (by rw [hlife]; rfl)
  have hput : trapRecord s x = (.at_ a k, (saving s).putRecord (saving s).ctx k
      (recBytes s.ctx s.time.now (x.record s.ctx.c.sres))) := by
    rw [trapRecord, ringRec_of_place hp _ hplace', hs]
    rfl
  obtain ⟨hleaves', hpeek⟩ := putRecord_spec harea k (recBytes s.ctx s.time.now (x.record s.ctx.c.sres))
  have hleaves'' : RingLeaves (saving s) (trapRecord s x).2 (s.ctx.c.pidx + 1) := by
    rw [hput]
    rwa [show (saving s).ctx.c.pidx = s.ctx.c.pidx by rw [hs]; rfl] at hleaves'
  obtain ⟨hent', hhold', _⟩ := holding_ctx hlife hwatch hcore hpend hleaves''
  refine ⟨hent', by rw [hhold', hput]; rfl, ?_⟩
  rw [← hpeek, show (holding s x).peek k 64 = (trapRecord s x).2.peek k 64 from rfl, hput]

end

/-! ### A trap stops its context -/

/-- The trap, with the bundle that it stops and the transfer that is pending. -/
def trappedBy (s : State) (t : Trap) : Trapped := { t := t, ba := s.iss.ba, xfer := s.iss.xfer }

/-- The sequencer of a context that a trap has stopped. -/
def stopped (s : State) (t : Trap) : Seqr :=
  { s.ctx.q with reent := none, trapped := some (trappedBy s t), parting := s.iss.parting s.ctx.q.parting }

/-- The state in which the entry of a trap that slot n takes is tried: what the context has written is on its way home. -/
def stoppedBy (s : State) (t : Trap) (n : Nat) : State :=
  withFrame (s.writeBackReach s.ctx.core.toNat 3) s.iss { s.ctx.c with sres := BitVec.ofNat 3 n } (stopped s t)

theorem takeTrap_eq (s : State) (t : Trap) {n : Nat} (hn : t.sres = some n) : s.takeTrap t = (stoppedBy s t n).enterTrap := by
  rw [stoppedBy, ← writeBackReach_withFrame]
  simp only [State.takeTrap, hn]
  rfl

section
variable (s : State) (t : Trap) (n : Nat)

/-- The context acted on as it stops, but for what its watch has seen and the bytes that it waits for. -/
theorem kept_stoppedBy : CtxKept { s.ctx with c := { s.ctx.c with sres := BitVec.ofNat 3 n }, q := stopped s t } (stoppedBy s t n).ctx := by
  have h := (kept_writeBackReach s s.ctx.core.toNat 3).ctx
  exact ⟨by rw [show (stoppedBy s t n).ctx = { (s.writeBackReach s.ctx.core.toNat 3).ctx with
    c := { s.ctx.c with sres := BitVec.ofNat 3 n }, q := stopped s t } from rfl, h.eq], h.watch, h.remote⟩

theorem stoppedBy_regions : (stoppedBy s t n).regions = s.regions := (kept_writeBackReach s s.ctx.core.toNat 3).regions
theorem stoppedBy_time : (stoppedBy s t n).time = s.time := (kept_writeBackReach s s.ctx.core.toNat 3).time
theorem stoppedBy_core : (stoppedBy s t n).core.num = s.core.num := (kept_writeBackReach s s.ctx.core.toNat 3).core

variable (harea : s.ctx.sch.life.inArea = false)
include harea

theorem alike_stoppedBy : RingAlike s.ctx (stoppedBy s t n).ctx := by
  have h := kept_stoppedBy s t n
  exact ⟨⟨harea, by rw [h.sch]; exact harea⟩, h.id, h.core, by rw [h.ctl], by rw [h.ctl], by rw [h.ctl]⟩

theorem recReady_stoppedBy :
    (stoppedBy s t n).recReady (stoppedBy s t n).ctx = (s.writeBackReach s.ctx.core.toNat 3).recReady s.ctx := by
  have h := kept_stoppedBy s t n
  rw [recReady_congr (alike_stoppedBy s t n harea) h.events h.board h.remote]
  exact recReady_withFrame _ _ _ harea

theorem recordPlace_stoppedBy :
    (stoppedBy s t n).recordPlace (stoppedBy s t n).ctx = (s.writeBackReach s.ctx.core.toNat 3).recordPlace s.ctx := by
  rw [recordPlace_congr (alike_stoppedBy s t n harea)]
  exact recordPlace_recast _ _ _ _ harea

end

/-- What a trap that slot n takes leaves of the context acted on, whether it is entered at once or not. -/
structure TrapLeaves (s u : State) (t : Trap) (n : Nat) : Prop where
  sres : u.ctx.c.sres = BitVec.ofNat 3 n
  r : u.ctx.r = s.ctx.r
  pc : u.ctx.q.pc = s.ctx.q.pc
  loops : u.ctx.q.loops = s.ctx.q.loops
  guard : u.ctx.q.guard = s.ctx.q.guard
  waits : s.ctx.sch.outRecs ≠ [] ∨ (s.writeBackReach s.ctx.core.toNat 3).recReady s.ctx = false →
    u.ctx.sch = s.ctx.sch ∧ u.ctx.q.trapped = some (trappedBy s t) ∧ u.ctx.halted = true
  enters : s.ctx.sch.outRecs = [] → (s.writeBackReach s.ctx.core.toNat 3).recReady s.ctx = true →
    ∀ a k, (s.writeBackReach s.ctx.core.toNat 3).recordPlace s.ctx = some (a, k) →
      t.detail < 2 ^ 32 → t.cause < 2 ^ 8 → t.slot < 8 → n < 8 → Entered s u (trappedBy s t) n a k

section
variable {s : State} {t : Trap} {n : Nat} {g : Region} (hn : t.sres = some n)
include hn

theorem trapLeaves_of_waiting (hlife : s.ctx.sch.life = .resident)
    (hwait : s.ctx.sch.outRecs ≠ [] ∨ (s.writeBackReach s.ctx.core.toNat 3).recReady s.ctx = false) :
    TrapLeaves s (s.takeTrap t) t n := by
  have hc := kept_stoppedBy s t n
  have hx : (stoppedBy s t n).ctx.q.trapped = some (trappedBy s t) := by rw [hc.seqr]; rfl
  have harea : s.ctx.sch.life.inArea = false := by rw [hlife]; rfl
  rw [takeTrap_eq s t hn, enterTrap_of_waiting hx (by rwa [hc.sch, recReady_stoppedBy s t n harea])]
  refine ⟨by rw [hc.ctl], hc.regs, by rw [hc.seqr]; rfl, by rw [hc.seqr]; rfl, by rw [hc.seqr]; rfl,
    fun _ => ⟨hc.sch, hx, by simp [Ctx.halted, hx]⟩, fun hout hready => ?_⟩
  exact absurd hready (by simpa [hout] using hwait)

variable (hlife : s.ctx.sch.life = .resident) (hwatch : s.ctx.watch = none) (hcore : s.core.num = s.ctx.core)
  (hreg : s.region? s.ctx.id.rid = some g) (hpol : g.dom.fpol = 0) (hpend : s.ctx.sch.pendRec = none)
include hlife hwatch hcore hreg hpol hpend

theorem trapLeaves_of_ready (hout : s.ctx.sch.outRecs = [])
    (hready : (s.writeBackReach s.ctx.core.toNat 3).recReady s.ctx = true) : TrapLeaves s (s.takeTrap t) t n := by
  have hc := kept_stoppedBy s t n
  have hx : (stoppedBy s t n).ctx.q.trapped = some (trappedBy s t) := by rw [hc.seqr]; rfl
  have harea : s.ctx.sch.life.inArea = false := by rw [hlife]; rfl
  obtain ⟨⟨p, hent⟩, hplaced⟩ := enterTrap_spec (s := stoppedBy s t n) (by rw [hc.sch]; exact hlife) (hc.watch hwatch)
    ((stoppedBy_core s t n).trans (hcore.trans hc.core.symm))
    (by rw [State.region?, stoppedBy_regions, hc.id]; exact hreg) hpol (by rw [hc.sch]; exact hpend) hx
    (by rw [hc.sch]; exact hout) ((recReady_stoppedBy s t n harea).trans hready)
  rw [takeTrap_eq s t hn]
  refine ⟨hent.sres.trans (by rw [hc.ctl]), hent.r.trans hc.regs, by rw [hent.q, hc.seqr]; rfl, by rw [hent.q, hc.seqr]; rfl,
    by rw [hent.q, hc.seqr]; rfl, fun h => ?_, fun _ _ a k hak hdetail hcause hslot hn8 => ?_⟩
  · exact absurd hready (by simpa [hout] using h)
  · obtain ⟨hent', hhold, hpeek⟩ := hplaced a k ((recordPlace_stoppedBy s t n harea).trans hak)
    rw [stoppedBy_time, record_congr s.ctx _ hc.id hc.core, hc.ctl] at hpeek
    have := entered_of_entering hent' hc.sch (by rw [hc.ctl]) hhold hpeek hdetail hcause hslot
    rwa [BitVec.toNat_ofNat, Nat.mod_eq_of_lt hn8] at this

theorem trapLeaves_takeTrap : TrapLeaves s (s.takeTrap t) t n := by
  by_cases h : s.ctx.sch.outRecs ≠ [] ∨ (s.writeBackReach s.ctx.core.toNat 3).recReady s.ctx = false
  · exact trapLeaves_of_waiting hn hlife h
  · obtain ⟨hout, hready⟩ : s.ctx.sch.outRecs = [] ∧ (s.writeBackReach s.ctx.core.toNat 3).recReady s.ctx = true := by
      simpa using h
    exact trapLeaves_of_ready hn hlife hwatch hcore hreg hpol hpend hout hready

end

/-! ### TRAP and TRAP_ENTRY -/

theorem focus_self {s : State} (hlife : s.ctx.sch.life = .resident) (hcore : s.core.num = s.ctx.core)
    (hboot : s.boot.fwerr = false) (hpower : s.power.retained = false) : s.focus s.ctx.id = some s :=
  Cycles.focus_of_focused ⟨rfl, by rw [hcore], hboot, hpower⟩ (by rw [hlife]; decide)

theorem gives_trapEntry_of_trapped {s : State} {x : Trapped} (hfocus : s.focus s.ctx.id = some s)
    (hlife : s.ctx.sch.life = .resident) (hremote : s.ctx.remote = none) (hx : s.ctx.q.trapped = some x) :
    Gives (.trapEntry s.ctx.id) s s.enterTrap := by
  have hexec : exec (.trapEntry s.ctx.id) s = execTrapEntry s.ctx.id s := rfl
  simp [Gives, hexec, execTrapEntry, hfocus, hlife, hremote, hx]

theorem trapEntryRule : TrapEntryRule := by
  intro s g a k hlife hwatch hcore hreg hpol hpend
  refine ⟨?_, ?_⟩
  · intro code hslot x w
    have h := trapLeaves_takeTrap (s := s) (n := s.iss.slot)
      (t := { cause := 0x19, slot := s.iss.slot, sres := some s.iss.slot, detail := code.toNat }) rfl hlife hwatch hcore hreg
      hpol hpend
    refine ⟨_, rfl, ?_, h.pc, h.r, h.loops, fun hout hready hplace => ?_, h.waits⟩
    · exact (congrArg BitVec.toNat h.sres).trans ((BitVec.toNat_ofNat _ _).trans (Nat.mod_eq_of_lt hslot))
    · exact h.enters hout hready a k hplace (lt_trans code.isLt (by decide)) (show 0x19 < 2 ^ 8 by decide) hslot hslot
  · intro x hx hremote hboot hpower
    refine ⟨_, gives_trapEntry_of_trapped (focus_self hlife hcore hboot hpower) hlife hremote hx, ?_, enterTrap_of_waiting hx⟩
    intro hout hready hplace hdetail hcause hslot
    obtain ⟨_, hplaced⟩ := enterTrap_spec hlife hwatch hcore hreg hpol hpend hx hout hready
    obtain ⟨hent, hhold, hpeek⟩ := hplaced a k hplace
    exact ⟨entered_of_entering hent rfl rfl hhold hpeek hdetail hcause hslot, hent.r⟩

/-! ### The guard's trap -/

/-- The boundary before the next bundle, at which the guard's trap comes. -/
def atBoundary (u : State) (b : W64) (rest : List (BitVec 3)) : State :=
  withFrame u { ba := b, xfer := u.ctx.q.reent.join } u.ctx.c { u.ctx.q with guard := rest, pc := b }

theorem gives_trapEntry_of_guard {s u : State} {c : CtxId} {ch : BitVec 3} {rest : List (BitVec 3)} {b : W64} {n : Nat}
    (hfocus : s.focus c = some u) (hguard : u.ctx.q.guard = ch :: rest) (hx : u.ctx.q.trapped = none)
    (hlife : u.ctx.sch.life = .resident) (hremote : u.ctx.remote = none) (hpc : u.findBundle u.ctx.q.pc = .header b n) :
    Gives (.trapEntry c) s ((atBoundary u b rest).takeTrap { cause := 0x18, slot := 0, sres := some 0, detail := ch.toNat }) := by
  have hpads : u.pastPads u.ctx.q.pc = b := by simp [State.pastPads, hpc]
  have hexec : exec (.trapEntry c) s = execTrapEntry c s := rfl
  simp [Gives, hexec, execTrapEntry, hfocus, hlife, hremote, hx, hguard, hpads]
  rfl

theorem guardTrapRule : GuardTrapRule := by
  intro s u c ch rest b n g a k hfocus hguard hx hlife hremote hwatch hpc hcore hreg hpol hpend x w
  have h := trapLeaves_takeTrap (s := atBoundary u b rest) (n := 0)
    (t := { cause := 0x18, slot := 0, sres := some 0, detail := ch.toNat }) rfl hlife hwatch hcore hreg hpol hpend
  have hw : (atBoundary u b rest).writeBackReach u.ctx.core.toNat 3 = withFrame w { ba := b, xfer := u.ctx.q.reent.join } u.ctx.c
      { u.ctx.q with guard := rest, pc := b } := writeBackReach_withFrame ..
  have harea : u.ctx.sch.life.inArea = false := by rw [hlife]; rfl
  have halike : RingAlike u.ctx (atBoundary u b rest).ctx := ⟨⟨harea, harea⟩, rfl, rfl, rfl, rfl, rfl⟩
  have hready : ((atBoundary u b rest).writeBackReach u.ctx.core.toNat 3).recReady (atBoundary u b rest).ctx = w.recReady u.ctx := by
    rw [hw, recReady_congr halike rfl rfl rfl, recReady_withFrame _ _ _ harea]
  have hplace : ((atBoundary u b rest).writeBackReach u.ctx.core.toNat 3).recordPlace (atBoundary u b rest).ctx =
      w.recordPlace u.ctx := by
    rw [hw, recordPlace_congr halike]
    exact recordPlace_recast _ _ _ _ harea
  refine ⟨_, gives_trapEntry_of_guard hfocus hguard hx hlife hremote hpc, h.guard, h.pc, h.sres, h.r, ?_, ?_⟩
  · intro hout hrd hpl
    have he := h.enters hout (hready.trans hrd) a k (hplace.trans hpl) (lt_trans ch.isLt (by decide)) (show 0x18 < 2 ^ 8 by decide)
      (show 0 < 8 by decide) (by decide)
    exact ⟨he.life, he.ring, he.holds, he.record⟩
  · intro hwait
    exact h.waits (hwait.imp id hready.trans)

/-- Settles O32, by what the write-backs and the ring leave of a context whose trap is entered. -/
theorem trapEntries : Obligations.TrapEntries := ⟨trapEntryRule, guardTrapRule⟩

end Sys2Proof.Proofs.TrapEntries
end

section
open Sys2Proof Sys2Proof.Machine
namespace Sys2Proof.Proofs.Accesses

/-! ### The checks of an access (R5, R176, R274) -/

theorem spaceOk_iff (a : W64) : spaceOk a = true ↔
    a.toNat / 2 ^ 60 = 0 ∨ (a.toNat / 2 ^ 60 = 1 ∧ a.toNat % 2 ^ 60 / 2 ^ 48 < 48) ∨
      (a.toNat / 2 ^ 60 = 2 ∧ a.toNat % 2 ^ 60 < 2 ^ 48) ∨ (a.toNat / 2 ^ 60 = 3 ∧ a.toNat % 2 ^ 60 < 2 ^ 57) ∨
      a.toNat / 2 ^ 60 = 4 := by
  unfold spaceOk
  dsimp only
  split <;> rename_i h <;> simp only [Bool.and_eq_true, decide_eq_true_eq, reduceCtorEq, true_iff, false_iff] <;>
    simp only [space, bits] at h ⊢
  case h_6 x h0 h1 h2 h3 =>
    simp only [space, imp_false] at h h0 h1 h2 h3
    omega
  all_goals omega

section
variable (s : State) (own : Nat) (rid : BitVec 32) {a : W64} {n : Nat} (acc : Access)

theorem resolve_of_not_spaceOk (h : spaceOk a = false) : s.resolve own rid a n acc = .error fSpace := by
  simp [State.resolve, h]

theorem resolve_of_misaligned (h : spaceOk a = true) (hn : n ≠ 0) (ha : a.toNat % n ≠ 0) :
    s.resolve own rid a n acc = .error fAlign := by
  simp [State.resolve, h, hn, ha]

variable (h : spaceOk a = true) (ha : n ≠ 0 → a.toNat % n = 0)
include h ha

theorem resolve_own (hs : space a = 0) : s.resolve own rid a n acc =
    ((s.coreAt own).scrKey (a.toNat % 2 ^ 60)).elim (.error fSize) fun k => .ok (.pool own k) := by
  rw [State.resolve, if_neg (by simp [h]), if_neg (by simpa using ha)]
  simp only [hs]
  cases (s.coreAt own).scrKey (a.toNat % 2 ^ 60) <;> rfl

theorem resolve_cluster (hs : space a = 1) : s.resolve own rid a n acc =
    if coreOf1 own a ≠ own ∧ acc.rd = false then .ok (.far (farKey (coreOf1 own a) (bits a.toNat 47 0)))
    else ((s.coreAt (coreOf1 own a)).scrKey (bits a.toNat 47 0)).elim
      (.error (if coreOf1 own a = own then fSize else fRemote)) fun k => .ok (.pool (coreOf1 own a) k) := by
  rw [State.resolve, if_neg (by simp [h]), if_neg (by simpa using ha)]
  simp only [hs, Bool.and_eq_true, decide_eq_true_eq, Bool.not_eq_true']
  congr 1
  cases (s.coreAt (coreOf1 own a)).scrKey (bits a.toNat 47 0) <;> rfl

theorem resolve_virtual (hs : space a = 2) : s.resolve own rid a n acc =
    match s.xlate own rid a.toNat with
    | .error d => .error (fPage d)
    | .ok (pa, leaf) =>
      if (acc.rd = true ∧ leafR leaf = false) ∨ (acc.wr = true ∧ leafW leaf = false) then .error fPerm
      else .ok (.home (seamKey pa) (!leafNC leaf && (s.coreAt own).cchBanks ≠ [])) := by
  rw [State.resolve, if_neg (by simp [h]), if_neg (by simpa using ha)]
  simp only [hs]
  rcases s.xlate own rid a.toNat with d | ⟨pa, leaf⟩
  · rfl
  · simp only [Bool.or_eq_true, Bool.and_eq_true, Bool.not_eq_true']

theorem resolve_host (hs : space a = 3) : s.resolve own rid a n acc =
    match s.hostPage (s.pasidOf rid) (bits a.toNat 56 0 / 4096) with
    | none => .error (fPage 0)
    | some (f, rd, wr) =>
      if (acc.rd = true ∧ rd = false) ∨ (acc.wr = true ∧ wr = false) then .error fPerm
      else .ok (.home (hostKey (f % 2 ^ 45 * 4096 + bits a.toNat 56 0 % 4096)) ((s.coreAt own).cchBanks ≠ [])) := by
  rw [State.resolve, if_neg (by simp [h]), if_neg (by simpa using ha)]
  simp only [hs, State.hostXlate]
  rcases s.hostPage (s.pasidOf rid) (bits a.toNat 56 0 / 4096) with _ | ⟨f, rd, wr⟩
  · rfl
  · simp only [Bool.or_eq_true, Bool.and_eq_true, Bool.not_eq_true']
    split_ifs <;> rfl

theorem resolve_package (hs : space a = 4) :
    s.resolve own rid a n acc = .ok (.home a.toNat ((s.coreAt own).cchBanks ≠ [])) := by
  rw [State.resolve, if_neg (by simp [h]), if_neg (by simpa using ha)]
  simp only [hs]

end

/-- The core that a space-0x1 address names, and the offset there. -/
theorem coreOf1_eq {own : Nat} {a : W64} (h : a.toNat % 2 ^ 60 / 2 ^ 48 < 48) :
    coreOf1 own a = clusterOf own * 48 + a.toNat % 2 ^ 60 / 2 ^ 48 := by
  have hb : bits a.toNat 53 48 = a.toNat % 2 ^ 60 / 2 ^ 48 := by simp only [bits]; omega
  rw [coreOf1, hb]

theorem accessChecksRule : AccessChecksRule := by
  intro s own rid a n acc r sp off fails ok
  have hok : spaceOk a = true ↔ ok := spaceOk_iff a
  have fails_of {f : Failed} (hr : r = .error f) : fails f.cause f.detail := ⟨f, hr, rfl, rfl⟩
  refine ⟨fun h => ?_, fun h hn ha => ?_, fun h ha => ⟨fun hs => ?_, fun hs => ?_, fun hs => ?_, fun hs => ?_, fun hs => ?_⟩⟩
  · exact fails_of (resolve_of_not_spaceOk s own rid acc (by rwa [← hok, Bool.not_eq_true] at h))
  · exact fails_of (resolve_of_misaligned s own rid acc (hok.2 h) hn ha)
  · have hr : r = _ := resolve_own s own rid acc (hok.2 h) ha hs
    split <;> rename_i hk
    · exact fails_of (f := fSize) (by rw [hr, hk]; rfl)
    · rw [hr, hk]; rfl
  · have hlt : off / 2 ^ 48 < 48 := by
      rcases h with h | h | h | h | h
      · omega
      · exact h.2
      all_goals omega
    have hr : r = _ := resolve_cluster s own rid acc (hok.2 h) ha hs
    have hoff : bits a.toNat 47 0 = off % 2 ^ 48 := by simp only [bits, off]; omega
    rw [coreOf1_eq hlt, hoff] at hr
    dsimp only
    by_cases hfar : clusterOf own * 48 + off / 2 ^ 48 ≠ own ∧ acc.rd = false
    · rw [if_pos hfar, hr]
      exact if_pos hfar
    · rw [if_neg hfar] at hr ⊢
      split <;> rename_i hk <;> rw [hk] at hr
      · by_cases ht : clusterOf own * 48 + off / 2 ^ 48 = own
        · rw [if_pos ht]
          exact fails_of (f := fSize) (by rw [hr]; exact congrArg Except.error (if_pos ht))
        · rw [if_neg ht]
          exact fails_of (f := fRemote) (by rw [hr]; exact congrArg Except.error (if_neg ht))
      · exact hr
  · have hr : r = _ := resolve_virtual s own rid acc (hok.2 h) ha hs
    split <;> rename_i hx <;> rw [hx] at hr
    · exact fails_of (f := fPage _) hr
    · dsimp only at hr
      split_ifs with hp
      · exact fails_of (f := fPerm) (by rw [hr, if_pos hp])
      · rw [hr, if_neg hp]
  · have hr : r = _ := resolve_host s own rid acc (hok.2 h) ha hs
    have hoff : bits a.toNat 56 0 = off % 2 ^ 57 := by simp only [bits, off]; omega
    have hlow : bits a.toNat 56 0 % 4096 = a.toNat % 4096 := by simp only [bits]; omega
    rw [hlow, hoff] at hr
    split <;> rename_i hx <;> rw [hx] at hr
    · exact fails_of (f := fPage 0) hr
    · dsimp only at hr
      split_ifs with hp
      · exact fails_of (f := fPerm) (by rw [hr, if_pos hp])
      · rw [hr, if_neg hp]
  · exact resolve_package s own rid acc (hok.2 h) ha hs

end Sys2Proof.Proofs.Accesses
end

section
open Sys2Proof Sys2Proof.Machine
namespace Sys2Proof.Proofs.Accesses
open Lines MemoryBytes

/-! ### Bytes of numbers and lines -/

theorem bits_bytes (x j : Nat) {n : Nat} (hn : 0 < n) : bits x (8 * (j + n) - 1) (8 * j) = x / 2 ^ (8 * j) % 2 ^ (8 * n) := by
  rw [bits, show 8 * (j + n) - 1 + 1 - 8 * j = 8 * n by omega]

theorem leNat_drop (bs : List Byte) (j : Nat) : leNat (bs.drop j) = leNat bs / 2 ^ (8 * j) := by
  induction j generalizing bs with
  | zero => simp
  | succ j ih =>
    cases bs with
    | nil => simp [leNat]
    | cons b bs =>
      rw [List.drop_succ_cons, ih, leNat, Nat.mul_succ, Nat.add_comm (8 * j), Nat.pow_add, ← Nat.div_div_eq_div_mul]
      have hb := b.isLt
      congr 1
      omega

theorem leNat_take (bs : List Byte) (n : Nat) : leNat (bs.take n) = leNat bs % 2 ^ (8 * n) := by
  induction n generalizing bs with
  | zero => simp [leNat, Nat.mod_one]
  | succ n ih =>
    cases bs with
    | nil => simp [leNat]
    | cons b bs =>
      have hb := b.isLt
      rw [List.take_succ_cons, leNat, ih, leNat, Nat.mul_succ, Nat.add_comm (8 * n), Nat.pow_add, Nat.mod_mul]
      congr 1
      · omega
      · congr 2
        omega

theorem leNat_lt (bs : List Byte) : leNat bs < 2 ^ (8 * bs.length) := by
  have h := leNat_take bs bs.length
  rw [List.take_length] at h
  rw [h]
  exact Nat.mod_lt _ (Nat.two_pow_pos _)

/-- Byte i of a list as its number holds it. -/
theorem byte_leNat {bs : List Byte} {i : Nat} (h : i < bs.length) : BitVec.ofNat 8 (leNat bs / 2 ^ (8 * i)) = bs[i] := by
  have hb := bs[i].isLt
  rw [← leNat_drop, List.drop_eq_getElem_cons h, leNat]
  refine BitVec.eq_of_toNat_eq ?_
  rw [BitVec.toNat_ofNat]
  omega

theorem lineByte_ofBytes {bs : List Byte} (hbs : bs.length = 64) {i : Nat} (h : i < 64) :
    lineByte (ofBytes 512 bs) i = bs[i]'(by omega) := by
  have hlt := leNat_lt bs
  rw [hbs] at hlt
  rw [lineByte_eq, ofBytes, BitVec.toNat_ofNat, Nat.mod_eq_of_lt hlt, byte_leNat]

theorem lineByte_mergeLine (old new : BitVec 512) (m : BitVec 64) {i : Nat} (h : i < 64) :
    lineByte (mergeLine old new m) i = if m.getLsbD i then lineByte new i else lineByte old i := by
  rw [mergeLine, lineByte_ofBytes (by simp) h]
  simp

theorem mergeLine_zero (old new : BitVec 512) : mergeLine old new 0 = old := by
  have hbytes : ((List.range 64).map fun i => if (0 : BitVec 64).getLsbD i then lineByte new i else lineByte old i) =
      toBytes 64 old.toNat := by
    rw [toBytes, leBytes_eq_map]
    exact List.map_congr_left fun i hi => by simp [lineByte_eq]
  rw [mergeLine, hbytes, ofBytes_toBytes]

@[simp] theorem length_readRun (n k : Nat) (m : List Host.Cell) : (readRun n k m).length = n := by simp [readRun_eq_map]

/-- A run of bytes inside a longer one. -/
theorem peek_inside (s : State) {k j n N : Nat} (h : j + n ≤ N) : ((s.peek k N).drop j).take n = s.peek (k + j) n := by
  rw [State.peek, State.peek, readRun_eq_map, readRun_eq_map]
  refine List.ext_getElem (by simp; omega) fun i h1 h2 => ?_
  simp [Nat.add_assoc]

theorem lineOf_add_mod (k : Nat) : lineOf k + k % 64 = k := by rw [lineOf]; omega

theorem lineOf_div (k : Nat) : lineOf k / 2 ^ 60 = k / 2 ^ 60 := by rw [lineOf]; omega

/-! ### Masks -/

theorem testBit_packEl {w : Nat} (l : List Nat) (i : Nat) {r : Nat} (h : r < w) :
    (packEl w l).testBit (w * i + r) = (l[i]?.getD 0).testBit r := by
  have hd := congrArg (fun x => x.testBit r) (packEl_div_mod w l i)
  simpa [Nat.testBit_div_two_pow, Nat.testBit_mod_two_pow, h, Nat.add_comm] using hd

theorem getLsbD_maskOf {j n i : Nat} (hi : i < 64) : (maskOf j n).getLsbD i = (decide (j ≤ i) && decide (i < j + n)) := by
  rw [maskOf, BitVec.getLsbD_ofNat, Nat.testBit_mul_two_pow, Nat.testBit_two_pow_sub_one]
  by_cases h : j ≤ i
  · simp [hi, h, show i - j < n ↔ i < j + n by omega]
  · simp [h]

theorem ne_zero_iff {x : BitVec 64} : x ≠ 0 ↔ ∃ i < 64, x.getLsbD i = true := by
  constructor
  · intro h
    by_contra hn
    push Not at hn
    exact h (BitVec.eq_of_getLsbD_eq fun i hi => by simpa using hn i hi)
  · rintro ⟨i, hi, h⟩ rfl
    simp at h

/-- Bytes of an access to a line that a mask has. -/
theorem maskOf_and_ne_zero {j n : Nat} (hjn : j + n ≤ 64) (x : BitVec 64) :
    maskOf j n &&& x ≠ 0 ↔ ∃ i < n, x.getLsbD (j + i) = true := by
  rw [ne_zero_iff]
  constructor
  · rintro ⟨i, hi, h⟩
    rw [BitVec.getLsbD_and, getLsbD_maskOf hi] at h
    simp only [Bool.and_eq_true, decide_eq_true_eq] at h
    exact ⟨i - j, by omega, by rw [Nat.add_sub_cancel' h.1.1]; exact h.2⟩
  · rintro ⟨i, hi, h⟩
    refine ⟨j + i, by omega, ?_⟩
    rw [BitVec.getLsbD_and, getLsbD_maskOf (by omega), h]
    simp [hi]

/-- The bytes of a line that are uncorrectable at its home. -/
def badMask (s : State) (k : Nat) : BitVec 64 :=
  BitVec.ofNat 64 (packEl 8 ((List.range 8).map fun u => if s.isBad (k + 8 * u) 8 then 255 else 0))

theorem isBad_iff (s : State) (k n : Nat) : s.isBad k n = true ↔ ∃ u ∈ s.bad, u * 8 < k + n ∧ k < u * 8 + 8 := by
  simp [State.isBad]

theorem getLsbD_badMask (s : State) (k : Nat) {i : Nat} (hi : i < 64) :
    (badMask s (lineOf k)).getLsbD i = s.isBad (lineOf k + i) 1 := by
  have hbit : (badMask s (lineOf k)).getLsbD i = s.isBad (lineOf k + 8 * (i / 8)) 8 := by
    have h8 : i % 8 < 8 := Nat.mod_lt _ (by decide)
    have h := testBit_packEl ((List.range 8).map fun u => if s.isBad (lineOf k + 8 * u) 8 then 255 else 0) (i / 8) h8
    rw [Nat.div_add_mod] at h
    rw [badMask, BitVec.getLsbD_ofNat, h, List.getElem?_map, List.getElem?_range (by omega)]
    have h255 : Nat.testBit 255 (i % 8) = true := by
      rw [show 255 = 2 ^ 8 - 1 from rfl, Nat.testBit_two_pow_sub_one]
      simpa using h8
    cases hb : s.isBad (lineOf k + 8 * (i / 8)) 8 <;> simp [hi, h255, hb]
  rw [hbit, Bool.eq_iff_iff, isBad_iff, isBad_iff, lineOf]
  refine exists_congr fun u => and_congr_right fun _ => ?_
  omega

/-- An access to a line has uncorrectable data where one of its bytes is uncorrectable. -/
theorem isBad_iff_byte (s : State) (k : Nat) {n : Nat} (hn : 0 < n) :
    s.isBad k n = true ↔ ∃ i < n, s.isBad (k + i) 1 = true := by
  simp only [isBad_iff]
  constructor
  · rintro ⟨u, hu, h1, h2⟩
    refine ⟨u * 8 - k, by omega, u, hu, by omega, by omega⟩
  · rintro ⟨i, hi, u, hu, h1, h2⟩
    exact ⟨u, hu, by omega, by omega⟩

/-! ### A read at a place (R176, R278, R281) -/

theorem homeView_of_package {s : State} {k : Nat} (hk : k / 2 ^ 60 ≠ 4) :
    s.homeView (lineOf k) = .line (ofBytes 512 (s.peek (lineOf k) 64)) (badMask s (lineOf k)) := by
  have hline : s.homeLine (lineOf k) = some (ofBytes 512 (s.peek (lineOf k) 64), badMask s (lineOf k)) := by
    rw [State.homeLine]
    exact if_neg (by rwa [lineOf_div])
  simp [State.homeView, hline]

theorem homeView_of_device {s : State} (hr : s.ctx.remote = none) {k : Nat} (hk : k / 2 ^ 60 = 4) (hdev : devOf (BitVec.ofNat 64 (lineOf k)) ≠ s.mgmt.devid) :
    s.homeView (lineOf k) = .ask := by
  have hline : s.homeLine (lineOf k) = none := by
    rw [State.homeLine]
    dsimp only
    rw [lineOf_div, if_pos hk, if_neg hdev, hr]
  simp [State.homeView, hline, hdev, hr]

/-- What the cache role holds of a line that it may have: its bytes, which of them it holds, and which are dirty. -/
def heldOf (cl : Option Line) : BitVec 64 := (cl.map fun l => l.held).getD 0
def dataOf (cl : Option Line) : BitVec 512 := (cl.map fun l => l.data).getD 0
def dirtyOf (cl : Option Line) : BitVec 64 := (cl.map fun l => l.dirty).getD 0

section
variable (s : State) (a : W64) (k n : Nat) (cached : Bool) {cl : Option Line}
  (hcl : (if cached then s.lineSeen (lineOf k) else none) = cl)

/-- The state that a read of a line at its home leaves: the line joins the cache role. -/
def joined (s : State) (a : W64) (k : Nat) (cached : Bool) (d : BitVec 512) (m : BitVec 64) : State :=
  if cached && s.ctx.remote.isNone then
    s.cachePut s.me s.ctx.id (a - BitVec.ofNat 64 (k % 64)) (lineOf k) d m false none
  else s

include hcl

theorem readPlace_of_held (h : maskOf (k % 64) n &&& ~~~heldOf cl = 0) :
    s.readPlace (.home k cached) a n =
      (.val (bits (dataOf cl).toNat (8 * (k % 64 + n) - 1) (8 * (k % 64))) false, s) := by
  subst hcl
  exact if_pos h

theorem readPlace_of_line (h : maskOf (k % 64) n &&& ~~~heldOf cl ≠ 0) {d : BitVec 512} {bad : BitVec 64}
    (hv : s.homeView (lineOf k) = .line d bad) :
    s.readPlace (.home k cached) a n =
      (.val (bits (mergeLine d (dataOf cl) (dirtyOf cl)).toNat (8 * (k % 64 + n) - 1) (8 * (k % 64)))
        (bad &&& maskOf (k % 64) n &&& ~~~dirtyOf cl ≠ 0), joined s a k cached d (~~~dirtyOf cl &&& ~~~bad)) := by
  subst hcl
  rw [State.readPlace]
  refine (if_neg h).trans ?_
  rw [hv]
  rfl

theorem readPlace_of_ask (h : maskOf (k % 64) n &&& ~~~heldOf cl ≠ 0) (hv : s.homeView (lineOf k) = .ask) :
    s.readPlace (.home k cached) a n = (.ask (lineOf k), s) := by
  subst hcl
  rw [State.readPlace]
  refine (if_neg h).trans ?_
  rw [hv]

end

/-- Some of the bytes of an access are not held. -/
theorem missing_iff {k n : Nat} (hkn : k % 64 + n ≤ 64) (cl : Option Line) :
    maskOf (k % 64) n &&& ~~~heldOf cl ≠ 0 ↔ ∃ i < n, (heldOf cl).getLsbD (k % 64 + i) = false := by
  rw [maskOf_and_ne_zero hkn]
  refine exists_congr fun i => and_congr_right fun hi => ?_
  simp [show k % 64 + i < 64 by omega]

/-- The bytes of an access at its home, as the home's line holds them. -/
theorem bits_line_eq_peek (s : State) {k n : Nat} (hn : 0 < n) (hkn : k % 64 + n ≤ 64) :
    bits (ofBytes 512 (s.peek (lineOf k) 64)).toNat (8 * (k % 64 + n) - 1) (8 * (k % 64)) = leNat (s.peek k n) := by
  have hlt := leNat_lt (s.peek (lineOf k) 64)
  rw [show (s.peek (lineOf k) 64).length = 64 from length_readRun _ _ _] at hlt
  rw [bits_bytes _ _ hn, ofBytes, BitVec.toNat_ofNat, Nat.mod_eq_of_lt hlt, ← leNat_drop, ← leNat_take, peek_inside s hkn, lineOf_add_mod]

/-- Whether uncorrectable bytes of the home come into a read: those that are not dirty in the cache role. -/
theorem badMask_and_ne_zero (s : State) {k n : Nat} (hkn : k % 64 + n ≤ 64) (own : BitVec 64) :
    badMask s (lineOf k) &&& maskOf (k % 64) n &&& ~~~own ≠ 0 ↔
      ∃ i < n, own.getLsbD (k % 64 + i) = false ∧ s.isBad (k + i) 1 = true := by
  rw [BitVec.and_comm (badMask s (lineOf k)), BitVec.and_assoc, maskOf_and_ne_zero hkn]
  refine exists_congr fun i => and_congr_right fun hi => ?_
  have h64 : k % 64 + i < 64 := by omega
  rw [BitVec.getLsbD_and, getLsbD_badMask s k h64, ← Nat.add_assoc, lineOf_add_mod]
  simp [h64, and_comm]

theorem readPlace_past_home (s : State) (a : W64) {k n : Nat} (hn : 0 < n) (hkn : k % 64 + n ≤ 64) (hk : k / 2 ^ 60 ≠ 4) :
    s.readPlace (.home k false) a n = (.val (leNat (s.peek k n)) (s.isBad k n), s) := by
  have hmiss := (missing_iff hkn none).2 ⟨0, hn, by simp [heldOf]⟩
  have hbad : decide (badMask s (lineOf k) &&& maskOf (k % 64) n &&& ~~~dirtyOf none ≠ 0) = s.isBad k n := by
    rw [Bool.eq_iff_iff, decide_eq_true_iff, badMask_and_ne_zero s hkn, isBad_iff_byte s k hn]
    simp [dirtyOf]
  rw [readPlace_of_line s a k n false (cl := none) rfl hmiss (homeView_of_package hk), hbad,
    show dirtyOf none = 0 from rfl, mergeLine_zero, bits_line_eq_peek s hn hkn]
  rfl

theorem readPlace_past_device {s : State} (hr : s.ctx.remote = none) (a : W64) {k n : Nat} (hn : 0 < n) (hkn : k % 64 + n ≤ 64)
    (hk : k / 2 ^ 60 = 4) (hdev : devOf (BitVec.ofNat 64 (lineOf k)) ≠ s.mgmt.devid) :
    s.readPlace (.home k false) a n = (.ask (lineOf k), s) :=
  readPlace_of_ask s a k n false (cl := none) rfl ((missing_iff hkn none).2 ⟨0, hn, by simp [heldOf]⟩)
    (homeView_of_device hr hk hdev)

theorem lineSeen_of_remote_none {s : State} (hr : s.ctx.remote = none) (l : Nat) : s.lineSeen l = s.core.findLine l := by
  simp [State.lineSeen, hr]

theorem readPlace_in_cache {s : State} (hr : s.ctx.remote = none) (a : W64) {k n : Nat} (hn : 0 < n) (hkn : k % 64 + n ≤ 64)
    {l : Line} (hl : s.core.findLine (lineOf k) = some l) (hheld : ∀ i < n, l.held.getLsbD (k % 64 + i) = true) :
    s.readPlace (.home k true) a n = (.val (l.data.toNat / 2 ^ (8 * (k % 64)) % 2 ^ (8 * n)) false, s) := by
  have hcl : (if true then s.lineSeen (lineOf k) else none) = some l := (lineSeen_of_remote_none hr _).trans hl
  have hall : maskOf (k % 64) n &&& ~~~heldOf (some l) = 0 := by
    by_contra h
    obtain ⟨i, hi, hf⟩ := (missing_iff hkn (some l)).1 h
    have ht : (heldOf (some l)).getLsbD (k % 64 + i) = true := hheld i hi
    rw [hf] at ht
    cases ht
  rw [readPlace_of_held s a k n true hcl hall, bits_bytes _ _ hn]
  rfl

theorem kept_makeRoom (s : State) (core : Nat) : Kept s (s.makeRoom core).1 := by
  unfold State.makeRoom
  dsimp only
  split
  · exact .refl s
  · split
    · exact kept_evict s core _
    · exact .refl s

theorem kept_cachePut (s : State) (core : Nat) (id : CtxId) (va : W64) (k : Nat) (d : BitVec 512) (m : BitVec 64) (dirty : Bool)
    (mark : Option Mark) : Kept s (s.cachePut core id va k d m dirty mark) := by
  unfold State.cachePut
  dsimp only
  split
  · exact kept_putCore s _
  · exact (kept_makeRoom s core).trans (kept_putCore _ _)

theorem kept_joined (s : State) (a : W64) (k : Nat) (cached : Bool) (d : BitVec 512) (m : BitVec 64) :
    Kept s (joined s a k cached d m) := by
  unfold joined
  split_ifs
  · exact kept_cachePut s _ _ _ _ _ _ _ _
  · exact .refl s

theorem getLsbD_dirtyOf (cl : Option Line) (i : Nat) : (dirtyOf cl).getLsbD i = cl.any fun l => l.dirty.getLsbD i := by
  cases cl <;> simp [dirtyOf]

theorem readPlace_through_cache {s : State} (hr : s.ctx.remote = none) (a : W64) {k n : Nat} (hn : 0 < n) (hkn : k % 64 + n ≤ 64)
    (hk : k / 2 ^ 60 ≠ 4) {cl : Option Line} (hl : s.core.findLine (lineOf k) = cl)
    (hmiss : ∃ i < n, (heldOf cl).getLsbD (k % 64 + i) = false) :
    ∃ (x : Nat) (bad : Bool) (t : State), s.readPlace (.home k true) a n = (.val x bad, t) ∧ x < 2 ^ (8 * n) ∧
      (∀ i < n, BitVec.ofNat 8 (x / 2 ^ (8 * i)) =
        if (dirtyOf cl).getLsbD (k % 64 + i) then lineByte (dataOf cl) (k % 64 + i) else readByte s.mem (k + i)) ∧
      (bad = true ↔ ∃ i < n, (dirtyOf cl).getLsbD (k % 64 + i) = false ∧ s.isBad (k + i) 1 = true) ∧ t.ctx.r = s.ctx.r := by
  have hcl : (if true then s.lineSeen (lineOf k) else none) = cl := (lineSeen_of_remote_none hr _).trans hl
  refine ⟨_, _, _, readPlace_of_line s a k n true hcl ((missing_iff hkn cl).2 hmiss) (homeView_of_package hk), ?_, ?_, ?_,
    (kept_joined s _ _ _ _ _).ctx.regs⟩
  · rw [bits_bytes _ _ hn]
    exact Nat.mod_lt _ (Nat.two_pow_pos _)
  · intro i hi
    have h64 : k % 64 + i < 64 := by omega
    have hbyte (d : BitVec 512) : BitVec.ofNat 8 (d.toNat / 2 ^ (8 * (k % 64)) % 2 ^ (8 * n) / 2 ^ (8 * i)) =
        lineByte d (k % 64 + i) := by
      rw [lineByte_eq, Nat.mul_add, Nat.pow_add, ← Nat.div_div_eq_div_mul]
      refine BitVec.eq_of_toNat_eq ?_
      rw [BitVec.toNat_ofNat, BitVec.toNat_ofNat, show 8 * n = 8 * i + (8 + 8 * (n - i - 1)) by omega, Nat.pow_add,
        Nat.mod_mul_right_div_self, Nat.pow_add, Nat.mod_mul_right_mod]
    have hpeek : (s.peek (lineOf k) 64).length = 64 := length_readRun _ _ _
    have hhome : lineByte (ofBytes 512 (s.peek (lineOf k) 64)) (k % 64 + i) = readByte s.mem (k + i) := by
      rw [lineByte_ofBytes hpeek h64]
      simp only [State.peek, readRun_eq_map, List.getElem_map, List.getElem_range]
      rw [← Nat.add_assoc, lineOf_add_mod]
    rw [bits_bytes _ _ hn, hbyte, lineByte_mergeLine _ _ _ h64, hhome]
  · rw [decide_eq_true_iff, badMask_and_ne_zero s hkn]

theorem readPlacesRule : ReadPlacesRule := by
  intro s a k n c hr line
  have hpool : s.poolSeen k n = (leNat (s.peek k n), s.isBad k n) := by simp [State.poolSeen, hr]
  refine ⟨by rw [State.readPlace, hpool], fun hn hkn => ⟨readPlace_past_home s a hn hkn, readPlace_past_device hr a hn hkn,
    fun l hl => readPlace_in_cache hr a hn hkn hl, fun hk hmiss => ?_⟩⟩
  have hmiss' : ∃ i < n, (heldOf line).getLsbD (k % 64 + i) = false := by
    cases hl : line with
    | none => exact ⟨0, hn, by simp [heldOf]⟩
    | some l => exact hmiss l hl
  obtain ⟨x, bad, t, hread, hx, hbytes, hbad, hregs⟩ := readPlace_through_cache hr a hn hkn hk (cl := line) rfl hmiss'
  simp only [getLsbD_dirtyOf] at hbytes hbad
  exact ⟨x, bad, t, hread, hx, hbytes, hbad, hregs⟩

end Sys2Proof.Proofs.Accesses
end

section
open Sys2Proof Sys2Proof.Machine
namespace Sys2Proof.Proofs.Accesses
open Lines MemoryBytes

/-! ### One scalar register written -/

theorem vget_vset_ne {α : Type} [Inhabited α] {n i j : Nat} (h : i ≠ j) (v : Vector α n) (a : α) :
    vget (vset v i a) j = vget v j := by
  simp [vget, vset, Vector.getElem?_setIfInBounds_ne h]

theorem getLsbD_setBit {w : Nat} (x : BitVec w) (i : Nat) (b : Bool) {j : Nat} (hj : j < w) :
    (setBit x i b).getLsbD j = if j = i then b else x.getLsbD j := by
  have hone : (1#w <<< i).getLsbD j = decide (j = i) := by
    rw [BitVec.getLsbD_shiftLeft, BitVec.getLsbD_one, Bool.eq_iff_iff]
    simp only [Bool.and_eq_true, Bool.not_eq_true', decide_eq_true_eq, decide_eq_false_iff_not]
    exact ⟨fun h => by omega, fun h => by omega⟩
  cases b
  · rw [setBit, if_neg (by decide), BitVec.getLsbD_and, BitVec.getLsbD_not, hone]
    by_cases hji : j = i <;> simp [hji, hj]
  · rw [setBit, if_pos rfl, BitVec.getLsbD_or, hone]
    by_cases hji : j = i <;> simp [hji]

section
variable (s : State) (d : R6) (v : W64) (p : Bool) (lat : Nat)

/-- A result of a scalar that is on its way changes nothing but the board. -/
theorem pend_s_eq (n lat : Nat) (was : Bool) : ∃ bs : List Pend, s.pend (.s n) lat was = s.modCtx (fun c => { c with board := bs }) ∧
    ∀ x : Pend, x.dst ≠ Dest.s n → (x ∈ bs ↔ x ∈ s.ctx.board) := by
  refine ⟨_, rfl, fun x hx => ?_⟩
  have hkept : (x ∈ s.ctx.board.filter fun y => y.dst ≠ Dest.s n || (Dest.s n).inOrder) ↔ x ∈ s.ctx.board := by
    simp [hx]
  by_cases hdue : s.core.cycle + lat ≤ s.core.cycle + 1
  · exact (iff_of_eq (congrArg (x ∈ ·) (if_pos hdue))).trans hkept
  · refine (iff_of_eq (congrArg (x ∈ ·) (if_neg hdue))).trans ?_
    rw [List.mem_append, hkept]
    refine or_iff_left fun h => hx ?_
    rw [List.mem_singleton.1 h]

/-- What the write of a scalar register does to the context acted on. -/
theorem wrS_eq (hd : d ≠ 0) : ∃ bs : List Pend, s.wrS d v p lat = { s with ctx := { s.ctx with r := s.ctx.r.putS d v p, board := bs } } ∧
    ∀ x : Pend, x.dst ≠ Dest.s d.toNat → (x ∈ bs ↔ x ∈ s.ctx.board) := by
  rw [State.wrS, if_neg hd]
  exact pend_s_eq (s.modRegs fun r => r.putS d v p) _ _ _

theorem sameWorld_ctx (c : Ctx) : SameWorld s { s with ctx := c } :=
  ⟨⟨fun _ => rfl, rfl, rfl, rfl, rfl⟩, ⟨rfl, rfl, rfl, rfl, rfl, rfl, rfl, rfl, rfl, rfl⟩, rfl, rfl, rfl, rfl⟩

theorem onlyScalar_refl : OnlyScalar d s s :=
  ⟨sameWorld_ctx s s.ctx, ⟨rfl, rfl, rfl, rfl, rfl, rfl, rfl, rfl, rfl, rfl, rfl, rfl, rfl, rfl⟩, rfl, rfl, ⟨rfl, rfl, rfl, rfl⟩,
    fun _ _ => ⟨rfl, rfl⟩, fun _ _ => ⟨rfl, rfl⟩, fun _ _ => ⟨rfl, rfl⟩, List.prefix_refl _, fun _ _ => Iff.rfl, rfl, rfl⟩

theorem onlyScalar_wrS : OnlyScalar d s (s.wrS d v p lat) := by
  by_cases hd : d = 0
  · rw [State.wrS, if_pos hd]
    exact onlyScalar_refl s d
  · obtain ⟨bs, heq, hbs⟩ := wrS_eq s d v p lat hd
    have hput : s.ctx.r.putS d v p = { s.ctx.r with s := vset s.ctx.r.s d.toNat v, sp := setBit s.ctx.r.sp d.toNat p } := if_neg hd
    rw [heq, hput]
    refine ⟨sameWorld_ctx s _, ⟨rfl, rfl, rfl, rfl, rfl, rfl, rfl, rfl, rfl, rfl, rfl, rfl, rfl, rfl⟩, rfl, rfl,
      ⟨rfl, rfl, rfl, rfl⟩, fun n hn => ?_, fun _ _ => ⟨rfl, rfl⟩, fun _ _ => ⟨rfl, rfl⟩, List.prefix_refl _, hbs, rfl, rfl⟩
    by_cases h0 : n = 0
    · simp [State.sNow, State.sPoison, h0]
    · have hnd : n ≠ d := hn.resolve_right h0
      have hne : d.toNat ≠ n.toNat := fun h => hnd (BitVec.eq_of_toNat_eq h).symm
      simp only [State.sNow, State.sPoison, if_neg h0, vget_vset_ne hne, getLsbD_setBit _ _ _ n.isLt, if_neg hne.symm, and_self]

theorem sPoison_wrS (hd : d ≠ 0) : (s.wrS d v p lat).sPoison d = p := by
  obtain ⟨bs, heq, -⟩ := wrS_eq s d v p lat hd
  have hput : s.ctx.r.putS d v p = { s.ctx.r with s := vset s.ctx.r.s d.toNat v, sp := setBit s.ctx.r.sp d.toNat p } := if_neg hd
  rw [heq, hput]
  simpa [State.sPoison, getLsbD_setBit _ _ _ d.isLt] using fun _ => hd

end

/-! ### What the approach of an access and an acquire keep -/

section
variable (s : State) (core : Nat)

theorem kept_dropOld (k : Nat) (m : BitVec 64) : Kept s (s.dropOld core k m) := kept_putCore s _

theorem kept_dropClean (sco : BitVec 2) : Kept s (s.dropClean core sco) := kept_putCore s _

theorem kept_land (f : Flight) (hk : Nat) : Kept s (s.land core f hk) := by
  unfold State.land
  dsimp only
  refine (kept_putCore s { s.coreAt core with flight := (s.coreAt core).flight.filter fun g => g.seq ≠ f.seq }).trans ?_
  split_ifs
  · exact kept_perform _ _ _ _ _
  · exact (kept_dropOld _ _ _ _).trans (kept_perform _ _ _ _ _)

theorem kept_settleOne (f : Flight) : Kept s (s.settleOne core f) := by
  unfold State.settleOne
  split
  · split_ifs
    · exact .refl s
    · exact kept_land s core f _
  · exact .refl s

theorem kept_foldl {α : Type} {f : State → α → State} (h : ∀ s x, Kept s (f s x)) (xs : List α) (s : State) :
    Kept s (xs.foldl f s) := by
  induction xs generalizing s with
  | nil => exact .refl s
  | cons x xs ih => exact (h s x).trans (ih _)

theorem kept_settle (id : CtxId) (k : Nat) : Kept s (s.settle core id k) :=
  kept_foldl (fun s f => kept_settleOne s core f) _ s

theorem kept_unalias (k : Nat) : Kept s (s.unalias core k) := kept_foldl (fun s (l : Line) => kept_evict s core l.key) _ s

theorem kept_approach (p : Place) : Kept s (s.approach p) := by
  cases p with
  | pool c k => exact kept_settle s _ _ _
  | far k => exact .refl s
  | home k cached =>
    refine (kept_unalias s s.me (lineOf k)).trans (Kept.trans ?_ (kept_settle _ _ _ _))
    split_ifs
    · exact .refl _
    · exact kept_evict _ _ _

theorem me_of_kept {s t : State} (h : Kept s t) : t.me = s.me := congrArg BitVec.toNat h.core
theorem rid_of_kept {s t : State} (h : Kept s t) : t.rid = s.rid := congrArg CtxId.rid h.ctx.id

end

/-! ### The checks of one element, and what holds an access -/

theorem waits_of_free {s : State} {b : Bool} (h : s.iss.ready = true ∨ b = false) : s.waits b = false := by
  rcases h with h | h <;> simp [State.waits, h]

section
variable {s : State} {acc : Access} {n : Nat} {e : Elem}

theorem checkElem_false (s : State) (acc : Access) (n : Nat) (e : Elem) :
    s.checkElem acc n false e = s.resolve s.me s.rid e.addr n acc := by
  unfold State.checkElem
  split <;> rename_i h <;> simp [h]

theorem checkElems_one_ok {p : Place} (h : s.resolve s.me s.rid e.addr n acc = .ok p) :
    s.checkElems acc n false [e] = .ok [(e, p)] := by
  simp [State.checkElems, checkElem_false, h]

theorem checkElems_one_error {f : Failed} (h : s.resolve s.me s.rid e.addr n acc = .error f) :
    s.checkElems acc n false [e] = .error { why := f, elems := [e] } := by
  simp [State.checkElems, checkElem_false, h]

end

theorem walkHeld_ok {s : State} {es : List Elem} {ps : List (Elem × Place)} (h : ∀ e ∈ es, Walks s e.addr) :
    s.waits (s.walkHeld es (.ok ps)) = false := by
  refine waits_of_free ?_
  by_cases hr : s.iss.ready = true
  · exact .inl hr
  · refine .inr ?_
    simp only [State.walkHeld, Bool.true_and, List.any_eq_false, Bool.not_eq_true]
    exact fun e he => (h e he).resolve_left hr

theorem walkHeld_error {s : State} {es : List Elem} {f : Fail} (h : ∀ e ∈ es, Checked s e.addr f.why) :
    s.waits (s.walkHeld es (.error f)) = false := by
  refine waits_of_free ?_
  by_cases hr : s.iss.ready = true
  · exact .inl hr
  · refine .inr ?_
    simp only [State.walkHeld, Bool.and_eq_false_iff, decide_eq_false_iff_not, Nat.not_le, List.any_eq_false, Bool.not_eq_true]
    by_cases hf : f.why.rank < 3
    · exact .inl hf
    · exact .inr fun e he => ((h e he).resolve_left hf).resolve_left hr

/-! ### Loads -/

section
variable {s : State} (i : Instr) (w n : Nat) (mis : Bool) {es : List Elem} (done : State → List (Nat × Nat × Bool) → State)
  (fail : State → Fail → Out)

theorem loadWith_of_error {f : Fail} (hc : s.checkElems Access.load n mis es = .error f)
    (hw : ∀ e ∈ es, Checked s e.addr f.why) : s.loadWith i n mis es done fail = fail s f := by
  simp only [State.loadWith, hc, walkHeld_error hw]
  rfl

theorem loadWith_of_read {e : Elem} {p : Place} {x : Nat} {bad : Bool} {s1 : State}
    (hp : s.resolve s.me s.rid e.addr n Access.load = .ok p) (hw : Walks s e.addr) (hfree : Free (s.approach p) p n)
    (hread : ((s.approach p).noteElems [e]).readPlace p e.addr n = (.val x bad, s1)) :
    s.loadWith i n false [e] done fail = .next (done s1.clearRemote [(e.i, x, bad)]) := by
  have hheld : (s.approach p).waits ([(e, p)].any fun q => (s.approach p).heldRead q.2 n) = false :=
    waits_of_free (hfree.imp id fun h => by simp [h])
  have happ : s.approachAll [(e, p)] = s.approach p := rfl
  have hreads : State.readElems n [(e, p)] ((s.approach p).noteElems [e]) = (.ok [(e.i, x, bad)], s1) := by
    simp [State.readElems, hread, Except.map]
  simp only [State.loadWith, checkElems_one_ok hp, walkHeld_ok (es := [e]) (by simpa using hw), happ, hheld, hreads]
  rfl

theorem load_of_error {f : Fail} (hc : s.checkElems Access.load n mis es = .error f)
    (hw : ∀ e ∈ es, Checked s e.addr f.why) : s.load i w n mis es done = s.trapFail w f :=
  loadWith_of_error i n mis done _ hc hw

theorem store_of_error (val : Nat → Nat) {f : Fail} (hc : s.checkElems Access.store n mis es = .error f)
    (hw : ∀ e ∈ es, Checked s e.addr f.why) : s.store w n mis es val = s.trapFail w f := by
  simp only [State.store, hc, walkHeld_error hw]
  rfl

end

/-! ### Scalar loads (R123, R181, R287) -/

theorem extend_eq_loaded {n : Nat} (hn : 0 < n) (signed : Bool) (x : Nat) : extend n signed x = loaded n signed x := by
  unfold extend loaded
  split_ifs with hs
  · have hpow : 2 ^ (8 * n) = 2 * 2 ^ (8 * n - 1) := by rw [← Nat.pow_succ']; congr 1; omega
    have hint : signedOf (8 * n) x = (BitVec.ofNat (8 * n) x).toInt := by
      rw [signedOf, BitVec.toInt_eq_toNat_cond, BitVec.toNat_ofNat]
      have hiff : x % 2 ^ (8 * n) < 2 ^ (8 * n - 1) ↔ 2 * (x % 2 ^ (8 * n)) < 2 ^ (8 * n) := by omega
      simp only [hiff]
      push_cast
      rfl
    rw [hint, BitVec.signExtend]
  · rfl

section
variable {s : State} {o : LS} (hsa : s.psS o.sa = false) (hsx : s.psS o.sx = false)
include hsa hsx

theorem lsPoison_of_sound : s.lsPoison o = false := by simp [State.lsPoison, hsa, hsx]

end

/-- The rows of scalar loads are shared forms. -/
theorem exec_loadTable (o : LS) (s : State) : ∀ e ∈ loadTable, 0 < e.2.1 ∧ ∃ i, exec (e.1 o) s = s.ld i o e.2.1 e.2.2 := by
  simp only [loadTable, List.forall_mem_cons]
  exact ⟨⟨by decide, _, rfl⟩, ⟨by decide, _, rfl⟩, ⟨by decide, _, rfl⟩, ⟨by decide, _, rfl⟩, ⟨by decide, _, rfl⟩,
    ⟨by decide, _, rfl⟩, ⟨by decide, _, rfl⟩, by simp⟩

theorem exec_specTable (o : LS) (s : State) : ∀ e ∈ specTable, 0 < e.2.1 ∧ ∃ i, exec (e.1 o) s = s.lds i o e.2.1 e.2.2 := by
  simp only [specTable, List.forall_mem_cons]
  exact ⟨⟨by decide, _, rfl⟩, ⟨by decide, _, rfl⟩, ⟨by decide, _, rfl⟩, by simp⟩

theorem exec_acqTable (o : LS) (s : State) : ∀ e ∈ acqTable, 0 < e.2.1 ∧ ∃ i, exec (e.1 o) s = s.lda i o e.2.1 e.2.2 := by
  simp only [acqTable, List.forall_mem_cons]
  exact ⟨⟨by decide, _, rfl⟩, ⟨by decide, _, rfl⟩, by simp⟩

/-- The element of a scalar access. -/
def elemLS (s : State) (o : LS) : Elem := { i := 0, addr := addrLS s o }

theorem lsElem_eq (s : State) (o : LS) : s.lsElem o = [elemLS s o] := rfl

/-- The result of a scalar load, with what it leaves of the other registers. -/
theorem loaded_spec (u : State) (o : LS) {n : Nat} (hn : 0 < n) (signed : Bool) (x : Nat) (bad : Bool) (lat : Nat) :
    let t := u.putLoad o n signed lat [(0, x, bad)]
    (o.sd ≠ 0 → t.sNow o.sd = loaded n signed x ∧ t.sPoison o.sd = bad) ∧ OnlyScalar o.sd u t := by
  intro t
  have ht : t = u.wrS o.sd (loaded n signed x) bad lat := congrArg (fun v => u.wrS o.sd v bad lat) (extend_eq_loaded hn signed x)
  rw [ht]
  exact ⟨fun hd => ⟨Cycles.sNow_wrS hd _ _ _ _, sPoison_wrS _ _ _ _ _ hd⟩, onlyScalar_wrS _ _ _ _ _⟩

section
variable {s s1 : State} {o : LS} {p : Place} {x : Nat} {bad : Bool} (hsa : s.psS o.sa = false) (hsx : s.psS o.sx = false)
include hsa hsx

theorem ld_of_read (i : Instr) (n : Nat) (signed : Bool) (hp : s.resolve s.me s.rid (addrLS s o) n Access.load = .ok p)
    (hw : Walks s (addrLS s o)) (hfree : Free (s.approach p) p n)
    (hread : ((s.approach p).noteElems [elemLS s o]).readPlace p (addrLS s o) n = (.val x bad, s1)) :
    ∃ lat, s.ld i o n signed = .next (s1.clearRemote.putLoad o n signed lat [(0, x, bad)]) ∧
      s.lds i o n signed = .next (s1.clearRemote.putLoad o n signed lat [(0, x, bad)]) := by
  have hpois := lsPoison_of_sound hsa hsx
  refine ⟨s.latOf (s.lsElem o) n false, ?_, ?_⟩
  · rw [State.ld, if_neg (by simp [hpois])]
    exact loadWith_of_read (e := elemLS s o) i n _ _ hp hw hfree hread
  · rw [State.lds, if_neg (by simp [hpois])]
    exact loadWith_of_read (e := elemLS s o) i n _ _ hp hw hfree hread

theorem lds_of_error (i : Instr) (n : Nat) (signed : Bool) {f : Failed}
    (hp : s.resolve s.me s.rid (addrLS s o) n Access.load = .error f) (hc : Checked s (addrLS s o) f) :
    ∃ lat, s.lds i o n signed = .next (s.wrS o.sd 0 true lat) := by
  refine ⟨s.latOf (s.lsElem o) n false, ?_⟩
  rw [State.lds, if_neg (by simp [lsPoison_of_sound hsa hsx])]
  exact loadWith_of_error i n false _ _ (checkElems_one_error (e := elemLS s o) hp) (by simpa [lsElem_eq, elemLS] using hc)

theorem lda_of_read (i : Instr) (n : Nat) (signed : Bool) (hp : s.resolve s.me s.rid (addrLS s o) n Access.load = .ok p)
    (hw : Walks s (addrLS s o)) {s' : State} (hs' : s' = (s.acquire o.sco).approach p)
    (hp' : s'.resolve s.me s.rid (addrLS s o) n Access.load = .ok p) (hw' : Walks s' (addrLS s o))
    (hfree : Free (s'.approach p) p n)
    (hread : ((s'.approach p).noteElems [elemLS s o]).readPlace p (addrLS s o) n = (.val x bad, s1)) :
    ∃ lat, s.lda i o n signed = .next ((s1.clearRemote.putLoad o n signed lat [(0, x, bad)]).noteMismatch
      ((s'.readsHome p n && s'.mismatch s.me (s'.recordKey p)) || s.ctx.remote.any (·.mis))) := by
  have hkept : Kept s s' := hs' ▸ (kept_dropClean s s.me o.sco).trans (kept_approach _ p)
  have happ : (s.acquire o.sco).approachAll [(elemLS s o, p)] = s' := hs'.symm
  refine ⟨s'.latOf (s.lsElem o) n false, ?_⟩
  rw [State.lda, if_neg (by simp [lsPoison_of_sound hsa hsx])]
  simp only [lsElem_eq, checkElems_one_ok (e := elemLS s o) hp, walkHeld_ok (es := [elemLS s o]) (by simpa [elemLS] using hw), happ]
  refine (if_neg Bool.false_ne_true).trans ?_
  refine (loadWith_of_read (e := elemLS s o) i n _ _ (by rw [me_of_kept hkept, rid_of_kept hkept]; exact hp') hw' hfree hread).trans ?_
  simp only [State.misread, me_of_kept hkept, List.any_cons, List.any_nil, Bool.or_false, elemLS]

end

theorem scalarLoadsRule : ScalarLoadsRule := by
  intro s s1 o p x bad a e0 hsa hsx
  refine ⟨?_, ?_, ?_⟩
  · intro e he hp u hw hfree hread
    rcases List.mem_append.1 he with he | he
    · obtain ⟨hn, i, hi⟩ := exec_loadTable o s e he
      obtain ⟨lat, hld, -⟩ := ld_of_read hsa hsx i e.2.1 e.2.2 hp hw hfree hread
      exact ⟨_, hi.trans hld, loaded_spec s1.clearRemote o hn e.2.2 x bad lat⟩
    · obtain ⟨hn, i, hi⟩ := exec_specTable o s e he
      obtain ⟨lat, -, hlds⟩ := ld_of_read hsa hsx i e.2.1 e.2.2 hp hw hfree hread
      exact ⟨_, hi.trans hlds, loaded_spec s1.clearRemote o hn e.2.2 x bad lat⟩
  · rintro e he ⟨f, hp, hc⟩
    obtain ⟨-, i, hi⟩ := exec_specTable o s e he
    obtain ⟨lat, hlds⟩ := lds_of_error hsa hsx i e.2.1 e.2.2 hp hc
    exact ⟨_, hi.trans hlds, fun hd => ⟨Cycles.sNow_wrS hd _ _ _ _, sPoison_wrS _ _ _ _ _ hd⟩, onlyScalar_wrS _ _ _ _ _⟩
  · intro e he hp s' u hp' hw hw' hfree hread
    obtain ⟨hn, i, hi⟩ := exec_acqTable o s e he
    obtain ⟨lat, hlda⟩ := lda_of_read hsa hsx i e.2.1 e.2.2 hp hw rfl hp' hw' hfree hread
    obtain ⟨hval, honly⟩ := loaded_spec s1.clearRemote o hn e.2.2 x bad lat
    exact ⟨_, _, hi.trans hlda, hval, honly, rfl⟩

end Sys2Proof.Proofs.Accesses
end

section
open Sys2Proof Sys2Proof.Machine
namespace Sys2Proof.Proofs.Accesses

/-! ### The traps of the scalar accesses (R19, R123, R176, R181, R185, R187, R188) -/

section
variable {s : State} {o : LS}

theorem lsPoison_of_poisoned (h : s.psS o.sa = true ∨ s.psS o.sx = true) : s.lsPoison o = true := by
  simpa [State.lsPoison] using h

theorem ld_of_poison (i : Instr) (n : Nat) (signed : Bool) (h : s.lsPoison o = true) : s.ld i o n signed = s.trap cPoison := if_pos h
theorem lds_of_poison (i : Instr) (n : Nat) (signed : Bool) (h : s.lsPoison o = true) : s.lds i o n signed = s.trap cPoison := if_pos h
theorem lda_of_poison (i : Instr) (n : Nat) (signed : Bool) (h : s.lsPoison o = true) : s.lda i o n signed = s.trap cPoison := if_pos h

theorem st_of_poison (n : Nat) (h : (s.lsPoison o || s.psS o.sd) = true) : s.st o n = s.trap cPoison := if_pos h
theorem stl_of_poison (n : Nat) (h : (s.lsPoison o || s.psS o.sd) = true) : s.stl o n = s.trap cPoison := if_pos h

theorem lineOp_of_poison (i : Instr) (op : State → Nat → State) (h : s.lsPoison o = true) : s.lineOp i o op = s.trap cPoison := if_pos h

/-- The precise trap of a failed check, with the address as FADDR. -/
def failTrap (s : State) (f : Failed) (a : W64) : Out := s.trap f.cause f.detail 0 a

section
variable {f : Failed} (hsa : s.psS o.sa = false) (hsx : s.psS o.sx = false) (hc : Checked s (addrLS s o) f)
include hsa hsx hc

theorem ld_of_error (i : Instr) (n : Nat) (signed : Bool) (hf : s.resolve s.me s.rid (addrLS s o) n Access.load = .error f) :
    s.ld i o n signed = failTrap s f (addrLS s o) := by
  rw [State.ld, if_neg (by simp [lsPoison_of_sound hsa hsx])]
  exact load_of_error i 0 n false _ (checkElems_one_error (e := elemLS s o) hf) (by simpa [lsElem_eq, elemLS] using hc)

theorem lda_of_error (i : Instr) (n : Nat) (signed : Bool) (hf : s.resolve s.me s.rid (addrLS s o) n Access.load = .error f) :
    s.lda i o n signed = failTrap s f (addrLS s o) := by
  rw [State.lda, if_neg (by simp [lsPoison_of_sound hsa hsx])]
  simp only [lsElem_eq, checkElems_one_error (e := elemLS s o) hf,
    walkHeld_error (f := ⟨f, [elemLS s o]⟩) (es := [elemLS s o]) (by simpa [elemLS] using hc)]
  rfl

theorem st_of_error (n : Nat) (hsd : s.psS o.sd = false) (hf : s.resolve s.me s.rid (addrLS s o) n Access.store = .error f) :
    s.st o n = failTrap s f (addrLS s o) := by
  rw [State.st, if_neg (by simp [lsPoison_of_sound hsa hsx, hsd])]
  exact store_of_error 0 n false _ (checkElems_one_error (e := elemLS s o) hf) (by simpa [lsElem_eq, elemLS] using hc)

theorem stl_of_error (n : Nat) (hsd : s.psS o.sd = false) (hf : s.resolve s.me s.rid (addrLS s o) n Access.store = .error f) :
    s.stl o n = failTrap s f (addrLS s o) := by
  rw [State.stl, if_neg (by simp [lsPoison_of_sound hsa hsx, hsd])]
  simp only [lsElem_eq, checkElems_one_error (e := elemLS s o) hf,
    walkHeld_error (f := ⟨f, [elemLS s o]⟩) (es := [elemLS s o]) (by simpa [elemLS] using hc)]
  rfl

/-- A line that does not pass its checks traps; a space-0x4 address passes those that need no walk. -/
theorem lineOp_of_error (i : Instr) (op : State → Nat → State) (hr : s.ctx.remote = none) (hsp : 2 ≤ (addrLS s o).toNat / 2 ^ 60)
    (hf : s.resolve s.me s.rid (addrLS s o) 0 ⟨false, false⟩ = .error f) : s.lineOp i o op = failTrap s f (addrLS s o) := by
  have hspace : space (addrLS s o) = (addrLS s o).toNat / 2 ^ 60 := rfl
  have hline : s.lineAt o = .error f := by
    have h2 : ¬space (s.lsAddr o) < 2 := by rw [show s.lsAddr o = addrLS s o from rfl, hspace]; omega
    rw [State.lineAt, show s.lsAddr o = addrLS s o from rfl, hf]
    exact if_neg h2
  have h4 : space (addrLS s o) ≠ 4 := by
    intro h4
    have hok := (spaceOk_iff (addrLS s o)).2 (.inr (.inr (.inr (.inr h4))))
    rw [resolve_package s _ _ _ hok (by simp) h4] at hf
    cases hf
  have hheld : s.waits (s.lineHeld o) = false := by
    refine waits_of_free ?_
    rcases hc with hc | hc | hc
    · exact .inr (by simp [State.lineHeld, hline, hc])
    · exact .inl hc
    · exact .inr (by simp [State.lineHeld, show s.lsAddr o = addrLS s o from rfl, hc, h4])
  have hclear : s.clearRemote = s := by
    show { s with ctx := { s.ctx with remote := none } } = s
    rw [← hr]
  rw [State.lineOp, if_neg (by simp [lsPoison_of_sound hsa hsx]), hheld, if_neg Bool.false_ne_true, hline, hclear]
  rfl

end
end

/-- The rows of scalar stores are shared forms. -/
theorem exec_storeTable (o : LS) (s : State) : ∀ e ∈ storeTable, exec (e.1 o) s = s.st o e.2 := by
  simp only [storeTable, List.forall_mem_cons]
  exact ⟨rfl, rfl, rfl, rfl, by simp⟩

theorem exec_relTable (o : LS) (s : State) : ∀ e ∈ relTable, exec (e.1 o) s = s.stl o e.2 := by
  simp only [relTable, List.forall_mem_cons]
  exact ⟨rfl, rfl, by simp⟩

theorem exec_atomics (o : LA) (s : State) : ∀ i ∈ [Instr.aadd o, .aand o, .aor o, .axor o, .amin o, .amax o, .aswp o, .acas o],
    ∃ op, exec i s = s.atomic i op o := by
  simp only [List.forall_mem_cons]
  exact ⟨⟨0, rfl⟩, ⟨1, rfl⟩, ⟨2, rfl⟩, ⟨3, rfl⟩, ⟨4, rfl⟩, ⟨5, rfl⟩, ⟨6, rfl⟩, ⟨7, rfl⟩, by simp⟩

theorem exec_lineOps (o : LS) (s : State) : ∀ i ∈ [Instr.clwb o, .clinv o, .clfl o], ∃ op, exec i s = s.lineOp i o op := by
  simp only [List.forall_mem_cons]
  refine ⟨?_, ?_, ?_, by simp⟩
  · rw [show exec (.clwb o) s = execClwb o s from rfl]
    exact ⟨_, rfl⟩
  · rw [show exec (.clinv o) s = execClinv o s from rfl]
    exact ⟨_, rfl⟩
  · rw [show exec (.clfl o) s = execClfl o s from rfl]
    exact ⟨_, rfl⟩

theorem laSize_eq (o : LA) : laSize o = if o.w = 1 then 4 else 8 := by
  rcases BitVec.eq_zero_or_eq_one o.w with h | h <;> simp [laSize, h]

section
variable {s : State} {o : LA}

theorem atomic_of_poison (i : Instr) (op : BitVec 3) (h : (s.psS o.sa || s.psS o.sb || s.psS o.sc) = true) :
    s.atomic i op o = s.trap cPoison := if_pos h

theorem atomic_of_error (i : Instr) (op : BitVec 3) (hsa : s.psS o.sa = false) (hsb : s.psS o.sb = false) (hsc : s.psS o.sc = false)
    {f : Failed} (hf : s.resolve s.me s.rid (s.rdS o.sa) (laSize o) Access.both = .error f) (hc : Checked s (s.rdS o.sa) f) :
    s.atomic i op o = failTrap s f (s.rdS o.sa) := by
  rw [State.atomic, if_neg (by simp [hsa, hsb, hsc])]
  simp only [checkElems_one_error (e := { i := 0, addr := s.rdS o.sa }) hf,
    walkHeld_error (f := ⟨f, [{ i := 0, addr := s.rdS o.sa }]⟩) (es := [{ i := 0, addr := s.rdS o.sa }]) (by simpa using hc)]
  rfl

end

/-- The address that WAITA watches (R188). -/
def watchAddr (s : State) (o : LS) : W64 := s.rdS o.sa + o.off.signExtend 64

theorem waita_of_error {s : State} {o : LS} (hsa : s.psS o.sa = false) (hsx : s.psS o.sx = false) {f : Failed}
    (hf : s.resolve s.me s.rid (watchAddr s o) 0 Access.load = .error f) (hc : Checked s (watchAddr s o) f) :
    execWaita o s = failTrap s f (watchAddr s o) := by
  have hline : s.watchLine (watchAddr s o) = .error f := by rw [State.watchLine, hf]
  have hheld : s.waits (decide (3 ≤ f.rank) && s.heldWalk s.me s.rid (watchAddr s o)) = false := by
    refine waits_of_free ?_
    rcases hc with hc | hc | hc
    · exact .inr (by simp [hc])
    · exact .inl hc
    · exact .inr (by simp [hc])
  rw [execWaita, if_neg (by simp [hsa, hsx])]
  simp only [show s.rdS o.sa + sext o.off = watchAddr s o from rfl, hline, hheld]
  rfl

theorem memoryTrapsRule : MemoryTrapsRule := by
  intro s o l
  refine ⟨fun e he => ⟨fun hp => ?_, fun hs f hf hc => ?_⟩, fun e he hp => ?_, fun e he => ⟨fun hp => ?_, fun hs hsd f hf hc => ?_⟩,
    fun i hi => ?_, fun i hi => ?_, fun hp => if_pos (by simpa using hp), fun hs f hf hc => waita_of_error hs.1 hs.2 hf hc⟩
  · rcases List.mem_append.1 he with he | he
    · obtain ⟨-, i, hi⟩ := exec_loadTable o s e he
      exact hi.trans (ld_of_poison i _ _ (lsPoison_of_poisoned hp))
    · obtain ⟨-, i, hi⟩ := exec_acqTable o s e he
      exact hi.trans (lda_of_poison i _ _ (lsPoison_of_poisoned hp))
  · rcases List.mem_append.1 he with he | he
    · obtain ⟨-, i, hi⟩ := exec_loadTable o s e he
      exact hi.trans (ld_of_error hs.1 hs.2 hc i _ _ hf)
    · obtain ⟨-, i, hi⟩ := exec_acqTable o s e he
      exact hi.trans (lda_of_error hs.1 hs.2 hc i _ _ hf)
  · obtain ⟨-, i, hi⟩ := exec_specTable o s e he
    exact hi.trans (lds_of_poison i _ _ (lsPoison_of_poisoned hp))
  · have hpois : (s.lsPoison o || s.psS o.sd) = true := by
      simpa [State.lsPoison] using hp
    rcases List.mem_append.1 he with he | he
    · exact (exec_storeTable o s e he).trans (st_of_poison _ hpois)
    · exact (exec_relTable o s e he).trans (stl_of_poison _ hpois)
  · rcases List.mem_append.1 he with he | he
    · exact (exec_storeTable o s e he).trans (st_of_error hs.1 hs.2 hc _ hsd hf)
    · exact (exec_relTable o s e he).trans (stl_of_error hs.1 hs.2 hc _ hsd hf)
  · obtain ⟨op, hop⟩ := exec_atomics l s i hi
    refine ⟨fun hp => hop.trans (atomic_of_poison i op (by simpa [or_assoc] using hp)), fun hsa hsb hsc f hf hc => ?_⟩
    rw [← laSize_eq] at hf
    exact hop.trans (atomic_of_error i op hsa hsb hsc hf hc)
  · obtain ⟨op, hop⟩ := exec_lineOps o s i hi
    exact ⟨fun hp => hop.trans (lineOp_of_poison i op (lsPoison_of_poisoned hp)),
      fun hs hr hsp f hf hc => hop.trans (lineOp_of_error hs.1 hs.2 hc i op hr hsp hf)⟩

end Sys2Proof.Proofs.Accesses
end

section
open Sys2Proof Sys2Proof.Machine
namespace Sys2Proof.Proofs.Accesses

/-! ### Lane groups (R18, R315) -/

theorem tyWidth_cases (t : BitVec 4) : tyWidth t = 8 ∨ tyWidth t = 16 ∨ tyWidth t = 32 ∨ tyWidth t = 64 := by
  revert t
  decide

/-- The elements of a type that lie in lane group j. -/
theorem exists_mul_add_iff (t : BitVec 4) {j : Nat} (hj : j < 32) (p : Nat → Prop) :
    (∃ k < 64 / tyWidth t, p (j * (64 / tyWidth t) + k)) ↔ ∃ k < tyCount t, k * tyWidth t / 64 = j ∧ p k := by
  have hsame : ∀ k, (k < tyCount t ∧ k * tyWidth t / 64 = j) ↔ j * (64 / tyWidth t) ≤ k ∧ k < j * (64 / tyWidth t) + 64 / tyWidth t := by
    intro k
    rw [tyCount]
    rcases tyWidth_cases t with h | h | h | h <;> rw [h] <;> omega
  constructor
  · rintro ⟨k, hk, hp⟩
    obtain ⟨h1, h2⟩ := (hsame _).2 ⟨Nat.le_add_right _ k, Nat.add_lt_add_left hk _⟩
    exact ⟨_, h1, h2, hp⟩
  · rintro ⟨k, h1, h2, hp⟩
    obtain ⟨hlo, hhi⟩ := (hsame k).1 ⟨h1, h2⟩
    exact ⟨k - j * (64 / tyWidth t), by omega, by rwa [Nat.add_sub_cancel' hlo]⟩

theorem groupAny_iff (t : BitVec 4) {j : Nat} (hj : j < 32) (p : Nat → Bool) :
    groupAny (tyWidth t) j p = true ↔ ∃ k < tyCount t, k * tyWidth t / 64 = j ∧ p k = true := by
  have hw : tyWidth t ≤ 64 := by rcases tyWidth_cases t with h | h | h | h <;> rw [h] <;> decide
  rw [groupAny, if_pos hw, ← exists_mul_add_iff t hj fun k => p k = true]
  simp

theorem testBit_groupMask (t : BitVec 4) (p : Nat → Bool) (j : Nat) :
    (groupMask (tyWidth t) p).toNat.testBit j = true ↔ ∃ k < tyCount t, k * tyWidth t / 64 = j ∧ p k = true := by
  by_cases hj : j < 32
  · have hbit := testBit_packEl ((List.range 32).map fun j => if groupAny (tyWidth t) j p then 1 else 0) j Nat.one_pos
    simp only [Nat.one_mul, Nat.add_zero] at hbit
    rw [groupMask, BitVec.toNat_ofNat, Nat.testBit_mod_two_pow, hbit, ← groupAny_iff t hj p, List.getElem?_map,
      List.getElem?_range hj]
    cases hany : groupAny (tyWidth t) j p <;> simp [hj, hany]
  · constructor
    · intro h
      rw [Nat.testBit_lt_two_pow ((groupMask (tyWidth t) p).isLt.trans_le (Nat.pow_le_pow_right (by decide) (Nat.le_of_not_lt hj)))] at h
      cases h
    · rintro ⟨k, hk, rfl, -⟩
      rw [tyCount] at hk
      rcases tyWidth_cases t with h | h | h | h <;> rw [h] at hk hj <;> omega

theorem testBit_laneMask {t : BitVec 4} {es : List Elem} (hes : ∀ e ∈ es, e.i < tyCount t) (j : Nat) :
    (laneMask (tyWidth t) es).testBit j = true ↔ ∃ e ∈ es, e.i * tyWidth t / 64 = j := by
  rw [laneMask, testBit_groupMask]
  simp only [List.any_eq_true, decide_eq_true_eq]
  constructor
  · rintro ⟨k, -, hk, e, he, rfl⟩
    exact ⟨e, he, hk⟩
  · rintro ⟨e, he, hj⟩
    exact ⟨e.i, hes e he, hj, e, he, rfl⟩

/-- The lane groups of a register's active elements that are poisoned. -/
theorem testBit_poisonMask (s : State) (r : R6) (pg : R5) (t : BitVec 4) (j : Nat) : (s.poisonMask r pg t).testBit j = true ↔
    ∃ k < tyCount t, k * tyWidth t / 64 = j ∧ (s.rdP pg).getLsbD (k * (tyWidth t / 8)) = true ∧ (s.psV r).getLsbD j = true := by
  rw [State.poisonMask, testBit_groupMask]
  refine exists_congr fun k => and_congr_right fun _ => and_congr_right fun hj => ?_
  simp [State.guard, act, State.psE, inGroup, hj]

theorem ne_zero_iff_testBit {m : Nat} : m ≠ 0 ↔ ∃ j, m.testBit j = true :=
  ⟨Nat.exists_testBit_of_ne_zero, fun ⟨j, hj⟩ h0 => by simp [h0] at hj⟩

/-! ### The first check that an element fails (R176, R182) -/

/-- The first of the least of a list, and what stands before and after it. -/
theorem foldl_first_least {α : Type} (rank : α → Nat) (b : α) (bs : List α) : ∃ l r,
    b :: bs = l ++ bs.foldl (fun m x => if rank x < rank m then x else m) b :: r ∧
      (∀ x ∈ l, rank (bs.foldl (fun m x => if rank x < rank m then x else m) b) < rank x) ∧
      ∀ x ∈ r, rank (bs.foldl (fun m x => if rank x < rank m then x else m) b) ≤ rank x := by
  induction bs generalizing b with
  | nil => exact ⟨[], [], rfl, by simp, by simp⟩
  | cons x xs ih =>
    rw [List.foldl_cons]
    split_ifs with hx
    · obtain ⟨l, r, heq, hl, hr⟩ := ih x
      have hle : rank (xs.foldl (fun m x => if rank x < rank m then x else m) x) ≤ rank x := by
        have hmem : x ∈ l ++ xs.foldl (fun m x => if rank x < rank m then x else m) x :: r := heq ▸ List.mem_cons_self
        rcases List.mem_append.1 hmem with h | h
        · exact (hl x h).le
        · rcases List.mem_cons.1 h with h | h
          · exact (congrArg rank h).ge
          · exact hr x h
      exact ⟨b :: l, r, by rw [heq]; rfl, List.forall_mem_cons.2 ⟨hle.trans_lt hx, hl⟩, hr⟩
    · obtain ⟨l, r, heq, hl, hr⟩ := ih b
      cases l with
      | nil =>
        obtain ⟨hb, hxs⟩ := List.cons.inj heq
        refine ⟨[], x :: r, by rw [← hb, ← hxs]; rfl, by simp, List.forall_mem_cons.2 ⟨?_, hr⟩⟩
        rw [← hb]
        omega
      | cons b' l =>
        obtain ⟨rfl, hxs⟩ := List.cons.inj heq
        have hlt := hl b List.mem_cons_self
        refine ⟨b :: x :: l, r, congrArg (b :: x :: ·) hxs, List.forall_mem_cons.2 ⟨hlt, List.forall_mem_cons.2 ⟨by omega, ?_⟩⟩, hr⟩
        exact fun y hy => hl y (List.mem_cons_of_mem _ hy)

section
variable (s : State) (acc : Access) (n : Nat) (skew : Bool)

/-- The elements that fail a check, with what they fail. -/
def failing (es : List Elem) : List (Elem × Failed) := es.filterMap fun e => (elemFail s acc n skew e).map fun f => (e, f)

theorem mem_failing {es : List Elem} {x : Elem × Failed} :
    x ∈ failing s acc n skew es ↔ x.1 ∈ es ∧ elemFail s acc n skew x.1 = some x.2 := by
  simp only [failing, List.mem_filterMap, Option.map_eq_some_iff]
  constructor
  · rintro ⟨e, he, f, hf, rfl⟩
    exact ⟨he, hf⟩
  · rintro ⟨he, hf⟩
    exact ⟨x.1, he, x.2, hf, rfl⟩

theorem elemFail_eq (e : Elem) : elemFail s acc n skew e = match s.checkElem acc n skew e with
    | .error f => some f
    | .ok _ => none := by
  unfold elemFail State.checkElem
  cases s.resolve s.me s.rid e.addr n acc with
  | ok p => cases skew <;> rfl
  | error f =>
    dsimp only
    by_cases h : (skew && decide (1 < f.rank)) = true
    · rw [if_pos h, if_pos h]
    · rw [if_neg h, if_neg h]

theorem checkElems_of_failing {es : List Elem} {b : Elem × Failed} {bs : List (Elem × Failed)}
    (h : failing s acc n skew es = b :: bs) :
    let first := bs.foldl (fun m x => if x.2.rank < m.2.rank then x else m) b
    s.checkElems acc n skew es = .error { why := first.2, elems := ((b :: bs).filter fun x => x.2.rank = first.2.rank).map (·.1) } := by
  have hbad (g : Elem × Except Failed Place → Option (Elem × Failed))
      (hg : ∀ e, g (e, s.checkElem acc n skew e) = (elemFail s acc n skew e).map fun f => (e, f)) :
      (es.map fun e => (e, s.checkElem acc n skew e)).filterMap g = b :: bs := by
    rw [← h, List.filterMap_map]
    exact List.filterMap_congr fun e _ => hg e
  have hfail (e : Elem) : (elemFail s acc n skew e).map (fun f => (e, f)) = match s.checkElem acc n skew e with
      | .error f => some (e, f)
      | .ok _ => none := by
    rw [elemFail_eq]
    cases s.checkElem acc n skew e <;> rfl
  unfold State.checkElems
  dsimp only
  split
  next heq => exact absurd ((hbad _ fun e => (hfail e).symm).symm.trans heq) (by simp)
  next heq =>
    obtain ⟨rfl, rfl⟩ := List.cons.inj ((hbad _ fun e => (hfail e).symm).symm.trans heq)
    rfl

/-- The check that the elements fail: the least, with the elements that fail it, the lowest first. -/
theorem checkElems_of_lead {es : List Elem} (hes : es.Pairwise fun a b => a.i < b.i) {lead : Elem} {f : Failed} (hlead : lead ∈ es)
    (hf : elemFail s acc n skew lead = some f)
    (hleast : ∀ e ∈ es, ∀ h, elemFail s acc n skew e = some h → f.rank ≤ h.rank ∧ (h.rank = f.rank → lead.i ≤ e.i)) :
    ∃ elems, s.checkElems acc n skew es = .error { why := f, elems := elems } ∧ elems.head? = some lead ∧
      ∀ e, e ∈ elems ↔ e ∈ es ∧ ∃ h, elemFail s acc n skew e = some h ∧ h.rank = f.rank := by
  have hmem : (lead, f) ∈ failing s acc n skew es := (mem_failing s acc n skew).2 ⟨hlead, hf⟩
  have hsorted : (failing s acc n skew es).Pairwise fun a b => a.1.i < b.1.i := by
    refine List.Pairwise.filterMap _ (fun a b hab x hx y hy => ?_) hes
    obtain ⟨_, -, rfl⟩ := Option.map_eq_some_iff.1 hx
    obtain ⟨_, -, rfl⟩ := Option.map_eq_some_iff.1 hy
    exact hab
  obtain ⟨b, bs, hbs⟩ := List.exists_cons_of_ne_nil (List.ne_nil_of_mem hmem)
  obtain ⟨l, r, heq, hl, hr⟩ := foldl_first_least (fun x : Elem × Failed => x.2.rank) b bs
  have hchk := checkElems_of_failing s acc n skew hbs
  generalize bs.foldl (fun m x => if x.2.rank < m.2.rank then x else m) b = first at heq hl hr hchk
  have hfirst : first = (lead, f) := by
    have hin : first ∈ failing s acc n skew es := by rw [hbs, heq]; simp
    obtain ⟨he, hh⟩ := (mem_failing s acc n skew).1 hin
    obtain ⟨hrank, hi⟩ := hleast first.1 he first.2 hh
    rw [hbs, heq] at hmem hsorted
    rcases List.mem_append.1 hmem with hin | hin
    · have hlt := hl _ hin
      dsimp only at hlt
      omega
    · rcases List.mem_cons.1 hin with h | hin
      · exact h.symm
      · have hge := hr _ hin
        have hlt := (List.pairwise_cons.1 (List.pairwise_append.1 hsorted).2.1).1 _ hin
        have hle := hi (by dsimp only at hge; omega)
        dsimp only at hlt
        omega
  subst hfirst
  refine ⟨_, hchk, ?_, fun e => ?_⟩
  · have hnone : l.filter (fun x => x.2.rank = f.rank) = [] := by
      refine List.filter_eq_nil_iff.2 fun x hx => ?_
      have hlt := hl x hx
      dsimp only at hlt
      simpa using hlt.ne'
    rw [heq, List.filter_append, hnone, List.nil_append, List.filter_cons_of_pos (by simp)]
    rfl
  · rw [← hbs]
    simp only [List.mem_map, List.mem_filter, mem_failing, decide_eq_true_eq]
    constructor
    · rintro ⟨x, ⟨⟨he, hh⟩, hr⟩, rfl⟩
      exact ⟨he, _, hh, hr⟩
    · rintro ⟨he, h, hh, hr⟩
      exact ⟨(e, h), ⟨⟨he, hh⟩, hr⟩, rfl⟩

end

/-! ### The traps of the vector accesses (R19, R182 to R184) -/

theorem elemsAt_lt {s : State} {pg : R5} {t : BitVec 4} {addr : Nat → W64} : ∀ e ∈ elemsAt s pg t addr, e.i < tyCount t := by
  intro e he
  obtain ⟨i, hi, rfl⟩ := List.mem_map.1 he
  exact List.mem_range.1 (List.mem_filter.1 hi).1

theorem elemsAt_sorted (s : State) (pg : R5) (t : BitVec 4) (addr : Nat → W64) :
    (elemsAt s pg t addr).Pairwise fun a b => a.i < b.i :=
  List.pairwise_map.2 ((List.pairwise_lt_range (n := tyCount t)).filter _)

theorem misBase_eq (n : Nat) (b : W64) : misBase n b = (b.toNat % n != 0) := by
  rw [misBase, bne, Bool.eq_iff_iff]
  simp

section
variable {s : State} {pg : R5} {t : BitVec 4} {addr : Nat → W64} {skew : Bool} {acc : Access} {f : Failed} {lead : Elem}

/-- The trap of the first check that the elements of a vector access fail. -/
theorem trapFail_of_lead (hlead : lead ∈ elemsAt s pg t addr) (hf : elemFail s acc (tyWidth t / 8) skew lead = some f)
    (hleast : ∀ e ∈ elemsAt s pg t addr, ∀ h, elemFail s acc (tyWidth t / 8) skew e = some h →
      f.rank ≤ h.rank ∧ (h.rank = f.rank → lead.i ≤ e.i)) :
    ∃ elems mask, s.checkElems acc (tyWidth t / 8) skew (elemsAt s pg t addr) = .error { why := f, elems := elems } ∧
      (∀ j, mask.testBit j = true ↔ ∃ e ∈ elemsAt s pg t addr, ∃ h, elemFail s acc (tyWidth t / 8) skew e = some h ∧
        h.rank = f.rank ∧ e.i * tyWidth t / 64 = j) ∧
      s.trapFail (tyWidth t) { why := f, elems := elems } = s.trap f.cause f.detail mask lead.addr := by
  obtain ⟨elems, hchk, hhead, hmem⟩ := checkElems_of_lead s acc _ skew (elemsAt_sorted s pg t addr) hlead hf hleast
  refine ⟨elems, laneMask (tyWidth t) elems, hchk, fun j => ?_, ?_⟩
  · rw [testBit_laneMask fun e he => elemsAt_lt e ((hmem e).1 he).1]
    constructor
    · rintro ⟨e, he, hj⟩
      obtain ⟨hin, h, hh, hr⟩ := (hmem e).1 he
      exact ⟨e, hin, h, hh, hr, hj⟩
    · rintro ⟨e, hin, h, hh, hr, hj⟩
      exact ⟨e, (hmem e).2 ⟨hin, h, hh, hr⟩, hj⟩
  · have hw : tyWidth t ≠ 0 := by rcases tyWidth_cases t with h | h | h | h <;> rw [h] <;> decide
    rw [State.trapFail, if_neg hw, hhead]
    rfl

end

/-- The lane groups that a vector access finds poisoned: those of active elements of its data, where `data` holds, and of its
index, where `index` holds. -/
def BadLane (s : State) (pg : R5) (t : BitVec 4) (data index : Prop) (vd vb : R6) (j : Nat) : Prop :=
  ∃ k < tyCount t, k * tyWidth t / 64 = j ∧ (s.rdP pg).getLsbD (k * (tyWidth t / 8)) = true ∧
    ((data ∧ (s.psV vd).getLsbD j = true) ∨ (index ∧ (s.psV vb).getLsbD j = true))

section
variable (s : State) (pg : R5) (t : BitVec 4) {data index : Prop} (vd vb : R6) (j : Nat)

theorem badLane_none (hd : ¬data) (hi : ¬index) : ¬BadLane s pg t data index vd vb j := by
  rintro ⟨k, -, -, -, h | h⟩
  · exact hd h.1
  · exact hi h.1

theorem badLane_data (hd : data) (hi : ¬index) : BadLane s pg t data index vd vb j ↔ (s.poisonMask vd pg t).testBit j = true := by
  simp only [BadLane, testBit_poisonMask, hd, hi, true_and, false_and, or_false]

theorem badLane_index (hd : ¬data) (hi : index) : BadLane s pg t data index vd vb j ↔ (s.poisonMask vb pg t).testBit j = true := by
  simp only [BadLane, testBit_poisonMask, hd, hi, true_and, false_and, false_or]

theorem badLane_both (hd : data) (hi : index) : BadLane s pg t data index vd vb j ↔
    (s.poisonMask vd pg t ||| s.poisonMask vb pg t).testBit j = true := by
  rw [Nat.testBit_or, Bool.or_eq_true, testBit_poisonMask, testBit_poisonMask, ← exists_or]
  simp only [BadLane, hd, hi, true_and, ← and_or_left]

end

/-- What the traps of a vector access rest on: it traps for poison with a mask of lane groups, or else traps where its elements
fail a check. -/
def VectorAccess (s : State) (i : Instr) (st : Bool) (pg : R5) (t : BitVec 4) (addr : Nat → W64) (badAddr : Bool)
    (badLane : Nat → Prop) (skew : Bool) : Prop :=
  ∃ (mask : Nat) (run : Out), (∀ j, mask.testBit j = true ↔ badLane j) ∧
    exec i s = (if badAddr || (st && s.psP pg) || mask ≠ 0 then s.trap cPoison 0 mask else run) ∧
    ∀ f, s.checkElems (if st then Access.store else Access.load) (tyWidth t / 8) skew (elemsAt s pg t addr) = .error f →
      (∀ e ∈ elemsAt s pg t addr, Checked s e.addr f.why) → run = s.trapFail (tyWidth t) f

section
variable {s : State} {i : Instr} {st : Bool} {pg : R5} {t : BitVec 4} {addr : Nat → W64} {badAddr : Bool} {badLane : Nat → Prop}
  {skew : Bool} (hacc : VectorAccess s i st pg t addr badAddr badLane skew)
include hacc

theorem VectorAccess.poisonTrap (h : badAddr = true ∨ (st = true ∧ s.psP pg = true) ∨ ∃ j, badLane j) :
    ∃ mask : Nat, (∀ j, mask.testBit j = true ↔ badLane j) ∧ exec i s = s.trap cPoison 0 mask := by
  obtain ⟨mask, run, hmask, hexec, -⟩ := hacc
  refine ⟨mask, hmask, hexec.trans (if_pos ?_)⟩
  simp only [Bool.or_eq_true, Bool.and_eq_true, decide_eq_true_eq, or_assoc]
  exact h.imp_right (Or.imp_right fun ⟨j, hj⟩ => ne_zero_iff_testBit.2 ⟨j, (hmask j).2 hj⟩)

theorem VectorAccess.checkTrap (haddr : badAddr = false) (hguard : st = true → s.psP pg = false) (hlanes : ∀ j, ¬badLane j) (f : Failed)
    (lead : Elem) (hlead : lead ∈ elemsAt s pg t addr)
    (hf : elemFail s (if st then Access.store else Access.load) (tyWidth t / 8) skew lead = some f)
    (hc : ∀ e ∈ elemsAt s pg t addr, Checked s e.addr f)
    (hleast : ∀ e ∈ elemsAt s pg t addr, ∀ h,
      elemFail s (if st then Access.store else Access.load) (tyWidth t / 8) skew e = some h →
        f.rank ≤ h.rank ∧ (h.rank = f.rank → lead.i ≤ e.i)) :
    ∃ mask : Nat, (∀ j, mask.testBit j = true ↔ ∃ e ∈ elemsAt s pg t addr, ∃ h,
        elemFail s (if st then Access.store else Access.load) (tyWidth t / 8) skew e = some h ∧ h.rank = f.rank ∧
          e.i * tyWidth t / 64 = j) ∧
      exec i s = s.trap f.cause f.detail mask lead.addr := by
  obtain ⟨mask, run, hmask, hexec, hfail⟩ := hacc
  have hzero : mask = 0 := by
    by_contra hm
    obtain ⟨j, hj⟩ := ne_zero_iff_testBit.1 hm
    exact hlanes j ((hmask j).1 hj)
  have hno : ¬(badAddr || (st && s.psP pg) || decide (mask ≠ 0)) = true := by simpa [haddr, hzero] using hguard
  obtain ⟨elems, lanes, hchk, hlanemask, htrap⟩ := trapFail_of_lead hlead hf hleast
  exact ⟨lanes, hlanemask, hexec.trans ((if_neg hno).trans ((hfail _ hchk hc).trans htrap))⟩

end

section
variable (s : State) (o : LV) (g : LG) {data index : Prop} (vb : R6)

/-- The skew of a strided access (R182). -/
def skewed : Bool :=
  (s.rdS o.sa + o.off.signExtend 64).toNat % (tyWidth o.t / 8) != 0 || (s.rdS o.sx).toNat % (tyWidth o.t / 8) != 0

theorem misBase_skewed : (misBase (tyWidth o.t / 8) (s.lvsBase o) || misBase (tyWidth o.t / 8) (s.rdS o.sx)) = skewed s o := by
  rw [misBase_eq, misBase_eq]
  rfl

theorem or_no_mask (a b : Bool) : (a || (false && b) || decide ((0 : Nat) ≠ 0)) = a := by simp

theorem vld_access (hd : ¬data) (hi : ¬index) : VectorAccess s (.vld o) false o.pg o.t (unitAddr s o) (s.psS o.sa || s.psS o.sx)
    (BadLane s o.pg o.t data index o.vd vb) false :=
  ⟨0, _, fun j => by simpa using badLane_none s o.pg o.t o.vd vb j hd hi, by rw [or_no_mask]; rfl,
    fun _ hf hc => load_of_error _ _ _ _ _ hf hc⟩

theorem vlds_access (hd : ¬data) (hi : ¬index) : VectorAccess s (.vlds o) false o.pg o.t (strideAddr s o) (s.psS o.sa || s.psS o.sx)
    (BadLane s o.pg o.t data index o.vd vb) (skewed s o) :=
  ⟨0, _, fun j => by simpa using badLane_none s o.pg o.t o.vd vb j hd hi, by rw [or_no_mask]; rfl,
    fun _ hf hc => by rw [misBase_skewed]; exact load_of_error _ _ _ _ _ hf hc⟩

theorem vgth_access (hd : ¬data) (hi : index) : VectorAccess s (.vgth g) false g.pg g.t (indexAddr s g) (s.psS g.sa)
    (BadLane s g.pg g.t data index g.vd g.vb) false :=
  ⟨s.poisonMask g.vb g.pg g.t, _, fun j => (badLane_index s g.pg g.t g.vd g.vb j hd hi).symm, by
    simp only [Bool.false_and, Bool.or_false]; rfl, fun _ hf hc => load_of_error _ _ _ _ _ hf hc⟩

theorem vst_access (hd : data) (hi : ¬index) : VectorAccess s (.vst o) true o.pg o.t (unitAddr s o) (s.psS o.sa || s.psS o.sx)
    (BadLane s o.pg o.t data index o.vd vb) false :=
  ⟨s.poisonMask o.vd o.pg o.t ||| 0, _, fun j => by rw [Nat.or_zero]; exact (badLane_data s o.pg o.t o.vd vb j hd hi).symm,
    rfl, fun _ hf hc => store_of_error _ _ _ _ hf hc⟩

theorem vsts_access (hd : data) (hi : ¬index) : VectorAccess s (.vsts o) true o.pg o.t (strideAddr s o) (s.psS o.sa || s.psS o.sx)
    (BadLane s o.pg o.t data index o.vd vb) (skewed s o) :=
  ⟨s.poisonMask o.vd o.pg o.t ||| 0, _, fun j => by rw [Nat.or_zero]; exact (badLane_data s o.pg o.t o.vd vb j hd hi).symm,
    rfl, fun _ hf hc => by rw [misBase_skewed]; exact store_of_error _ _ _ _ hf hc⟩

theorem vsct_access (hd : data) (hi : index) : VectorAccess s (.vsct g) true g.pg g.t (indexAddr s g) (s.psS g.sa)
    (BadLane s g.pg g.t data index g.vd g.vb) false :=
  ⟨s.poisonMask g.vd g.pg g.t ||| s.poisonMask g.vb g.pg g.t, _, fun j => (badLane_both s g.pg g.t g.vd g.vb j hd hi).symm,
    rfl, fun _ hf hc => store_of_error _ _ _ _ hf hc⟩

end

theorem vectorMemoryTrapsRule : VectorMemoryTrapsRule := by
  intro s o g form st
  match form, st with
  | 0, false =>
    have hacc := vld_access s o (data := false = true) (index := (0 : Fin 3) = 2) g.vb (by decide) (by decide)
    exact ⟨hacc.poisonTrap, hacc.checkTrap⟩
  | 0, true =>
    have hacc := vst_access s o (data := true = true) (index := (0 : Fin 3) = 2) g.vb rfl (by decide)
    exact ⟨hacc.poisonTrap, hacc.checkTrap⟩
  | 1, false =>
    have hacc := vlds_access s o (data := false = true) (index := (1 : Fin 3) = 2) g.vb (by decide) (by decide)
    exact ⟨hacc.poisonTrap, hacc.checkTrap⟩
  | 1, true =>
    have hacc := vsts_access s o (data := true = true) (index := (1 : Fin 3) = 2) g.vb rfl (by decide)
    exact ⟨hacc.poisonTrap, hacc.checkTrap⟩
  | 2, false =>
    have hacc := vgth_access s g (data := false = true) (index := (2 : Fin 3) = 2) (by decide) rfl
    exact ⟨hacc.poisonTrap, hacc.checkTrap⟩
  | 2, true =>
    have hacc := vsct_access s g (data := true = true) (index := (2 : Fin 3) = 2) rfl rfl
    exact ⟨hacc.poisonTrap, hacc.checkTrap⟩

/-- Settles O15: the loads, the reads of places and the checks of accesses, and the traps of scalar and of vector accesses. -/
theorem loadsAndReads : Obligations.LoadsAndReads :=
  ⟨scalarLoadsRule, readPlacesRule, accessChecksRule, memoryTrapsRule, vectorMemoryTrapsRule⟩

end Sys2Proof.Proofs.Accesses
end

section
open Sys2Proof Sys2Proof.Machine
namespace Sys2Proof.Proofs.Engines
open Accesses

/-! ### Where a range of operands stands (R5, R196) -/

theorem spaceSpan_le (n : Nat) : (spaceSpan n).1 ≤ 4 * 2 ^ 60 ∧ (spaceSpan n).2 ≤ 5 * 2 ^ 60 := by
  unfold spaceSpan
  split <;> decide

/-- The addresses of a space that R5 allows stand without a gap. -/
theorem same_space_iff {a b : W64} (hb : spaceOk b = true) : (spaceOk a = true ∧ a.toNat / 2 ^ 60 = b.toNat / 2 ^ 60) ↔
    (spaceSpan (space b)).1 ≤ a.toNat ∧ a.toNat < (spaceSpan (space b)).2 := by
  rw [spaceOk_iff] at hb ⊢
  have hn : space b = 0 ∨ space b = 1 ∨ space b = 2 ∨ space b = 3 ∨ space b = 4 := by
    unfold space
    omega
  rw [show b.toNat / 2 ^ 60 = space b from rfl]
  rcases hn with hn | hn | hn | hn | hn <;> rw [hn] <;> simp only [spaceSpan] <;> omega

section
variable {x : Span}

theorem fault_of_not_inSpace (h : ¬InSpace x.base x.spaces) : x.fault = some x.base := by
  refine if_pos ?_
  rw [InSpace, not_and_or] at h
  rw [Bool.not_eq_true', Bool.and_eq_false_iff, List.contains_eq_mem, decide_eq_false_iff_not, ← Bool.not_eq_true]
  exact h

theorem fault_of_inSpace (h : InSpace x.base x.spaces) : x.fault = match x.reach with
    | none => none
    | some (lo, hi) =>
      if ((spaceSpan (space x.base)).2 : Int) ≤ x.base.toNat + hi then some (BitVec.ofNat 64 (spaceSpan (space x.base)).2)
      else if x.base.toNat + lo < ((spaceSpan (space x.base)).1 : Int) then some (BitVec.ofInt 64 (x.base.toNat + lo))
      else none := by
  refine if_neg ?_
  rw [Bool.not_eq_true', Bool.and_eq_false_iff, List.contains_eq_mem, decide_eq_false_iff_not, ← Bool.not_eq_true, ← not_and_or]
  exact not_not_intro h

theorem inSpace_of_fault (h : x.fault = none) : InSpace x.base x.spaces := by
  by_contra hn
  rw [fault_of_not_inSpace hn] at h
  cases h

variable {lo hi : Int} (h : InSpace x.base x.spaces) (hr : x.reach = some (lo, hi))
include h hr

theorem fault_none_iff : x.fault = none ↔
    (x.base.toNat + hi < ((spaceSpan (space x.base)).2 : Int)) ∧ ((spaceSpan (space x.base)).1 : Int) ≤ x.base.toNat + lo := by
  rw [fault_of_inSpace h, hr]
  dsimp only
  split_ifs with h2 h1
  · simp only [false_iff, not_and, not_le]
    omega
  · simp only [false_iff, not_and, not_le]
    omega
  · simp only [true_iff]
    omega

theorem fault_some_iff {a : W64} (hf : x.fault = some a) :
    a = BitVec.ofNat 64 (spaceSpan (space x.base)).2 ∨
      (a = BitVec.ofInt 64 (x.base.toNat + lo) ∧ x.base.toNat + lo < ((spaceSpan (space x.base)).1 : Int)) := by
  rw [fault_of_inSpace h, hr] at hf
  dsimp only at hf
  split_ifs at hf with h2 h1
  · exact .inl (Option.some.inj hf).symm
  · exact .inr ⟨(Option.some.inj hf).symm, h1⟩

end

theorem spans_stand (x : Span) (hreach : ∀ lo hi, x.reach = some (lo, hi) → -2 ^ 63 ≤ lo ∧ lo ≤ 0 ∧ 0 ≤ hi) :
    (x.fault = none ↔ InSpace x.base x.spaces ∧ ∀ lo hi d : Int, x.reach = some (lo, hi) → lo ≤ d → d ≤ hi →
      ∃ a : W64, (a.toNat : Int) = x.base.toNat + d ∧ spaceOk a = true ∧ a.toNat / 2 ^ 60 = x.base.toNat / 2 ^ 60) ∧
    (¬InSpace x.base x.spaces → x.fault = some x.base) ∧
    ∀ a, InSpace x.base x.spaces → x.fault = some a → ¬(spaceOk a = true ∧ a.toNat / 2 ^ 60 = x.base.toNat / 2 ^ 60) := by
  obtain ⟨h1, h2⟩ := spaceSpan_le (space x.base)
  refine ⟨⟨fun hf => ⟨inSpace_of_fault hf, fun lo hi d hr hlo hhi => ?_⟩, fun ⟨hin, hall⟩ => ?_⟩, fault_of_not_inSpace, fun a hin hf => ?_⟩
  · have hin := inSpace_of_fault hf
    obtain ⟨htop, hbot⟩ := (fault_none_iff hin hr).1 hf
    have hnat : (BitVec.ofNat 64 ((x.base.toNat : Int) + d).toNat).toNat = ((x.base.toNat : Int) + d).toNat := by
      rw [BitVec.toNat_ofNat]
      exact Nat.mod_eq_of_lt (by omega)
    refine ⟨BitVec.ofNat 64 ((x.base.toNat : Int) + d).toNat, by omega, (same_space_iff hin.1).2 ?_⟩
    omega
  · cases hr : x.reach with
    | none => rw [fault_of_inSpace hin, hr]
    | some r =>
      obtain ⟨lo, hi⟩ := r
      obtain ⟨-, hlo, hhi⟩ := hreach lo hi hr
      obtain ⟨t, ht, htop⟩ := hall lo hi hi hr (by omega) le_rfl
      obtain ⟨b, hb, hbot⟩ := hall lo hi lo hr le_rfl (by omega)
      have htop := (same_space_iff hin.1).1 htop
      have hbot := (same_space_iff hin.1).1 hbot
      exact (fault_none_iff hin hr).2 ⟨by omega, by omega⟩
  · rw [same_space_iff hin.1]
    cases hr : x.reach with
    | none =>
      rw [fault_of_inSpace hin, hr] at hf
      cases hf
    | some r =>
      obtain ⟨lo, hi⟩ := r
      obtain ⟨hlow, -, -⟩ := hreach lo hi hr
      rcases fault_some_iff hin hr hf with rfl | ⟨rfl, hlt⟩
      · rw [BitVec.toNat_ofNat, Nat.mod_eq_of_lt (by omega)]
        omega
      · rw [BitVec.toNat_ofInt]
        omega

/-! ### The reach of a shape (R197) -/

theorem mul_between {n k : Nat} (hk : k < n) (z : Int) :
    min 0 (((n - 1 : Nat) : Int) * z) ≤ k * z ∧ (k : Int) * z ≤ max 0 (((n - 1 : Nat) : Int) * z) := by
  have hkn : (k : Int) ≤ ((n - 1 : Nat) : Int) := by omega
  have hk0 : (0 : Int) ≤ k := Int.natCast_nonneg k
  rcases le_total 0 z with hz | hz
  · exact ⟨(min_le_left _ _).trans (mul_nonneg hk0 hz), (mul_le_mul_of_nonneg_right hkn hz).trans (le_max_right _ _)⟩
  · exact ⟨(min_le_right _ _).trans (mul_le_mul_of_nonpos_right hkn hz), (mul_nonpos_of_nonneg_of_nonpos hk0 hz).trans (le_max_left _ _)⟩

theorem exists_mul_eq_min {n : Nat} (hn : 0 < n) (z : Int) : ∃ k < n, (k : Int) * z = min 0 (((n - 1 : Nat) : Int) * z) := by
  rcases min_choice 0 (((n - 1 : Nat) : Int) * z) with h | h
  · exact ⟨0, hn, by simp [h]⟩
  · exact ⟨n - 1, by omega, h.symm⟩

theorem exists_mul_eq_max {n : Nat} (hn : 0 < n) (z : Int) : ∃ k < n, (k : Int) * z = max 0 (((n - 1 : Nat) : Int) * z) := by
  rcases max_choice 0 (((n - 1 : Nat) : Int) * z) with h | h
  · exact ⟨0, hn, by simp [h]⟩
  · exact ⟨n - 1, by omega, h.symm⟩

theorem shape_reach (h : CopyShape) (ps rs : Int) (hp : 0 < h.p) (hr : 0 < h.r) (hl : 0 < h.l) :
    ∃ lo hi, h.reach ps rs = some (lo, hi) ∧
    (∀ p r k : Nat, p < h.p → r < h.r → k < h.l → lo ≤ p * ps + r * rs + k ∧ (p * ps + r * rs + k : Int) ≤ hi) ∧
    (∃ p r k : Nat, p < h.p ∧ r < h.r ∧ k < h.l ∧ (p * ps + r * rs + k : Int) = lo) ∧
    ∃ p r k : Nat, p < h.p ∧ r < h.r ∧ k < h.l ∧ (p * ps + r * rs + k : Int) = hi := by
  refine ⟨_, _, if_neg (by simp; omega), fun p r k hpp hrr hkl => ?_, ?_, ?_⟩
  · obtain ⟨hp1, hp2⟩ := mul_between hpp ps
    obtain ⟨hr1, hr2⟩ := mul_between hrr rs
    omega
  · obtain ⟨p, hpp, hpe⟩ := exists_mul_eq_min hp ps
    obtain ⟨r, hrr, hre⟩ := exists_mul_eq_min hr rs
    exact ⟨p, r, 0, hpp, hrr, hl, by rw [hpe, hre]; simp⟩
  · obtain ⟨p, hpp, hpe⟩ := exists_mul_eq_max hp ps
    obtain ⟨r, hrr, hre⟩ := exists_mul_eq_max hr rs
    exact ⟨p, r, h.l - 1, hpp, hrr, by omega, by rw [hpe, hre]⟩

/-! ### The ranges of a command cover what it moves (R196, R197, R200 to R204) -/

theorem covers_flat (b : W64) {n : Nat} (hn : 0 < n) (sp : List Nat) : Covers ⟨b, flatReach n, sp⟩ b n :=
  ⟨0, n - 1, 0, if_neg hn.ne', le_rfl, by omega, by simp⟩

theorem covers_row {h : CopyShape} {base : W64} {ps rs : Int} {r : W64 × Nat} (hr : r ∈ h.rows base ps rs) (hn : 0 < r.2)
    (sp : List Nat) : Covers ⟨base, h.reach ps rs, sp⟩ r.1 r.2 := by
  obtain ⟨p, hp, hr⟩ := List.mem_flatMap.1 hr
  obtain ⟨q, hq, rfl⟩ := List.mem_map.1 hr
  rw [List.mem_range] at hp hq
  dsimp only at hn ⊢
  obtain ⟨lo, hi, hreach, hall, -, -⟩ := shape_reach h ps rs (by omega) (by omega) hn
  obtain ⟨hlo, -⟩ := hall p q 0 hp hq hn
  obtain ⟨-, hhi⟩ := hall p q (h.l - 1) hp hq (by omega)
  exact ⟨lo, hi, p * ps + q * rs, hreach, by omega, by omega, rfl⟩

/-- The bytes of a row lie in a range of a command. -/
def InSpans (c : Cmd) (r : W64 × Nat) : Prop := ∃ x ∈ c.spans, Covers x r.1 r.2

section
variable {c : Cmd} {r : W64 × Nat}

theorem inSpans_of_flat {b : W64} {n : Nat} {sp : List Nat} (hx : ⟨b, flatReach n, sp⟩ ∈ c.spans) (hr : r = (b, n)) (hn : 0 < r.2) :
    InSpans c r := by
  subst hr
  exact ⟨_, hx, covers_flat b hn sp⟩

theorem inSpans_of_row {h : CopyShape} {b : W64} {ps rs : Int} {sp : List Nat} (hx : ⟨b, h.reach ps rs, sp⟩ ∈ c.spans)
    (hr : r ∈ h.rows b ps rs) (hn : 0 < r.2) : InSpans c r := ⟨_, hx, covers_row hr hn sp⟩

theorem srcRows_inSpans (hr : r ∈ c.srcRows) (hn : 0 < r.2) : InSpans c r := by
  cases hop : c.op with
  | rsig | esig | pmap | pmq | launch => simp [Cmd.srcRows, hop] at hr
  | mxredStart =>
    simp only [Cmd.srcRows, hop, List.mem_singleton] at hr
    exact inSpans_of_flat (sp := [0, 2]) (by simp [Cmd.spans, hop]) hr hn
  | mxredRelay | mxredFinish =>
    simp only [Cmd.srcRows, hop, List.mem_cons, List.not_mem_nil, or_false] at hr
    rcases hr with hr | hr
    · exact inSpans_of_flat (sp := [0, 2]) (by simp [Cmd.spans, hop]) hr hn
    · exact inSpans_of_flat (sp := [0, 2]) (by simp [Cmd.spans, hop]) hr hn
  | fcpy =>
    simp only [Cmd.srcRows, hop] at hr
    by_cases h4 : space c.sa = 4
    · exact inSpans_of_row (sp := [0, 2, 3]) (by simp [Cmd.spans, hop, h4]) hr hn
    · exact inSpans_of_row (sp := [4]) (by simp [Cmd.spans, hop, h4]) hr hn
  | cpy | cpy2 | cpy3 | cpyh | cpyxScale | cpyxAdd | cpyxCast | cpyxRadd | cpyxRmax =>
    simp only [Cmd.srcRows, hop] at hr
    exact inSpans_of_row (sp := [0, 1, 2, 3]) (by simp [Cmd.spans, hop]) hr hn

theorem dstRows_inSpans (hr : r ∈ c.dstRows) (hn : 0 < r.2) : InSpans c r := by
  cases hop : c.op with
  | esig | pmap | pmq | launch => simp [Cmd.dstRows, hop] at hr
  | mxredStart | mxredRelay =>
    simp only [Cmd.dstRows, hop, List.mem_singleton] at hr
    exact inSpans_of_flat (sp := [0, 2, 4]) (by simp [Cmd.spans, hop]) hr hn
  | mxredFinish =>
    simp only [Cmd.dstRows, hop, List.mem_singleton] at hr
    exact inSpans_of_flat (sp := [0, 2]) (by simp [Cmd.spans, hop]) hr hn
  | rsig =>
    simp only [Cmd.dstRows, hop, List.mem_singleton] at hr
    exact inSpans_of_flat (sp := [2, 3, 4]) (by simp [Cmd.spans, hop]) hr hn
  | fcpy =>
    simp only [Cmd.dstRows, hop, isX, Bool.false_eq_true, if_false] at hr
    by_cases h4 : space c.sa = 4
    · exact inSpans_of_row (sp := [4]) (by simp [Cmd.spans, hop, h4]) hr hn
    · exact inSpans_of_row (sp := [0, 2, 3]) (by simp [Cmd.spans, hop, h4]) hr hn
  | cpyh =>
    simp only [Cmd.dstRows, hop, isX, Bool.false_eq_true, if_false] at hr
    exact inSpans_of_row (sp := [0, 1]) (by simp [Cmd.spans, hop]) hr hn
  | cpy | cpy2 | cpy3 =>
    simp only [Cmd.dstRows, hop, isX, Bool.false_eq_true, if_false] at hr
    exact inSpans_of_row (sp := [0, 1, 2, 3]) (by simp [Cmd.spans, hop]) hr hn
  | cpyxScale | cpyxAdd | cpyxCast | cpyxRadd | cpyxRmax =>
    simp only [Cmd.dstRows, hop, isX, if_true, List.mem_singleton] at hr
    exact inSpans_of_flat (sp := [0, 1, 2]) (by simp [Cmd.spans, hop]) hr hn

end

theorem operandRangesRule : OperandRangesRule := by
  refine ⟨spans_stand, shape_reach, fun c r hr hn => ?_⟩
  rcases List.mem_append.1 hr with hr | hr
  · exact srcRows_inSpans hr hn
  · exact dstRows_inSpans hr hn

end Sys2Proof.Proofs.Engines
end

section
open Sys2Proof Sys2Proof.Machine
namespace Sys2Proof.Proofs.Engines
open Accesses

/-! ### The spaces and the limits of a command's operands (R196 to R204) -/

section
variable {s : State} {op : EOp} {o : FE} {d : List W64}

/-- The command that slot 6 reads, with a descriptor. -/
def commandOf (s : State) (op : EOp) (o : FE) (d : List W64) : Cmd := { s.readCmd op o with desc := d }

/-- The operands lie in their spaces where the bases of the ranges do. -/
theorem spacesOf_of_bases (h : ∀ x ∈ (commandOf s op o d).spans, InSpace x.base x.spaces) : SpacesOf s op o := by
  cases op with
  | esig | pmap | pmq | launch => trivial
  | rsig => exact h _ List.mem_cons_self
  | mxredRelay | mxredFinish =>
    exact ⟨h _ List.mem_cons_self, h _ (List.mem_cons_of_mem _ List.mem_cons_self),
      h _ (List.mem_cons_of_mem _ (List.mem_cons_of_mem _ List.mem_cons_self))⟩
  | fcpy =>
    by_cases h4 : space (s.rdS o.sa) = 4
    · have hspans : (commandOf s .fcpy o d).spans = _ := if_pos h4
      rw [hspans] at h
      exact .inl ⟨h _ List.mem_cons_self, h _ (List.mem_cons_of_mem _ List.mem_cons_self)⟩
    · have hspans : (commandOf s .fcpy o d).spans = _ := if_neg h4
      rw [hspans] at h
      exact .inr ⟨h _ List.mem_cons_self, h _ (List.mem_cons_of_mem _ List.mem_cons_self)⟩
  | cpy | cpy2 | cpy3 | cpyh | mxredStart | cpyxScale | cpyxAdd | cpyxCast | cpyxRadd | cpyxRmax =>
    exact ⟨h _ List.mem_cons_self, h _ (List.mem_cons_of_mem _ List.mem_cons_self)⟩

theorem span_base : ∀ x ∈ (commandOf s op o d).spans, x.base = s.rdS o.sa ∨ x.base = s.rdS o.sb ∨ x.base = s.rdS o.sc := by
  cases op with
  | esig | pmap | pmq | launch => simp [Cmd.spans, commandOf, State.readCmd]
  | fcpy =>
    by_cases h4 : space (s.rdS o.sa) = 4 <;> simp [Cmd.spans, commandOf, State.readCmd, h4]
  | rsig | mxredRelay | mxredFinish | cpy | cpy2 | cpy3 | cpyh | mxredStart | cpyxScale | cpyxAdd | cpyxCast | cpyxRadd | cpyxRmax =>
    simp [Cmd.spans, commandOf, State.readCmd]

theorem spacesOf_of_faultless (h : ∀ x ∈ (commandOf s op o d).spans, x.fault = none) : SpacesOf s op o :=
  spacesOf_of_bases fun x hx => inSpace_of_fault (h x hx)

/-- An operand outside its spaces is the base of a range that fails. -/
theorem fault_of_not_spacesOf (h : ¬SpacesOf s op o) : ∃ a, (a = s.rdS o.sa ∨ a = s.rdS o.sb ∨ a = s.rdS o.sc) ∧
    ∃ x ∈ (commandOf s op o d).spans, x.fault = some a := by
  have hbase : ∃ x ∈ (commandOf s op o d).spans, ¬InSpace x.base x.spaces := by
    by_contra hno
    exact h (spacesOf_of_bases fun x hx => by_contra fun hx' => hno ⟨x, hx, hx'⟩)
  obtain ⟨x, hx, hin⟩ := hbase
  exact ⟨x.base, span_base x hx, x, hx, fault_of_not_inSpace hin⟩

theorem goodTarget_iff (a : W64) : (goodTarget a && spaceOk a) = true ↔ a.toNat % 2 = 0 ∧ InSpace a [2] := by
  have h0 : a.getLsbD 0 = false ↔ a.toNat % 2 = 0 := by
    rw [BitVec.getLsbD, Nat.testBit_zero]
    simp
  have hs : decide (space a = 2) = true ↔ a.toNat / 2 ^ 60 = 2 := decide_eq_true_iff
  simp only [goodTarget, InSpace, Bool.and_eq_true, hs, Bool.not_eq_true', h0, List.mem_singleton]
  tauto

theorem aligned_iff (a : W64) (n : Nat) : aligned a n = true ↔ a.toNat % n = 0 := decide_eq_true_iff

theorem hi32_eq (x : W64) : hi32 x = x.toNat / 2 ^ 32 := by
  rw [hi32, bits]
  omega

theorem lo32_eq (x : W64) : lo32 x = x.toNat % 2 ^ 32 := by
  rw [lo32, bits]
  omega

theorem and_iff {a b : Bool} {p q : Prop} (ha : a = true ↔ p) (hb : b = true ↔ q) : (a && b) = true ↔ p ∧ q := by
  rw [Bool.and_eq_true, ha, hb]

/-- The number of elements of a reduction hop (R203). -/
theorem elementCount_iff (n : Nat) : (n % 32 = 0 && 32 ≤ n && n ≤ 2 ^ 24) = true ↔ n % 32 = 0 ∧ 32 ≤ n ∧ n ≤ 2 ^ 24 := by
  simp [and_assoc]

theorem limits_iff (hop : op ≠ .cpy3) : (commandOf s op o d).limits = true ↔ LimitsOf s op o := by
  cases op with
  | cpy3 => exact absurd rfl hop
  | esig | pmap | pmq | launch => exact iff_of_true rfl trivial
  | rsig => exact aligned_iff _ _
  | cpy | fcpy => simp [Cmd.limits, Cmd.shape, commandOf, State.readCmd, LimitsOf]
  | cpy2 => simp [Cmd.limits, Cmd.shape, commandOf, State.readCmd, LimitsOf, hi32_eq, lo32_eq]
  | cpyh =>
    simp only [Cmd.limits, Cmd.shape, commandOf, State.readCmd, LimitsOf, Bool.and_assoc, Bool.and_eq_true (_ : Bool) (_ && _),
      goodTarget_iff, decide_eq_true_eq, one_mul]
  | mxredStart => exact (and_iff (and_iff (elementCount_iff _) (aligned_iff _ _)) (aligned_iff _ _)).trans and_assoc
  | mxredRelay | mxredFinish =>
    refine (and_iff (and_iff (and_iff (elementCount_iff _) (aligned_iff _ _)) (aligned_iff _ _)) (aligned_iff _ _)).trans ?_
    rw [and_assoc, and_assoc]
    rfl
  | cpyxScale | cpyxAdd | cpyxCast | cpyxRadd | cpyxRmax =>
    simp only [Cmd.limits, Cmd.shape, commandOf, State.readCmd, LimitsOf, Bool.and_eq_true, decide_eq_true_eq, aligned_iff, one_mul,
      tyBytes, xDst, if_true, reduceCtorEq, if_false]
    tauto

end

/-! ### A command on its way to the queue (R192, R195) -/

section
variable {s : State} {op : EOp} {o : FE} {d : List W64} {i : Instr}

theorem s56_of_passes {w : WaitSig} (h : Passes s w) (run : State → Out) : s.s56 w run = run s := by
  unfold State.s56
  rcases h with h | ⟨h1, h2⟩
  · rw [if_pos h]
  · by_cases hr : s.iss.ready = true
    · rw [if_pos hr]
    · rw [if_neg hr, if_neg (by simp [h1]), if_neg (by simp [h2])]

theorem queueFull_iff : s.ctx.queueFull = true ↔ 16 ≤ s.ctx.queue.length := decide_eq_true_iff

theorem psE4_iff : s.psE4 o = true ↔ PoisonedOperand s o := by simp [State.psE4, PoisonedOperand, or_assoc]

theorem eTimeline_eq (op : EOp) : (eTimeline op).toNat = match op with
    | .fcpy | .mxredStart | .mxredRelay | .mxredFinish | .rsig => 2
    | .esig => 3
    | _ => 0 := by cases op <;> rfl

theorem eTimeline_of_isX (h : isX op = true) : eTimeline op = 0 := by
  cases op <;> simp [isX] at h <;> rfl

theorem eTimeline_cases (op : EOp) : eTimeline op = 0 ∨ eTimeline op = 2 ∨ eTimeline op = 3 := by
  cases op <;> decide

/-- The number that a command takes of its timeline; ESIG takes none. -/
def nextNumber (s : State) (op : EOp) : W64 := if eTimeline op = 3 then 0 else (s.ctx.tl (eTimeline op)).issued + 1

theorem queuesCommand_of_enqueue (h : exec i s = .next (s.enqueue (commandOf s op o d))) : QueuesCommand i op o s d := by
  have htl := eTimeline_eq op
  by_cases hx : isX op = true ∧ o.xRm = 4
  · have ht := eTimeline_of_isX hx.1
    rw [ht] at htl
    refine ⟨_, { commandOf s op o d with num := nextNumber s op, seed := rngStep s.iss.rng }, h, ?_⟩
    cases hset : s.iss.rngSet
    all_goals
      simp [State.enqueue, commandOf, State.readCmd, hx, ht, nextNumber, State.draw, State.modCtx, State.modCtl, State.modIss, Ctx.tl,
        Ctx.setTl, Timeline.next, hset]
      exact htl
  · have hno : (isX op = true ∧ o.xRm = 4#3) = False := eq_false hx
    rcases eTimeline_cases op with ht | ht | ht
    all_goals
      rw [ht] at htl
      refine ⟨_, { commandOf s op o d with num := nextNumber s op }, h, ?_⟩
      simp [State.enqueue, commandOf, State.readCmd, hno, ht, nextNumber, State.modCtx, Ctx.tl, Ctx.setTl, Timeline.next]
      exact htl

theorem queueCmd_of_fault {c : Cmd} {a : W64} (h : c.spans.findSome? Span.fault = some a) : s.queueCmd c = s.trap cCopy 0 0 a := by
  simp only [State.queueCmd, Cmd.check, checkOp, h]

theorem queueCmd_of_limits {c : Cmd} (h : ∀ x ∈ c.spans, x.fault = none) :
    s.queueCmd c = if c.limits then .next (s.enqueue c) else s.trap cIllegalOperand := by
  simp only [State.queueCmd, Cmd.check, checkOp, List.findSome?_eq_none_iff.2 h]
  cases c.limits <;> rfl

/-- What a slot's command does once its wait has passed (R192, R195). -/
theorem engine_of_passes (h : Passes s o.w) : s.engine op o =
    if s.ctx.queueFull then .next s.hold else if s.psE4 o then s.trap cPoison else s.queueCmd (commandOf s op o []) :=
  s56_of_passes h _

theorem exec_of_isCommand (h : IsCommand op o i) (s : State) : exec i s = s.engine op o := by
  rcases h with ⟨rfl, rfl⟩ | ⟨rfl, rfl⟩ | ⟨rfl, rfl⟩ | ⟨rfl, rfl⟩ | ⟨rfl, rfl⟩ | ⟨rfl, rfl⟩ | ⟨rfl, rfl⟩ | ⟨rfl, rfl⟩ | ⟨rfl, rfl⟩ |
    ⟨rfl, rfl⟩ | ⟨rfl, rfl⟩ | ⟨rfl, rfl⟩ | ⟨rfl, rfl⟩ | ⟨rfl, rfl⟩ <;> rfl

theorem ne_cpy3_of_isCommand (h : IsCommand op o i) : op ≠ .cpy3 := by
  rintro rfl
  simp [IsCommand] at h

end

/-- Every engine command but CPY3. -/
theorem commands_queue (s : State) (op : EOp) (o : FE) (i : Instr) (hi : IsCommand op o i) (hp : Passes s o.w) :
    let xs := (s.readCmd op o).spans
    (16 ≤ s.ctx.queue.length → Gives i s { s with iss := { s.iss with held := true } }) ∧
    (s.ctx.queue.length < 16 → PoisonedOperand s o → Traps i s 0x04) ∧
    (s.ctx.queue.length < 16 → ¬PoisonedOperand s o →
      ((∀ x ∈ xs, x.fault = none) → SpacesOf s op o ∧ (LimitsOf s op o → QueuesCommand i op o s []) ∧
        (¬LimitsOf s op o → Traps i s 0x03)) ∧
      (∀ a, xs.findSome? Span.fault = some a → CopyTrap i s a) ∧
      (¬SpacesOf s op o → ∃ a, (a = s.rdS o.sa ∨ a = s.rdS o.sb ∨ a = s.rdS o.sc) ∧ ∃ x ∈ xs, x.fault = some a)) := by
  have hexec := (exec_of_isCommand hi s).trans (engine_of_passes hp)
  have hlim := limits_iff (s := s) (o := o) (d := []) (ne_cpy3_of_isCommand hi)
  refine ⟨fun hfull => ?_, fun hroom hpois => ?_, fun hroom hclean => ?_⟩
  · exact hexec.trans (if_pos (queueFull_iff.2 hfull))
  · rw [if_neg (by simpa [queueFull_iff] using hroom), if_pos (psE4_iff.2 hpois)] at hexec
    exact hexec
  · rw [if_neg (by simpa [queueFull_iff] using hroom), if_neg (by rwa [psE4_iff])] at hexec
    refine ⟨fun hgood => ⟨spacesOf_of_faultless hgood, fun hl => ?_, fun hl => ?_⟩, fun a ha => ?_, fault_of_not_spacesOf (d := [])⟩
    · exact queuesCommand_of_enqueue (hexec.trans ((queueCmd_of_limits hgood).trans (if_pos (hlim.2 hl))))
    · exact hexec.trans ((queueCmd_of_limits hgood).trans (if_neg (mt hlim.1 hl)))
    · exact hexec.trans (queueCmd_of_fault ha)

/-! ### CPY3 and its descriptor (R197, R282) -/

section
variable {s : State} {o : FE}

theorem readDesc_word (rs : List Run) {i : Nat} (hi : i < 4) : ((s.readDesc rs).getD i 0).toNat =
    leNat ((({ s with mem := s.iss.later.getD s.mem }.gather s.me 0 rs).1.drop (8 * i)).take 8) := by
  have hlt : leNat ((({ s with mem := s.iss.later.getD s.mem }.gather s.me 0 rs).1.drop (8 * i)).take 8) < 2 ^ 64 :=
    (leNat_lt _).trans_le (Nat.pow_le_pow_right (by decide) (by rw [List.length_take]; omega))
  rw [State.readDesc, List.getD_eq_getElem?_getD, List.getElem?_map, List.getElem?_range hi, Option.map_some, Option.getD_some,
    BitVec.toNat_ofNat, Nat.mod_eq_of_lt hlt]

theorem cpy3_limits_iff (rs : List Run) :
    let w (i : Nat) : Nat := ((s.readDesc rs).getD i 0).toNat
    (commandOf s .cpy3 o (s.readDesc rs)).limits = true ↔
      w 0 / 2 ^ 32 * (w 0 % 2 ^ 32) * (w 2 % 2 ^ 32) ≤ 2 ^ 32 ∧ w 2 / 2 ^ 32 = 0 := by
  obtain ⟨a, b, d, e, hdesc⟩ : ∃ a b d e, s.readDesc rs = [a, b, d, e] := ⟨_, _, _, _, rfl⟩
  rw [hdesc]
  simp only [Cmd.limits, Cmd.shape, commandOf, State.readCmd, Bool.and_eq_true, decide_eq_true_eq, hi32_eq, lo32_eq,
    List.getD_cons_zero, List.getD_cons_succ]
  rw [Nat.mul_assoc, Nat.mul_comm (d.toNat % 2 ^ 32)]

theorem cpy3_of_passes (h : Passes s o.w) : exec (.cpy3 o) s =
    if s.ctx.queueFull then .next s.hold
    else if s.psE4 o then s.trap cPoison
    else if !(spaceOk (s.rdS o.sc) && space (s.rdS o.sc) = 0) then s.trap cCopy 0 0 (s.rdS o.sc)
    else if (s.rdS o.sc).toNat % 32 ≠ 0 then s.trap cIllegalOperand
    else match s.route s.me s.rid Access.load (s.rdS o.sc) 32 with
      | .fail _ => s.trap cCopy 0 0 (s.rdS o.sc)
      | .wait => .next s.hold
      | .ok rs => s.queueCmd (commandOf s .cpy3 o (s.readDesc rs)) :=
  (show exec (.cpy3 o) s = execCpy3 o s from rfl).trans (s56_of_passes h _)

end

theorem inSpace_zero_iff (a : W64) : InSpace a [0] ↔ (!(spaceOk a && space a = 0)) = false := by
  simp [InSpace, space]

theorem cpy3_queues (s : State) (o : FE) (hp : Passes s o.w) :
    let sc := s.rdS o.sc
    (16 ≤ s.ctx.queue.length → Gives (.cpy3 o) s { s with iss := { s.iss with held := true } }) ∧
    (s.ctx.queue.length < 16 → PoisonedOperand s o → Traps (.cpy3 o) s 0x04) ∧
    (s.ctx.queue.length < 16 → ¬PoisonedOperand s o →
      (¬InSpace sc [0] → CopyTrap (.cpy3 o) s sc) ∧
      (InSpace sc [0] → sc.toNat % 32 ≠ 0 → Traps (.cpy3 o) s 0x03) ∧
      (InSpace sc [0] → sc.toNat % 32 = 0 → s.route s.me s.rid Access.load sc 32 = .wait →
        Gives (.cpy3 o) s { s with iss := { s.iss with held := true } }) ∧
      (∀ f, InSpace sc [0] → sc.toNat % 32 = 0 → s.route s.me s.rid Access.load sc 32 = .fail f → CopyTrap (.cpy3 o) s sc) ∧
      ∀ rs, InSpace sc [0] → sc.toNat % 32 = 0 → s.route s.me s.rid Access.load sc 32 = .ok rs →
        let d := s.readDesc rs
        let w (i : Nat) : Nat := (d.getD i 0).toNat
        let xs := ({ s.readCmd .cpy3 o with desc := d } : Cmd).spans;
        (∀ i < 4, w i = leNat ((({ s with mem := s.iss.later.getD s.mem }.gather s.me 0 rs).1.drop (8 * i)).take 8)) ∧
        (∀ a, xs.findSome? Span.fault = some a → CopyTrap (.cpy3 o) s a) ∧
        ((∀ x ∈ xs, x.fault = none) → SpacesOf s .cpy3 o ∧
          if w 0 / 2 ^ 32 * (w 0 % 2 ^ 32) * (w 2 % 2 ^ 32) ≤ 2 ^ 32 ∧ w 2 / 2 ^ 32 = 0 then QueuesCommand (.cpy3 o) .cpy3 o s d
          else Traps (.cpy3 o) s 0x03)) := by
  intro sc
  have hexec := cpy3_of_passes hp
  refine ⟨fun hfull => ?_, fun hroom hpois => ?_, fun hroom hclean => ?_⟩
  · exact hexec.trans (if_pos (queueFull_iff.2 hfull))
  · rw [if_neg (by simpa [queueFull_iff] using hroom), if_pos (psE4_iff.2 hpois)] at hexec
    exact hexec
  · rw [if_neg (by simpa [queueFull_iff] using hroom), if_neg (by rwa [psE4_iff])] at hexec
    have hplace (hin : InSpace sc [0]) := hexec.trans (if_neg (by rw [(inSpace_zero_iff _).1 hin]; exact Bool.false_ne_true))
    have hroute (hin : InSpace sc [0]) (ha : sc.toNat % 32 = 0) := (hplace hin).trans (if_neg (not_not_intro ha))
    refine ⟨fun hin => ?_, fun hin ha => (hplace hin).trans (if_pos ha), fun hin ha hr => ?_, fun f hin ha hr => ?_,
      fun rs hin ha hr => ⟨fun i hi => readDesc_word rs hi, fun a hf => ?_, fun hgood => ⟨spacesOf_of_faultless hgood, ?_⟩⟩⟩
    · rw [inSpace_zero_iff, Bool.not_eq_false] at hin
      exact hexec.trans (if_pos hin)
    · have h := hroute hin ha
      rw [hr] at h
      exact h
    · have h := hroute hin ha
      rw [hr] at h
      exact h
    · have h := hroute hin ha
      rw [hr] at h
      exact h.trans (queueCmd_of_fault hf)
    · have h := hroute hin ha
      rw [hr] at h
      have hqueue := h.trans (queueCmd_of_limits hgood)
      split_ifs with hl
      · exact queuesCommand_of_enqueue (hqueue.trans (if_pos ((cpy3_limits_iff rs).2 hl)))
      · exact hqueue.trans (if_neg (mt (cpy3_limits_iff rs).1 hl))

/-- Settles O26: the ranges of operands, the engine commands and CPY3. -/
theorem engineCommands : Obligations.EngineCommands := ⟨operandRangesRule, commands_queue, cpy3_queues⟩

end Sys2Proof.Proofs.Engines
end

section
open Sys2Proof Sys2Proof.Machine
namespace Sys2Proof.Proofs.Loops

/-! ### LOOP and LOOPI -/

section
variable {s : State} {n off : Nat}

/-- Below depth 6 a count opens a level (R120). -/
theorem openLoop_pushes (hd : s.ctx.q.loops.length < 6) (hn : n ≠ 0) :
    State.openLoop s n off = .next (s.modSeq fun q => { q with loops := q.loops ++
      [{ count := BitVec.ofNat 64 n, start := s.nextPc, last := s.iss.ba + 2 * BitVec.ofNat 64 off, index := 0 }] }) := by
  unfold State.openLoop
  rw [if_neg (by omega)]
  exact if_neg hn

/-- Below depth 6 a zero count passes the bundle at the label, as fetch finds it (R120). -/
theorem openLoop_passes (hd : s.ctx.q.loops.length < 6) :
    State.openLoop s 0 off = match s.findBundle (s.iss.ba + 2 * BitVec.ofNat 64 off) with
      | .header a h => .next (s.decideTransfer (a + BitVec.ofNat 64 (bundleLength (readHeader h).mask)) false 2)
      | .fault a d => s.trap cFetch d 0 a
      | .held _ | .endless => .next s.hold := by
  unfold State.openLoop
  rw [if_neg (by omega)]
  exact (if_pos rfl).trans rfl

theorem onlyLoops_pushed (s : State) (ls : List LoopLevel) : OnlyLoops s (s.modSeq fun q => { q with loops := ls }) := ⟨rfl⟩

end

/-- Either form opens a loop with its count and label, from a source without poison. -/
theorem exec_opens {s : State} {a : R6} {off : BitVec 18} {n o : BitVec 12} {i : Instr} {count label : Nat}
    (h : i = .loop a off ∧ s.psS a = false ∧ count = (s.rdS a).toNat ∧ label = off.toNat ∨
      i = .loopi n o ∧ count = n.toNat ∧ label = o.toNat) : exec i s = State.openLoop s count label := by
  obtain ⟨rfl, hp, rfl, rfl⟩ | ⟨rfl, rfl, rfl⟩ := h
  · show execLoop a off s = _
    unfold execLoop
    rw [if_neg (by simp [hp])]
  · rfl

/-! ### BLC and LPOP on the innermost level -/

section
variable {s : State} {ls : List LoopLevel} {l : LoopLevel} (hl : s.ctx.q.loops = ls ++ [l])
include hl

/-- At the loop's end BLC goes back while passes are left, and else leaves the loop (R121); a legal point follows (R323). -/
theorem execBlc_eq (hlast : l.last = s.iss.ba) :
    execBlc s = .next (
      let t := s.modIss fun i => { i with legal := true }
      if 1 < l.count.toNat then
        (t.modSeq fun q => { q with loops := ls ++ [{ l with count := l.count - 1, index := l.index + 1 }] }).decideTransfer
          l.start true 0
      else t.modSeq fun q => { q with loops := ls }) := by
  unfold execBlc
  simp only [modIss_ctx, hl, List.getLast?_append, List.getLast?_singleton, Option.some_or, List.dropLast_concat, hlast, ne_eq,
    not_true_eq_false, if_false]
  split <;> rfl

theorem execLpop_eq : execLpop s = .next (s.modSeq fun q => { q with loops := ls }) := by
  unfold execLpop
  rw [if_neg (by simp [hl])]
  simp [State.modSeq, hl]

theorem blc_gives (hlast : l.last = s.iss.ba) : ∃ t, Gives .blc s t ∧ OnlyLoops s t ∧ t.iss.legal = true ∧
    if 1 < l.count.toNat then
      t.ctx.q.loops = ls ++ [{ l with count := l.count - 1, index := l.index + 1 }] ∧
        t.iss.xfer = some { tgt := l.start, rot := true, stall := 0 }
    else t.ctx.q.loops = ls ∧ t.iss.xfer = s.iss.xfer := by
  refine ⟨_, execBlc_eq hl hlast, ?_⟩
  by_cases hc : 1 < l.count.toNat
  · simp only [if_pos hc]
    exact ⟨⟨rfl⟩, rfl, rfl, rfl⟩
  · simp only [if_neg hc]
    exact ⟨⟨rfl⟩, rfl, rfl, rfl⟩

theorem lpop_gives : ∃ t, Gives .lpop s t ∧ OnlyLoops s t ∧ t.iss = s.iss ∧ t.ctx.q.loops = ls :=
  ⟨_, execLpop_eq hl, onlyLoops_pushed s ls, rfl, rfl⟩

end

/-- Settles O6: both loop instructions open a loop, and BLC and LPOP act on its innermost level. -/
theorem hardwareLoops : Obligations.HardwareLoops := by
  intro s a off n o i count label hi
  have hexec := exec_opens hi
  refine ⟨fun hd => ⟨fun hn => ?_, fun hn => ?_⟩, fun ls l hl => ⟨blc_gives hl, lpop_gives hl⟩⟩
  · exact ⟨_, hexec.trans (openLoop_pushes hd hn), onlyLoops_pushed s _, rfl, rfl⟩
  · subst hn
    rw [openLoop_passes hd] at hexec
    split <;> rename_i hf <;> rw [hf] at hexec <;> exact hexec

end Sys2Proof.Proofs.Loops
end

section
open Sys2Proof Sys2Proof.Machine
namespace Sys2Proof.Proofs.ControlRegisters

/-! ### Fields of a word that is a sum of its fields -/

theorem b2n_toNat (b : Bool) : b2n b = b.toNat := by cases b <;> rfl

/-- The field of w bits from bit lo on, of a word given as a number. -/
theorem extractLsb'_ofNat {n lo w : Nat} {x : BitVec w} (hw : lo + w ≤ 64) (h : n / 2 ^ lo % 2 ^ w = x.toNat) :
    (BitVec.ofNat 64 n).extractLsb' lo w = x := by
  refine BitVec.eq_of_toNat_eq ?_
  have hsplit : 2 ^ 64 = 2 ^ lo * 2 ^ (64 - lo) := by rw [← Nat.pow_add]; congr 1; omega
  have hdvd : 2 ^ w ∣ 2 ^ (64 - lo) := Nat.pow_dvd_pow 2 (by omega)
  rw [BitVec.extractLsb'_toNat, BitVec.toNat_ofNat, Nat.shiftRight_eq_div_pow, hsplit, Nat.mod_mul_right_div_self,
    Nat.mod_mod_of_dvd _ hdvd, h]

/-- The bit lo of a word given as a number. -/
theorem getLsbD_ofNat_64 {n lo : Nat} {b : Bool} (hlo : lo < 64) (h : n / 2 ^ lo % 2 = b.toNat) :
    (BitVec.ofNat 64 n).getLsbD lo = b := by
  rw [BitVec.getLsbD_ofNat, Nat.testBit_eq_decide_div_mod_eq, h]
  cases b <;> simp [hlo]

/-! ### MFC writes what it reads -/

section
variable {s : State} {d : R6}

/-- An MFC completes with the register it reads, never poisoned (R124). -/
theorem mfc_done (sel : BitVec 8) (spc : BitVec 2) : ScalarDone (.mfc d sel spc) s d (s.readSpace sel spc) false :=
  ⟨_, rfl, fun h => ⟨wrS_sNow s d _ _ _ h, wrS_sPoison s d _ _ _ h⟩, wrS_only s d _ _ _, by
    by_cases h : d = 0
    · rw [h, wrS_zero]
    · rw [wrS_eq s d _ _ _ h]; rfl⟩

/-- An MFC of a control register completes with the value that the register has been found to hold. -/
theorem mfc_reads {sel : BitVec 8} {v : W64} (h : s.readCtl sel = v) : ScalarDone (.mfc d sel 0) s d v false :=
  h ▸ mfc_done sel 0

end

/-! ### The words (R26, R30, R34 to R37, R39, R40) -/

theorem ctxidWord_eq (c : Ctx) :
    ctxidWord c = (c.core.setWidth 64) ||| (c.bank.setWidth 64 <<< 16) ||| (c.id.rid.setWidth 64 <<< 32) := by
  have hcore : c.core.toNat < 2 ^ 16 := lt_of_lt_of_le c.core.isLt (by norm_num)
  have hbank : c.bank.toNat < 2 ^ 16 := lt_of_lt_of_le c.bank.isLt (by norm_num)
  have hrid : c.id.rid.toNat < 2 ^ 32 := c.id.rid.isLt
  have hcb : c.core.toNat ||| (c.bank.toNat <<< 16) = c.core.toNat + c.bank.toNat * 2 ^ 16 := by
    rw [Nat.or_comm, ← Nat.shiftLeft_add_eq_or_of_lt hcore, Nat.shiftLeft_eq, Nat.add_comm]
  have hcbr : (c.core.toNat + c.bank.toNat * 2 ^ 16) ||| (c.id.rid.toNat <<< 32) =
      c.core.toNat + c.bank.toNat * 2 ^ 16 + c.id.rid.toNat * 2 ^ 32 := by
    rw [Nat.or_comm, ← Nat.shiftLeft_add_eq_or_of_lt (by omega), Nat.shiftLeft_eq, Nat.add_comm]
  refine BitVec.eq_of_toNat_eq ?_
  have hb : c.bank.toNat <<< 16 % 2 ^ 64 = c.bank.toNat <<< 16 := Nat.mod_eq_of_lt (by rw [Nat.shiftLeft_eq]; omega)
  have hr : c.id.rid.toNat <<< 32 % 2 ^ 64 = c.id.rid.toNat <<< 32 := Nat.mod_eq_of_lt (by rw [Nat.shiftLeft_eq]; omega)
  simp only [ctxidWord, BitVec.toNat_ofNat, BitVec.toNat_or, BitVec.toNat_shiftLeft, BitVec.toNat_setWidth]
  rw [Nat.mod_eq_of_lt (a := c.core.toNat) (by omega), Nat.mod_eq_of_lt (a := c.bank.toNat) (by omega),
    Nat.mod_eq_of_lt (a := c.id.rid.toNat) (by omega), hb, hr, hcb, hcbr]
  omega

theorem trppWord_eq (c : Ctl) : trppWord c = (c.pidx.setWidth 64) ||| (if c.lost then 1#64 <<< 63 else 0#64) := by
  have hpidx : c.pidx.toNat < 2 ^ 32 := c.pidx.isLt
  refine BitVec.eq_of_toNat_eq ?_
  cases hl : c.lost
  · simp [trppWord, hl, b2n]
  · have hor : c.pidx.toNat ||| 2 ^ 63 = c.pidx.toNat + 2 ^ 63 := by
      rw [Nat.or_comm, ← Nat.one_shiftLeft, ← Nat.shiftLeft_add_eq_or_of_lt (by omega), Nat.add_comm]
    simp only [trppWord, hl, b2n, if_true, BitVec.toNat_ofNat, BitVec.toNat_or, BitVec.toNat_setWidth,
      BitVec.toNat_shiftLeft, Nat.one_mul]
    rw [Nat.mod_eq_of_lt (a := c.pidx.toNat) (by omega), Nat.mod_eq_of_lt (by omega)]
    exact hor.symm

section
variable {q : Seqr} (hq : q.loops.length ≤ 6)
include hq

theorem lstkWord_fields : (lstkWord q).extractLsb' 0 3 = BitVec.ofNat 3 q.loops.length ∧ (lstkWord q).getLsbD 3 = false ∧
    (lstkWord q).extractLsb' 4 3 = q.lsel ∧ (lstkWord q).extractLsb' 7 57 = 0 := by
  have hsel : q.lsel.toNat < 8 := q.lsel.isLt
  refine ⟨extractLsb'_ofNat (by norm_num) ?_, getLsbD_ofNat_64 (by norm_num) ?_, extractLsb'_ofNat (by norm_num) ?_,
    extractLsb'_ofNat (by norm_num) ?_⟩
  · rw [BitVec.toNat_ofNat]; omega
  · simp only [Bool.toNat_false]; omega
  · omega
  · show _ = 0
    omega

end

theorem eseamWord_fields (e : ESeam) :
    (eseamWord e).extractLsb' 0 8 = e.held ∧ (eseamWord e).extractLsb' 8 8 = 0 ∧ (eseamWord e).extractLsb' 16 16 = e.gref ∧
      (eseamWord e).extractLsb' 32 16 = e.lstall ∧ (eseamWord e).extractLsb' 48 14 = 0 ∧
      (eseamWord e).getLsbD 62 = e.strict ∧ (eseamWord e).getLsbD 63 = e.gtrap := by
  have hheld : e.held.toNat < 2 ^ 8 := e.held.isLt
  have hgref : e.gref.toNat < 2 ^ 16 := e.gref.isLt
  have hlstall : e.lstall.toNat < 2 ^ 16 := e.lstall.isLt
  have hstrict := Bool.toNat_le e.strict
  have hgtrap := Bool.toNat_le e.gtrap
  simp only [eseamWord, b2n_toNat]
  refine ⟨extractLsb'_ofNat (by norm_num) ?_, extractLsb'_ofNat (by norm_num) ?_, extractLsb'_ofNat (by norm_num) ?_,
    extractLsb'_ofNat (by norm_num) ?_, extractLsb'_ofNat (by norm_num) ?_, getLsbD_ofNat_64 (by norm_num) ?_,
    getLsbD_ofNat_64 (by norm_num) ?_⟩
  case refine_2 | refine_5 => show _ = 0; omega
  all_goals omega

theorem kwinWord_fields (c : Core) (rid : BitVec 32) : (c.grantOf rid = none → kwinWord c rid = 0) ∧
    ∀ g, c.grantOf rid = some g → g.base < 256 → g.base + g.count ≤ 256 → (kwinWord c rid).toNat = g.base + g.count * 2 ^ 8 := by
  refine ⟨fun h => by simp [kwinWord, h], fun g h hb hc => ?_⟩
  simp only [kwinWord, h, BitVec.toNat_ofNat]
  omega

theorem pwrlWord_fields (p : Power) : (pwrlWord p).extractLsb' 0 3 = (if p.low then 0 else p.level) ∧
    (pwrlWord p).getLsbD 3 = p.low ∧ (pwrlWord p).extractLsb' 4 60 = 0 := by
  have hlevel : p.level_.toNat < 8 := p.level_.isLt
  have hlow := Bool.toNat_le p.low
  simp only [pwrlWord, b2n_toNat]
  refine ⟨extractLsb'_ofNat (by norm_num) ?_, getLsbD_ofNat_64 (by norm_num) ?_, extractLsb'_ofNat (by norm_num) ?_⟩
  · show _ = p.level_.toNat
    omega
  · omega
  · show _ = 0
    omega

/-- A word of POOLMAP holds the roles of its 32 banks, two bits each (R40). -/
theorem poolmapWord_role (p : Pool) (k : Nat) {j : Nat} (hj : j < 32) :
    (poolmapWord p k).extractLsb' (2 * j) 2 = vget p.roles (32 * k + j) := by
  refine extractLsb'_ofNat (by omega) ?_
  have h := elem_packEl 2 ((List.range 32).map fun j => (vget p.roles (32 * k + j)).toNat) j
  simp only [List.getElem?_map, List.getElem?_range hj, Option.map_some, Option.getD_some] at h
  exact h.trans (Nat.mod_eq_of_lt (vget p.roles (32 * k + j)).isLt)

theorem countRole_le (p : Pool) (r : BitVec 2) : p.countRole r ≤ 96 :=
  (List.length_filter_le _ _).trans (by simp)

theorem countRole_eq (p : Pool) (r : BitVec 2) : p.countRole r = p.roles.toList.countP (· = r) :=
  List.countP_eq_length_filter.symm

theorem poccWord_fields (p : Pool) :
    (∀ r : BitVec 2, (poccWord p).extractLsb' (8 * r.toNat) 8 = BitVec.ofNat 8 (p.roles.toList.countP (· = r))) ∧
      (poccWord p).extractLsb' 32 32 = BitVec.ofNat 32 p.moving.length := by
  have h0 := countRole_le p 0
  have h1 := countRole_le p 1
  have h2 := countRole_le p 2
  have h3 := countRole_le p 3
  refine ⟨fun r => ?_, extractLsb'_ofNat (by norm_num) ?_⟩
  · rw [← countRole_eq]
    refine extractLsb'_ofNat (by omega) ?_
    rw [BitVec.toNat_ofNat]
    match r with
    | 0 => show _ / 2 ^ 0 % _ = _; omega
    | 1 => show _ / 2 ^ 8 % _ = _; omega
    | 2 => show _ / 2 ^ 16 % _ = _; omega
    | 3 => show _ / 2 ^ 24 % _ = _; omega
  · rw [BitVec.toNat_ofNat]
    omega

/-- Where every outstanding result is due, PSUM shows the poison that stands (R18, R155). -/
theorem psum_iff {c : Ctx} {cycle : Nat} (h : ∀ p ∈ c.board, ∀ x, p.due = some x → x ≤ cycle) :
    c.psum cycle = true ↔ c.r.sp ≠ 0 ∨ c.r.pp ≠ 0 ∨ ∃ g ∈ c.r.vp.toList, g ≠ 0 := by
  have hnone : (c.board.filter fun p => p.due.any fun d => cycle < d) = [] := by
    refine List.filter_eq_nil_iff.2 fun p hp hlate => ?_
    obtain ⟨x, hx, hlt⟩ := Option.any_eq_true .. |>.1 hlate
    exact absurd (h p hp x hx) (by simpa using hlt)
  simp only [Ctx.psum, hnone, List.foldr_nil, Regs.poisoned, Bool.or_eq_true, decide_eq_true_eq, List.any_eq_true, or_assoc]

theorem statusWord_fields (c : Ctx) (pcl cycle : Nat) :
    let v := statusWord c pcl cycle
    v.extractLsb' 0 3 = c.c.sres ∧ v.getLsbD 4 = c.c.smis ∧ v.extractLsb' 5 5 = c.c.vrb ∧ v.extractLsb' 10 4 = c.c.prb ∧
      v.extractLsb' 14 2 = BitVec.ofNat 2 pcl ∧ v.getLsbD 16 = c.psum cycle ∧ v.getLsbD 17 = c.c.gdeg ∧
      v.getLsbD 18 = c.c.gnf ∧ v.getLsbD 19 = c.c.mhold ∧ v.extractLsb' 20 44 = 0 := by
  have hsres : c.c.sres.toNat < 2 ^ 3 := c.c.sres.isLt
  have hvrb : c.c.vrb.toNat < 2 ^ 5 := c.c.vrb.isLt
  have hprb : c.c.prb.toNat < 2 ^ 4 := c.c.prb.isLt
  have hsmis := Bool.toNat_le c.c.smis
  have hpsum := Bool.toNat_le (c.psum cycle)
  have hgdeg := Bool.toNat_le c.c.gdeg
  have hgnf := Bool.toNat_le c.c.gnf
  have hmhold := Bool.toNat_le c.c.mhold
  simp only [statusWord, b2n_toNat]
  refine ⟨extractLsb'_ofNat (by norm_num) ?_, getLsbD_ofNat_64 (by norm_num) ?_, extractLsb'_ofNat (by norm_num) ?_,
    extractLsb'_ofNat (by norm_num) ?_, extractLsb'_ofNat (by norm_num) ?_, getLsbD_ofNat_64 (by norm_num) ?_,
    getLsbD_ofNat_64 (by norm_num) ?_, getLsbD_ofNat_64 (by norm_num) ?_, getLsbD_ofNat_64 (by norm_num) ?_,
    extractLsb'_ofNat (by norm_num) ?_⟩
  case refine_10 => show _ = 0; omega
  case refine_5 => rw [BitVec.toNat_ofNat]; omega
  all_goals omega

theorem controlReadsRule : ControlReadsRule := by
  intro s d sel
  refine ⟨?_, fun _ => ⟨mfc_done sel 1, mfc_done sel 2⟩, fun _ => mfc_done sel 3, fun hq => ⟨_, mfc_done _ _, lstkWord_fields hq⟩,
    ⟨_, mfc_done _ _, eseamWord_fields _⟩, ⟨_, mfc_done _ _, kwinWord_fields _ _⟩, ⟨_, mfc_done _ _, pwrlWord_fields _⟩, fun j hj => ?_,
    ⟨_, mfc_done _ _, poccWord_fields _⟩, ⟨_, mfc_done _ _, ?_⟩⟩
  · simp only [List.forall_mem_cons, List.not_mem_nil, false_implies, implies_true, and_true]
    refine ⟨mfc_reads rfl, mfc_reads rfl, mfc_reads rfl, mfc_reads rfl, mfc_reads rfl, mfc_reads rfl, mfc_reads rfl,
      mfc_reads rfl, mfc_reads rfl, mfc_reads rfl, mfc_reads rfl, mfc_reads rfl, mfc_reads rfl, mfc_reads rfl,
      mfc_reads (ctxidWord_eq _), mfc_reads rfl, mfc_reads rfl, mfc_reads rfl, mfc_reads rfl, mfc_reads rfl,
      mfc_reads (trppWord_eq _)⟩
  · have hread : s.readCtl (BitVec.ofNat 8 (0x22 + j / 32)) = poolmapWord s.core.pool (j / 32) := by
      have h : j / 32 = 0 ∨ j / 32 = 1 ∨ j / 32 = 2 := by omega
      rcases h with h | h | h <;> rw [h] <;> rfl
    refine ⟨_, mfc_reads hread, ?_⟩
    rw [poolmapWord_role _ _ (Nat.mod_lt j (by norm_num)), Nat.div_add_mod]
  · obtain ⟨hsres, hsmis, hvrb, hprb, hpcl, hpsum, hgdeg, hgnf, hmhold, hrest⟩ :=
      statusWord_fields s.pre (s.classOf s.pre) s.core.cycle
    exact ⟨hsres, hsmis, hvrb, hprb, hpcl, hpsum, fun h => (Bool.eq_iff_iff.1 hpsum).trans (psum_iff h), hgdeg, hgnf, hmhold, hrest⟩

/-! ### MTC writes what each register takes -/

section
variable {s : State} {a : R6} (h : s.psS a = false)
include h

/-- From a source without poison an MTC acts on its value (R125). -/
theorem mtcWith_eq (f : W64 → State → State) : s.mtcWith a f = .next (f (s.rdS a) s) := if_neg (by simp [h])

theorem mtcTrpb_gives (hb : ringBaseOk (s.rdS a) = true) : Gives (.mtcTrpb a) s
    (s.modCtl fun c => { c with trpb := s.rdS a &&& 0xFFFFFFFFFFFFF01F, pidx := 0, cidx := 0, lost := false }) := by
  show execMtcTrpb a s = _
  unfold execMtcTrpb
  rw [if_neg (by simp [h]), if_pos hb]

end

/-- The base that R34 takes: an ESIZE from 4 to 16, in space 0x2 or 0x3. -/
theorem ringBaseOk_of {x : W64} (h : 4 ≤ x.toNat % 32 ∧ x.toNat % 32 ≤ 16 ∧ (x.toNat / 2 ^ 60 = 2 ∨ x.toNat / 2 ^ 60 = 3)) :
    ringBaseOk x = true := by
  obtain ⟨hlo, hhi, hspace⟩ := h
  simp only [ringBaseOk, Bool.and_eq_true, Bool.or_eq_true, decide_eq_true_eq]
  exact ⟨⟨by simpa [bits] using hlo, by simpa [bits] using hhi⟩, hspace⟩

/-- FEREC after an MTC: ARM is written, VAL cleared by a one (R29). -/
theorem ferec_bits (f x : W64) (i : Nat) :
    (if x.getLsbD 62 then setBit (setBit f 63 (x.getLsbD 63)) 62 false else setBit f 63 (x.getLsbD 63)).getLsbD i =
      if i = 63 then x.getLsbD 63 else if i = 62 then f.getLsbD 62 && !x.getLsbD 62 else f.getLsbD i := by
  have harm : (setBit f 63 (x.getLsbD 63)).getLsbD i = if i = 63 then x.getLsbD 63 else f.getLsbD i := by
    split
    · next e => rw [e]; exact setBit_same f 63 _ (by norm_num)
    · next e => exact setBit_ne f 63 i _ (Ne.symm e)
  by_cases hval : i = 62
  · subst hval
    cases hx : x.getLsbD 62 with
    | true => simpa [hx] using setBit_same (setBit f 63 (x.getLsbD 63)) 62 false (by norm_num)
    | false => simpa [hx] using harm
  · rw [if_neg hval, ← harm]
    split
    · exact setBit_ne _ 62 i _ (Ne.symm hval)
    · rfl

theorem controlWritesRule : ControlWritesRule := by
  intro s a sel h
  have mtc (spc : BitVec 2) (sel : BitVec 8) : execMtc a sel spc s = _ := mtcWith_eq h _
  have ferec : execMtcFerec a s = _ := mtcWith_eq h _
  refine ⟨mtc 0 3, mtc 0 9, mtc 0 0x0B, mtc 0 0x0D, mtc 0 0x16,
    fun hsel => ⟨⟨_, mtc 1 sel, ?_, ?_, rfl⟩, ⟨_, mtc 2 sel, ?_, ?_, rfl⟩⟩,
    (mtcWith_eq h _ : execMtcRng a s = _), fun hb => mtcTrpb_gives h (ringBaseOk_of hb),
    (mtcWith_eq h _ : execMtcTrpc a s = _), (mtcWith_eq h _ : execMtcFpf a s = _), ⟨_, ferec, rfl, ferec_bits _ _⟩,
    (mtcWith_eq h _ : execMtcStatus a s = _)⟩
  · exact vget_vset_same s.ctx.r.f _ _ hsel
  · exact fun n hn => vget_vset_ne s.ctx.r.f _ _ _ (Ne.symm hn)
  · exact vget_vset_same s.ctx.r.ft _ _ hsel
  · exact fun n hn => vget_vset_ne s.ctx.r.ft _ _ _ (Ne.symm hn)

/-- Settles O7: MFC completes with the word of its register, whose fields are those of the state, and MTC with its write. -/
theorem controlRegisters : Obligations.ControlRegisters := ⟨controlReadsRule, controlWritesRule⟩

end Sys2Proof.Proofs.ControlRegisters
end

section
open Sys2Proof Sys2Proof.Machine
namespace Sys2Proof.Proofs.VectorIntegers

/-! ### Patterns and counts -/

theorem wrapN_eq_pat (w : Nat) (x : Int) : wrapN w x = pat w x := by
  simp [wrapN, pat]

theorem elem_lt (w v i : Nat) : elem w v i < 2 ^ w := Nat.mod_lt _ (by positivity)

theorem bE_lt (s : State) (o : VR) (vs : Bool) (i : Nat) : bE s o vs i < 2 ^ tyWidth o.t := by
  unfold bE
  split
  · exact Nat.mod_lt _ (by positivity)
  · exact elem_lt _ _ _

/-- A count of w places or more moves every bit out (R142). -/
theorem shlE_mod (w a k : Nat) : shlE w a k % 2 ^ w = a * 2 ^ k % 2 ^ w := by
  unfold shlE
  split
  · next h => rw [Nat.zero_mod, Nat.mod_eq_zero_of_dvd (Dvd.dvd.mul_left (Nat.pow_dvd_pow 2 h) a)]
  · exact Nat.mod_mod _ _

theorem ediv_eq_of_bounds {x m : Int} (hm : 0 < m) (hlo : -m ≤ x) (hhi : x < m) : x / m = if x < 0 then -1 else 0 := by
  split
  · next h => exact Int.ediv_eq_iff_of_pos hm |>.2 ⟨by omega, by omega⟩
  · next h => exact Int.ediv_eq_zero_of_lt (by omega) hhi

/-- A number of w bits read under a type lies between -2^w and 2^w. -/
theorem tyVal_bounds (t : BitVec 4) {a : Nat} (h : a < 2 ^ tyWidth t) :
    -(2 ^ tyWidth t : Int) ≤ tyVal t a ∧ tyVal t a < 2 ^ tyWidth t := by
  have hcast : (a : Int) < 2 ^ tyWidth t := by exact_mod_cast h
  unfold tyVal signedOf
  rw [Nat.mod_eq_of_lt h]
  split
  · split
    · omega
    · push_cast; omega
  · omega

/-- A right shift by any count is a shift by that count or by all the places (R142). -/
theorem shrE_eq (t : BitVec 4) {a : Nat} (h : a < 2 ^ tyWidth t) (k : Nat) :
    shrE t a k = pat (tyWidth t) (tyVal t a / 2 ^ k) := by
  have hdiv : tyVal t a / (2 ^ min k (tyWidth t) : Nat) = tyVal t a / 2 ^ k := by
    rcases le_total k (tyWidth t) with hk | hk
    · simp [min_eq_left hk]
    · obtain ⟨hlo, hhi⟩ := tyVal_bounds t h
      have hpow : (2 : Int) ^ tyWidth t ≤ 2 ^ k := pow_le_pow_right₀ (by norm_num) hk
      rw [min_eq_right hk, Nat.cast_pow, Nat.cast_ofNat, ediv_eq_of_bounds (by positivity) hlo hhi,
        ediv_eq_of_bounds (by positivity) (by omega) (by omega)]
  show wrapN (tyWidth t) (tyVal t a / (2 ^ min k (tyWidth t) : Nat)) = _
  rw [hdiv, wrapN_eq_pat]

theorem clzN_eq (w a : Nat) : clzN w a = w - Nat.size a := by
  unfold clzN
  split
  · next h => simp [h]
  · next h =>
    have hsize : Nat.size a = Nat.log2 a + 1 := by
      refine le_antisymm (Nat.size_le.2 ((Nat.log2_lt h).1 (Nat.lt_succ_self _))) ?_
      exact (Nat.log2_lt h).2 (Nat.lt_size_self a)
    omega

theorem testBit_notN {w b k : Nat} (hb : b < 2 ^ w) (hk : k < w) : (notN w b).testBit k = !b.testBit k := by
  have h := Nat.testBit_two_pow_sub_succ hb k
  rw [show 2 ^ w - (b + 1) = notN w b by unfold notN; rw [Nat.mod_eq_of_lt hb]; omega] at h
  simpa [hk] using h

/-! ### Guarded writes -/

/-- What an element-wise write leaves depends on each number only up to its width. -/
theorem vectorWrites_congr {s t : State} {d w : Nat} {f g : Nat → Option (Nat × Bool)} (hw : VectorWrites s t d w f)
    (h : ∀ k, (f k).map (fun x => (x.1 % 2 ^ w, x.2)) = (g k).map fun x => (x.1 % 2 ^ w, x.2)) : VectorWrites s t d w g := by
  obtain ⟨hel, hps⟩ := hw
  refine ⟨fun k hk => (hel k hk).trans ?_, fun j hj => (hps j hj).trans ?_⟩
  · have := h k
    cases hf : f k <;> cases hg : g k <;> simp_all
  · refine exists_congr fun k => and_congr_right fun _ => and_congr_right fun _ => ?_
    have := h k
    cases hf : f k <;> cases hg : g k <;> simp_all

section
variable {s : State} {o : VR} {i : Instr} {lat : Nat}

/-- A guarded element-wise result writes vd, each number up to its width (R135, R136). -/
theorem vecOut_done {val val' : Nat → Nat} {ps : Nat → Bool}
    (hi : exec i s = .next (s.vecOut o (tyWidth o.t) lat (s.guard o.pg o.t) val ps))
    (hval : ∀ k, val k % 2 ^ tyWidth o.t = val' k % 2 ^ tyWidth o.t) :
    VectorDone i s o.vd (tyWidth o.t) (guarded s o val' ps) := by
  obtain ⟨t, ht, honly, hwrites, hrest⟩ := wrE_done i s o.vd (tyWidth o.t) lat (guarded s o val ps) (tyWidth_mem o.t) hi
  refine ⟨t, ht, honly, vectorWrites_congr hwrites fun k => ?_, hrest⟩
  unfold guarded
  split_ifs
  · exact congrArg (fun x => some (x, ps k || s.psP o.pg)) (hval k)
  · rfl
  · rfl

theorem vBin_done {vs : Bool} {op : Nat → Nat → Nat} (hi : exec i s = s.vBin o vs lat op) :
    VectorDone i s o.vd (tyWidth o.t) (guarded s o (fun k => op (aE s o k) (bE s o vs k)) fun k => aP s o k || bP s o vs k) :=
  vecOut_done hi fun _ => rfl

theorem vUn_done {op op' : Nat → Nat} (hi : exec i s = s.vUn o lat op) (hop : ∀ k, op (aE s o k) = op' (aE s o k)) :
    VectorDone i s o.vd (tyWidth o.t) (guarded s o (fun k => op' (aE s o k)) (aP s o)) :=
  vecOut_done hi fun k => congrArg (· % 2 ^ tyWidth o.t) (hop k)

theorem vShift_done {vs : Bool} {op op' : Nat → Nat → Nat} (hi : exec i s = s.vShift o vs op)
    (hop : ∀ k n, op (aE s o k) n % 2 ^ tyWidth o.t = op' (aE s o k) n % 2 ^ tyWidth o.t) :
    VectorDone i s o.vd (tyWidth o.t)
      (guarded s o (fun k => op' (aE s o k) (if vs then (s.rdS o.vb).toNat else bE s o false k))
        fun k => aP s o k || bP s o vs k) :=
  vecOut_done hi fun k => hop k _

end

/-! ### The tables -/

/-- The VR and the VS form of an instruction run one operation, on their own B operands (R134). -/
theorem exec_forms {s : State} {a b : Instr} {run : Bool → Out} (ha : exec a s = run false) (hb : exec b s = run true) (vs : Bool) :
    exec (if vs then b else a) s = run vs := by
  cases vs
  · exact ha
  · exact hb

theorem mulHigh_eq (t : BitVec 4) (a b : Int) : mulHigh t a b = a * b / 2 ^ tyWidth t := by
  simp [mulHigh]

/-- Each row of the integer table runs its operation on numbers, in both forms (R141). -/
theorem exec_vIntTable : ∀ e ∈ vIntTable, ∀ (s : State) (o : VR) (vs : Bool), ∃ lat op,
    exec (if vs then e.2.1 o else e.1 o) s = s.vInt o vs lat op ∧ ∀ a b, op a b = e.2.2 o.t a b := by
  simp only [vIntTable, List.forall_mem_cons, List.not_mem_nil, false_implies, implies_true, and_true]
  exact ⟨fun s o vs => ⟨2, _, exec_forms (run := fun vs => s.vInt o vs 2 _) rfl rfl vs, fun _ _ => rfl⟩,
    fun s o vs => ⟨2, _, exec_forms (run := fun vs => s.vInt o vs 2 _) rfl rfl vs, fun _ _ => rfl⟩,
    fun s o vs => ⟨2, _, exec_forms (run := fun vs => s.vInt o vs 2 _) rfl rfl vs, fun _ _ => rfl⟩,
    fun s o vs => ⟨2, _, exec_forms (run := fun vs => s.vInt o vs 2 _) rfl rfl vs, fun _ _ => rfl⟩,
    fun s o vs => ⟨4, _, exec_forms (run := fun vs => s.vInt o vs 4 _) rfl rfl vs, fun _ _ => rfl⟩,
    fun s o vs => ⟨4, _, exec_forms (run := fun vs => s.vInt o vs 4 _) rfl rfl vs, mulHigh_eq o.t⟩,
    fun s o vs => ⟨2, _, exec_forms (run := fun vs => s.vInt o vs 2 _) rfl rfl vs, fun _ _ => rfl⟩,
    fun s o vs => ⟨2, _, exec_forms (run := fun vs => s.vInt o vs 2 _) rfl rfl vs, fun _ _ => rfl⟩⟩

/-- Each row of the logic table runs an operation on patterns whose bits are those of the table, in both forms (R142). -/
theorem exec_vLogicTable : ∀ e ∈ vLogicTable, ∀ (s : State) (o : VR) (vs : Bool), ∃ op : Nat → Nat → Nat,
    exec (if vs then e.2.1 o else e.1 o) s = s.vBin o vs 2 op ∧
      ∀ a b, b < 2 ^ tyWidth o.t → ∀ k < tyWidth o.t, (op a b).testBit k = e.2.2 (a.testBit k) (b.testBit k) := by
  simp only [vLogicTable, List.forall_mem_cons, List.not_mem_nil, false_implies, implies_true, and_true]
  refine ⟨fun s o vs => ⟨fun a b => a &&& b, exec_forms (run := fun vs => s.vBin o vs 2 _) rfl rfl vs,
      fun a b _ k _ => Nat.testBit_and a b k⟩,
    fun s o vs => ⟨fun a b => a ||| b, exec_forms (run := fun vs => s.vBin o vs 2 _) rfl rfl vs,
      fun a b _ k _ => Nat.testBit_or a b k⟩,
    fun s o vs => ⟨fun a b => a ^^^ b, exec_forms (run := fun vs => s.vBin o vs 2 _) rfl rfl vs,
      fun a b _ k _ => Nat.testBit_xor a b k⟩,
    fun s o vs => ⟨fun a b => a &&& notN (tyWidth o.t) b, exec_forms (run := fun vs => s.vBin o vs 2 _) rfl rfl vs,
      fun a b hb k hk => ?_⟩⟩
  rw [Nat.testBit_and, testBit_notN hb hk]

/-- Each row of the unary table runs its operation on patterns (R142). -/
theorem exec_vUnTable : ∀ e ∈ vUnTable, ∀ (s : State) (o : VR), ∃ op : Nat → Nat,
    exec (e.1 o) s = s.vUn o 2 op ∧ ∀ a, op a = e.2 o.t a := by
  simp only [vUnTable, List.forall_mem_cons, List.not_mem_nil, false_implies, implies_true, and_true]
  exact ⟨fun s o => ⟨fun a => (tyVal o.t a).natAbs, rfl, fun _ => rfl⟩,
    fun s o => ⟨fun a => wrapN (tyWidth o.t) (-(tyVal o.t a)), rfl, fun _ => wrapN_eq_pat _ _⟩,
    fun s o => ⟨fun a => popN (tyWidth o.t) a, rfl, fun _ => List.countP_eq_length_filter.symm⟩,
    fun s o => ⟨fun a => clzN (tyWidth o.t) a, rfl, fun a => clzN_eq _ a⟩, fun s o => ⟨id, rfl, fun _ => rfl⟩⟩

/-- Settles O9: every row is a guarded write of its operation, element by element. -/
theorem vectorInteger : Obligations.VectorInteger := by
  intro s o vs
  refine ⟨fun e he => ?_, fun e he => ?_, ?_, ?_, ?_, fun e he => ?_⟩
  · obtain ⟨lat, op, hexec, hop⟩ := exec_vIntTable e he s o vs
    simpa only [wrapN_eq_pat, hop] using vBin_done hexec
  · obtain ⟨op, hexec, hbits⟩ := exec_vLogicTable e he s o vs
    exact ⟨fun k => op (aE s o k) (bE s o vs k), fun k n hn => hbits _ _ (bE_lt s o vs k) n hn, vBin_done hexec⟩
  · exact vShift_done (op' := fun a n => a * 2 ^ n) (exec_forms (run := fun vs => s.vShift o vs _) rfl rfl vs)
      fun _ _ => shlE_mod _ _ _
  · refine vShift_done (op' := fun a n => pat (tyWidth o.t) (tyVal o.t a / 2 ^ n))
      (exec_forms (run := fun vs => s.vShift o vs _) rfl rfl vs) fun k n => ?_
    rw [shrE_eq o.t (show aE s o k < _ from elem_lt _ _ k)]
  · exact vecOut_done (exec_forms (run := fun vs => s.vMad o vs) rfl rfl vs) fun k =>
      congrArg (· % 2 ^ tyWidth o.t) (wrapN_eq_pat _ _)
  · obtain ⟨op, hexec, hop⟩ := exec_vUnTable e he s o
    exact vUn_done hexec fun k => hop _

end Sys2Proof.Proofs.VectorIntegers
end

section
open Sys2Proof Sys2Proof.Machine
namespace Sys2Proof.Proofs.MatrixCommands

/-- A region's only context runs while the grant of its semaphores is only reserved: the semaphore image stands in the context's own
save area, and the context watches the line of its first semaphore there. -/
def watchesImage : State :=
  let s := State.reset.layProgram []
  let watch : Watch := { sd := 0, line := seamKey 0x107E00, addr := 0x2000000000107E00, sco := 3, deadline := none, seen := none }
  let c : Ctx := { s.ctx with watch := some watch, sch := { s.ctx.sch with image := true, lastCore := some 0 } }
  { s with ctx := c, pre := c, iss := { ba := progVa, len := 6, slot := 5, ready := true }
           core := { s.core with grants := [{ rid := 1, base := 0, count := 8, reserved := true }] } }

/-- An MFMT whose block signals the region's first semaphore at once. -/
def signalling : FM :=
  { vd := 0, va := 0, qa := 0, sd := 0, sa := 0, zt := 0, imm := 0
    w := { we := 0, ws := 0, wt := 0, se := 1, ss := 0, si := 1, spt := 0 } }

/-- The watch has seen the signal. -/
theorem mfmt_wakes : ∀ t, exec (.mfmt signalling) watchesImage = .next t → t.ctx.watch ≠ watchesImage.ctx.watch := by
  have h : ∃ t, exec (.mfmt signalling) watchesImage = .next t ∧ t.ctx.watch ≠ watchesImage.ctx.watch :=
    ⟨_, rfl, by decide +kernel⟩
  obtain ⟨t, ht, hwatch⟩ := h
  rintro u hu
  obtain rfl : t = u := Host.Outcome.next.inj (ht.symm.trans hu)
  exact hwatch

/-- Refutes O21: where the grant is only reserved, an MFMT signals the image in the context's save area (R24, R60), and this write
ends the watch that the context holds on the image's line (R188), so that more of the context changes than its shadow set. -/
theorem not_matrixCommands : ¬ Obligations.MatrixCommands := by
  rintro ⟨hconfig, -⟩
  obtain ⟨-, ⟨t, ht, -, hctx, -⟩, -⟩ := hconfig watchesImage signalling (Or.inl rfl) rfl
  refine mfmt_wakes t ht ?_
  rw [hctx]

end Sys2Proof.Proofs.MatrixCommands
end

section
open Sys2Proof Sys2Proof.Machine
namespace Sys2Proof.Proofs.PreciseTraps
open Engines (s56_of_passes)

/-! ### The control class -/

section
variable {s : State}

theorem openLoop_of_full (h : s.ctx.q.loops.length = 6) (n off : Nat) : s.openLoop n off = s.trap cLoopOver :=
  if_pos (by omega)

theorem execBlc_of_empty (h : s.ctx.q.loops = []) : execBlc s = s.trap cLoopUnder := by
  simp only [execBlc, h, List.getLast?_nil]

/-- BLC elsewhere than at the end of the innermost loop (R121). -/
theorem execBlc_of_elsewhere {ls : List LoopLevel} {l : LoopLevel} (h : s.ctx.q.loops = ls ++ [l]) (hl : l.last ≠ s.iss.ba) :
    execBlc s = s.trap cLoopStructure := by
  simp only [execBlc, h, List.getLast?_append, List.getLast?_singleton, Option.some_or]
  exact if_pos hl

/-- A number that the timeline has not issued (R191). -/
theorem execTwait_of_unissued {a : R6} {tl : BitVec 2} (h : s.psS a = false)
    (hlt : (s.pre.tl tl).issued.toNat < (s.rdS a).toNat) (sco : BitVec 2) :
    execTwait a sco tl 0 s = s.trap cIllegalOperand := by
  have htarget : s.twaitTarget a tl 0 = s.rdS a := rfl
  unfold execTwait
  rw [if_neg (by simp [h]), htarget, if_pos hlt]

/-- A base that R34 does not take: its ESIZE is out of range, or it lies in another space. -/
theorem ringBaseOk_of_not {x : W64} (h : x.toNat % 32 < 4 ∨ 16 < x.toNat % 32 ∨ x.toNat / 2 ^ 60 ≠ 2 ∧ x.toNat / 2 ^ 60 ≠ 3) :
    ringBaseOk x = false := by
  have hsize : bits x.toNat 4 0 = x.toNat % 32 := by simp [bits]
  have hspace : space x = x.toNat / 2 ^ 60 := rfl
  by_contra hok
  simp only [ringBaseOk, hsize, hspace, Bool.not_eq_false, Bool.and_eq_true, Bool.or_eq_true, decide_eq_true_eq] at hok
  omega

theorem execMtcTrpb_of_not_ok {a : R6} (h : s.psS a = false) (hb : ringBaseOk (s.rdS a) = false) :
    execMtcTrpb a s = s.trap cIllegalOperand := by
  unfold execMtcTrpb
  rw [if_neg (by simp [h]), if_neg (by simp [hb])]

theorem execPrio_of_outside {c : BitVec 2} {g : Region} (hg : s.region? s.rid = some g)
    (h : c.toNat < g.lim.plo.toNat ∨ g.lim.phi.toNat < c.toNat) : execPrio c s = s.trap cIllegalOperand := by
  simp only [execPrio, hg]
  exact if_pos (by simpa using h)

end

theorem controlTrapsRule : ControlTrapsRule := by
  intro s b pg a off n o sel spc sco tl c
  refine ⟨fun h => ⟨if_pos h, if_pos h, if_pos h, if_pos h, if_pos h, if_pos h, if_pos h, if_pos h, if_pos h, if_pos (by simp [h])⟩,
    fun h => ⟨if_pos h, if_pos h, if_pos h⟩,
    fun h => ⟨openLoop_of_full h _ _, fun hp => (if_neg (by simp [hp])).trans (openLoop_of_full h _ _)⟩,
    fun h => ⟨execBlc_of_empty h, if_pos h⟩, fun ls l h hl => execBlc_of_elsewhere h hl,
    fun h hlt => execTwait_of_unissued h hlt _, fun h hb => execMtcTrpb_of_not_ok h (ringBaseOk_of_not hb),
    fun g hg h => execPrio_of_outside hg h, fun h => if_pos ?_⟩
  have hspace : space s.pre.c.ttab = s.pre.c.ttab.toNat / 2 ^ 60 := rfl
  simpa [hspace, or_assoc] using h

/-! ### The matrix class -/

section
variable {s : State} {o : FM}

/-- A context that does not hold the matrix state takes the trap of R20. -/
theorem s5_of_unheld (hp : Passes s o.w) (hm : s.pre.c.mhold = false) (run : State → Out) :
    s.s5 o.w run = s.trap cMatrixNotHeld :=
  (s56_of_passes hp _).trans (if_neg (by simp [hm]))

theorem s5Queue_of_unheld (hp : Passes s o.w) (hm : s.pre.c.mhold = false) (run : State → Out) :
    s.s5Queue o run = s.trap cMatrixNotHeld := s5_of_unheld hp hm _

theorem s5_of_held (hp : Passes s o.w) (hm : s.pre.c.mhold = true) (run : State → Out) : s.s5 o.w run = run s :=
  (s56_of_passes hp _).trans (if_pos hm)

theorem s5Queue_of_room (hp : Passes s o.w) (hm : s.pre.c.mhold = true) (hq : s.ctx.mx.queue.length < 4) (run : State → Out) :
    s.s5Queue o run = run s :=
  (s5_of_held hp hm _).trans (if_neg (by simp only [Matrix.full, decide_eq_true_eq]; omega))

theorem mgo_of_no_entry {entry : Nat} (h : s.pre.r.entry entry = none) : s.mgo o entry = s.trap cReserved 1 := by
  simp only [State.mgo, h]

section
variable (hp : Passes s o.w) (hm : s.pre.c.mhold = true)
include hp hm

theorem execMgoLoop_of_no_level (hq : s.ctx.mx.queue.length < 4) (h : s.pre.q.loops.length ≤ o.imm.toNat) :
    execMgoLoop o s = s.trap cReserved 3 := by
  refine (s5Queue_of_room hp hm hq _).trans ?_
  simp only [List.getElem?_eq_none h]

theorem execMcal_of_wide (hq : s.ctx.mx.queue.length < 4) (hs : s.psS o.sa = false) (h : 2 ^ 32 ≤ (s.rdS o.sa).toNat) :
    execMcal o s = s.trap cIllegalOperand := by
  have hhigh : bits (s.rdS o.sa).toNat 63 32 ≠ 0 := by
    have := (s.rdS o.sa).isLt
    unfold bits
    omega
  refine (s5Queue_of_room hp hm hq _).trans ((if_neg (by simp [hs])).trans (if_pos ?_))
  simp [hhigh]

theorem execMldw_of_poisoned_scale (hc : o.imm.getLsbD 6 = true) (hd : s.psS o.sd = true) : execMldw o s = s.trap cPoison := by
  have hscaled : o.scaled = true := hc
  exact (s5_of_held hp hm _).trans (if_pos (by simp [hscaled, hd]))

section
variable (hs : s.psS o.sa = false)
include hs

theorem execMcfg_of_no_word (h : o.imm.toNat = 2 ∨ o.imm.toNat = 3 ∨ 15 < o.imm.toNat) :
    execMcfg o s = s.trap cIllegalOperand := by
  refine (s5_of_held hp hm _).trans ((if_neg (by simp [hs])).trans (if_pos ?_))
  simp only [Bool.or_eq_true, decide_eq_true_eq]
  tauto

theorem execMav_of_no_row (h : 32 ≤ (s.rdS o.sa).toNat) : execMav o s = s.trap cIllegalOperand :=
  (s5_of_held hp hm _).trans ((if_neg (by simp [hs])).trans (if_pos h))

theorem execMav_of_no_desc (h : bits (vget s.pre.r.ft o.imm.toNat).toNat 15 12 ≠ 0 ∨
    descValid (vget s.pre.r.f (bits (vget s.pre.r.ft o.imm.toNat).toNat 11 8)) = false) :
    execMav o s = s.trap cIllegalOperand := by
  by_cases hrow : 32 ≤ (s.rdS o.sa).toNat
  · exact execMav_of_no_row hp hm hs hrow
  · exact (s5_of_held hp hm _).trans ((if_neg (by simp [hs])).trans ((if_neg hrow).trans (if_pos (by simpa using h))))

/-- The scale address of an MLDW (R230). -/
def scaleAddr (s : State) (o : FM) : W64 := if o.imm.getLsbD 6 then s.rdS o.sd else 0

section
variable (hd : o.imm.getLsbD 6 = true → s.psS o.sd = false)
include hd

omit hp hm in
theorem mldw_operands_clean : ¬(s.psS o.sa || (o.scaled && s.psS o.sd)) = true := by
  by_cases h : o.scaled = true
  · simp [hs, hd h]
  · simp [hs, h]

theorem execMldw_of_fault {a : W64} (h : (mldwSpans o (s.rdS o.sa) (scaleAddr s o)).findSome? Span.fault = some a) :
    execMldw o s = s.trap cCopy 0 0 a := by
  refine (s5_of_held hp hm _).trans ((if_neg (mldw_operands_clean hs hd)).trans ?_)
  rw [show List.findSome? Span.fault (mldwSpans o (s.rdS o.sa) (if o.scaled then s.rdS o.sd else 0)) = some a from h]

/-- MLDW whose operands are clean and whose ranges stand meets its other checks in their order (R230, log entry 116). -/
theorem execMldw_of_faultless (h : ∀ x ∈ mldwSpans o (s.rdS o.sa) (scaleAddr s o), x.fault = none) : execMldw o s =
    if (s.rdS o.sa).toNat % 64 ≠ 0 || (scaleAddr s o).toNat % 64 ≠ 0 then s.trap cIllegalOperand
    else if (o.imm.getLsbD 5 && o.cw = 2) || !s.core.pool.isTile (o.imm.toNat % 32) then s.trap cIllegalOperand
    else if !s.core.pool.sameRecord o && s.ctx.mx.queue.any fun e => e.banks.contains (o.imm.toNat % 32) then
      s.trap cReserved 6
    else .next (s.takeM.2.modMx fun m => { m with loads := m.loads ++
      [{ num := s.takeM.1, o := o, ba := s.iss.ba, src := s.rdS o.sa, scl := scaleAddr s o, at0 := s.core.cycle }] }) := by
  refine (s5_of_held hp hm _).trans ((if_neg (mldw_operands_clean hs hd)).trans ?_)
  rw [show List.findSome? Span.fault (mldwSpans o (s.rdS o.sa) (if o.scaled then s.rdS o.sd else 0)) = none from
    List.findSome?_eq_none_iff.2 h]
  rfl

theorem execMldw_of_illegal (h : ∀ x ∈ mldwSpans o (s.rdS o.sa) (scaleAddr s o), x.fault = none)
    (hill : (s.rdS o.sa).toNat % 64 ≠ 0 ∨ (scaleAddr s o).toNat % 64 ≠ 0 ∨ (o.imm.getLsbD 5 = true ∧ o.cw = 2) ∨
      s.core.pool.isTile (o.imm.toNat % 32) = false) : execMldw o s = s.trap cIllegalOperand := by
  rw [execMldw_of_faultless hp hm hs hd h]
  split_ifs with haligned hbank
  · rfl
  · rfl
  all_goals
    simp only [ne_eq, Bool.or_eq_true, Bool.and_eq_true, Bool.not_eq_true', decide_eq_true_eq] at haligned hbank
    tauto

theorem execMldw_of_other_record (h : ∀ x ∈ mldwSpans o (s.rdS o.sa) (scaleAddr s o), x.fault = none)
    (hsrc : (s.rdS o.sa).toNat % 64 = 0) (hscl : (scaleAddr s o).toNat % 64 = 0)
    (hsparse : ¬(o.imm.getLsbD 5 = true ∧ o.cw = 2)) (htile : s.core.pool.isTile (o.imm.toNat % 32) = true)
    (hrec : s.core.pool.sameRecord o = false) (he : ∃ e ∈ s.ctx.mx.queue, o.imm.toNat % 32 ∈ e.banks) :
    execMldw o s = s.trap cReserved 6 := by
  rw [execMldw_of_faultless hp hm hs hd h, if_neg (by simp [hsrc, hscl]), if_neg (by simpa [htile] using hsparse)]
  exact if_pos (by simpa [hrec] using he)

end
end
end
end

theorem matrixTrapsRule : MatrixTrapsRule := by
  intro s o hp
  refine ⟨fun hm => ?_, fun hm hs => ?_, fun hm hs => ?_, fun hm hq h => ?_, fun hm hq h => ?_, fun hm hq h => ?_, fun hm hs => ?_⟩
  · have unheld := s5_of_unheld hp hm
    have unheldQueue := s5Queue_of_unheld hp hm
    exact ⟨(unheld _ : execMcfg o s = _), (unheld _ : execMfmt o s = _), (unheldQueue _ : execMgoFix o s = _),
      (unheldQueue _ : execMgoLoop o s = _), (unheld _ : execMldw o s = _), (unheld _ : s.mrd o Matrix.val = _),
      (unheld _ : s.mrd o Matrix.bnd = _), (unheldQueue _ : execMcal o s = _), (unheldQueue _ : execMzclr o s = _),
      (unheld _ : execMav o s = _), (unheld _ : execMsig o s = _)⟩
  · have held := s5_of_held hp hm
    have room (hq : s.ctx.mx.queue.length < 4) := s5Queue_of_room hp hm hq
    exact ⟨(held _ : execMcfg o s = _).trans (if_pos hs), (held _ : execMldw o s = _).trans (if_pos (by simp [hs])),
      (held _ : execMav o s = _).trans (if_pos hs), fun hq => (room hq _ : execMcal o s = _).trans (if_pos hs)⟩
  · exact ⟨execMcfg_of_no_word hp hm hs, execMav_of_no_row hp hm hs, execMav_of_no_desc hp hm hs, fun hq =>
      execMcal_of_wide hp hm hq hs⟩
  · exact (s5Queue_of_room hp hm hq _ : execMzclr o s = _).trans (if_pos h)
  · exact (s5Queue_of_room hp hm hq _ : execMgoFix o s = _).trans (mgo_of_no_entry h)
  · exact execMgoLoop_of_no_level hp hm hq h
  · exact ⟨execMldw_of_poisoned_scale hp hm, fun hd => ⟨fun a => execMldw_of_fault hp hm hs hd, fun h =>
      ⟨execMldw_of_illegal hp hm hs hd h, execMldw_of_other_record hp hm hs hd h⟩⟩⟩

/-! ### The vector class -/

section
variable {s : State} {o : VR}

/-- A rounding by a descriptor that is not valid names no mode (R138). -/
theorem rmSel_of_invalid (hrm : o.rm = 5) (hd : descValid (vget s.pre.r.f o.fr.toNat) = false) : s.rmSel o = none := by
  simp [State.rmSel, hrm, hd]

theorem vRound_of_no_mode (h : s.rmSel o = none) (n w lat : Nat) (on : Nat → Bool) (base : Nat)
    (f : RMode → Nat → Nat × BitVec 5) (ps : Nat → Bool) : s.vRound o n w lat on base f ps = s.trap cIllegalOperand := by
  simp only [State.vRound, h]

theorem dividing_of_no_mode (h : s.rmSel o = none) (r : Out) : s.dividing o r = r := if_neg (by simp [h])

theorem vConv_of_no_mode (h : s.rmSel o = none) : s.vConv o = s.trap cIllegalOperand := by
  unfold State.vConv
  dsimp only
  split
  · rfl
  · split
    · exact if_pos (by simp [h])
    · exact vRound_of_no_mode h _ _ _ _ _ _ _

/-- A quantisation finds no descriptor where the named one is not valid or the part does not exist (R150, R151). -/
theorem qDesc_of_not (h : descValid (vget s.pre.r.f o.fr.toNat) = false ∨
    tyWidth o.t / container (descFmt (vget s.pre.r.f o.fr.toNat)) ≤ o.fx.toNat % 32) : s.qDesc o = none := by
  refine if_neg ?_
  simp only [Bool.and_eq_true, decide_eq_true_eq]
  rcases h with h | h
  · simp [h]
  · omega

theorem execVqntScale_of_unscaled (h : descBsk (vget s.pre.r.f o.fr.toNat) = 0) : execVqntScale o s = s.trap cIllegalOperand := by
  unfold execVqntScale
  split
  · rfl
  · next d hd =>
    obtain rfl : vget s.pre.r.f o.fr.toNat = d :=
      Option.some.inj (Option.ite_none_right_eq_some.1 hd).2
    exact if_pos (by simp [h])

end

theorem vectorTrapsRule : VectorTrapsRule := by
  intro s o
  refine ⟨fun hrm hd => ?_, fun h => ?_, execVqntScale_of_unscaled, fun h => if_pos h, fun h => if_pos h, fun h => if_pos h⟩
  · have hsel := rmSel_of_invalid hrm hd
    have bin (vs : Bool) (lat : Nat) (op : Fmt → RMode → Nat → Nat → Nat × BitVec 5) :
        s.vfBin o vs lat op = s.trap cIllegalOperand := vRound_of_no_mode hsel _ _ _ _ _ _ _
    have tern (vs neg : Bool) : s.vfTern o vs neg = s.trap cIllegalOperand := vRound_of_no_mode hsel _ _ _ _ _ _ _
    have div (vs : Bool) : s.dividing o (s.vfBin o vs (vfdivLat o.t) fpDiv) = s.trap cIllegalOperand :=
      (dividing_of_no_mode hsel _).trans (bin vs _ _)
    have sqrt : execVfsqrt o s = s.trap cIllegalOperand :=
      (dividing_of_no_mode hsel _).trans (vRound_of_no_mode hsel _ _ _ _ _ _ _)
    simp only [vFloatTable, List.forall_mem_cons, List.not_mem_nil, false_implies, implies_true, and_true]
    exact ⟨⟨⟨bin false (vfLat o.t) fpAdd, bin true (vfLat o.t) fpAdd⟩, ⟨bin false (vfLat o.t) fpSub, bin true (vfLat o.t) fpSub⟩,
      ⟨bin false (vfLat o.t) fpMul, bin true (vfLat o.t) fpMul⟩, div false, div true⟩, tern false false, tern true false,
      tern false true, tern true true, sqrt, vConv_of_no_mode hsel⟩
  · have hdesc := qDesc_of_not h
    simp only [List.forall_mem_cons, List.not_mem_nil, false_implies, implies_true, and_true]
    refine ⟨(?_ : execVqnt o s = _), (?_ : execVqntScale o s = _), (?_ : execVdqnt o s = _)⟩
    · simp only [execVqnt, hdesc]; rfl
    · simp only [execVqntScale, hdesc]; rfl
    · simp only [execVdqnt, hdesc]; rfl

/-- Settles O22: each trap is the first check that its instruction fails, and a trapping slot does nothing but trap. -/
theorem preciseTraps : Obligations.PreciseTraps := ⟨controlTrapsRule, matrixTrapsRule, vectorTrapsRule⟩

end Sys2Proof.Proofs.PreciseTraps
end

section
open Sys2Proof Sys2Proof.Machine
namespace Sys2Proof.Proofs.Landings

/-! ### The order in which events land (R97, R156) -/

theorem lexLt_iff {as bs : List Nat} (h : as.length = bs.length) : lexLt as bs = true ↔ as < bs := by
  induction as generalizing bs with
  | nil =>
    obtain rfl := List.length_eq_zero_iff.1 h.symm
    simp [lexLt]
  | cons a as ih =>
    cases bs with
    | nil => simp at h
    | cons b bs => simp [lexLt, List.cons_lt_cons_iff, ih (Nat.succ.inj h)]

theorem rank_length (e : FlagEv) : e.rank.length = 6 := by
  unfold FlagEv.rank
  cases e.eng <;> rfl

/-- The order of the model is that of R97 and R156. -/
theorem rank_lt_iff (a b : FlagEv) : a.rank < b.rank ↔ LandsBefore a b := by
  have hrank (e : FlagEv) : e.rank = [e.due, if e.slot = 4 then 3 else e.slot, (e.eng.map fun x => x.1.toNat).getD 0,
      (e.eng.map fun x => x.2.toNat).getD 0, e.at0, e.slot] := by
    have hslot : (if vecSlot e.slot = true then 3 else e.slot) = if e.slot = 4 then 3 else e.slot := by
      by_cases h3 : e.slot = 3
      · simp [vecSlot, h3]
      · simp [vecSlot, h3]
    unfold FlagEv.rank
    rw [hslot]
    cases e.eng <;> rfl
  rw [hrank, hrank]
  rfl

theorem mem_insertEv {e x : FlagEv} {l : List FlagEv} : x ∈ insertEv e l ↔ x = e ∨ x ∈ l := by
  induction l with
  | nil => simp [insertEv]
  | cons y l ih =>
    unfold insertEv
    split
    · simp
    · rw [List.mem_cons, List.mem_cons, ih]; tauto

theorem insertEv_sorted {e : FlagEv} {l : List FlagEv} (h : l.Pairwise fun a b => a.rank ≤ b.rank) :
    (insertEv e l).Pairwise fun a b => a.rank ≤ b.rank := by
  induction l with
  | nil => simp [insertEv]
  | cons y l ih =>
    have hlex := lexLt_iff ((rank_length e).trans (rank_length y).symm)
    unfold insertEv
    obtain ⟨hy, hl⟩ := List.pairwise_cons.1 h
    split
    · next hlt =>
      have hey : e.rank ≤ y.rank := le_of_lt (hlex.1 hlt)
      refine List.pairwise_cons.2 ⟨fun x hx => ?_, h⟩
      rcases List.mem_cons.1 hx with rfl | hx
      · exact hey
      · exact hey.trans (hy x hx)
    · next hge =>
      refine List.pairwise_cons.2 ⟨fun x hx => ?_, ih hl⟩
      rcases mem_insertEv.1 hx with rfl | hx
      · exact le_of_not_gt fun hlt => hge (hlex.2 hlt)
      · exact hy x hx

/-- Events land sorted: what is true of insertion is true of all of them. -/
theorem sortEvs_spec (l : List FlagEv) : (∀ x, x ∈ sortEvs l ↔ x ∈ l) ∧ (sortEvs l).Pairwise fun a b => a.rank ≤ b.rank := by
  have hfold (l acc : List FlagEv) (hacc : acc.Pairwise fun a b => a.rank ≤ b.rank) :
      (∀ x, x ∈ l.foldl (fun acc e => insertEv e acc) acc ↔ x ∈ acc ∨ x ∈ l) ∧
        (l.foldl (fun acc e => insertEv e acc) acc).Pairwise fun a b => a.rank ≤ b.rank := by
    induction l generalizing acc with
    | nil => simpa using hacc
    | cons e l ih =>
      obtain ⟨hmem, hsorted⟩ := ih (insertEv e acc) (insertEv_sorted hacc)
      refine ⟨fun x => (hmem x).trans ?_, hsorted⟩
      rw [mem_insertEv, List.mem_cons]
      tauto
  exact ⟨fun x => ((hfold l [] List.Pairwise.nil).1 x).trans (by simp), (hfold l [] List.Pairwise.nil).2⟩

/-! ### Flags enter FPF and FEREC (R28, R29) -/

/-- FEREC is armed and empty. -/
def Armed (k : Ctl) : Prop := k.ferec.getLsbD 63 = true ∧ k.ferec.getLsbD 62 = false

/-- What FEREC holds of an event. -/
def recordedWord (e : FlagEv) : W64 :=
  0xC000000000000000#64 ||| (BitVec.ofNat 64 (e.slot * 2 ^ 59)) ||| (zext e.fl <<< 54) ||| (e.ba &&& 0x0000FFFFFFFFFFFE#64)

/-- Events of a list land one after another, FEREC by what is outstanding. -/
def landAll (all : List FlagEv) (l : List FlagEv) (k : Ctl) : Ctl := l.foldl (fun k e => k.landFlags e (topOf all e)) k

section
variable {k : Ctl} {e top : FlagEv} {all : List FlagEv}

theorem landFlags_rest : k.landFlags e top = { k with fpf := (k.landFlags e top).fpf, ferec := (k.landFlags e top).ferec } := by
  unfold Ctl.landFlags
  split <;> rfl

theorem landFlags_fpf {i : Nat} (hi : i < 64) : (k.landFlags e top).fpf.getLsbD i = true ↔
    k.fpf.getLsbD i = true ∨ (5 * e.slot ≤ i ∧ i < 5 * e.slot + 5 ∧ e.fl.getLsbD (i - 5 * e.slot) = true) := by
  have hbit : e.fl.getLsbD (i - 5 * e.slot) = true → i - 5 * e.slot < 5 := BitVec.lt_of_getLsbD
  unfold Ctl.landFlags
  split
  · next h => simp [h]
  · simp only [BitVec.getLsbD_or, BitVec.getLsbD_shiftLeft, zext, BitVec.getLsbD_setWidth, hi, Bool.or_eq_true, Bool.and_eq_true,
      decide_true, Bool.true_and, Bool.not_eq_true', decide_eq_false_iff_not, decide_eq_true_eq]
    constructor
    · rintro (h | ⟨hle, -, hfl⟩)
      · exact Or.inl h
      · have := hbit hfl
        exact Or.inr ⟨by omega, by omega, hfl⟩
    · rintro (h | ⟨hle, hlt, hfl⟩)
      · exact Or.inl h
      · exact Or.inr ⟨by omega, by omega, hfl⟩

theorem landFlags_ferec_of_unarmed (h : ¬Armed k) : (k.landFlags e top).ferec = k.ferec := by
  unfold Ctl.landFlags
  split
  · rfl
  · exact if_neg (by simpa [Armed] using h)

theorem landFlags_ferec_of_armed (h : Armed k) (hfl : e.fl ≠ 0) : (k.landFlags e top).ferec = recordedWord top := by
  unfold Ctl.landFlags
  rw [if_neg hfl]
  exact if_pos (by simpa [Armed] using h)

/-- A FEREC that has taken an event is not empty. -/
theorem not_armed_of_recorded (h : k.ferec = recordedWord e) : ¬Armed k := by
  rintro ⟨-, h62⟩
  rw [h] at h62
  simp [recordedWord] at h62

theorem landAll_rest (l : List FlagEv) : ∃ fpf ferec, landAll all l k = { k with fpf := fpf, ferec := ferec } := by
  induction l generalizing k with
  | nil => exact ⟨_, _, rfl⟩
  | cons e l ih =>
    obtain ⟨fpf, ferec, h⟩ := ih (k := k.landFlags e (topOf all e))
    exact ⟨fpf, ferec, h.trans (by rw [landFlags_rest])⟩

theorem landAll_fpf (l : List FlagEv) {i : Nat} (hi : i < 64) : (landAll all l k).fpf.getLsbD i = true ↔
    k.fpf.getLsbD i = true ∨ ∃ e ∈ l, 5 * e.slot ≤ i ∧ i < 5 * e.slot + 5 ∧ e.fl.getLsbD (i - 5 * e.slot) = true := by
  induction l generalizing k with
  | nil => simp [landAll]
  | cons e l ih =>
    refine (ih (k := k.landFlags e (topOf all e))).trans ?_
    rw [landFlags_fpf hi, or_assoc, List.exists_mem_cons_iff]

theorem landAll_ferec_of_unarmed (l : List FlagEv) (h : ¬Armed k) : (landAll all l k).ferec = k.ferec := by
  induction l generalizing k with
  | nil => rfl
  | cons e l ih =>
    have hstep := landFlags_ferec_of_unarmed (e := e) (top := topOf all e) h
    exact (ih (by rwa [Armed, hstep])).trans hstep

/-- FEREC takes what belongs to the first event with a flag (R29). -/
theorem landAll_ferec_of_armed (l : List FlagEv) (h : Armed k) :
    ((landAll all l k).ferec = k.ferec ∧ ∀ e ∈ l, e.fl = 0) ∨
      ∃ l₁ f l₂, l = l₁ ++ f :: l₂ ∧ (∀ e ∈ l₁, e.fl = 0) ∧ f.fl ≠ 0 ∧ (landAll all l k).ferec = recordedWord (topOf all f) := by
  induction l with
  | nil => exact Or.inl ⟨rfl, by simp⟩
  | cons e l ih =>
    by_cases hfl : e.fl = 0
    · have hsame : landAll all (e :: l) k = landAll all l k := congrArg (landAll all l) (if_pos hfl)
      rw [hsame]
      rcases ih with ⟨hferec, hnone⟩ | ⟨l₁, f, l₂, rfl, hnone, hf, hferec⟩
      · exact Or.inl ⟨hferec, List.forall_mem_cons.2 ⟨hfl, hnone⟩⟩
      · exact Or.inr ⟨e :: l₁, f, l₂, rfl, List.forall_mem_cons.2 ⟨hfl, hnone⟩, hf, hferec⟩
    · have htaken := landFlags_ferec_of_armed (top := topOf all e) h hfl
      exact Or.inr ⟨[], e, l, rfl, by simp, hfl, (landAll_ferec_of_unarmed l (not_armed_of_recorded htaken)).trans htaken⟩

/-- An address without its low bit, of which FEREC keeps 48 bits. -/
theorem land_even_48 (x : Nat) : x &&& 0xFFFFFFFFFFFE = x % 2 ^ 48 / 2 * 2 := by
  have hhalf : x / 2 &&& (2 ^ 47 - 1) = x / 2 % 2 ^ 47 := Nat.and_two_pow_sub_one_eq_mod _ _
  have hdiv : (x &&& 0xFFFFFFFFFFFE) / 2 = x / 2 % 2 ^ 47 := by rw [← hhalf, Nat.and_div_two]; rfl
  have hmod : (x &&& 0xFFFFFFFFFFFE) % 2 = 0 := by simp [Nat.and_mod_two_pow (n := 1)]
  omega

/-- FEREC holds its fields side by side (R29). -/
theorem recordedWord_toNat (h : e.slot < 8) :
    (recordedWord e).toNat = 3 * 2 ^ 62 + e.slot * 2 ^ 59 + e.fl.toNat * 2 ^ 54 + e.ba.toNat % 2 ^ 48 / 2 * 2 := by
  have hfl : e.fl.toNat < 32 := e.fl.isLt
  have hor {a b : Nat} (i : Nat) (hb : b < 2 ^ i) : 2 ^ i * a ||| b = 2 ^ i * a + b := (Nat.two_pow_add_eq_or_of_lt hb a).symm
  have hslot : (BitVec.ofNat 64 (e.slot * 2 ^ 59)).toNat = e.slot * 2 ^ 59 := by rw [BitVec.toNat_ofNat]; omega
  have hflags : (zext e.fl <<< 54).toNat = e.fl.toNat * 2 ^ 54 := by
    simp only [zext, BitVec.toNat_shiftLeft, BitVec.toNat_setWidth, Nat.shiftLeft_eq]
    omega
  have hba : (e.ba &&& 0x0000FFFFFFFFFFFE#64).toNat = e.ba.toNat % 2 ^ 48 / 2 * 2 := land_even_48 e.ba.toNat
  simp only [recordedWord, BitVec.toNat_or, hslot, hflags, hba]
  rw [show (0xC000000000000000#64).toNat = 2 ^ 62 * 3 from rfl, hor 62 (by omega),
    show 2 ^ 62 * 3 + e.slot * 2 ^ 59 = 2 ^ 59 * (24 + e.slot) by ring, hor 59 (by omega),
    show 2 ^ 59 * (24 + e.slot) + e.fl.toNat * 2 ^ 54 = 2 ^ 54 * (32 * (24 + e.slot) + e.fl.toNat) by ring, hor 54 (by omega)]
  ring

theorem recordedWord_fields (h : e.slot < 8) : bits (recordedWord e).toNat 63 62 = 3 ∧ bits (recordedWord e).toNat 61 59 = e.slot ∧
    bits (recordedWord e).toNat 58 54 = e.fl.toNat ∧ bits (recordedWord e).toNat 47 0 = e.ba.toNat % 2 ^ 48 / 2 * 2 := by
  have hfl : e.fl.toNat < 32 := e.fl.isLt
  rw [recordedWord_toNat h]
  unfold bits
  omega

end

/-! ### What FEREC takes (R29, R156; log entry 117) -/

section
variable {α : Type} (key : α → Nat) (l : List α)

/-- The first element of least key, an element at hand first. -/
def leastFrom (m : α) : α := l.foldl (fun m x => if key x < key m then x else m) m

theorem leastFrom_spec (m : α) : (leastFrom key l m = m ∨ leastFrom key l m ∈ l) ∧ key (leastFrom key l m) ≤ key m ∧
    ∀ x ∈ l, key (leastFrom key l m) ≤ key x := by
  induction l generalizing m with
  | nil => simp [leastFrom]
  | cons y l ih =>
    obtain ⟨hmem, hle, hall⟩ := ih (if key y < key m then y else m)
    have hstep : leastFrom key (y :: l) m = leastFrom key l (if key y < key m then y else m) := rfl
    rw [hstep, List.forall_mem_cons]
    by_cases h : key y < key m
    · rw [if_pos h] at hmem hle hall ⊢
      refine ⟨Or.inr (List.mem_cons.2 hmem), by omega, hle, hall⟩
    · rw [if_neg h] at hmem hle hall ⊢
      refine ⟨hmem.imp_right (List.mem_cons_of_mem y), hle, by omega, hall⟩

end

theorem topOf_recorded {all : List FlagEv} {f : FlagEv} (hf : f ∈ all) (hfl : f.fl ≠ 0)
    (hvec : ∀ e ∈ all, vecSlot e.slot = true → e.eng = none) : topOf all f ∈ all ∧ Recorded all f (topOf all f) := by
  cases heng : f.eng with
  | some x =>
    have htop : topOf all f = f := if_pos (by simp [heng])
    rw [htop]
    exact ⟨hf, fun _ => rfl, fun h => by simp [heng] at h⟩
  | none =>
    let p (x : FlagEv) : Bool := vecSlot x.slot && x.fl ≠ 0
    let b := if vecSlot f.slot then leastFrom FlagEv.at0 (all.filter p) f else f
    let q (x : FlagEv) : Bool := x.eng.isNone && x.at0 = b.at0 && x.fl ≠ 0
    have htop : topOf all f = leastFrom FlagEv.slot (all.filter q) b := if_neg (by simp [heng])
    have hp (x : FlagEv) : x ∈ all.filter p ↔ x ∈ all ∧ vecSlot x.slot = true ∧ x.fl ≠ 0 := by simp [p]
    have hq (x : FlagEv) : x ∈ all.filter q ↔ x ∈ all ∧ x.eng = none ∧ x.at0 = b.at0 ∧ x.fl ≠ 0 := by simp [q, and_assoc]
    have hb : b ∈ all ∧ b.fl ≠ 0 ∧ b.eng = none ∧
        if vecSlot f.slot then vecSlot b.slot = true ∧ ∀ x ∈ all, vecSlot x.slot = true → x.fl ≠ 0 → b.at0 ≤ x.at0 else b = f := by
      by_cases hv : vecSlot f.slot = true
      · obtain ⟨hmem, -, hall⟩ := leastFrom_spec FlagEv.at0 (all.filter p) f
        have hbf : b = leastFrom FlagEv.at0 (all.filter p) f := if_pos hv
        rw [← hbf] at hmem hall
        have hbp : b ∈ all.filter p := by
          rcases hmem with h | h
          · rw [h]; exact (hp f).2 ⟨hf, hv, hfl⟩
          · exact h
        obtain ⟨hball, hbv, hbfl⟩ := (hp b).1 hbp
        rw [if_pos hv]
        exact ⟨hball, hbfl, hvec b hball hbv, hbv, fun x hx hxv hxf => hall x ((hp x).2 ⟨hx, hxv, hxf⟩)⟩
      · have hbf : b = f := if_neg hv
        rw [hbf, if_neg hv]
        exact ⟨hf, hfl, heng, rfl⟩
    obtain ⟨hball, hbfl, hbeng, hbvec⟩ := hb
    obtain ⟨hmem, -, hall⟩ := leastFrom_spec FlagEv.slot (all.filter q) b
    rw [← htop] at hmem hall
    have he : topOf all f ∈ all.filter q := by
      rcases hmem with h | h
      · rw [h]; exact (hq b).2 ⟨hball, hbeng, rfl, hbfl⟩
      · exact h
    obtain ⟨heall, heeng, heat, hefl⟩ := (hq _).1 he
    exact ⟨heall, fun h => by simp [heng] at h, fun _ => ⟨b, hball, hbfl, hbvec, heeng, heat, hefl, fun x hx hxe hxa hxf =>
      hall x ((hq x).2 ⟨hx, hxe, hxa, hxf⟩)⟩⟩

/-! ### What is due lands (R97, R155, R156, R174) -/

theorem landCtx_lands (cycle : Nat) (c : Ctx) : Lands cycle c (landCtx cycle c) := by
  have hmem (e : FlagEv) : e ∈ sortEvs (c.events.filter fun e => e.due ≤ cycle) ↔ e ∈ c.events ∧ e.due ≤ cycle := by
    rw [(sortEvs_spec _).1, List.mem_filter, decide_eq_true_eq]
  have hc : (landCtx cycle c).c = landAll c.events (sortEvs (c.events.filter fun e => e.due ≤ cycle)) c.c := rfl
  refine ⟨?_, fun p => ?_, fun e => ?_, fun i hi => ?_, fun h => ?_, fun h63 h62 hslots => ?_⟩
  · obtain ⟨fpf, ferec, h⟩ := landAll_rest (k := c.c) (all := c.events) (sortEvs (c.events.filter fun e => e.due ≤ cycle))
    have hd : landCtx cycle c = { c with c := (landCtx cycle c).c, events := (landCtx cycle c).events, board := (landCtx cycle c).board } := rfl
    have hk : (landCtx cycle c).c = { c.c with fpf := (landCtx cycle c).c.fpf, ferec := (landCtx cycle c).c.ferec } := by rw [hc, h]
    exact hd.trans (congrArg (fun k : Ctl => { c with c := k, events := (landCtx cycle c).events, board := (landCtx cycle c).board }) hk)
  · show p ∈ c.board.filter _ ↔ _
    rw [List.mem_filter]
    refine and_congr_right fun _ => ?_
    cases p.due <;> simp
  · show e ∈ c.events.filter _ ↔ _
    simp [List.mem_filter]
  · rw [hc, landAll_fpf _ hi]
    simp only [hmem, and_assoc]
  · rw [hc, landAll_ferec_of_unarmed _ h]
  · rw [hc]
    rcases landAll_ferec_of_armed (all := c.events) (sortEvs (c.events.filter fun e => e.due ≤ cycle)) ⟨h63, h62⟩ with
      ⟨hsame, hnone⟩ | ⟨l₁, f, l₂, hsort, hnone, hfl, hferec⟩
    · exact Or.inl ⟨hsame, fun e he hdue => hnone e ((hmem e).2 ⟨he, hdue⟩)⟩
    · obtain ⟨hfall, hfdue⟩ := (hmem f).1 (by rw [hsort]; simp)
      obtain ⟨htop, hrec⟩ := topOf_recorded hfall hfl fun e he => (hslots e he).2
      obtain ⟨hset, hslot, hflags, hba⟩ := recordedWord_fields (hslots _ htop).1
      refine Or.inr ⟨f, hfall, _, htop, hfdue, hfl, fun x hx hdue hxfl => ?_, hrec, ?_, ?_, ?_, ?_⟩
      · have hsorted := (sortEvs_spec (c.events.filter fun e => e.due ≤ cycle)).2
        have hx' := (hmem x).2 ⟨hx, hdue⟩
        rw [hsort] at hsorted hx'
        rw [← rank_lt_iff, not_lt]
        rcases List.mem_append.1 hx' with h | h
        · exact absurd (hnone x h) hxfl
        · rcases List.mem_cons.1 h with rfl | h
          · exact le_rfl
          · exact (List.pairwise_cons.1 (List.pairwise_append.1 hsorted).2.1).1 x h
      all_goals rw [hferec]; assumption

/-! ### A watch ends (R41, R188) -/

theorem bring_brought (c : Ctx) (n : R6) (tag : Nat) (v : W64) (w : Option Watch) :
    Brought c { c.bring n tag v with watch := w } n tag v := by
  by_cases ha : c.awaits n tag = true
  · have hb : c.bring n tag v = { c with r := c.r.putS n v false, board := c.board.filter fun p => !(p.dst = .s n.toNat && p.due = none) } :=
      if_pos ha
    rw [hb]
    refine ⟨fun hn _ => ⟨?_, ?_, fun p hp hdst hdue => ?_⟩, fun h => absurd ha (by simp [h]), fun m hm => ?_⟩
    · simp only [Regs.putS, if_neg hn]
      exact vget_vset_same c.r.s _ _ n.isLt
    · simp only [Regs.putS, if_neg hn]
      exact setBit_same c.r.sp _ _ n.isLt
    · have := (List.mem_filter.1 hp).2
      simp [hdst, hdue] at this
    · have hne : n.toNat ≠ m.toNat := fun h => hm (BitVec.eq_of_toNat_eq h.symm)
      by_cases hn : n = 0
      · simp only [Regs.putS, if_pos hn]; exact ⟨trivial, trivial⟩
      · simp only [Regs.putS, if_neg hn]
        exact ⟨vget_vset_ne c.r.s _ _ _ hne, setBit_ne c.r.sp _ _ _ hne⟩
  · have hb : c.bring n tag v = c := if_neg ha
    rw [hb]
    exact ⟨fun _ h => absurd h ha, fun _ => ⟨rfl, rfl⟩, fun _ _ => ⟨rfl, rfl⟩⟩

/-- A core's cache role without the clean bytes in a scope's reach (R287). -/
def withoutClean (sco : BitVec 2) (c : Core) : Core :=
  let drop (l : Line) : Line := { l with held := l.dirty }
  { c with cache := (replaceIf (fun l => inReach sco l.key && !c.leaving l) drop c.cache).filter fun l => l.held ≠ 0 }

/-- An acquire touches the cache role of the core acted on, and nothing else. -/
theorem acquire_eq (s : State) (sco : BitVec 2) : s.acquire sco = s.modCore (withoutClean sco) := by
  have hcore : s.coreAt s.me = s.core := if_pos rfl
  unfold State.acquire State.dropClean
  rw [hcore]
  exact if_pos rfl

theorem endSeen_ends (u : State) (w : Watch) (code : BitVec 2) : WatchEnds u (u.endSeen w code) w (code.setWidth 64) := by
  have hend : u.endSeen w code =
      (u.modCtx fun c => { c.bring w.sd w.tag (zext code) with watch := none }).modCore (withoutClean w.sco) := acquire_eq _ _
  rw [hend]
  exact ⟨rfl, bring_brought u.ctx w.sd w.tag _ none, rfl, by rw [acquire_eq]; rfl⟩

/-- Settles O31: what is due lands in the order of R97, and a watch ends with what it has seen. -/
theorem landingEvents : Obligations.LandingEvents := by
  intro s u c hu
  have hland := landCtx_lands u.core.cycle u.ctx
  refine ⟨⟨u.modCtx (landCtx u.core.cycle), ?_, rfl, hland⟩, fun p d hp hgeo hdue hd => ⟨u.modCtx (landCtx u.core.cycle), ?_, rfl, hland⟩, fun w code hw hseen =>
    ⟨_, ?_, endSeen_ends u w code⟩, fun w d hw hseen hd hle => ⟨_, ?_, endSeen_ends u w 1⟩⟩
  · show execVectorResultLand c s = _
    simp only [execVectorResultLand, hu]
  · show execGeometryComplete c s = _
    simp only [execGeometryComplete, hu]
    exact if_pos (List.any_eq_true.2 ⟨p, hp, by simp [hgeo, hdue, hd]⟩)
  · show execWaitaWake c s = _
    simp only [execWaitaWake, hu, hw, hseen]
  · show execWaitaTimeout c s = _
    simp only [execWaitaTimeout, hu, hw, hd]
    exact if_pos (by simp [hle, hseen])

end Sys2Proof.Proofs.Landings
end

section
open Sys2Proof Sys2Proof.Machine
namespace Sys2Proof.Proofs.Sequencer

/-! ### What a bundle's pads are does not hang on what its end changes of the context -/

section
variable {s : State} {c p : Ctx} {i : Iss} (hid : c.id = s.ctx.id)
include hid

theorem fetchHeld_recast (a : W64) (n : Nat) :
    ({ s with ctx := c, pre := p, iss := i } : State).fetchHeld a n = s.fetchHeld a n := by
  cases c
  subst hid
  rfl

theorem fetchHeader_recast (a : W64) : ({ s with ctx := c, pre := p, iss := i } : State).fetchHeader a = s.fetchHeader a := by
  cases c
  subst hid
  rfl

theorem skipPads_recast : ∀ (fuel : Nat) (a : W64),
    ({ s with ctx := c, pre := p, iss := i } : State).skipPads fuel a = s.skipPads fuel a
  | 0, _ => rfl
  | fuel + 1, a => by
    simp only [State.skipPads, fetchHeld_recast hid, fetchHeader_recast hid, skipPads_recast fuel]

theorem pastPads_recast (a : W64) : ({ s with ctx := c, pre := p, iss := i } : State).pastPads a = s.pastPads a := by
  simp only [State.pastPads, State.findBundle, skipPads_recast hid]

end

/-! ### The end of a bundle (R113, R114, R119, R128, R129) -/

/-- SRES after the last slot: a re-entered bundle that has not written it clears it (R27). -/
def endSres (s : State) : BitVec 3 := if s.ctx.q.reent.isSome = true ∧ s.iss.sresSet = false then 0 else s.ctx.c.sres

/-- Where the bundle leads. -/
def endGo (s : State) : W64 := (s.iss.xfer.map Xfer.tgt).getD s.after

/-- Whether the bundle's transfer rotates, and its stall. -/
def endRot (s : State) : Bool := (s.iss.xfer.map Xfer.rot).getD false
def endStall (s : State) : Nat := (s.iss.xfer.map Xfer.stall).getD 0

/-- The control registers after the bundle: SRES, and the rotation of a back-branching BLC (R17). -/
def endCtl (s : State) (rot : Bool) : Ctl :=
  { s.ctx.c with
    sres := endSres s
    vrb := if rot then s.ctx.c.vrb - 1 else s.ctx.c.vrb
    prb := if rot then s.ctx.c.prb - 1 else s.ctx.c.prb }

/-- The sequencer after the bundle. -/
def endSeq (s : State) (pc : W64) (stall : Nat) : Seqr :=
  { ({ s.ctx.q with pc := pc, stallUntil := s.core.cycle + 1 + stall } : Seqr).aged s.iss.reent.isSome with
    legal := s.iss.legal
    reent := s.iss.reent.map (·.2)
    counted := false
    waitsOn := none }

/-- The state after the bundle, but for its EXIT or DORM, by the transfer's rotation, its stall and the address it leads to. -/
def endedAt (s : State) (rot : Bool) (stall : Nat) (pc : W64) : State :=
  { s with ctx := { s.ctx with c := endCtl s rot, q := endSeq s pc stall } }

def endPc (s : State) : W64 := s.pastPads (asPc (endGo s))

def ended (s : State) : State := endedAt s (endRot s) (endStall s) (endPc s)

/-- R21, as the bundle's end asks for it. -/
def XferOk (s : State) : Prop := ∀ x, s.iss.xfer = some x → x.tgt.toNat / 2 ^ 48 = 0x2000 ∧ x.tgt.toNat % 2 = 0

theorem goodTarget_iff_top (a : W64) :
    (goodTarget a && spaceOk a) = true ↔ a.toNat / 2 ^ 48 = 0x2000 ∧ a.toNat % 2 = 0 := by
  have h0 : a.getLsbD 0 = false ↔ a.toNat % 2 = 0 := by
    rw [BitVec.getLsbD, Nat.testBit_zero]
    simp
  by_cases h : a.toNat / 2 ^ 60 = 2
  · have hok : spaceOk a = decide (a.toNat / 2 ^ 48 % 2 ^ 12 = 0) := by
      simp only [spaceOk, space, h, bits, Nat.reduceAdd, Nat.reduceSub]
      rfl
    simp only [hok, goodTarget, space, h, h0, Bool.and_eq_true, decide_eq_true_eq, Bool.not_eq_true', decide_true, true_and]
    omega
  · simp only [goodTarget, space, h, decide_false, Bool.false_and, Bool.false_eq_true, false_iff]
    omega

theorem withSres (s : State) :
    (if s.ctx.q.reent.isSome && !s.iss.sresSet then s.modCtl fun c => { c with sres := 0 } else s) =
      s.modCtl fun c => { c with sres := endSres s } := by
  unfold endSres
  by_cases h : s.ctx.q.reent.isSome = true ∧ s.iss.sresSet = false
  · rw [if_pos h, if_pos (by simp [h])]
  · rw [if_neg h, if_neg (by simpa using h)]
    rfl

theorem finish_of_bad {s : State} (h : ¬XferOk s) :
    s.finish = (s.modCtl fun c => { c with sres := endSres s }).takeTrap
      { cause := 0x06, slot := 2, sres := none, ac := true, faddr := endGo s } := by
  unfold XferOk at h
  push Not at h
  obtain ⟨x, hx, hbad⟩ := h
  have hb : badTarget (s.modCtl fun c => { c with sres := endSres s }).iss.xfer = some (endGo s) := by
    simp only [modCtl_iss, hx, badTarget, endGo, Option.map_some, Option.getD_some]
    rw [if_neg (by rw [goodTarget_iff_top]; simpa using hbad)]
  unfold State.finish
  simp only [withSres, hb]
  rfl

theorem pastPads_endCtl (s : State) (rot : Bool) (a : W64) :
    ({ s with ctx := { s.ctx with c := endCtl s rot } } : State).pastPads a = s.pastPads a :=
  pastPads_recast (c := { s.ctx with c := endCtl s rot }) (p := s.pre) (i := s.iss) rfl a

theorem advance_settleSeq (s : State) : (s.modCtl fun c => { c with sres := endSres s }).advance.settleSeq = ended s := by
  unfold State.advance ended endRot endStall endPc endGo
  simp only [modCtl_iss]
  cases s.iss.xfer with
  | none => exact congrArg (endedAt s false 0) (pastPads_endCtl s false (asPc s.nextPc))
  | some x =>
    obtain ⟨tgt, rot, stall⟩ := x
    cases rot
    · exact congrArg (endedAt s false stall) (pastPads_endCtl s false (asPc tgt))
    · exact congrArg (endedAt s true stall) (pastPads_endCtl s true (asPc tgt))

theorem finish_of_ok {s : State} (h : XferOk s) : s.finish = (ended s).leave := by
  have hb : badTarget (s.modCtl fun c => { c with sres := endSres s }).iss.xfer = none := by
    simp only [modCtl_iss, badTarget]
    split
    next x hx => rw [if_pos ((goodTarget_iff_top _).2 (h x hx))]
    · rfl
  unfold State.finish
  simp only [withSres, hb, advance_settleSeq]

/-! ### EXIT and DORM (R128, R129) -/

/-- What the bundle does with its context, in the words of R128 and R129: an EXIT of it, a DORM of it, or what its run before a
re-entry above slot 2 has left (log entry 122). -/
def partOf (s : State) : Option Bool :=
  if s.iss.exiting then some true
  else if s.iss.dorming then some false
  else s.ctx.q.parting.bind fun p =>
    if p.1 = s.iss.ba ∧ s.pre.q.reent.isSome = true ∧ 2 < s.pre.firstSlot then some p.2 else none

theorem parting_eq_partOf (s : State) : s.parting = partOf s := by
  unfold State.parting Iss.parting partOf
  cases s.iss.exiting <;> cases s.iss.dorming <;> simp [and_assoc]

theorem partOf_ended (s : State) : partOf (ended s) = partOf s := by
  have h : (ended s).ctx.q.parting = s.ctx.q.parting := by
    show (Seqr.aged _ _).parting = _
    unfold Seqr.aged
    split <;> rfl
  unfold partOf
  rw [h]
  rfl

theorem deliverOldest_eq_self {s : State} {core : Nat} {rid : BitVec 32} (h : ∀ a ∈ (s.coreAt core).arrivals, a.rid ≠ rid) :
    s.deliverOldest core rid = s := by
  unfold State.deliverOldest
  rw [List.findIdx?_eq_none_iff.2 (by simpa using h)]

/-- A dormant context that no stop and no supply loss asks for only loses its other requests. -/
theorem takeDormant_of_no_stop {s : State} (hlife : s.ctx.sch.life = .dormant) (hstop : s.ctx.sch.stopAt = none)
    (hreqs : ∀ k ∈ s.ctx.sch.reqs, k ≠ .supplyLoss ∧ k ≠ .stop) :
    s.takeDormant = s.modSched fun h => { h with reqs := [] } := by
  unfold State.takeDormant
  simp only [hlife, hstop, ne_eq, not_true_eq_false, if_false]
  rw [List.find?_eq_none.2 (by simpa using hreqs)]

/-- The state in which DORM has just made its context dormant. -/
def dozing (s : State) : State :=
  { s with
    fab := { s.fab with nextSeq := s.fab.nextSeq + 1 }
    ctx := { s.ctx with
      q := { s.ctx.q with parting := none }
      sch := { s.ctx.sch with life := .dormant, dormAt := s.fab.nextSeq } } }

theorem leave_sleeps {s : State} (hp : s.parting = some false) (harr : ∀ a ∈ (s.coreAt s.me).arrivals, a.rid ≠ s.rid)
    (hstop : s.ctx.sch.stopAt = none) (hreqs : ∀ k ∈ s.ctx.sch.reqs, k ≠ .supplyLoss ∧ k ≠ .stop) :
    s.leave = (dozing s).modSched fun h => { h with reqs := [] } := by
  have hleave : s.leave = ((dozing s).deliverOldest s.me s.rid).takeDormant := by
    unfold State.leave
    rw [hp]
    rfl
  rw [hleave, deliverOldest_eq_self (s := dozing s) harr]
  exact takeDormant_of_no_stop rfl hstop hreqs

theorem leave_none {s : State} (hp : s.parting = none) : s.leave = s := by
  unfold State.leave
  rw [hp]

theorem leave_exits {s : State} (hp : s.parting = some true) :
    s.leave = (s.modSeq fun q => { q with parting := none }).modSched fun h =>
      { h with life := .retiring, reqs := [], stopAt := none } := by
  unfold State.leave
  rw [hp]

/-- Preparations age by one bundle, or are discarded after a TRET (R119). -/
theorem aged_spec (q : Seqr) (discard : Bool) {n : Nat} (hn : n < 8) :
    vget (q.aged discard).prep n = (if discard then none else (vget q.prep n).map (· + 1)) ∧
      vget (q.aged discard).cold n = (discard || vget q.cold n) := by
  cases discard <;> simp [Seqr.aged, agePreps, vget, hn]

theorem aged_eq (q : Seqr) (discard : Bool) :
    q.aged discard = { q with prep := (q.aged discard).prep, cold := (q.aged discard).cold } := by
  cases discard <;> rfl

theorem endSeq_pc (s : State) (pc : W64) (stall : Nat) : (endSeq s pc stall).pc = pc := congrArg Seqr.pc (aged_eq _ _)

theorem bundleEndsRule : BundleEndsRule := by
  intro s hgo go ok rot sres old part t pc c'
  have ht : t = s.finish := if_neg (by simp [hgo])
  have hpart : (ended s).parting = part := (parting_eq_partOf _).trans (partOf_ended s)
  refine ⟨fun hbad => ht.trans (finish_of_bad hbad), ?_, ?_, ?_⟩
  · intro hok hnone
    have hend : t = ended s := by rw [ht, finish_of_ok hok, leave_none (hpart.trans hnone)]
    refine ⟨?_, fun n hn => ?_⟩
    · have haged := aged_eq ({ s.ctx.q with pc := pc, stallUntil := s.core.cycle + 1 + endStall s } : Seqr) s.iss.reent.isSome
      rw [hend]
      exact congrArg (fun q : Seqr => ({ s with ctx := { s.ctx with c := endCtl s (endRot s), q := { q with
        legal := s.iss.legal, reent := s.iss.reent.map (·.2), counted := false, waitsOn := none } } } : State)) haged
    · rw [hend]
      exact aged_spec _ _ hn
  · intro hok hexit
    rw [ht, finish_of_ok hok, leave_exits (hpart.trans hexit)]
    exact ⟨rfl, endSeq_pc .., rfl, rfl, rfl, rfl, rfl, rfl⟩
  · intro hok hdorm harr hstop hreqs
    rw [ht, finish_of_ok hok, leave_sleeps (hpart.trans hdorm) harr hstop hreqs]
    exact ⟨rfl, rfl, endSeq_pc .., rfl, rfl, rfl, rfl, rfl, rfl⟩

/-! ### The empty bundle (R46) -/

theorem noteTrans_keeps (s : State) (core : Nat) (rid : BitVec 32) (va : Nat) :
    let u := s.noteTrans core rid va
    u.mem = s.mem ∧ u.core = s.core ∧ u.ctxs = s.ctxs := by
  fun_cases State.noteTrans <;> exact ⟨rfl, rfl, rfl⟩

theorem noteHost_keeps (s : State) (pasid : BitVec 20) (page : Nat) :
    let u := s.noteHost pasid page
    u.mem = s.mem ∧ u.core = s.core ∧ u.ctxs = s.ctxs := by
  fun_cases State.noteHost <;> exact ⟨rfl, rfl, rfl⟩

theorem noteAddr_keeps (s : State) (a : W64) :
    let u := s.noteAddr a
    u.mem = s.mem ∧ u.core = s.core ∧ u.ctxs = s.ctxs := by
  unfold State.noteAddr
  split
  · exact noteTrans_keeps ..
  · exact noteHost_keeps ..
  · exact ⟨rfl, rfl, rfl⟩

section
variable {u : State} {a : W64}

theorem pastPads_pad {b : W64} {h : Nat} (hheld : u.fetchHeld a 2 = false) (hpad : u.fetchHeader a = .ok 0)
    (hnext : u.skipPads (2 ^ 47 - 1) (a + 2) = .header b h) : u.pastPads a = b := by
  have hfind : u.findBundle a = u.skipPads (2 ^ 47 - 1) (a + 2) := by
    show u.skipPads ((2 ^ 47 - 1) + 1) a = _
    rw [State.skipPads, hpad]
    simp [hheld]
  rw [State.pastPads, hfind, hnext]

theorem pastPads_bundle {h : Nat} (hheld : u.fetchHeld a 2 = false) (hh : u.fetchHeader a = .ok h) (h0 : h ≠ 0) :
    u.pastPads a = a := by
  have hfind : u.findBundle a = .header a h := by
    show u.skipPads ((2 ^ 47 - 1) + 1) a = _
    rw [State.skipPads, hh]
    simp [hheld, h0]
  rw [State.pastPads, hfind]

end

/-- A bundle without a transfer, an EXIT or a DORM. -/
theorem finishIf_plain {w : State} (hgo : w.ctx.halted = false) (hxfer : w.iss.xfer = none) (hpart : partOf w = none) :
    w.finishIf = ended w := by
  unfold State.finishIf
  rw [if_neg (by simp [hgo]), finish_of_ok (by simp [XferOk, hxfer]),
    leave_none ((parting_eq_partOf _).trans ((partOf_ended w).trans hpart))]

theorem endPc_plain {w : State} (hxfer : w.iss.xfer = none) : endPc w = w.pastPads (asPc w.after) := by
  rw [endPc, endGo, hxfer]
  rfl

theorem endStall_plain {w : State} (hxfer : w.iss.xfer = none) : endStall w = 0 := by
  rw [endStall, hxfer]
  rfl

theorem endCtl_plain {w : State} (hreent : w.ctx.q.reent = none) : endCtl w false = w.ctx.c := by
  simp [endCtl, endSres, hreent]

theorem endRot_plain {w : State} (hxfer : w.iss.xfer = none) : endRot w = false := by
  rw [endRot, hxfer]
  rfl

theorem endSeq_loops (s : State) (pc : W64) (stall : Nat) : (endSeq s pc stall).loops = s.ctx.q.loops := by
  show (Seqr.aged _ _).loops = _
  rw [aged_eq]

/-- The bundle that EMPTY_BUNDLE issues. -/
def emptyBun (pc : W64) (ib mi : Bool) : Bun := { ba := pc, hdr := { mask := 0, mi := mi, ib := ib, rsv := 0 }, len := 2, slots := [] }

/-- A context about to run an empty bundle. -/
def emptyUp (u : State) (pc : W64) (ib mi : Bool) : State := u.upWith (emptyBun pc ib mi) 0

section
variable {u : State} {pc : W64} {ib mi : Bool} (hreent : u.ctx.q.reent = none)
include hreent

theorem emptyUp_xfer : (emptyUp u pc ib mi).iss.xfer = none := by
  show u.ctx.q.reent.join = none
  rw [hreent]
  rfl

theorem emptyUp_legal : (emptyUp u pc ib mi).iss.legal = ib := by
  show (ib || (emptyBun pc ib mi).closedLoop u.ctx.firstSlot) = ib
  simp [Bun.closedLoop, Ctx.firstSlot, hreent]

theorem partOf_emptyUp : partOf (emptyUp u pc ib mi) = none := by
  show (u.ctx.q.parting.bind fun p =>
    if p.1 = (emptyBun pc ib mi).ba ∧ u.ctx.q.reent.isSome = true ∧ 2 < u.ctx.firstSlot then some p.2 else none) = none
  simp [hreent]

theorem finishIf_emptyUp (hgo : u.ctx.halted = false) : (emptyUp u pc ib mi).finishIf = ended (emptyUp u pc ib mi) :=
  finishIf_plain hgo (emptyUp_xfer hreent) (partOf_emptyUp hreent)

theorem ended_emptyUp_pc : (ended (emptyUp u pc ib mi)).ctx.q.pc = u.pastPads (asPc (pc + 2)) := by
  have hafter : (emptyUp u pc ib mi).after = pc + 2 := rfl
  have hpads : (emptyUp u pc ib mi).pastPads (asPc (pc + 2)) = u.pastPads (asPc (pc + 2)) :=
    pastPads_recast (s := u) (c := (emptyUp u pc ib mi).ctx) (p := u.ctx) (i := (emptyUp u pc ib mi).iss) rfl _
  exact (endSeq_pc ..).trans ((endPc_plain (emptyUp_xfer hreent)).trans (by rw [hafter, hpads]))

theorem ended_emptyUp_stall : (ended (emptyUp u pc ib mi)).ctx.q.stallUntil = u.core.cycle + 1 := by
  show u.core.cycle + 1 + endStall _ = _
  rw [endStall_plain (emptyUp_xfer hreent)]

theorem ended_emptyUp_ctl : (ended (emptyUp u pc ib mi)).ctx.c = u.ctx.c := by
  show endCtl _ (endRot _) = _
  rw [endRot_plain (emptyUp_xfer hreent), endCtl_plain (w := emptyUp u pc ib mi) hreent]
  rfl

end

theorem emptyBundlesRule : EmptyBundlesRule := by
  intro s ib mi hlife hremote hreent htrapped u next
  have hgo : s.ctx.halted = false := by simp [Ctx.halted, hlife, hremote, htrapped]
  have hctx : u.ctx = s.ctx := Cycles.noteAddr_ctx ..
  obtain ⟨hmem, hcore, hctxs⟩ := noteAddr_keeps s s.ctx.q.pc
  have hr : u.ctx.q.reent = none := by rw [hctx, hreent]
  have hissued : Gives (.emptyBundle ib mi) s (emptyUp u s.ctx.q.pc ib mi).finishIf := by
    show execEmptyBundle ib mi s = _
    unfold execEmptyBundle
    rw [if_neg (by simp [hgo])]
    exact GoingOn.issue_of_runSlots (b := emptyBun s.ctx.q.pc ib mi) rfl
  rw [finishIf_emptyUp hr (by rw [hctx, hgo])] at hissued
  have hpc : (ended (emptyUp u s.ctx.q.pc ib mi)).ctx.q.pc = u.pastPads next := ended_emptyUp_pc hr
  refine ⟨ended (emptyUp u s.ctx.q.pc ib mi), hissued, hpc, fun hheld hpad a h hnext => hpc.trans (pastPads_pad hheld hpad hnext),
    fun h hheld hh h0 => hpc.trans (pastPads_bundle hheld hh h0), emptyUp_legal hr, ?_, rfl, ?_, fun n hn => ?_, ?_, ?_, ?_, ?_, ?_,
    hmem, hcore, hctxs⟩
  · rw [ended_emptyUp_stall hr, hcore]
  · refine (endSeq_loops ..).trans ?_
    show u.ctx.q.loops = _
    rw [hctx]
  · refine (aged_spec _ _ hn).1.trans ?_
    show (vget u.ctx.q.prep n).map (· + 1) = _
    rw [hctx]
  · exact congrArg (fun c : Core => (c.cycle : Int)) hcore
  · show u.ctx.r = _
    rw [hctx]
  · rw [ended_emptyUp_ctl hr, hctx]
  · show u.ctx.mx = _
    rw [hctx]
  · show u.ctx.queue = _
    rw [hctx]

/-! ### PRIO, DORM, EXIT, TWAIT (R127 to R129, R191) -/

section
variable {s : State}

theorem prio_gives {c : BitVec 2} {g : Region} (hg : s.region? s.rid = some g) (hlo : g.lim.plo.toNat ≤ c.toNat)
    (hhi : c.toNat ≤ g.lim.phi.toNat) :
    Gives (.prio c) s { s with ctx := { s.ctx with c := { s.ctx.c with base := c } } } := by
  show execPrio c s = _
  unfold execPrio
  simp only [hg]
  exact if_neg (by simp; omega)

variable {a : R6} {sco tl : BitVec 2} {all : BitVec 1} {n : W64}
  (hn : all = 0 ∧ s.psS a = false ∧ n = s.rdS a ∨ all = 1 ∧ n = (s.pre.tl tl).issued)
include hn

theorem twaitTarget_eq : s.twaitTarget a tl all = n := by
  obtain ⟨rfl, -, rfl⟩ | ⟨rfl, rfl⟩ := hn
  · exact if_neg (by decide)
  · exact if_pos rfl

theorem twait_unpoisoned : (all = 0 && s.psS a) = false := by
  obtain ⟨rfl, hp, -⟩ | ⟨rfl, -⟩ := hn
  · simp [hp]
  · rfl

/-- A TWAIT for a number that has been issued holds its bundle until the watermark has reached it, and then acquires. -/
theorem execTwait_eq (hle : n.toNat ≤ (s.pre.tl tl).issued.toNat) :
    execTwait a sco tl all s =
      if (s.ctx.tl tl).mark.toNat < n.toNat then .next s.hold else .next (s.acquire sco) := by
  unfold execTwait State.twaitHeld
  rw [twaitTarget_eq hn, twait_unpoisoned hn, if_neg (by decide), if_neg (by omega)]
  simp [hle]

end

theorem waitsAndEndsRule : WaitsAndEndsRule := by
  intro s c a sco tl all
  refine ⟨fun g hg hlo hhi => prio_gives hg hlo hhi, rfl, rfl, fun n hn hle => ⟨fun hdone => ?_, fun hopen => ?_⟩⟩
  · exact (execTwait_eq hn hle).trans (if_neg (by omega))
  · exact (execTwait_eq hn hle).trans (if_pos hopen)

/-! ### CUT (R126) -/

/-- The word that a cut point reads from a legal take table: its take is no reserved one, the id is in the table, and the reserved
fields are zero. -/
def TakeWord (s : State) (id : BitVec 12) (w take : Nat) : Prop :=
  take = w / 2 ^ (2 * s.power.level_.toNat) % 4 ∧ take ≠ 3 ∧ id.toNat < w / 2 ^ 32 % 2 ^ 16 ∧ w / 2 ^ 48 % 2 ^ 16 = 0 ∧
    w / 2 ^ 16 % 2 ^ 16 = 0

section
variable {s s1 : State} {id : BitVec 12} {w take : Nat} (h0 : s.pre.c.ttab ≠ 0) (h64 : s.pre.c.ttab.toNat % 64 = 0)
  (h2 : s.pre.c.ttab.toNat / 2 ^ 60 = 2) (hheld : s.wordHeld s.pre.c.ttab = false)
  (hload : s.loadWord s.pre.c.ttab = some (w, s1)) (hw : TakeWord s id w take)
include h0 h64 h2 hheld hload hw

/-- CUT past the checks of its table. -/
theorem execCut_eq : execCut id s =
    if take = s.pre.c.take.toNat then .next s1
    else
      let a := s.pre.c.ttab + BitVec.ofNat 64 (0x40 + 24 * id.toNat + 8 * take)
      if s1.wordHeld a then .next s.hold
      else
        match s1.loadWord a with
        | none => s.trap cTakeTable
        | some (x, s2) =>
          if x = 0 || x % 2 = 1 then s.trap cTakeTable
          else .next ((s2.modCtl fun c => { c with take := BitVec.ofNat 2 take }).decideTransfer (BitVec.ofNat 64 x) false 8) := by
  obtain ⟨htake, h3, hid, hhi, hmid⟩ := hw
  have hbits : bits w (2 * s.power.level_.toNat + 1) (2 * s.power.level_.toNat) = take := by
    rw [bits, htake, show 2 * s.power.level_.toNat + 1 + 1 - 2 * s.power.level_.toNat = 2 by omega]
    rfl
  have h63 : bits w 63 48 = 0 := hhi
  have h31 : bits w 31 16 = 0 := hmid
  have h47 : ¬bits w 47 32 ≤ id.toNat := by rw [bits]; omega
  unfold execCut
  simp only [hbits, h63, h31, h47, h3, hheld, hload, h64, space, h2]
  refine (if_neg (by simpa using h0)).trans ((if_neg (by decide)).trans ((if_neg (by decide)).trans ?_))
  split <;> rfl

end

theorem cutPointsRule : CutPointsRule := by
  intro s s1 id w take tab h0 h64 h2 hheld hload htake h3 hid hhi hmid
  have hcut := execCut_eq h0 h64 h2 hheld hload ⟨htake, h3, hid, hhi, hmid⟩
  refine ⟨fun heq => hcut.trans (if_pos heq), ?_⟩
  intro s2 x hne e hheld1 hload1 hx0 hx2
  refine hcut.trans ((if_neg hne).trans ?_)
  simp only [e, tab] at hheld1 hload1
  simp only [hheld1, hload1, Bool.false_eq_true, if_false]
  exact if_neg (by simp [hx0]; omega)

/-- Settles O50: each rule by its own lemma of what the model does. -/
theorem sequencerResults : Obligations.SequencerResults :=
  ⟨waitsAndEndsRule, cutPointsRule, emptyBundlesRule, bundleEndsRule⟩

end Sys2Proof.Proofs.Sequencer
end

section
open Sys2Proof Sys2Proof.Machine
namespace Sys2Proof.Proofs.Records

/-- A held context with a poisoned register and a holding record. -/
def heldCtx : Ctx :=
  { r := { sp := 2 }
    sch := { life := .held, hold := some { addr := 0, prec := false, ac := false, pt := false, rt := false, ba := 0, tgt := 0, key := 0 } } }

/-- The held context stands among the others, and a released write has left a RETRY for it. The context acted on is none, and bears
the same name. -/
def twoOfAName : State := { State.reset with ctxs := [heldCtx], disps := [(0, 0x1000000000000000)] }

/-- RETRY makes both of the name placeable: the one that then goes by the name is not the one that was held. -/
theorem dispRetry_takes_the_other : ∀ t y, exec (.dispRetry heldCtx.id) twoOfAName = .next t → t.ctx? heldCtx.id = some y →
    y.r ≠ heldCtx.r := by
  intro t y ht hy
  obtain rfl : twoOfAName.accept heldCtx.id 1 = t := Host.Outcome.next.inj ht
  have h : ((twoOfAName.accept heldCtx.id 1).ctx? heldCtx.id).map (fun y => y.r.sp) = some 0 := by decide +kernel
  rw [hy] at h
  intro hr
  rw [Option.map_some, hr] at h
  exact absurd h (by decide)

/-- Refutes O33: the disposition of a held context is taken by everything of its name, an empty context acted on included, which is
then the one that the name finds. -/
theorem not_recordsAndDispositions : ¬ Obligations.RecordsAndDispositions := by
  rintro ⟨hheld, -, -⟩
  obtain ⟨-, -, hdisp⟩ := hheld twoOfAName heldCtx.id heldCtx (by decide +kernel)
  obtain ⟨-, htakes⟩ := hdisp _ rfl rfl rfl
  obtain ⟨-, -, -, hretry, -, -⟩ := htakes [] 0x1000000000000000 [] (by decide +kernel) (by simp) (by decide)
  obtain ⟨t, y, ht, hy, -, -, hr, -⟩ := hretry (by decide)
  exact dispRetry_takes_the_other t y ht hy hr

end Sys2Proof.Proofs.Records
end

section
open Sys2Proof Sys2Proof.Machine
namespace Sys2Proof.Proofs.Requests

/-- A dormant context. -/
def sleeper : Ctx := { sch := { life := .dormant } }

/-- The dormant context stands among the others while the supply is lost. The context acted on is none, and bears the same name. -/
def lossOverTwo : State := { State.reset with ctxs := [sleeper], power := { State.reset.power with lossOn := true } }

/-- The supply loss takes both of the name: the one that then goes by the name has not been dormant. -/
theorem supplyLoss_takes_the_other : ∀ t y, exec (.preemptionRequest sleeper.id .supplyLoss) lossOverTwo = .next t →
    t.ctx? sleeper.id = some y → y.sch.wasDormant ≠ true := by
  intro t y ht hy
  obtain rfl : lossOverTwo.request sleeper.id .supplyLoss = t := Host.Outcome.next.inj ht
  have h : ((lossOverTwo.request sleeper.id .supplyLoss).ctx? sleeper.id).map (fun y => y.sch.wasDormant) = some false := by
    decide +kernel
  rw [hy] at h
  intro hwas
  rw [Option.map_some, hwas] at h
  exact absurd h (by decide)

/-- Refutes O34: a supply loss takes everything of a dormant context's name, an empty context acted on included, which is then the
one that the name finds, and which was not dormant. -/
theorem not_requestsAndSaves : ¬ Obligations.RequestsAndSaves := by
  rintro ⟨⟨-, hrequest, -, -⟩, -⟩
  obtain ⟨-, -, hdormant⟩ := hrequest lossOverTwo sleeper.id sleeper .supplyLoss (by decide +kernel) (by decide)
  obtain ⟨t, y, ht, hy, -, hwas, -⟩ := hdormant rfl (Or.inl rfl)
  exact supplyLoss_takes_the_other t y ht hy hwas

end Sys2Proof.Proofs.Requests
end

section
open Sys2Proof Sys2Proof.Machine
namespace Sys2Proof.Proofs.Saves

/-- A context at an address of space 0x2 whose constant s0 is marked poisoned. -/
def poisonedConstant : Ctx := { r := { sp := 1 }, q := { pc := 0x2000000000000000 } }

/-- A restore never poisons s0 (R14). -/
theorem fromArea_sp_zero (c : Ctx) (low high : List Byte) (cycle : Nat) : (c.fromArea low high cycle).r.sp.getLsbD 0 = false := by
  show (setBit (w64At low 0x1E0) 0 false).getLsbD 0 = false
  exact setBit_same _ _ _ (by decide)

/-- Refutes O35: of a context whose poison bits mark the constant s0, the save area holds the mark, and the restore leaves it out. -/
theorem not_saveRoundTrip : ¬ Obligations.SaveRoundTrip := by
  intro h
  obtain ⟨-, hregs, -⟩ := h poisonedConstant 0 0 0 false (by decide) (by decide) (by decide) (by decide) (by decide)
  have hsp := fromArea_sp_zero poisonedConstant (poisonedConstant.savedBase 0 0 false) poisonedConstant.mx.saved 0
  rw [hregs] at hsp
  exact absurd hsp (by decide)

end Sys2Proof.Proofs.Saves
end

section
open Sys2Proof Sys2Proof.Machine
namespace Sys2Proof.Proofs.Schedulers

/-- A retiring context with a poisoned register. -/
def retiree : Ctx := { r := { sp := 2 }, sch := { life := .retiring } }

/-- The retiring context stands among the others, its work done. The context acted on is none, and bears the same name. -/
def retiresOfTwo : State := { State.reset with ctxs := [retiree] }

/-- The retirement takes both of the name: the one that then goes by the name is not the one that was retiring. -/
theorem contextRetire_takes_the_other : ∀ t y, exec (.contextRetire retiree.id) retiresOfTwo = .next t →
    t.ctx? retiree.id = some y → y.r ≠ retiree.r := by
  intro t y ht hy
  have hexec : exec (.contextRetire retiree.id) retiresOfTwo =
      .next ((retiresOfTwo.mapCtx (fun y => y.id = retiree.id) Ctx.end_).freeAllRetired) := rfl
  obtain rfl := Host.Outcome.next.inj (hexec.symm.trans ht)
  have h : (((retiresOfTwo.mapCtx (fun y => y.id = retiree.id) Ctx.end_).freeAllRetired).ctx? retiree.id).map
      (fun y => y.r.sp) = some 0 := by decide +kernel
  rw [hy] at h
  intro hr
  rw [Option.map_some, hr] at h
  exact absurd h (by decide)

/-- Refutes O36: the retirement of a context takes everything of its name, an empty context acted on included, which is then the one
that the name finds, with registers of its own. -/
theorem not_schedulerDecisions : ¬ Obligations.SchedulerDecisions := by
  rintro ⟨⟨hretire, -⟩, -⟩
  obtain ⟨t, y, ht, hy, -, hr, -⟩ := hretire retiresOfTwo retiree.id retiree (by decide +kernel) (by decide +kernel)
  exact contextRetire_takes_the_other t y ht hy hr

end Sys2Proof.Proofs.Schedulers
end

section
open Sys2Proof Sys2Proof.Machine
namespace Sys2Proof.Proofs.HostInterface
open MemoryBytes Lines

/-! ### Registers with a row of their own (R342, R344) -/

/-- A port is training, up or retraining. -/
theorem active_ports_iff (s : State) :
    (s.fab.ports.any fun p => p.state = 1 || p.state = 2 || p.state = 3) = true ↔
      ∃ p : Fin 18, (portAt s (BitVec.ofNat 5 p.val)).state.toNat ∈ [1, 2, 3] := by
  have hnum (x : BitVec 4) : (x = 1 || x = 2 || x = 3) = true ↔ x.toNat ∈ [1, 2, 3] := by
    revert x
    decide
  have hport (p : Fin 18) : portAt s (BitVec.ofNat 5 p.val) = s.fab.ports[p.val] := by
    have hp : (BitVec.ofNat 5 p.val).toNat = p.val := by
      rw [BitVec.toNat_ofNat]
      omega
    simp [portAt, hp]
  rw [Vector.any_eq_true]
  simp only [hnum, hport]
  exact ⟨fun ⟨i, hi, h⟩ => ⟨⟨i, hi⟩, h⟩, fun ⟨p, h⟩ => ⟨p.val, p.isLt, h⟩⟩

theorem setDevid_eq (s : State) (v : W64) : s.setDevid v =
    if ∃ p : Fin 18, (portAt s (BitVec.ofNat 5 p.val)).state.toNat ∈ [1, 2, 3] then s
    else { s with mgmt := { s.mgmt with devid := v.extractLsb' 0 12 } } := by
  unfold State.setDevid
  by_cases h : (s.fab.ports.any fun p => p.state = 1 || p.state = 2 || p.state = 3) = true
  · rw [if_pos h, if_pos ((active_ports_iff s).1 h)]
  · rw [if_neg h, if_neg fun hp => h ((active_ports_iff s).2 hp)]
    rfl

theorem setTherm_eq (s : State) (v : W64) : s.setTherm v =
    if v.toNat % 256 ≤ v.toNat / 256 % 256 then s
    else { s with mgmt := { s.mgmt with thot := v.extractLsb' 0 8, trel := v.extractLsb' 8 8 } } := by
  have hhot : (v.extractLsb' 0 8).toNat = v.toNat % 256 := by simp
  have hrel : (v.extractLsb' 8 8).toNat = v.toNat / 256 % 256 := by simp [Nat.shiftRight_eq_div_pow]
  unfold State.setTherm
  simp only [hhot, hrel]
  rfl

/-- The order of the fields of a doorbell (R345). -/
theorem setHcqt_eq (s : State) (x : W32) : s.setHcqt x =
    if s.mgmt.hcq.enabled = true ∧ (x - s.mgmt.hcq.head).toNat ≤ s.mgmt.hcq.entries
    then { s with power := { s.power with idle := 0 }, mgmt := { s.mgmt with hcq := { s.mgmt.hcq with tail := x } } } else s := by
  unfold State.setHcqt
  by_cases h : s.mgmt.hcq.enabled = true ∧ (x - s.mgmt.hcq.head).toNat ≤ s.mgmt.hcq.entries
  · rw [if_pos h]
    exact if_neg (by simp [h.1, -BitVec.toNat_sub]; exact h.2)
  · rw [if_neg h]
    refine if_pos ?_
    by_cases he : s.mgmt.hcq.enabled = true
    · simp only [he, true_and, not_le] at h
      simpa [-BitVec.toNat_sub] using Or.inr h
    · simp [he]

/-! ### A request by the host (R321) -/

/-- A request of the management for a context. -/
def asked (x : Ctx) : Ctx :=
  { x with sch := { x.sch with reqs := if ReqKind.management ∈ x.sch.reqs then x.sch.reqs else x.sch.reqs ++ [.management] } }

/-- A change of what bears a name, which leaves names and lives. -/
theorem ctx?_mapCtx {s : State} {id : CtxId} {x : Ctx} {f : Ctx → Ctx} (hf : ∀ c, (f c).id = c.id ∧ (f c).sch.life = c.sch.life)
    (hx : s.ctx? id = some x) : (s.mapCtx (fun c => c.id = id) f).ctx? id = some (f x) := by
  let g (c : Ctx) : Ctx := if c.id = id then f c else c
  have hall : (s.mapCtx (fun c => c.id = id) f).allCtxs = s.allCtxs.map g := by
    simp [State.allCtxs, State.mapCtx, replaceIf, g]
  have hg : ∀ c, (g c).sch.life = c.sch.life ∧ (g c).id = c.id := by
    intro c
    simp only [g]
    split_ifs
    · exact ⟨(hf c).2, (hf c).1⟩
    · exact ⟨rfl, rfl⟩
  have hp : (fun c : Ctx => c.sch.life != Life.none && decide (c.id = id)) ∘ g =
      fun c => c.sch.life != Life.none && decide (c.id = id) := by
    funext c
    simp only [Function.comp, (hg c).1, (hg c).2]
  have hid : x.id = id := by
    have := List.find?_some hx
    simp only [Bool.and_eq_true, decide_eq_true_eq] at this
    exact this.2
  rw [State.ctx?, hall, List.find?_map, hp]
  rw [State.ctx?] at hx
  rw [hx, Option.map_some]
  exact congrArg some (if_pos hid)

section
variable {s : State} {id : CtxId}

theorem request_of_none (h : s.ctx? id = none) (k : ReqKind) : s.request id k = s := by
  unfold State.request
  rw [h]

theorem request_management_of_idle {x : Ctx} (h : s.ctx? id = some x) (hres : x.sch.life ≠ .resident) (hsav : x.sch.life ≠ .saving) :
    s.request id .management = s := by
  unfold State.request
  rw [h]
  dsimp only
  cases hl : x.sch.life
  case resident => exact absurd hl hres
  case saving => exact absurd hl hsav
  all_goals rfl

theorem request_management_of_resident {x : Ctx} (h : s.ctx? id = some x) (hres : x.sch.life = .resident) :
    s.request id .management = s.mapCtx (fun c => c.id = id) asked := by
  unfold State.request
  rw [h]
  dsimp only
  rw [hres]
  show s.addReq id .management = _
  unfold State.addReq
  congr 1
  funext c
  unfold asked
  by_cases hm : ReqKind.management ∈ c.sch.reqs <;> simp [hm]

end

/-! ### TIME (R38, R357) -/

theorem measured_measure (s : State) (d : Int) : Measured s (({ s with time := s.time.measure d } : State).rouse) d := by
  have hofs : (BitVec.ofInt 32 (max (-(2 ^ 31)) (min (2 ^ 31 - 1) d))).toInt = max (-2 ^ 31) (min (2 ^ 31 - 1) d) := by
    rw [BitVec.toInt_ofInt, Int.bmod_def]
    omega
  unfold Time.measure
  by_cases h : 1000000 < d
  · simp only [if_pos h]
    refine ⟨rfl, hofs, rfl, fun _ => ⟨?_, rfl⟩, fun hle => by omega⟩
    show ((s.time.elapsed / 105000 + (s.time.steps + d.toNat) : Nat) : Int) = ((s.time.elapsed / 105000 + s.time.steps : Nat) : Int) + d
    omega
  · simp only [if_neg h]
    refine ⟨rfl, hofs, rfl, fun hlt => absurd hlt h, fun _ => ⟨rfl, ?_⟩⟩
    exact Int.mul_comm d 105000

theorem portState_eq (s : State) (p : BitVec 5) : s.fab.portState p = (portAt s p).state := by
  unfold Fabric.portState portAt
  cases s.fab.ports[p.toNat]? <;> rfl

theorem timeSourcesRule : TimeSourcesRule := by
  intro s v d
  have hsrc : (v.setWidth 2 : BitVec 2) = 3#2 ↔ v.toNat % 4 = 3 := by
    rw [← BitVec.toNat_inj, BitVec.toNat_setWidth]
    rfl
  have hfree : v.setWidth 2 = (0 : BitVec 2) ↔ v.toNat % 4 = 0 := by
    rw [← BitVec.toNat_inj, BitVec.toNat_setWidth]
    rfl
  refine ⟨fun h => ?_, fun h => ?_, fun h => ?_, fun h => ⟨_, ?_, measured_measure s _⟩, fun hs hp => ⟨_, ?_, measured_measure s d⟩,
    fun h => ?_⟩
  · exact congrArg Host.Outcome.next (if_pos (hsrc.2 h))
  · refine congrArg Host.Outcome.next ((if_neg fun hr => h (hsrc.1 hr)).trans ?_)
    by_cases h0 : v.toNat % 4 = 0
    · simp only [if_pos h0]
      exact congrArg (fun x => ({ s with time := x } : State)) (if_pos (hfree.2 h0))
    · simp only [if_neg h0]
      exact congrArg (fun x => ({ s with time := x } : State)) (if_neg fun h => h0 (hfree.1 h))
  · exact congrArg Host.Outcome.next (if_neg h)
  · exact congrArg Host.Outcome.next (if_pos h)
  · refine congrArg Host.Outcome.next (if_pos ?_)
    simp [hs, portState_eq, hp]
  · refine congrArg Host.Outcome.next (if_neg ?_)
    rw [portState_eq]
    simpa [or_iff_not_imp_left] using h

/-! ### BAR0 writes by offset (R342, R344) -/

theorem writeBar_unsupported {s : State} {off n : Nat} {v : W64} (h : (n ≠ 4 ∧ n ≠ 8) ∨ off % n ≠ 0) : s.writeBar off n v = s :=
  if_pos (by simpa using h)

theorem writeBar_eight {s t : State} {off : Nat} {v : W64} (h : off % 8 = 0) (hfull : s.writeFull off v = some t) :
    s.writeBar off 8 v = t := by
  unfold State.writeBar
  rw [if_neg (by simp [h]), if_pos rfl, hfull]

/-- What a route or window entry's offset gives. -/
theorem assocD_putAssoc {α : Type} (d : α) (i k : Nat) (v : α) (l : List (Nat × α)) :
    assocD d k (putAssoc i v l) = if k = i then v else assocD d k l := by
  have hrest (hk : k ≠ i) : assocD d k (l.filter fun x => x.1 ≠ i) = assocD d k l := by
    induction l with
    | nil => rfl
    | cons x xs ih =>
      by_cases hx : x.1 = i
      · rw [List.filter_cons_of_neg (by simp [hx]), ih]
        exact (if_neg fun h => hk (h.symm.trans hx)).symm
      · rw [List.filter_cons_of_pos (by simpa using hx), assocD, assocD, ih]
  unfold putAssoc
  rw [assocD]
  by_cases hk : k = i
  · rw [if_pos hk, if_pos hk.symm]
  · rw [if_neg hk, if_neg (Ne.symm hk), hrest hk]

theorem writeFull_window (s : State) {i : Nat} (hi : i < 4096) (v : W64) : s.writeFull (0x20000 + 8 * i) v =
    some { s with fab := { s.fab with rat := putAssoc i (v &&& 0xE00000FFFFFFF000) s.fab.rat } } := by
  unfold State.writeFull
  split
  all_goals try omega
  next =>
    rw [if_pos (by simp; omega), show (0x20000 + 8 * i - 0x20000) / 8 = i by omega]

theorem writeLow_route (s : State) {off : Nat} (h : 0x10000 ≤ off) (v : W64) : s.writeLow off v = s := by
  unfold State.writeLow
  split
  all_goals try omega
  next => exact if_neg (by simp; omega)

theorem writeHigh_route (s : State) {off : Nat} (h : 0x2000 ≤ off) (v : W32) : s.writeHigh off v = s := by
  unfold State.writeHigh
  rw [if_neg (by omega), if_neg (by simp; omega)]

/-- A route entry is written, and packets choose their routes again (R332). -/
def routeSet (s : State) (i : Nat) (v : W32) : State :=
  { s with fab := { s.fab with rtab := putAssoc i (v &&& 0xC0001F1F) s.fab.rtab } }

theorem writeBar_route (s : State) {i : Nat} (hi : i < 4096) (v : W64) :
    s.writeBar (0x10000 + 4 * i) 4 v = (routeSet s i (v.extractLsb' 0 32)).reroute none := by
  have hentry : s.writeRtab (0x10000 + 4 * i) (v.setWidth 32) = (routeSet s i (v.extractLsb' 0 32)).reroute none := by
    unfold State.writeRtab
    rw [if_pos (by simp; omega), show (0x10000 + 4 * i - 0x10000) / 4 = i by omega]
    rfl
  unfold State.writeBar
  rw [if_neg (by simp), if_neg (by decide)]
  split_ifs
  · rw [writeLow_route _ (Nat.le_add_right ..), hentry]
  · rw [writeHigh_route _ (by omega), hentry]

theorem rerouted_reroute (s : State) (failed : Option (BitVec 5)) : Rerouted s (s.reroute failed) failed := by
  refine ⟨rfl, ?_, ?_⟩
  · refine congrArg (fun l => List.reverse l ++ s.fab.answers) (List.filter_congr fun a _ => ?_)
    exact (decide_not (p := s.fab.route a.1 1 = .wait)).symm
  · have hmap (x : Sent) : (if x.port.isNone || (failed.isSome && x.port = failed) then
          { x with port := (s.fab.route x.dst x.body.lane).out } else x) =
        if x.port = none ∨ (failed ≠ none ∧ x.port = failed) then { x with port := (s.fab.route x.dst x.body.lane).out } else x :=
      if_congr (by simp [Option.isSome_iff_ne_none]) rfl rfl
    refine (congrArg (List.filter _) (List.map_congr_left fun x _ => hmap x)).trans (List.filter_congr fun x _ => ?_)
    obtain ⟨seq, dst, port, body⟩ := x
    cases body with
    | forward lane bytes =>
      have hleaves (r : RouteTo) : (!(decide (r = .none) || port.isSome)) = decide (r ≠ .none ∧ port = none) := by
        cases port <;> simp
      exact hleaves (s.fab.route dst _)
    | _ => rfl


/-! ### The event queue (R346) -/

/-- The bytes of an event's entry. -/
def eventBytes (n : W32) (e : HostEvent) : List Byte :=
  toBytes 8 (n.toNat + e.1.toNat * 2 ^ 32) ++ toBytes 8 e.2.1.toNat ++ toBytes 8 e.2.2.1.toNat ++ toBytes 8 e.2.2.2.toNat ++
    List.replicate 32 0

theorem length_eventBytes (n : W32) (e : HostEvent) : (eventBytes n e).length = 64 := by simp [eventBytes, toBytes]

theorem leNat_append (a b : List Byte) : leNat (a ++ b) = leNat a + 2 ^ (8 * a.length) * leNat b := by
  induction a with
  | nil => simp [leNat]
  | cons x xs ih =>
    rw [List.cons_append, leNat, leNat, ih, List.length_cons, Nat.mul_succ, Nat.pow_add]
    ring

theorem leNat_eventBytes (n : W32) (e : HostEvent) : leNat (eventBytes n e) = eventWord n e := by
  have hword (x : Nat) : leNat (toBytes 8 x) = x % 2 ^ 64 := leNat_leBytes 8 x
  have hlen (x : Nat) : (toBytes 8 x).length = 8 := length_leBytes 8 x
  have hzero : leNat (List.replicate 32 0) = 0 := by decide
  unfold eventBytes eventWord
  simp only [leNat_append, List.length_append, hlen, hword, hzero]
  have h1 := e.2.1.isLt
  have h2 := e.2.2.1.isLt
  have h3 := e.2.2.2.isLt
  omega

theorem peek_congr {s t : State} {k n : Nat} (h : ∀ i < n, readByte t.mem (k + i) = readByte s.mem (k + i)) :
    t.peek k n = s.peek k n := by
  rw [State.peek, State.peek, readRun_eq_map, readRun_eq_map]
  exact List.map_congr_left fun i hi => h i (List.mem_range.1 hi)

section
variable (u : State) (k : Nat) (e : HostEvent)

theorem writeEvent_mgmt : (u.writeEvent k e).mgmt =
    { u.mgmt with evq := { u.mgmt.evq with tail := u.mgmt.evq.tail + 1 }, msix := u.mgmt.msix + 1 } := rfl

theorem writeEvent_mem : (u.writeEvent k e).mem = writeRun u.mem k (eventBytes u.mgmt.evq.tail e) := rfl

theorem peek_writeEvent : (u.writeEvent k e).peek k 64 = eventBytes u.mgmt.evq.tail e := by
  have h := readRun_writeRun_same u.mem k (eventBytes u.mgmt.evq.tail e)
  rwa [length_eventBytes] at h

theorem readByte_writeEvent {j : Nat} (h : j < k ∨ k + 64 ≤ j) : readByte (u.writeEvent k e).mem j = readByte u.mem j := by
  rw [writeEvent_mem, readByte_writeRun, dif_neg (by rw [length_eventBytes]; omega)]

theorem lineRecs_writeEvent : (u.writeEvent k e).lineRecs =
    { key := k, sco := 3, org := none, data := ofBytes 512 ((u.writeEvent k e).peek k 64) } ::
      u.lineRecs.filter fun x => x.key ≠ k := rfl

theorem find?_writeEvent_self : (u.writeEvent k e).lineRecs.find? (fun r => r.key = k) =
    some { key := k, sco := 3, org := none, data := ofBytes 512 ((u.writeEvent k e).peek k 64) } := by
  rw [lineRecs_writeEvent]
  exact List.find?_cons_of_pos (by simp)

theorem find?_writeEvent_ne {K : Nat} (h : k ≠ K) :
    (u.writeEvent k e).lineRecs.find? (fun r => r.key = K) = u.lineRecs.find? fun r => r.key = K := by
  rw [lineRecs_writeEvent, List.find?_cons_of_neg (by simpa using h), List.find?_filter]
  congr 1
  funext r
  by_cases hr : r.key = K
  · simp [hr, Ne.symm h]
  · simp [hr]

theorem ringKey_writeEvent (i : W32) (acc : Access) :
    (u.writeEvent k e).ringKey (u.writeEvent k e).mgmt.evq i acc = u.ringKey u.mgmt.evq i acc := rfl

end

/-- The key of the i-th entry from the tail of the event queue. -/
def eventKey (u : State) (i : Nat) : Option Nat := u.ringKey u.mgmt.evq (u.mgmt.evq.tail + BitVec.ofNat 32 i) Access.store

theorem tail_succ (x : W32) (i : Nat) : x + 1 + BitVec.ofNat 32 i = x + BitVec.ofNat 32 (i + 1) := by
  rw [BitVec.ofNat_add, BitVec.add_assoc, BitVec.add_comm (BitVec.ofNat 32 i)]
  rfl

theorem eventKey_writeEvent (u : State) (k : Nat) (e : HostEvent) (i : Nat) :
    eventKey (u.writeEvent k e) i = eventKey u (i + 1) := by
  rw [eventKey, ringKey_writeEvent, eventKey, ← tail_succ]
  rfl

/-- An entry lies in one line. -/
theorem eventKey_aligned {u : State} {i k : Nat} (h : eventKey u i = some k) : k % 64 = 0 := by
  unfold eventKey State.ringKey State.hostXlate at h
  split at h
  · exact absurd h (by simp [Except.toOption])
  · split_ifs at h
    · exact absurd h (by simp [Except.toOption])
    · obtain rfl := Option.some.inj h
      rw [hostKey, Ring.addr]
      omega

/-- How many entries the event queue has room for. -/
def eventRoom (u : State) : Nat := u.mgmt.evq.entries - (u.mgmt.evq.tail - u.mgmt.evq.head).toNat

/-- The first n of some events have been written, and the others are held. -/
structure FlushedBy (u t : State) (es : List HostEvent) (n : Nat) : Prop where
  le : n ≤ es.length
  room : n ≤ eventRoom u
  keys : ∀ i < n, (eventKey u i).isSome = true
  stops : n < es.length → n = eventRoom u ∨ eventKey u n = none
  mgmt : t.mgmt = { u.mgmt with
    evq := { u.mgmt.evq with tail := u.mgmt.evq.tail + BitVec.ofNat 32 n }
    held := es.drop n
    msix := u.mgmt.msix + n }
  frame : ∀ j, (∀ i < n, ∀ x, eventKey u i = some x → j < x ∨ x + 64 ≤ j) → readByte t.mem j = readByte u.mem j
  recs : ∀ K, (∀ i < n, eventKey u i ≠ some K) →
    t.lineRecs.find? (fun r => r.key = K) = u.lineRecs.find? (fun r => r.key = K)
  entry : ∀ i < n, ∀ e k, es[i]? = some e → eventKey u i = some k → (∀ j < n, i < j → eventKey u j ≠ some k) →
    leNat (t.peek k 64) = eventWord (u.mgmt.evq.tail + BitVec.ofNat 32 i) e ∧ DeviceRecord t k

/-- None of the events is written. -/
theorem flushedBy_holding {u : State} {es : List HostEvent} (h : es ≠ [] → eventRoom u = 0 ∨ eventKey u 0 = none) :
    FlushedBy u (u.modMgmt fun m => { m with held := es }) es 0 := by
  refine ⟨Nat.zero_le _, Nat.zero_le _, by simp, fun hlt => ?_, ?_, fun _ _ => rfl, fun _ _ => rfl, by simp⟩
  · exact (h (List.length_pos_iff.1 hlt)).imp_left Eq.symm
  · simp [State.modMgmt]

section
variable {u : State} (hen : u.mgmt.evq.enabled = true)
include hen

theorem eventPlace_eq_none (h : u.eventPlace = none) : eventRoom u = 0 ∨ eventKey u 0 = none := by
  unfold State.eventPlace at h
  by_cases hfull : u.mgmt.evq.full = true
  · left
    have : (u.mgmt.evq.tail - u.mgmt.evq.head).toNat = u.mgmt.evq.entries := by simpa [Ring.full] using hfull
    rw [eventRoom, this, Nat.sub_self]
  · right
    rw [if_pos (by simp [hen, hfull])] at h
    simpa [eventKey] using h

theorem eventPlace_eq_some (hroom : (u.mgmt.evq.tail - u.mgmt.evq.head).toNat ≤ u.mgmt.evq.entries) {k : Nat} (h : u.eventPlace = some k) :
    eventKey u 0 = some k ∧ (u.mgmt.evq.tail - u.mgmt.evq.head).toNat < u.mgmt.evq.entries := by
  unfold State.eventPlace at h
  split_ifs at h with hcond
  simp only [hen, Bool.true_and, Bool.not_eq_true', Ring.full, decide_eq_false_iff_not] at hcond
  exact ⟨by simpa [eventKey] using h, by omega⟩

end

/-- The room after an event that there was room for. -/
theorem eventRoom_writeEvent {u : State} (k : Nat) (e : HostEvent) (hen : u.mgmt.evq.enabled = true)
    (hroom : (u.mgmt.evq.tail - u.mgmt.evq.head).toNat < u.mgmt.evq.entries) :
    let v := u.writeEvent k e
    (v.mgmt.evq.tail - v.mgmt.evq.head).toNat ≤ v.mgmt.evq.entries ∧ eventRoom u = eventRoom v + 1 := by
  have hsmall : u.mgmt.evq.entries ≤ 2 ^ 16 := by
    simp only [Ring.enabled, Bool.and_eq_true, decide_eq_true_eq] at hen
    exact Nat.pow_le_pow_right (by decide) hen.1.1.2
  have hnext : (u.mgmt.evq.tail + 1 - u.mgmt.evq.head).toNat = (u.mgmt.evq.tail - u.mgmt.evq.head).toNat + 1 := by
    have hadd : u.mgmt.evq.tail + 1 - u.mgmt.evq.head = (u.mgmt.evq.tail - u.mgmt.evq.head) + 1 := by
      bv_omega
    rw [hadd, BitVec.toNat_add, Nat.mod_eq_of_lt]
    · rfl
    · show _ + 1 < _
      omega
  show (u.mgmt.evq.tail + 1 - u.mgmt.evq.head).toNat ≤ u.mgmt.evq.entries ∧
    u.mgmt.evq.entries - _ = u.mgmt.evq.entries - (u.mgmt.evq.tail + 1 - u.mgmt.evq.head).toNat + 1
  rw [hnext]
  omega

theorem flushedBy_cons {u t : State} {k n : Nat} {e : HostEvent} {es : List HostEvent} (hkey : eventKey u 0 = some k)
    (hroom : eventRoom u = eventRoom (u.writeEvent k e) + 1) (h : FlushedBy (u.writeEvent k e) t es n) :
    FlushedBy u t (e :: es) (n + 1) := by
  have hkeys (i : Nat) := eventKey_writeEvent u k e i
  obtain ⟨hle, hn, hsome, hstops, hmgmt, hframe, hrecs, hentry⟩ := h
  simp only [hkeys] at hsome hstops hframe hrecs hentry
  refine ⟨by simpa using hle, by omega, ?_, ?_, ?_, ?_, ?_, ?_⟩
  · rintro (_ | i) hi
    · rw [hkey]; rfl
    · exact hsome i (by omega)
  · intro hlt
    exact (hstops (by simpa using hlt)).imp_left fun h => by omega
  · rw [hmgmt, writeEvent_mgmt, List.drop_succ_cons]
    simp only [tail_succ, Nat.add_assoc, Nat.add_comm 1 n]
  · intro j hj
    rw [hframe j fun i hi x hx => hj (i + 1) (by omega) x hx]
    exact readByte_writeEvent u k e (hj 0 (by omega) k hkey)
  · intro K hK
    rw [hrecs K fun i hi => hK (i + 1) (by omega), find?_writeEvent_ne u k e fun hKk : k = K => hK 0 (by omega) (hKk ▸ hkey)]
  · rintro (_ | i) hi x y hx hy hlast
    · obtain rfl : e = x := Option.some.inj hx
      obtain rfl : k = y := Option.some.inj (hkey.symm.trans hy)
      have hlater (i : Nat) (hi : i < n) : eventKey u (i + 1) ≠ some k := hlast (i + 1) (by omega) (by omega)
      have hk64 := eventKey_aligned hkey
      have hpeek : t.peek k 64 = eventBytes u.mgmt.evq.tail e := by
        rw [← peek_writeEvent u k e]
        refine peek_congr fun j hj => hframe _ fun i hi x hx => ?_
        have hx64 := eventKey_aligned hx
        have hne : x ≠ k := fun h => hlater i hi (h ▸ hx)
        omega
      refine ⟨by rw [hpeek, leNat_eventBytes]; simp, ?_⟩
      rw [DeviceRecord, show lineOf k = k by unfold lineOf; omega, hrecs k hlater, find?_writeEvent_self, peek_writeEvent, hpeek]
    · rw [← tail_succ]
      exact hentry i (by omega) x y hx hy fun j hj hij => hlast (j + 1) (by omega) (by omega)

theorem flushEvents_flushedBy {u : State} (es : List HostEvent) (hen : u.mgmt.evq.enabled = true)
    (hroom : (u.mgmt.evq.tail - u.mgmt.evq.head).toNat ≤ u.mgmt.evq.entries) : ∃ n, FlushedBy u (u.flushEvents es) es n := by
  induction es generalizing u with
  | nil => exact ⟨0, flushedBy_holding (by simp)⟩
  | cons e es ih =>
    rw [State.flushEvents]
    split
    next k hk =>
      obtain ⟨hkey, hlt⟩ := eventPlace_eq_some hen hroom hk
      obtain ⟨hroom', hnext⟩ := eventRoom_writeEvent k e hen hlt
      obtain ⟨n, hn⟩ := ih (u := u.writeEvent k e) hen hroom'
      exact ⟨n + 1, flushedBy_cons hkey hnext hn⟩
    next hk => exact ⟨0, flushedBy_holding fun _ => eventPlace_eq_none hen hk⟩

/-- A disabled queue writes nothing. -/
theorem flushEvents_disabled {u : State} (hen : u.mgmt.evq.enabled = false) (es : List HostEvent) :
    u.flushEvents es = u.modMgmt fun m => { m with held := es } := by
  have hplace : u.eventPlace = none := by simp [State.eventPlace, hen]
  cases es with
  | nil => rfl
  | cons e es => rw [State.flushEvents, hplace]

/-- A write of the queue's base or of its head writes what was held, as far as it goes. -/
theorem flushes_flushEvents (s : State) (q : Ring) :
    Flushes s ((s.modMgmt fun m => { m with evq := q }).flushEvents s.mgmt.held) q := by
  refine ⟨fun hen => ?_, fun hen hroom => ?_⟩
  · rw [flushEvents_disabled hen]
    rfl
  · obtain ⟨n, h⟩ := flushEvents_flushedBy (u := s.modMgmt fun m => { m with evq := q }) s.mgmt.held hen hroom
    exact ⟨n, h.le, h.room, h.keys, h.stops, h.mgmt, h.entry, h.frame⟩

/-! ### The rules -/

theorem preqWrite_spec (s : State) (v : W64) :
    let c : CtxId := { rid := v.extractLsb' 32 32, num := v.extractLsb' 0 16 }
    let w : State := { s with power := { s.power with idle := 0 } }
    (s.ctx? c = none → Gives (.preqWrite v) s w) ∧
    (∀ x, s.ctx? c = some x → x.sch.life ≠ .resident → x.sch.life ≠ .saving → Gives (.preqWrite v) s w) ∧
    ∀ x, s.ctx? c = some x → x.sch.life = .resident → ∃ t, Gives (.preqWrite v) s t ∧ t.ctx? c = some (asked x) ∧
      t.mem = s.mem ∧ t.core = s.core ∧ t.power = w.power := by
  intro c w
  refine ⟨fun h => ?_, fun x h hres hsav => ?_, fun x h hres => ⟨w.mapCtx (fun d => d.id = c) asked, ?_,
    ctx?_mapCtx (s := w) (fun d => ⟨rfl, rfl⟩) h, rfl, rfl, rfl⟩⟩
  · exact congrArg Host.Outcome.next (request_of_none (s := w) h _)
  · exact congrArg Host.Outcome.next (request_management_of_idle (s := w) h hres hsav)
  · exact congrArg Host.Outcome.next (request_management_of_resident (s := w) h hres)

theorem hostRegistersRule : HostRegistersRule := by
  refine ⟨fun s v => ⟨⟨_, rfl, setDevid_eq s v⟩, ⟨_, rfl, setTherm_eq s v⟩, preqWrite_spec s v, rfl,
    ⟨_, rfl, flushes_flushEvents s _⟩, ⟨_, rfl, rfl⟩, ?_, rfl, fun i hi => ?_, fun i hi => ?_, fun off n h => ?_⟩,
    fun s x => ⟨⟨_, rfl, setHcqt_eq s x⟩, ⟨_, rfl, flushes_flushEvents s _⟩⟩, fun s up => ⟨rfl, fun _ => rfl, fun _ _ => rfl⟩⟩
  · intro e he t ht
    simp only [List.mem_cons, List.not_mem_nil, or_false] at he
    obtain rfl | rfl | rfl | rfl | rfl | rfl | rfl | rfl := he <;> exact ht
  · have hoff : (BitVec.ofNat 24 (0x20000 + 8 * i)).toNat = 0x20000 + 8 * i := by
      rw [BitVec.toNat_ofNat, Nat.mod_eq_of_lt (by omega)]
    refine ⟨{ s with fab := { s.fab with rat := putAssoc i (v &&& 0xE00000FFFFFFF000) s.fab.rat } }, ?_, rfl,
      fun k => assocD_putAssoc _ _ _ _ _⟩
    show Host.Outcome.next _ = _
    rw [hoff, writeBar_eight (by omega) (writeFull_window s hi v)]
  · have hoff : (BitVec.ofNat 24 (0x10000 + 4 * i)).toNat = 0x10000 + 4 * i := by
      rw [BitVec.toNat_ofNat, Nat.mod_eq_of_lt (by omega)]
    refine ⟨(routeSet s i (v.extractLsb' 0 32)).reroute none, routeSet s i (v.extractLsb' 0 32), ?_, rfl, rfl,
      fun k => assocD_putAssoc _ _ _ _ _, rerouted_reroute (routeSet s i (v.extractLsb' 0 32)) none⟩
    show Host.Outcome.next _ = _
    rw [hoff, writeBar_route s hi v]
  · exact congrArg Host.Outcome.next (writeBar_unsupported h)

/-- Settles O45: each register by what the model's write of it does, the event queue by induction on the events that are held. -/
theorem hostInterface : Obligations.HostInterface := ⟨hostRegistersRule, timeSourcesRule⟩

end Sys2Proof.Proofs.HostInterface
end

section
open Sys2Proof Sys2Proof.Machine
namespace Sys2Proof.Proofs.Frames
open Lines Accesses

/-! ### What a memory access leaves of the context, the bundle and the package -/

/-- Nothing of the context but its watch and what it waits for changes, nor what the bundle reads, nor the core's number. -/
structure Still (s t : State) : Prop where
  same : SameContext s t
  pre : t.pre = s.pre
  num : t.core.num = s.core.num

theorem Still.refl (s : State) : Still s s := ⟨⟨rfl, rfl, rfl, rfl, rfl, rfl, rfl, rfl⟩, rfl, rfl⟩

theorem sameContext_trans {s t u : State} (h : SameContext s t) (k : SameContext t u) : SameContext s u := by
  obtain ⟨hreg, htime, hpow, hboot, hmgmt⟩ := h.package
  obtain ⟨kreg, ktime, kpow, kboot, kmgmt⟩ := k.package
  exact ⟨by rw [k.ctx, h.ctx], k.waits.trans h.waits, by rw [k.bundle, h.bundle], kreg.trans hreg, ktime.trans htime,
    kpow.trans hpow, kboot.trans hboot, by rw [kmgmt, hmgmt]⟩

theorem Still.trans {s t u : State} (h : Still s t) (k : Still t u) : Still s u :=
  ⟨sameContext_trans h.same k.same, k.pre.trans h.pre, k.num.trans h.num⟩

theorem Still.me {s t : State} (h : Still s t) : t.me = s.me := congrArg BitVec.toNat h.num

/-- A state that differs in the homes and the cores alone. -/
theorem still_of_eq {s t : State} (hctx : t.ctx = s.ctx) (hiss : t.iss = s.iss) (hreg : t.regions = s.regions)
    (htime : t.time = s.time) (hpow : t.power = s.power) (hboot : t.boot = s.boot) (hmgmt : t.mgmt = s.mgmt) (hpre : t.pre = s.pre)
    (hnum : t.core.num = s.core.num) : Still s t :=
  ⟨⟨by rw [hctx], by rw [hctx], by rw [hiss], hreg, htime, hpow, hboot, by rw [hmgmt]⟩, hpre, hnum⟩

section
variable (s : State)

theorem still_putCore (c : Core) : Still s (s.putCore c) := by
  unfold State.putCore
  split_ifs with h
  · exact still_of_eq rfl rfl rfl rfl rfl rfl rfl rfl h.symm
  · exact still_of_eq rfl rfl rfl rfl rfl rfl rfl rfl rfl
  · exact still_of_eq rfl rfl rfl rfl rfl rfl rfl rfl rfl

theorem wakeCtx_still (k n : Nat) (c : Ctx) :
    wakeCtx k n c = { c with watch := (wakeCtx k n c).watch, remote := (wakeCtx k n c).remote } ∧
      (wakeCtx k n c).remote = c.remote := by
  unfold wakeCtx
  split
  · split_ifs <;> exact ⟨rfl, rfl⟩
  · exact ⟨rfl, rfl⟩

theorem still_wake (k n : Nat) : Still s (s.wake k n) := by
  obtain ⟨hctx, hrem⟩ := wakeCtx_still k n s.ctx
  exact ⟨⟨hctx, congrArg _ hrem, rfl, rfl, rfl, rfl, rfl, rfl⟩, rfl, rfl⟩

theorem still_poke (k : Nat) (bs : List Byte) : Still s (s.poke k bs) :=
  (still_wake s k bs.length).trans (still_of_eq rfl rfl rfl rfl rfl rfl rfl rfl rfl)

theorem still_pokeLine (k : Nat) (d : BitVec 512) (m : BitVec 64) : Still s (s.pokeLine k d m) := by
  unfold State.pokeLine
  split_ifs
  · exact .refl s
  · exact (still_wake s k 64).trans (still_of_eq rfl rfl rfl rfl rfl rfl rfl rfl rfl)

theorem still_recordLine (k : Nat) (m : Option Mark) : Still s (s.recordLine k m) := by
  cases m with
  | none => exact .refl s
  | some m => exact still_of_eq rfl rfl rfl rfl rfl rfl rfl rfl rfl

theorem still_perform (k : Nat) (d : BitVec 512) (m : BitVec 64) (x : Option Mark) : Still s (s.perform k d m x) :=
  (still_pokeLine s k d m).trans (still_recordLine _ k x)

theorem still_freshSeq : Still s s.freshSeq.2 := still_of_eq rfl rfl rfl rfl rfl rfl rfl rfl rfl

theorem still_send (d : BitVec 12) (p : Packet) : Still s (s.send d p).2 := still_of_eq rfl rfl rfl rfl rfl rfl rfl rfl rfl

theorem still_addFlight (n : Nat) (f : Nat → Flight) : Still s (s.addFlight n f) := (still_freshSeq s).trans (still_putCore _ _)

theorem still_toHome (n : Nat) (id : CtxId) (wb : Bool) (ba a : W64) (k : Nat) (d : BitVec 512) (m : BitVec 64)
    (x : Option Mark) : Still s (s.toHome n id wb ba a k d m x) := by
  unfold State.toHome
  dsimp only
  split_ifs
  · exact .refl s
  · exact still_addFlight s _ _
  · exact (still_send s _ _).trans (still_addFlight _ _ _)
  · exact still_addFlight s _ _
  · exact still_addFlight s _ _
  · exact still_perform s _ _ _ _

theorem noteLeft_still (n : Nat) (l : Line) (c : Ctx) :
    c.noteLeft n l = { c with watch := (c.noteLeft n l).watch, remote := (c.noteLeft n l).remote } ∧
      (c.noteLeft n l).remote.map (fun r : Remote => { r with left := [] }) = c.remote.map fun r : Remote => { r with left := [] } := by
  unfold Ctx.noteLeft
  split_ifs
  · refine ⟨rfl, ?_⟩
    cases c.remote with
    | none => rfl
    | some r => simp only [Option.map_some]; split_ifs <;> rfl
  · exact ⟨rfl, rfl⟩

theorem still_noteLine (n : Nat) (l : Line) : Still s (noteLine s n l) := by
  obtain ⟨hctx, hrem⟩ := noteLeft_still n l s.ctx
  unfold noteLine
  split_ifs
  · exact ⟨⟨hctx, hrem, rfl, rfl, rfl, rfl, rfl, rfl⟩, rfl, rfl⟩
  · exact .refl s

theorem still_writeBack (n : Nat) (l : Line) : Still s (s.writeBack n l) := by
  rw [writeBack_eq]
  exact ((still_noteLine s n l).trans (still_toHome _ _ _ _ _ _ _ _ _ _)).trans (still_putCore _ _)

theorem still_wakeInvalid (n k : Nat) : Still s (s.wakeInvalid n k) := by
  unfold State.wakeInvalid
  dsimp only
  by_cases h : s.ctx.core.toNat = n
  · obtain ⟨hctx, hrem⟩ := wakeCtx_still (s.homeOf k) 64 s.ctx
    rw [if_pos h]
    exact ⟨⟨hctx, congrArg _ hrem, rfl, rfl, rfl, rfl, rfl, rfl⟩, rfl, rfl⟩
  · rw [if_neg h]
    exact still_of_eq rfl rfl rfl rfl rfl rfl rfl rfl rfl

theorem still_invalidate (n k : Nat) : Still s (s.invalidate n k) := by
  unfold State.invalidate
  dsimp only
  split_ifs
  · exact (still_putCore s _).trans (still_wakeInvalid _ n k)
  · exact .refl s

theorem still_evict (n k : Nat) : Still s (s.evict n k) := by
  unfold State.evict
  split
  · split_ifs
    · exact still_writeBack s n _
    · exact (still_writeBack s n _).trans (still_invalidate _ n k)
  · exact .refl s

theorem still_foldl {α : Type} {f : State → α → State} (h : ∀ s x, Still s (f s x)) (xs : List α) (s : State) :
    Still s (xs.foldl f s) := by
  induction xs generalizing s with
  | nil => exact .refl s
  | cons x xs ih => exact (h s x).trans (ih _)

theorem still_unalias (n k : Nat) : Still s (s.unalias n k) := still_foldl (fun s (l : Line) => still_evict s n l.key) _ s

theorem still_land (n : Nat) (f : Flight) (hk : Nat) : Still s (s.land n f hk) := by
  unfold State.land
  dsimp only
  refine (still_putCore s { s.coreAt n with flight := (s.coreAt n).flight.filter fun g => g.seq ≠ f.seq }).trans ?_
  split_ifs
  · exact still_perform _ _ _ _ _
  · exact (still_putCore _ _ : Still _ (State.dropOld _ n f.key f.mask)).trans (still_perform _ _ _ _ _)

theorem still_settleOne (n : Nat) (f : Flight) : Still s (s.settleOne n f) := by
  unfold State.settleOne
  split
  · split_ifs
    · exact .refl s
    · exact still_land s n f _
  · exact .refl s

theorem still_settle (n : Nat) (id : CtxId) (k : Nat) : Still s (s.settle n id k) :=
  still_foldl (fun s f => still_settleOne s n f) _ s

theorem still_approach (p : Place) : Still s (s.approach p) := by
  cases p with
  | pool c k => exact still_settle s _ _ _
  | far k => exact .refl s
  | home k cached =>
    refine (still_unalias s s.me (lineOf k)).trans (Still.trans ?_ (still_settle _ _ _ _))
    split_ifs
    · exact .refl _
    · exact still_evict _ _ _

theorem still_approachAll (ps : List (Elem × Place)) : Still s (s.approachAll ps) :=
  still_foldl (fun s (p : Elem × Place) => still_approach s p.2) ps s

theorem still_makeRoom (n : Nat) : Still s (s.makeRoom n).1 := by
  unfold State.makeRoom
  dsimp only
  split
  · exact .refl s
  · split
    · exact still_evict s n _
    · exact .refl s

theorem still_cachePut (n : Nat) (id : CtxId) (va : W64) (k : Nat) (d : BitVec 512) (m : BitVec 64) (dirty : Bool)
    (mark : Option Mark) : Still s (s.cachePut n id va k d m dirty mark) := by
  unfold State.cachePut
  dsimp only
  split
  · exact still_putCore s _
  · exact (still_makeRoom s n).trans (still_putCore _ _)

theorem still_joined (a : W64) (k : Nat) (cached : Bool) (d : BitVec 512) (m : BitVec 64) : Still s (joined s a k cached d m) := by
  unfold joined
  split_ifs
  · exact still_cachePut s _ _ _ _ _ _ _ _
  · exact .refl s

/-- A read of a line at its home or in the cache role leaves the state, or joins the line to the cache role. -/
theorem readPlace_home (k n : Nat) (cached : Bool) (a : W64) :
    (s.readPlace (.home k cached) a n).2 = s ∨ ∃ d m, (s.readPlace (.home k cached) a n).2 = joined s a k cached d m := by
  by_cases hm : maskOf (k % 64) n &&& ~~~heldOf (if cached then s.lineSeen (lineOf k) else none) = 0
  · exact .inl (congrArg Prod.snd (readPlace_of_held s a k n cached rfl hm))
  · cases hv : s.homeView (lineOf k) with
    | ask => exact .inl (congrArg Prod.snd (readPlace_of_ask s a k n cached rfl hm hv))
    | line d bad => exact .inr ⟨_, _, congrArg Prod.snd (readPlace_of_line s a k n cached rfl hm hv)⟩
    | refused =>
      refine .inl ?_
      rw [State.readPlace]
      refine (congrArg Prod.snd (if_neg hm)).trans ?_
      rw [hv]

theorem still_readPlace (p : Place) (a : W64) (n : Nat) : Still s (s.readPlace p a n).2 := by
  cases p with
  | pool c k => exact .refl s
  | far k => exact .refl s
  | home k cached =>
    rcases readPlace_home s k n cached a with h | ⟨d, m, h⟩
    · rw [h]; exact .refl s
    · rw [h]; exact still_joined s a k cached d m

theorem still_noteAddr (a : W64) : Still s (s.noteAddr a) := by
  unfold State.noteAddr
  split
  · unfold State.noteTrans
    split
    · exact still_of_eq rfl rfl rfl rfl rfl rfl rfl rfl rfl
    · exact .refl s
  · unfold State.noteHost
    split_ifs
    · exact .refl s
    · split
      · exact .refl s
      · exact ⟨⟨rfl, rfl, rfl, rfl, rfl, rfl, rfl, rfl⟩, rfl, rfl⟩
  · exact .refl s

theorem still_noteElems (es : List Elem) : Still s (s.noteElems es) :=
  still_foldl (fun s (e : Elem) => still_noteAddr s e.addr) es s

/-- A store past the cache role marks in the bundle that it has one in flight. -/
theorem still_fly (a : W64) (k n x : Nat) (mark : Option Mark) : Still s (s.fly a k n x mark) := by
  have hway : Still s ((s.unalias s.me (lineOf k)).evict s.me (lineOf k)) := (still_unalias s _ _).trans (still_evict _ _ _)
  unfold State.fly
  dsimp only
  generalize (s.unalias s.me (lineOf k)).evict s.me (lineOf k) = v at hway ⊢
  refine hway.trans ?_
  split_ifs <;> exact ⟨⟨rfl, rfl, rfl, rfl, rfl, rfl, rfl, rfl⟩, rfl, rfl⟩

theorem still_writePlace (p : Place) (a : W64) (n x : Nat) (mark : Option Mark) : Still s (s.writePlace p a n x mark) := by
  cases p with
  | pool c k => exact (still_poke s k _).trans (still_recordLine _ _ _)
  | far k => exact still_fly s a k n x mark
  | home k cached =>
    cases cached with
    | false => exact still_fly s a k n x mark
    | true => exact (still_unalias s s.me (lineOf k)).trans (still_cachePut _ _ _ _ _ _ _ _ _)

end
end Sys2Proof.Proofs.Frames
end

section
open Sys2Proof Sys2Proof.Machine
namespace Sys2Proof.Proofs.StorePlaces
open MemoryBytes Lines Accesses Frames

/-! ### The bytes of a store in a line -/

/-- The datum of a store as the line of its key holds it. -/
def lineDatum (k n x : Nat) : BitVec 512 := BitVec.ofNat 512 (x % 2 ^ (8 * n) * 2 ^ (8 * (k % 64)))

theorem lineByte_lineDatum {k n : Nat} (hkn : k % 64 + n ≤ 64) (x : Nat) {i : Nat} (hi : i < n) :
    lineByte (lineDatum k n x) (k % 64 + i) = BitVec.ofNat 8 (x / 2 ^ (8 * i)) := by
  have hlt : x % 2 ^ (8 * n) * 2 ^ (8 * (k % 64)) < 2 ^ 512 := by
    calc x % 2 ^ (8 * n) * 2 ^ (8 * (k % 64)) < 2 ^ (8 * n) * 2 ^ (8 * (k % 64)) :=
          Nat.mul_lt_mul_of_pos_right (Nat.mod_lt _ (Nat.two_pow_pos _)) (Nat.two_pow_pos _)
      _ = 2 ^ (8 * n + 8 * (k % 64)) := (Nat.pow_add ..).symm
      _ ≤ 2 ^ 512 := Nat.pow_le_pow_right (by omega) (by omega)
  rw [lineByte_eq, lineDatum, BitVec.toNat_ofNat, Nat.mod_eq_of_lt hlt, Nat.mul_add, Nat.pow_add, ← Nat.div_div_eq_div_mul,
    Nat.mul_div_cancel _ (Nat.two_pow_pos _)]
  refine BitVec.eq_of_toNat_eq ?_
  rw [BitVec.toNat_ofNat, BitVec.toNat_ofNat, show 8 * n = 8 * i + (8 + 8 * (n - i - 1)) by omega, Nat.pow_add,
    Nat.mod_mul_right_div_self, Nat.pow_add, Nat.mod_mul_right_mod]

theorem getLsbD_maskOf_own {k n : Nat} (hkn : k % 64 + n ≤ 64) {i : Nat} (hi : i < n) :
    (maskOf (k % 64) n).getLsbD (k % 64 + i) = true := by
  rw [getLsbD_maskOf (by omega)]
  simp [hi]

theorem inLine_lineDatum {k n : Nat} (hkn : k % 64 + n ≤ 64) (x : Nat) : InLine (lineDatum k n x) (maskOf (k % 64) n) k n x :=
  fun _ hi => ⟨getLsbD_maskOf_own hkn hi, lineByte_lineDatum hkn x hi⟩

/-- The datum stands in every line that it is merged into, under every mask that takes in its own. -/
theorem inLine_mergeLine {k n : Nat} (hkn : k % 64 + n ≤ 64) (x : Nat) (old : BitVec 512) (m : BitVec 64) :
    InLine (mergeLine old (lineDatum k n x) (maskOf (k % 64) n)) (m ||| maskOf (k % 64) n) k n x := by
  intro i hi
  rw [lineByte_mergeLine _ _ _ (by omega), if_pos (getLsbD_maskOf_own hkn hi), lineByte_lineDatum hkn x hi]
  refine ⟨?_, rfl⟩
  rw [BitVec.getLsbD_or, getLsbD_maskOf_own hkn hi, Bool.or_true]

/-! ### A store in a scratchpad -/

section
variable (s : State) (c k n x : Nat) (a : W64)

theorem mem_writePlace_pool : (s.writePlace (.pool c k) a n x none).mem = writeRun s.mem k (leBytes n x) := rfl

theorem readByte_writePlace_pool (j : Nat) : readByte (s.writePlace (.pool c k) a n x none).mem j =
    if k ≤ j ∧ j < k + n then BitVec.ofNat 8 (x / 2 ^ (8 * (j - k))) else readByte s.mem j := by
  rw [mem_writePlace_pool, readByte_writeRun]
  by_cases h : k ≤ j ∧ j < k + n
  · rw [if_pos h, dif_pos ⟨h.1, by rw [length_leBytes]; omega⟩]
    simp only [leBytes_eq_map, List.getElem_map, List.getElem_range]
  · rw [if_neg h, dif_neg]
    rw [length_leBytes]
    omega

theorem storeAt_pool : StoreAt s (s.writePlace (.pool c k) a n x none) (.pool c k) n x none := by
  refine ⟨⟨?_, fun j hj => ?_⟩, rfl, rfl⟩
  · have hpeek := peek_poke s k (leBytes n x)
    rw [length_leBytes] at hpeek
    rw [← leNat_leBytes, ← hpeek]
    rfl
  · rw [readByte_writePlace_pool, if_neg (by omega)]

end

/-! ### A store through the cache role -/

theorem putCore_own {s : State} {c : Core} (h : c.num = s.core.num) : s.putCore c = { s with core := c } := if_pos h.symm

theorem coreAt_of_me {s : State} {n : Nat} (h : s.me = n) : s.coreAt n = s.core := if_pos h

/-- The lines of the core acted on bear no key that they did not bear before. -/
structure NoNewKeys (s t : State) : Prop where
  num : t.core.num = s.core.num
  keys : ∀ l ∈ t.core.cache, ∃ m ∈ s.core.cache, m.key = l.key

theorem NoNewKeys.refl (s : State) : NoNewKeys s s := ⟨rfl, fun l hl => ⟨l, hl, rfl⟩⟩

theorem NoNewKeys.trans {s t u : State} (h : NoNewKeys s t) (k : NoNewKeys t u) : NoNewKeys s u :=
  ⟨k.num.trans h.num, fun l hl => by
    obtain ⟨m, hm, hml⟩ := k.keys l hl
    obtain ⟨m', hm', hm'l⟩ := h.keys m hm
    exact ⟨m', hm', hm'l.trans hml⟩⟩

theorem noNewKeys_of_cache {s t : State} (hnum : t.core.num = s.core.num) (hcache : t.core.cache = s.core.cache) : NoNewKeys s t :=
  ⟨hnum, fun l hl => ⟨l, hcache ▸ hl, rfl⟩⟩

theorem noNewKeys_of_core {s t : State} (h : t.core = s.core) : NoNewKeys s t := noNewKeys_of_cache (by rw [h]) (by rw [h])

theorem findLine_of_noNewKeys {s t : State} (h : NoNewKeys s t) {k : Nat} (hk : s.core.findLine k = none) :
    t.core.findLine k = none := by
  rw [Core.findLine, List.find?_eq_none] at hk ⊢
  intro l hl
  obtain ⟨m, hm, hml⟩ := h.keys l hl
  rw [← hml]
  exact hk m hm

section
variable (s : State) {n : Nat}

theorem noNewKeys_addFlight (hn : s.me = n) (f : Nat → Flight) : NoNewKeys s (s.addFlight n f) := by
  have hadd : s.addFlight n f = s.freshSeq.2.putCore { s.core with flight := s.core.flight ++ [f s.freshSeq.1] } :=
    congrArg (fun c : Core => s.freshSeq.2.putCore { c with flight := c.flight ++ [f s.freshSeq.1] }) (coreAt_of_me hn)
  rw [hadd, putCore_own]
  · exact noNewKeys_of_cache rfl rfl
  · rfl

theorem core_perform (k : Nat) (d : BitVec 512) (m : BitVec 64) (x : Option Mark) : (s.perform k d m x).core = s.core := by
  have hline : ∀ u : State, (u.recordLine k x).core = u.core := fun u => by cases x <;> rfl
  rw [State.perform, hline, State.pokeLine]
  split_ifs <;> rfl

theorem noNewKeys_toHome (hn : s.me = n) (id : CtxId) (wb : Bool) (ba a : W64) (k : Nat) (d : BitVec 512) (m : BitVec 64)
    (x : Option Mark) : NoNewKeys s (s.toHome n id wb ba a k d m x) := by
  have hsend (e : BitVec 12) (p : Packet) : (s.send e p).2.me = n := hn
  unfold State.toHome
  dsimp only
  split_ifs
  · exact .refl s
  · exact noNewKeys_addFlight s hn _
  · exact .trans (t := (s.send _ _).2) (noNewKeys_of_core rfl) (noNewKeys_addFlight _ (hsend _ _) _)
  · exact noNewKeys_addFlight s hn _
  · exact noNewKeys_addFlight s hn _
  · exact noNewKeys_of_core (core_perform s _ _ _ _)

theorem core_noteLine (l : Line) : (noteLine s n l).core = s.core := by
  unfold noteLine
  split_ifs <;> rfl

theorem noNewKeys_cleanLine (hn : s.me = n) (l : Line) : NoNewKeys s (cleanLine s n l) := by
  rw [cleanLine, coreAt_of_me hn, putCore_own (by rfl)]
  refine ⟨rfl, fun m hm => ?_⟩
  simp only [replaceIf, List.mem_map] at hm
  obtain ⟨m', hm', rfl⟩ := hm
  refine ⟨m', hm', ?_⟩
  split_ifs <;> rfl

theorem NoNewKeys.me {s t : State} (h : NoNewKeys s t) : t.me = s.me := congrArg BitVec.toNat h.num

theorem noNewKeys_writeBack (hn : s.me = n) (l : Line) : NoNewKeys s (s.writeBack n l) := by
  rw [writeBack_eq]
  have hnote : NoNewKeys s (noteLine s n l) := noNewKeys_of_core (core_noteLine s l)
  have hhome := hnote.trans (noNewKeys_toHome (noteLine s n l) (hnote.me.trans hn) l.by_ true 0 l.va l.key l.data l.dirty l.mark)
  exact hhome.trans (noNewKeys_cleanLine _ (hhome.me.trans hn) l)

theorem noNewKeys_invalidate (hn : s.me = n) (k : Nat) : NoNewKeys s (s.invalidate n k) := by
  rw [State.invalidate, coreAt_of_me hn]
  split_ifs
  · rw [putCore_own]
    · exact ⟨rfl, fun l hl => ⟨l, List.mem_of_mem_filter hl, rfl⟩⟩
    · rfl
  · exact .refl s

theorem noNewKeys_evict (hn : s.me = n) (k : Nat) : NoNewKeys s (s.evict n k) := by
  unfold State.evict
  split
  · next l _ =>
    have hback := noNewKeys_writeBack s hn l
    split_ifs
    · exact hback
    · exact hback.trans (noNewKeys_invalidate _ (hback.me.trans hn) k)
  · exact .refl s

theorem noNewKeys_makeRoom (hn : s.me = n) : NoNewKeys s (s.makeRoom n).1 := by
  unfold State.makeRoom
  dsimp only
  split
  · exact .refl s
  · split
    · exact noNewKeys_evict s hn _
    · exact .refl s

end

theorem findLine_replaceIf {c : Core} {k : Nat} {l m : Line} (hl : c.findLine k = some l) (hm : m.key = k) :
    ({ c with cache := replaceIf (fun x : Line => decide (x.key = k)) (fun _ => m) c.cache } : Core).findLine k = some m := by
  simp only [Core.findLine, replaceIf] at hl ⊢
  generalize c.cache = ls at hl ⊢
  induction ls with
  | nil => cases hl
  | cons x xs ih =>
    by_cases hx : x.key = k
    · simp [hx, hm]
    · rw [List.find?_cons, decide_eq_false hx] at hl
      rw [List.map_cons, if_neg (by simp [hx]), List.find?_cons, decide_eq_false hx]
      exact ih hl

theorem cachePut_of_line {s : State} {n : Nat} (hn : s.me = n) (id : CtxId) (va : W64) {k : Nat} (d : BitVec 512) (m : BitVec 64)
    {l : Line} (hl : s.core.findLine k = some l) :
    (s.cachePut n id va k d m true none).mem = s.mem ∧ ∃ l', (s.cachePut n id va k d m true none).core.findLine k = some l' ∧
      l'.data = mergeLine l.data d m ∧ l'.held = l.held ||| m ∧ l'.dirty = l.dirty ||| m := by
  have hkey : l.key = k := by simpa using List.find?_some hl
  rw [State.cachePut, coreAt_of_me hn]
  simp only [hl, if_true]
  rw [putCore_own]
  · exact ⟨rfl, _, findLine_replaceIf hl hkey, rfl, rfl, rfl⟩
  · rfl

theorem findLine_append {c : Core} {l : Line} (hl : c.findLine l.key = none) :
    ({ c with cache := c.cache ++ [l] } : Core).findLine l.key = some l := by
  simp only [Core.findLine] at hl ⊢
  rw [List.find?_append, hl]
  simp

theorem cachePut_of_no_line {s : State} {n : Nat} (hn : s.me = n) (id : CtxId) (va : W64) {k : Nat} (d : BitVec 512) (m : BitVec 64)
    (hl : s.core.findLine k = none) :
    ∃ l, (s.cachePut n id va k d m true none).core.findLine k = some l ∧ l.data = d ∧ l.held = m ∧ l.dirty = m := by
  have hroom := noNewKeys_makeRoom s hn
  have hnone := findLine_of_noNewKeys hroom hl
  rw [State.cachePut, coreAt_of_me hn]
  simp only [hl, if_true]
  rw [coreAt_of_me (hroom.me.trans hn), putCore_own]
  · exact ⟨_, findLine_append hnone, rfl, rfl, rfl⟩
  · rfl

/-- No store of the context, and no write-back of the core, is on its way to the home of a key. -/
theorem underway_eq_nil {u : State} {c : Nat} (hc : u.me = c) (j : Nat) : u.underway c u.ctx.id j = [] ↔
    ∀ g ∈ u.core.flight, g.ctx = u.ctx.id ∨ g.wb = true → u.homeOf g.key ≠ u.homeOf j := by
  rw [State.underway, coreAt_of_me hc, List.filter_eq_nil_iff]
  simp only [Bool.and_eq_true, Bool.or_eq_true, decide_eq_true_eq, not_and]

section
variable (s : State) {k n : Nat} (hkn : k % 64 + n ≤ 64) (x : Nat) (a : W64)
include hkn

theorem storeAt_cached : StoreAt s (s.writePlace (.home k true) a n x none) (.home k true) n x none := by
  have hme : (s.unalias s.me (lineOf k)).me = s.me := (still_unalias s s.me (lineOf k)).me
  have hput : s.writePlace (.home k true) a n x none = (s.unalias s.me (lineOf k)).cachePut s.me s.ctx.id
      (a - BitVec.ofNat 64 (k % 64)) (lineOf k) (lineDatum k n x) (maskOf (k % 64) n) true none := rfl
  rw [hput]
  unfold StoreAt
  simp only [State.beforeStore, Bool.false_eq_true, if_false]
  cases hl : (s.unalias s.me (lineOf k)).core.findLine (lineOf k) with
  | some l =>
    obtain ⟨hmem, l', hfind, hdata, hheld, hdirty⟩ := cachePut_of_line hme s.ctx.id (a - BitVec.ofNat 64 (k % 64)) (lineDatum k n x)
      (maskOf (k % 64) n) hl
    refine ⟨l', hfind, ?_, ?_, by simp, fun _ => hmem⟩
    · rw [hdata, hheld]; exact inLine_mergeLine hkn x _ _
    · rw [hdata, hdirty]; exact inLine_mergeLine hkn x _ _
  | none =>
    obtain ⟨l', hfind, hdata, hheld, hdirty⟩ := cachePut_of_no_line hme s.ctx.id (a - BitVec.ofNat 64 (k % 64)) (lineDatum k n x)
      (maskOf (k % 64) n) hl
    refine ⟨l', hfind, ?_, ?_, by simp, fun h => by cases h⟩
    · rw [hdata, hheld]; exact inLine_lineDatum hkn x
    · rw [hdata, hdirty]; exact inLine_lineDatum hkn x

/-! ### A store past the cache role -/

theorem flies_fly (mark : Option Mark) : Flies (s.beforeStore k true) (s.fly a k n x mark) k n x mark := by
  have hbefore : (s.unalias s.me (lineOf k)).evict s.me (lineOf k) = s.beforeStore k true := rfl
  unfold State.fly
  rw [hbefore]
  dsimp only
  generalize s.beforeStore k true = u
  have hcond : (u.isAway k && decide (u.underway u.me u.ctx.id (lineOf k) = [])) = true ↔
      (k / 2 ^ 60 = 4 ∧ devOf (BitVec.ofNat 64 k) ≠ u.mgmt.devid) ∧
        ∀ g ∈ u.core.flight, g.ctx = u.ctx.id ∨ g.wb = true → u.homeOf g.key ≠ u.homeOf (lineOf k) := by
    rw [Bool.and_eq_true, decide_eq_true_eq, underway_eq_nil rfl, State.isAway, Bool.and_eq_true, decide_eq_true_eq,
      decide_eq_true_eq]
  by_cases h : (u.isAway k && decide (u.underway u.me u.ctx.id (lineOf k) = [])) = true
  · rw [if_pos h]
    exact ⟨rfl, _, rfl, rfl, rfl, rfl, rfl, inLine_lineDatum hkn x, iff_of_true rfl (hcond.1 h)⟩
  · rw [if_neg h]
    exact ⟨rfl, _, rfl, rfl, rfl, rfl, rfl, inLine_lineDatum hkn x, iff_of_false Bool.false_ne_true fun hc => h (hcond.2 hc)⟩

end

/-- A store inside one line does at its place what its rule says. -/
theorem storeAt_writePlace (s : State) {p : Place} {n : Nat} (hkn : p.key % 64 + n ≤ 64) (x : Nat) (a : W64) :
    StoreAt s (s.writePlace p a n x none) p n x none := by
  cases p with
  | pool c k => exact storeAt_pool s c k n x a
  | far k => exact flies_fly s hkn x a none
  | home k cached =>
    cases cached with
    | false => exact flies_fly s hkn x a none
    | true => exact storeAt_cached s hkn x a

/-! ### The stores of a list of elements -/

section
variable (n : Nat) (val : Nat → Nat)

theorem writes_writeElems {ps : List (Elem × Place)} (hps : ∀ x ∈ ps, x.2.key % 64 + n ≤ 64) (s : State) :
    Writes n val ps s (State.writeElems n val ps s) := by
  induction ps generalizing s with
  | nil => exact .done s
  | cons x ps ih =>
    obtain ⟨hx, hps⟩ := List.forall_mem_cons.1 hps
    exact .next x.1 x.2 ps s _ _ (storeAt_writePlace s hx _ _) (ih hps _)

theorem still_writeElems (ps : List (Elem × Place)) (s : State) : Still s (State.writeElems n val ps s) :=
  still_foldl (fun s (p : Elem × Place) => still_writePlace s p.2 p.1.addr n (val p.1.i) none) ps s

/-- Every place is a byte of a scratchpad. -/
def InPools (ps : List (Elem × Place)) : Prop := ∀ x ∈ ps, ∃ c k, x.2 = .pool c k

variable {n val}

theorem readByte_writeElems_outside {ps : List (Elem × Place)} (hps : InPools ps) (s : State) {j : Nat}
    (hj : ∀ x ∈ ps, j < x.2.key ∨ x.2.key + n ≤ j) : readByte (State.writeElems n val ps s).mem j = readByte s.mem j := by
  induction ps generalizing s with
  | nil => rfl
  | cons x ps ih =>
    obtain ⟨⟨c, k, hx⟩, hrest⟩ := List.forall_mem_cons.1 hps
    obtain ⟨hjx, hjrest⟩ := List.forall_mem_cons.1 hj
    obtain ⟨e, p⟩ := x
    obtain rfl : p = .pool c k := hx
    have hjk : j < k ∨ k + n ≤ j := hjx
    refine (ih hrest (s.writePlace (.pool c k) e.addr n (val e.i) none) hjrest).trans ?_
    rw [readByte_writePlace_pool, if_neg (by omega)]

theorem leNat_peek_congr {s t : State} {k : Nat} (h : ∀ i < n, readByte t.mem (k + i) = readByte s.mem (k + i)) :
    t.peek k n = s.peek k n := by
  rw [State.peek, State.peek, readRun_eq_map, readRun_eq_map]
  exact List.map_congr_left fun i hi => h i (List.mem_range.1 hi)

theorem writeElems_append (ps qs : List (Elem × Place)) (s : State) :
    State.writeElems n val (ps ++ qs) s = State.writeElems n val qs (State.writeElems n val ps s) := List.foldl_append

theorem peek_writeElems {l r : List (Elem × Place)} {e : Elem} {p : Place} (hps : InPools (l ++ (e, p) :: r)) (s : State)
    (hr : ∀ x ∈ r, x.2.key + n ≤ p.key ∨ p.key + n ≤ x.2.key) :
    leNat ((State.writeElems n val (l ++ (e, p) :: r) s).peek p.key n) = val e.i % 2 ^ (8 * n) := by
  obtain ⟨⟨c, k, hp⟩, hpr⟩ := List.forall_mem_cons.1 (List.forall_mem_append.1 hps).2
  obtain rfl : p = .pool c k := hp
  rw [writeElems_append]
  generalize State.writeElems n val l s = u
  obtain ⟨⟨hat, -⟩, -⟩ := storeAt_pool u c k n (val e.i) e.addr
  rw [← hat]
  refine congrArg leNat (leNat_peek_congr fun i hi => ?_)
  exact readByte_writeElems_outside hpr _ fun x hx => by
    have : x.2.key + n ≤ k ∨ k + n ≤ x.2.key := hr x hx
    show k + i < x.2.key ∨ x.2.key + n ≤ k + i
    omega

theorem storedAll_writeElems {s u : State} (hmem : u.mem = s.mem) (ps : List (Elem × Place)) :
    StoredAll s (State.writeElems n val ps u) n ps val := by
  refine fun hps => ⟨fun j hj => ?_, ?_⟩
  · rw [readByte_writeElems_outside hps u hj, hmem]
  · rintro l e p r rfl hr
    exact peek_writeElems hps u hr

end

theorem mem_noteElems (es : List Elem) (s : State) : (s.noteElems es).mem = s.mem := by
  induction es generalizing s with
  | nil => rfl
  | cons e es ih =>
    refine (ih (s.noteAddr e.addr)).trans ?_
    unfold State.noteAddr
    split
    · unfold State.noteTrans
      split <;> rfl
    · unfold State.noteHost
      split_ifs
      · rfl
      · split <;> rfl
    · rfl

end Sys2Proof.Proofs.StorePlaces
end

section
open Sys2Proof Sys2Proof.Machine
namespace Sys2Proof.Proofs.VectorMemories
open Lines Accesses Frames StorePlaces

/-! ### The checks of a list of elements that all pass -/

/-- The misalignment that a check is given fails no element. -/
theorem checkElems_of_pass {s : State} {acc : Access} {n : Nat} {ps : List (Elem × Place)} (h : AllPass s acc n ps) :
    s.checkElems acc n false (ps.map (·.1)) = .ok ps := by
  have hrs : ((ps.map (·.1)).map fun e => (e, s.checkElem acc n false e)) = ps.map fun x => (x.1, Except.ok x.2) := by
    rw [List.map_map]
    refine List.map_congr_left fun x hx => ?_
    rw [Function.comp_apply, checkElem_false, h x hx]
  unfold State.checkElems
  simp [hrs, List.filterMap_map]

/-! ### Loads -/

theorem readElems_of_reads {n : Nat} {ps : List (Elem × Place)} {s s1 : State} {vs : List (Nat × Nat × Bool)}
    (h : Reads n ps s vs s1) : State.readElems n ps s = (.ok vs, s1) := by
  induction h with
  | done s => rfl
  | next e p rest s x bad s1 vs s2 hread _ ih =>
    simp only [State.readElems, hread, ih]
    rfl

theorem still_of_reads {n : Nat} {ps : List (Elem × Place)} {s s1 : State} {vs : List (Nat × Nat × Bool)}
    (h : Reads n ps s vs s1) : Still s s1 := by
  induction h with
  | done s => exact .refl s
  | next e p rest s x bad s1 vs s2 hread _ ih =>
    have hstill := still_readPlace s p e.addr n
    rw [hread] at hstill
    exact hstill.trans ih

theorem pre_of_reads {s s1 : State} {n : Nat} {ps : List (Elem × Place)} {es : List Elem} {vs : List (Nat × Nat × Bool)}
    (hreads : Reads n ps ((s.approachAll ps).noteElems es) vs s1) : s1.clearRemote.pre = s.pre :=
  (((still_approachAll s ps).trans (still_noteElems _ _)).trans (still_of_reads hreads)).pre

/-- The elements that a vector load writes: those it has read, and zero for the others, poisoned where the guard is. -/
def loadedElems (vs : List (Nat × Nat × Bool)) (bad : Bool) (i : Nat) : Option (Nat × Bool) :=
  match vs.find? fun v => v.1 = i with
  | some v => some (v.2.1, v.2.2 || bad)
  | none => some (0, bad)

theorem loadedElems_eq (vs : List (Nat × Nat × Bool)) (bad : Bool) :
    (fun j => let v := valueAt vs j; some (v.1, v.2 || bad)) = loadedElems vs bad := by
  funext j
  unfold valueAt loadedElems
  cases vs.find? fun v => decide (v.1 = j) <;> simp

section
variable {s s1 : State} {n : Nat} {ps : List (Elem × Place)} {vs : List (Nat × Nat × Bool)}
  (hpass : AllPass s Access.load n ps) (hfree : ∀ x ∈ ps, Walks s x.1.addr ∧ Free (s.approachAll ps) x.2 n)
  (hreads : Reads n ps ((s.approachAll ps).noteElems (ps.map (·.1))) vs s1)
include hpass hfree hreads

/-- A load whose elements pass their checks and can be read gives what it reads. -/
theorem loadWith_of_reads (i : Instr) (done : State → List (Nat × Nat × Bool) → State) (fail : State → Fail → Out) :
    s.loadWith i n false (ps.map (·.1)) done fail = .next (done s1.clearRemote vs) := by
  have hwalk : s.waits (s.walkHeld (ps.map (·.1)) (.ok ps)) = false := walkHeld_ok fun e he => by
    obtain ⟨x, hx, rfl⟩ := List.mem_map.1 he
    exact (hfree x hx).1
  have hheld : (s.approachAll ps).waits (ps.any fun p => (s.approachAll ps).heldRead p.2 n) = false := by
    refine waits_of_free ?_
    by_cases hr : (s.approachAll ps).iss.ready = true
    · exact .inl hr
    · refine .inr (List.any_eq_false.2 fun x hx => ?_)
      rw [(hfree x hx).2.resolve_left hr]
      exact Bool.false_ne_true
  simp only [State.loadWith, checkElems_of_pass hpass, hwalk, hheld, readElems_of_reads hreads, Bool.false_eq_true, if_false]
  rfl

theorem vecLoad_spec (i : Instr) (vd : R6) (pg : R5) (t : BitVec 4) (hn : n = tyWidth t / 8) :
    ∃ u, s.vecLoad i vd pg t false (ps.map (·.1)) = .next u ∧ OnlyVector (physV s.pre.c vd) s1.clearRemote u ∧
      VectorWrites s1 u (physV s.pre.c vd) (tyWidth t) (loadedElems vs (s.psP pg)) := by
  subst hn
  have hpre := pre_of_reads hreads
  have hpsP : s1.clearRemote.psP pg = s.psP pg := by rw [State.psP, State.psP, hpre]
  unfold State.vecLoad State.load
  rw [loadWith_of_reads hpass hfree hreads]
  refine ⟨_, rfl, ?_, ?_⟩
  · rw [← hpre]
    exact wrV_only _ _ _ _ _
  · rw [← hpre, ← hpsP, ← loadedElems_eq]
    exact wrE_writes s1.clearRemote vd (tyWidth t) _ _ (tyWidth_mem t) rfl

end

theorem vld_clean {s : State} {o : LV} (h : s.psS o.sa = false ∧ s.psS o.sx = false) :
    exec (.vld o) s = s.vecLoad (.vld o) o.vd o.pg o.t false (elemsAt s o.pg o.t (unitAddr s o)) := by
  refine if_neg ?_
  simp [h.1, h.2]

theorem vlds_clean {s : State} {o : LV} (h : s.psS o.sa = false ∧ s.psS o.sx = false) (hmis : skewed s o = false) :
    exec (.vlds o) s = s.vecLoad (.vlds o) o.vd o.pg o.t false (elemsAt s o.pg o.t (strideAddr s o)) := by
  rw [← misBase_skewed] at hmis
  show execVlds o s = _
  unfold execVlds
  dsimp only
  rw [hmis]
  refine if_neg ?_
  simp [h.1, h.2]

theorem poisonMask_eq_zero {s : State} {r : R6} {pg : R5} {t : BitVec 4}
    (h : ∀ i < tyCount t, (s.rdP pg).getLsbD (i * (tyWidth t / 8)) = true → (s.psV r).getLsbD (i * tyWidth t / 64) = false) :
    s.poisonMask r pg t = 0 := by
  by_contra hm
  obtain ⟨j, hj⟩ := ne_zero_iff_testBit.1 hm
  obtain ⟨k, hk, rfl, hon, hpois⟩ := (testBit_poisonMask s r pg t j).1 hj
  rw [h k hk hon] at hpois
  cases hpois

theorem vgth_clean {s : State} {o : LG} (h : s.psS o.sa = false) (hm : s.poisonMask o.vb o.pg o.t = 0) :
    exec (.vgth o) s = s.vecLoad (.vgth o) o.vd o.pg o.t false (elemsAt s o.pg o.t (indexAddr s o)) := by
  refine if_neg ?_
  rw [hm]
  simp [h]

theorem skewed_eq_false {s : State} {o : LV} (h : (s.rdS o.sa + o.off.signExtend 64).toNat % (tyWidth o.t / 8) = 0 ∧
    (s.rdS o.sx).toNat % (tyWidth o.t / 8) = 0) : skewed s o = false := by
  rw [skewed, h.1, h.2]
  rfl

theorem pld_spec {s s1 : State} {o : LV} {p : Place} {x : Nat} {bad : Bool} (hsa : s.psS o.sa = false) (hsx : s.psS o.sx = false)
    (hp : s.resolve s.me s.rid (s.lvBase o) 32 Access.load = .ok p) (hw : Walks s (s.lvBase o)) (hfree : Free (s.approach p) p 32)
    (hread : ((s.approach p).noteElems [{ i := 0, addr := s.lvBase o }]).readPlace p (s.lvBase o) 32 = (.val x bad, s1)) :
    ∃ u, Gives (.pld o) s u ∧ OnlyPred (physP s.pre.c (o.vd.setWidth 5)) s1.clearRemote u ∧
      ((o.vd.setWidth 5 : R5) ≠ 0 → u.pNow (physP s.pre.c (o.vd.setWidth 5)) = BitVec.ofNat 256 x ∧
        u.pPoison (physP s.pre.c (o.vd.setWidth 5)) = bad) := by
  have hpass : AllPass s Access.load 32 [({ i := 0, addr := s.lvBase o }, p)] := by simpa [AllPass] using hp
  have hall : ∀ x ∈ [(({ i := 0, addr := s.lvBase o } : Elem), p)],
      Walks s x.1.addr ∧ Free (s.approachAll [({ i := 0, addr := s.lvBase o }, p)]) x.2 32 := by
    simp only [List.mem_singleton, forall_eq]
    exact ⟨hw, hfree⟩
  have hreads : Reads 32 [(({ i := 0, addr := s.lvBase o } : Elem), p)]
      ((s.approachAll [({ i := 0, addr := s.lvBase o }, p)]).noteElems [{ i := 0, addr := s.lvBase o }]) [(0, x, bad)] s1 :=
    .next _ _ _ _ _ _ _ _ _ hread (.done s1)
  have hpre := pre_of_reads hreads
  refine ⟨s1.clearRemote.wrP (o.vd.setWidth 5) (BitVec.ofNat 256 x) bad (s.latOf [{ i := 0, addr := s.lvBase o }] 32 true), ?_, ?_, ?_⟩
  · refine (if_neg (by simp [hsa, hsx])).trans ?_
    exact loadWith_of_reads hpass hall hreads _ _ _
  · rw [← hpre]
    exact wrP_only _ _ _ _ _
  · rw [← hpre]
    exact fun hd => ⟨wrP_pNow _ _ _ _ _ hd, wrP_pPoison _ _ _ _ _ hd⟩

theorem vectorLoadsRule : VectorLoadsRule := by
  refine ⟨?_, fun s s1 o p x bad hsa hsx hp hw hfree hread => pld_spec hsa hsx hp hw hfree hread⟩
  intro s s1 o g ps vs form
  match form with
  | 0 =>
    intro t pg vd n es hclean _ v hes hpass hfree hreads
    rw [← hes] at hreads
    obtain ⟨u, hu, honly, hwrites⟩ := vecLoad_spec hpass hfree hreads (.vld o) o.vd o.pg o.t rfl
    rw [hes] at hu
    exact ⟨u, (vld_clean hclean).trans hu, honly, hwrites⟩
  | 1 =>
    intro t pg vd n es hclean hmis v hes hpass hfree hreads
    rw [← hes] at hreads
    obtain ⟨u, hu, honly, hwrites⟩ := vecLoad_spec hpass hfree hreads (.vlds o) o.vd o.pg o.t rfl
    rw [hes] at hu
    exact ⟨u, (vlds_clean hclean (skewed_eq_false (hmis rfl))).trans hu, honly, hwrites⟩
  | 2 =>
    intro t pg vd n es hclean _ v hes hpass hfree hreads
    rw [← hes] at hreads
    obtain ⟨u, hu, honly, hwrites⟩ := vecLoad_spec hpass hfree hreads (.vgth g) g.vd g.pg g.t rfl
    rw [hes] at hu
    exact ⟨u, (vgth_clean hclean.1 (poisonMask_eq_zero hclean.2)).trans hu, honly, hwrites⟩

/-! ### Stores -/

section
variable {s : State} {n : Nat} {ps : List (Elem × Place)} (hpass : AllPass s Access.store n ps) (hfree : FreeStores s ps)
include hpass hfree

/-- A store whose elements pass their checks and are not held stores them in their order. -/
theorem store_of_pass (w : Nat) (val : Nat → Nat) :
    s.store w n false (ps.map (·.1)) val = .next (State.writeElems n val ps (s.noteElems (ps.map (·.1)))) := by
  have hwalk : s.waits (s.walkHeld (ps.map (·.1)) (.ok ps)) = false := walkHeld_ok fun e he => by
    obtain ⟨x, hx, rfl⟩ := List.mem_map.1 he
    exact hfree.imp_right fun h => (h x hx).2
  have hheld : s.waits (ps.any fun p => s.heldWrite p.2) = false := by
    refine waits_of_free (hfree.imp_right fun h => List.any_eq_false.2 fun x hx => ?_)
    rw [(h x hx).1]
    exact Bool.false_ne_true
  simp only [State.store, checkElems_of_pass hpass, hwalk, hheld, Bool.false_eq_true, if_false]

/-- What a vector store has done once its elements are stored. -/
theorem store_spec (hin : ∀ x ∈ ps, x.2.key % 64 + n ≤ 64) (w : Nat) (val : Nat → Nat) :
    ∃ u, s.store w n false (ps.map (·.1)) val = .next u ∧ SameContext s u ∧ Writes n val ps (s.noteElems (ps.map (·.1))) u ∧
      StoredAll s u n ps val :=
  ⟨_, store_of_pass hpass hfree w val, ((still_noteElems s _).trans (still_writeElems n val ps _)).same,
    writes_writeElems n val hin _, storedAll_writeElems (mem_noteElems _ s) ps⟩

end

theorem vecStore_clean {s : State} {vd : R6} {pg : R5} {t : BitVec 4} {badAddr : Bool} {idx : Nat} (hpg : s.psP pg = false)
    (hvd : s.poisonMask vd pg t = 0) (hidx : idx = 0) (haddr : badAddr = false) (mis : Bool) (es : List Elem) :
    s.vecStore vd pg t badAddr idx mis es = s.store (tyWidth t) (tyWidth t / 8) mis es fun i => s.rdE vd t i := by
  refine if_neg ?_
  simp [haddr, hpg, hvd, hidx]

/-- An element of a vector lies inside one line. -/
theorem elem_inside_line (t : BitVec 4) {k : Nat} (hk : k % (tyWidth t / 8) = 0) : k % 64 + tyWidth t / 8 ≤ 64 := by
  have hw := tyWidth_mem t
  generalize tyWidth t = w at *
  simp only [List.mem_cons, List.not_mem_nil, or_false] at hw
  rcases hw with rfl | rfl | rfl | rfl | rfl | rfl <;> omega

theorem vectorStoresRule : VectorStoresRule := by
  refine ⟨?_, ?_⟩
  · intro s o g ps form
    match form with
    | 0 =>
      intro t pg vd n es clean hpg hvd hclean _ hes hpass hfree hin val
      obtain ⟨u, hu, hrest⟩ := store_spec hpass hfree (fun x hx => elem_inside_line t (hin x hx)) (tyWidth t) val
      rw [hes] at hu hrest
      exact ⟨u, (vecStore_clean hpg (poisonMask_eq_zero hvd) rfl (by simp [hclean.1, hclean.2]) _ _).trans hu, hrest⟩
    | 1 =>
      intro t pg vd n es clean hpg hvd hclean hmis hes hpass hfree hin val
      obtain ⟨u, hu, hrest⟩ := store_spec hpass hfree (fun x hx => elem_inside_line t (hin x hx)) (tyWidth t) val
      rw [hes] at hu hrest
      refine ⟨u, (vecStore_clean hpg (poisonMask_eq_zero hvd) rfl (by simp [hclean.1, hclean.2]) _ _).trans ?_, hrest⟩
      rw [misBase_skewed, skewed_eq_false (hmis rfl)]
      exact hu
    | 2 =>
      intro t pg vd n es clean hpg hvd hclean _ hes hpass hfree hin val
      obtain ⟨u, hu, hrest⟩ := store_spec hpass hfree (fun x hx => elem_inside_line t (hin x hx)) (tyWidth t) val
      rw [hes] at hu hrest
      exact ⟨u, (vecStore_clean hpg (poisonMask_eq_zero hvd) (poisonMask_eq_zero hclean.2) hclean.1 _ _).trans hu, hrest⟩
  · intro s o p hsa hsx hpd a hp hfree hin
    have hpass : AllPass s Access.store 32 [({ i := 0, addr := a }, p)] := by simpa [AllPass] using hp
    have hline : p.key % 64 + 32 ≤ 64 := by omega
    obtain ⟨u, hu, hsame, hwrites, -⟩ := store_spec hpass hfree (by simpa using hline) 0 fun _ => (s.rdP (o.vd.setWidth 5)).toNat
    refine ⟨u, (if_neg ?_).trans hu, hsame, ?_⟩
    · simp [hsa, hsx, LV_pd, hpd]
    · cases hwrites with
      | next _ _ _ _ _ _ hat hrest =>
        cases hrest
        exact hat

/-- Settles O17: loads by their reads one after another, stores by the store of each element at its place. -/
theorem vectorMemory : Obligations.VectorMemory := ⟨vectorLoadsRule, vectorStoresRule⟩

end Sys2Proof.Proofs.VectorMemories
end

section
open Sys2Proof Sys2Proof.Machine
namespace Sys2Proof.Proofs.VectorRounding

/-! ### Draws (R31, R90) -/

/-- The state after n draws: the generator has made n steps, and RNG shows it unless an MTC of the bundle has written RNG. -/
def afterDraws (s : State) (n : Nat) : State :=
  { s with
    iss := { s.iss with rng := rngStep^[n] s.iss.rng }
    ctx := { s.ctx with c := { s.ctx.c with
      rng := if s.iss.rngSet ∨ n = 0 then s.ctx.c.rng else rngStep^[n] s.iss.rng } } }

theorem afterDraws_zero (s : State) : afterDraws s 0 = s := by simp [afterDraws]

theorem draw_eq (s : State) : s.draw = (rngStep s.iss.rng, afterDraws s 1) := by
  cases h : s.iss.rngSet
  · simp [State.draw, afterDraws, State.modIss, State.modCtl, h]
  · simp [State.draw, afterDraws, State.modIss, h]

theorem afterDraws_succ (s : State) (n : Nat) : afterDraws (afterDraws s 1) n = afterDraws s (n + 1) := by
  cases h : s.iss.rngSet <;> by_cases h0 : n = 0 <;> simp [afterDraws, h, h0]

theorem draws_eq (n : Nat) (s : State) :
    State.draws n s = ((List.range n).map fun i => rngStep^[i + 1] s.iss.rng, afterDraws s n) := by
  induction n generalizing s with
  | zero => rw [afterDraws_zero]; rfl
  | succ n ih =>
    rw [State.draws, draw_eq, ih, afterDraws_succ, List.range_succ_eq_map, List.map_cons, List.map_map]
    rfl

/-! ### The modes of the active elements -/

/-- The elements that a test chooses, each with what their count before it chooses. -/
theorem zip_filter_range {β : Type} (on : Nat → Bool) (g : Nat → β) (n : Nat) :
    ((List.range n).filter on).zip ((List.range ((List.range n).countP on)).map g) =
      ((List.range n).filter on).map fun i => (i, g ((List.range i).countP on)) := by
  induction n with
  | zero => rfl
  | succ n ih =>
    have hlen : ((List.range n).filter on).length = ((List.range ((List.range n).countP on)).map g).length := by
      rw [List.length_map, List.length_range, List.countP_eq_length_filter]
    rw [List.range_succ, List.filter_append, List.countP_append, List.map_append, ← ih]
    by_cases hn : on n = true
    · rw [List.filter_cons_of_pos hn, List.countP_cons_of_pos hn, List.filter_nil, List.countP_nil, Nat.zero_add, List.range_succ,
        List.map_append, List.zip_append hlen]
      rfl
    · rw [List.filter_cons_of_neg hn, List.countP_cons_of_neg hn, List.filter_nil, List.countP_nil, Nat.add_zero, List.append_nil,
        List.map_nil, List.append_nil]

theorem drawBits_eq (x : W64) : drawBits x = x.toNat / 2 ^ 40 := by
  rw [drawBits, bits]
  have := x.isLt
  omega

theorem descRnd_of_valid {d : W32} (h : descValid d = true) : descRnd d < 3 := by
  have hlt : descRnd d < 4 := by
    rw [descRnd, bits]
    exact Nat.mod_lt _ (by decide)
  have hne : descRnd d ≠ 3 := by
    simp only [descValid, Bool.and_eq_true, decide_eq_true_eq] at h
    tauto
  omega

section
variable {s : State} {o : VR} {n : Nat} {on : Nat → Bool} {m : Nat → RMode} {sr : Bool}

/-- The selection of a rounding code, and the modes and draws that it makes of the active elements. -/
theorem modes_of (h : ModesOf s o n on m sr) : ∃ sel, s.rmSel o = some sel ∧
    s.modes sel ((List.range n).filter on) = (((List.range n).filter on).map fun i => (i, m i),
      afterDraws s (if sr then (List.range n).countP on else 0)) := by
  obtain ⟨hrm, hdesc, hsr, hm⟩ := h
  have hlen : ((List.range n).filter on).length = (List.range n).countP on := List.countP_eq_length_filter.symm
  have hact (g : Nat → RMode) (hg : ∀ i < n, m i = g i) :
      (((List.range n).filter on).map fun i => (i, g i)) = ((List.range n).filter on).map fun i => (i, m i) :=
    List.map_congr_left fun i hi => by rw [hg i (List.mem_range.1 (List.mem_of_mem_filter hi))]
  have hstoch (hs : sr = true) : s.modes .stoch ((List.range n).filter on) = (((List.range n).filter on).map fun i => (i, m i),
      afterDraws s (if sr then (List.range n).countP on else 0)) := by
    simp only [hs, if_true] at hm ⊢
    rw [State.modes, hlen, draws_eq, ← hact _ hm]
    simp only [List.map_map, zip_filter_range, Function.comp_def, drawBits_eq]
  have hfixed (hs : sr = false) {r : RMode} (hr : ∀ i < n, m i = r) : s.modes (.fixed r) ((List.range n).filter on) =
      (((List.range n).filter on).map fun i => (i, m i), afterDraws s (if sr then (List.range n).countP on else 0)) := by
    rw [hs, if_neg Bool.false_ne_true, afterDraws_zero, State.modes, hact _ hr]
  have hsplit : o.rm.toNat = 4 ∨ o.rm.toNat = 5 ∨ o.rm.toNat < 4 := by omega
  rcases hsplit with h4 | h5 | hlt
  · have hs : sr = true := by rw [hsr, BitVec.eq_of_toNat_eq (y := 4) h4]; rfl
    exact ⟨.stoch, by rw [State.rmSel, h4]; rfl, hstoch hs⟩
  · have hrm5 : o.rm = 5 := BitVec.eq_of_toNat_eq h5
    have hv := hdesc hrm5
    have hsel : s.rmSel o = some (rndSel (vget s.pre.r.f o.fr.toNat)) := by
      rw [State.rmSel, h5]
      exact if_pos hv
    have hrnd := descRnd_of_valid hv
    rw [hsel]
    generalize vget s.pre.r.f o.fr.toNat = d at hsr hm hrnd
    refine ⟨_, rfl, ?_⟩
    interval_cases hd : descRnd d
    · have hs : sr = false := by rw [hsr, hrm5]; rfl
      rw [rndSel, hd]
      exact hfixed hs fun i hi => by rw [hm i hi, hs, hrm5]; rfl
    · have hs : sr = false := by rw [hsr, hrm5]; rfl
      rw [rndSel, hd]
      exact hfixed hs fun i hi => by rw [hm i hi, hs, hrm5]; rfl
    · rw [rndSel, hd]
      exact hstoch (by rw [hsr, hrm5]; rfl)
  · have h4 : o.rm ≠ 4 := fun h => by simp [h] at hlt
    have h5 : o.rm ≠ 5 := fun h => by simp [h] at hlt
    have hs : sr = false := by rw [hsr, beq_false_of_ne h4, beq_false_of_ne h5]; rfl
    refine ⟨.fixed (modeOf o.rm.toNat), ?_, hfixed hs fun i hi => ?_⟩
    · unfold State.rmSel
      split
      · omega
      · omega
      · rfl
    · rw [hm i hi, hs, if_neg Bool.false_ne_true, if_neg h5]

end

/-! ### The results of the active elements -/

theorem roundedAt_map {l : List Nat} {i : Nat} (hi : i ∈ l) (f : Nat → Nat × BitVec 5) :
    roundedAt (l.map fun j => (j, f j)) i = (f i).1 := by
  have hfind : (l.map fun j => (j, f j)).find? (fun r => r.1 = i) = some (i, f i) := by
    induction l with
    | nil => cases hi
    | cons j l ih =>
      rw [List.map_cons, List.find?_cons]
      by_cases hj : j = i
      · simp [hj]
      · rw [decide_eq_false hj]
        exact ih ((List.mem_cons.1 hi).resolve_left (Ne.symm hj))
  rw [roundedAt, hfind]

theorem getLsbD_orFlags (l : List (BitVec 5)) (b : Nat) : (orFlags l).getLsbD b = true ↔ ∃ x ∈ l, x.getLsbD b = true := by
  have hfold (y : BitVec 5) : (l.foldl (· ||| ·) y).getLsbD b = true ↔ y.getLsbD b = true ∨ ∃ x ∈ l, x.getLsbD b = true := by
    induction l generalizing y with
    | nil => simp
    | cons x l ih => rw [List.foldl_cons, ih, BitVec.getLsbD_or]; simp [or_assoc]
  rw [orFlags, hfold]
  simp

/-- The OR of the flags of the active ones of n elements. -/
theorem getLsbD_orFlags_active (on : Nat → Bool) (n : Nat) (f : Nat → Nat × BitVec 5) (b : Nat) :
    (orFlags ((((List.range n).filter on).map fun i => (i, f i)).map (·.2.2))).getLsbD b = true ↔
      ∃ j < n, on j = true ∧ (f j).2.getLsbD b = true := by
  rw [getLsbD_orFlags]
  simp [List.mem_filter, and_assoc]

/-! ### A vector write, its flags, and the note of a division -/

theorem onlyVector_afterDraws {s t : State} {d k : Nat} (h : OnlyVector d (afterDraws s k) t) : OnlyVector d s t := by
  have hworld : SameWorld s (afterDraws s k) :=
    ⟨⟨fun _ => rfl, rfl, rfl, rfl, rfl⟩, ⟨rfl, rfl, rfl, rfl, rfl, rfl, rfl, rfl, rfl, rfl⟩, rfl, rfl, rfl, rfl⟩
  have hunits : SameUnits s (afterDraws s k) := ⟨rfl, rfl, rfl, rfl, rfl, rfl, rfl, rfl, rfl, rfl, rfl, rfl, rfl, rfl⟩
  obtain ⟨hb, hg, hf, hft⟩ := h.special
  exact ⟨hworld.trans h.world, hunits.trans h.units, by rw [h.control]; rfl, h.sequencer, ⟨hb, hg, hf, hft⟩, h.scalars, h.vectors,
    h.preds, h.events, h.board, by rw [h.bundle]; rfl, h.free⟩

theorem flagsSent_raise (s t : State) (fl : BitVec 5) {lat : Nat} (hlat : 0 < lat) (hev : t.ctx.events = s.ctx.events)
    (hslot : t.iss.slot = s.iss.slot) (hba : t.iss.ba = s.iss.ba) (hcycle : t.core.cycle = s.core.cycle) :
    FlagsSent s (t.raise fl lat) fl := by
  have hcond : (decide (fl = 0) && decide (5 ≤ t.iss.slot)) = true ↔ fl = 0 ∧ 5 ≤ s.iss.slot := by simp [hslot]
  unfold FlagsSent State.raise
  by_cases h : fl = 0 ∧ 5 ≤ s.iss.slot
  · rw [if_pos h, if_pos (hcond.2 h), hev]
  · rw [if_neg h, if_neg fun hc => h (hcond.1 hc)]
    refine ⟨s.core.cycle + lat, by omega, ?_⟩
    rw [← hev, ← hslot, ← hba, ← hcycle]
    rfl

/-! ### A rounded instruction -/

/-- The elements that a rounded instruction writes (R135, R136): the active ones of n operation elements, from element base on. -/
def roundedWrite (s : State) (o : VR) (n base : Nat) (on : Nat → Bool) (val : Nat → Nat) (ps : Nat → Bool) (k : Nat) :
    Option (Nat × Bool) :=
  if k < base ∨ base + n ≤ k then none
  else if on (k - base) then some (val (k - base), ps (k - base) || s.psP o.pg)
  else if o.zm = 1 then some (0, s.psP o.pg) else none

section
variable {s : State} {o : VR} {n w lat base : Nat} {on : Nat → Bool} {f : RMode → Nat → Nat × BitVec 5} {ps : Nat → Bool}
  {m : Nat → RMode} {sr : Bool}

/-- What a rounded instruction leaves: the vector it has written after its draws, with its flags. -/
def roundedState (s : State) (o : VR) (n w lat base k : Nat) (on : Nat → Bool) (f : Nat → Nat × BitVec 5) (ps : Nat → Bool) : State :=
  ((afterDraws s k).wrE o.vd w lat (roundedWrite s o n base on (fun j => (f j).1) ps)).raise
    (orFlags ((((List.range n).filter on).map fun j => (j, f j)).map (·.2.2))) lat

theorem vRound_eq (h : ModesOf s o n on m sr) : s.vRound o n w lat on base f ps =
    .next (roundedState s o n w lat base (if sr then (List.range n).countP on else 0) on (fun j => f (m j) j) ps) := by
  obtain ⟨sel, hsel, hmodes⟩ := modes_of h
  have hrs : ((((List.range n).filter on).map fun i => (i, m i)).map fun x => (x.1, f x.2 x.1)) =
      ((List.range n).filter on).map fun j => (j, f (m j) j) := by rw [List.map_map]; rfl
  have hwrite (k : Nat) : (if (decide (k < base) || decide (base + n ≤ k)) = true then none
      else if on (k - base) = true then
        some (roundedAt (((List.range n).filter on).map fun j => (j, f (m j) j)) (k - base), ps (k - base) || s.psP o.pg)
      else if o.zm = 1 then some (0, s.psP o.pg) else none) =
      roundedWrite s o n base on (fun j => (f (m j) j).1) ps k := by
    unfold roundedWrite
    by_cases hk : k < base ∨ base + n ≤ k
    · rw [if_pos hk, if_pos (by simpa using hk)]
    · rw [if_neg hk, if_neg (by simpa using hk)]
      by_cases hon : on (k - base) = true
      · have hmem : k - base ∈ (List.range n).filter on := List.mem_filter.2 ⟨List.mem_range.2 (by omega), hon⟩
        rw [if_pos hon, if_pos hon, roundedAt_map hmem]
      · rw [if_neg hon, if_neg hon]
  unfold State.vRound
  simp only [hsel, hmodes, hrs]
  rw [roundedState, ← funext hwrite]
  rfl

theorem dividing_of_modes (h : ModesOf s o n on m sr) (u : State) : s.dividing o (.next u) = .next u.noteDiv := by
  obtain ⟨sel, hsel, -⟩ := modes_of h
  rw [State.dividing, hsel]
  rfl

theorem vectorWrites_roundedState (hw : w ∈ [2, 4, 8, 16, 32, 64]) (k : Nat) (g : Nat → Nat × BitVec 5) :
    VectorWrites s (roundedState s o n w lat base k on g ps) (physV s.pre.c o.vd) w
      (roundedWrite s o n base on (fun j => (g j).1) ps) := by
  obtain ⟨l, hl⟩ := raise_rest ((afterDraws s k).wrE o.vd w lat (roundedWrite s o n base on (fun j => (g j).1) ps))
    (orFlags ((((List.range n).filter on).map fun j => (j, g j)).map (·.2.2))) lat
  rw [roundedState, hl]
  exact wrE_writes (afterDraws s k) o.vd w lat _ hw rfl

theorem roundedState_rng (k : Nat) (g : Nat → Nat × BitVec 5) :
    (roundedState s o n w lat base k on g ps).iss.rng = rngStep^[k] s.iss.rng ∧
      (roundedState s o n w lat base k on g ps).ctx.c.rng =
        if s.iss.rngSet ∨ k = 0 then s.ctx.c.rng else rngStep^[k] s.iss.rng := by
  obtain ⟨l, hl⟩ := raise_rest ((afterDraws s k).wrE o.vd w lat (roundedWrite s o n base on (fun j => (g j).1) ps))
    (orFlags ((((List.range n).filter on).map fun j => (j, g j)).map (·.2.2))) lat
  rw [roundedState, hl]
  exact ⟨rfl, rfl⟩

/-- A rounded instruction, with or without the note of a division, does what it is to do under its modes. -/
theorem roundsDone_of_vRound {i : Instr} (div : Bool) (hw : w ∈ [2, 4, 8, 16, 32, 64]) (hlat : 0 < lat)
    (hi : exec i s = if div then s.dividing o (s.vRound o n w lat on base f ps) else s.vRound o n w lat on base f ps) :
    RoundsDone i s o n w base div on f ps := by
  intro m sr h
  have hk : (if sr then (List.range n).countP on else 0) = 0 ↔ sr = false ∨ (List.range n).countP on = 0 := by
    cases sr <;> simp
  rw [vRound_eq h, dividing_of_modes h] at hi
  generalize (if sr then (List.range n).countP on else 0) = k at hk hi ⊢
  have hwrites := vectorWrites_roundedState (s := s) (o := o) (n := n) (lat := lat) (base := base) (on := on) (ps := ps) hw k
    fun j => f (m j) j
  have honly : OnlyVector (physV s.pre.c o.vd) s (roundedState s o n w lat base k on (fun j => f (m j) j) ps) :=
    onlyVector_afterDraws ((wrV_only (afterDraws s k) o.vd _ _ lat).raise _ _)
  have hflags := flagsSent_raise s ((afterDraws s k).wrE o.vd w lat (roundedWrite s o n base on (fun j => (f (m j) j).1) ps))
    (orFlags ((((List.range n).filter on).map fun j => (j, f (m j) j)).map (·.2.2))) hlat rfl rfl rfl rfl
  have hor := getLsbD_orFlags_active on n fun j => f (m j) j
  obtain ⟨hrng, hctl⟩ := roundedState_rng (s := s) (o := o) (n := n) (w := w) (lat := lat) (base := base) (on := on) (ps := ps) k
    fun j => f (m j) j
  rw [← hrng] at hctl
  simp only [hk] at hctl
  cases div with
  | false => exact ⟨_, _, _, hi, rfl, honly, hwrites, hflags, hor, hrng, hctl⟩
  | true => exact ⟨_, _, _, hi, rfl, honly, hwrites, hflags, hor, hrng, hctl⟩

end
end Sys2Proof.Proofs.VectorRounding
end

section
open Sys2Proof Sys2Proof.Machine
namespace Sys2Proof.Proofs.FloatGrid

/-! ### Fractions and their binades -/

theorem two_zpow_toNat {e : Int} (h : 0 ≤ e) : (2 : ℝ) ^ e = 2 ^ e.toNat := by
  conv_lhs => rw [← Int.toNat_of_nonneg h]
  rw [zpow_natCast]

theorem scale2_pos {num den : Nat} (hd : 0 < den) (e : Int) : 0 < (scale2 num den e).2 := by
  unfold scale2
  split_ifs
  · exact hd
  · positivity

theorem scale2_num_pos {num den : Nat} (hn : 0 < num) (e : Int) : 0 < (scale2 num den e).1 := by
  unfold scale2
  split_ifs
  · positivity
  · exact hn

theorem scale2_value (num den : Nat) (e : Int) :
    ((scale2 num den e).1 : ℝ) / (scale2 num den e).2 = (num : ℝ) / den * 2 ^ e := by
  unfold scale2
  split_ifs with h
  · rw [two_zpow_toNat h]
    push_cast
    ring
  · have he : (2 : ℝ) ^ e = (2 ^ (-e).toNat)⁻¹ := by rw [← two_zpow_toNat (by omega), zpow_neg, inv_inv]
    rw [he]
    push_cast
    rw [← div_div, div_eq_mul_inv]

/-- The binade of a positive number is one. -/
theorem binade_unique {z : ℝ} {k l : Int} (hk : (2 : ℝ) ^ k ≤ z) (hk' : z < 2 ^ (k + 1)) (hl : (2 : ℝ) ^ l ≤ z)
    (hl' : z < 2 ^ (l + 1)) : k = l := by
  have h1 : k < l + 1 := (zpow_lt_zpow_iff_right₀ (by norm_num : (1 : ℝ) < 2)).1 (hk.trans_lt hl')
  have h2 : l < k + 1 := (zpow_lt_zpow_iff_right₀ (by norm_num : (1 : ℝ) < 2)).1 (hl.trans_lt hk')
  omega

theorem log2_bounds {n : Nat} (hn : 0 < n) : (2 : ℝ) ^ (Nat.log2 n : Int) ≤ n ∧ (n : ℝ) < 2 ^ ((Nat.log2 n : Int) + 1) := by
  refine ⟨?_, ?_⟩
  · rw [zpow_natCast]
    exact_mod_cast Nat.log2_self_le (by omega)
  · rw [← Nat.cast_succ, zpow_natCast]
    exact_mod_cast Nat.lt_log2_self

theorem floorLog2_spec {num den : Nat} (hn : 0 < num) (hd : 0 < den) :
    (2 : ℝ) ^ floorLog2 num den ≤ (num : ℝ) / den ∧ (num : ℝ) / den < 2 ^ (floorLog2 num den + 1) := by
  obtain ⟨hn1, hn2⟩ := log2_bounds hn
  obtain ⟨hd1, hd2⟩ := log2_bounds hd
  have hden : (0 : ℝ) < den := by exact_mod_cast hd
  have hcond : (scale2 den 1 ((Nat.log2 num : Int) - Nat.log2 den)).1 ≤ num * (scale2 den 1 ((Nat.log2 num : Int) - Nat.log2 den)).2 ↔
      (2 : ℝ) ^ ((Nat.log2 num : Int) - Nat.log2 den) ≤ (num : ℝ) / den := by
    have hv := scale2_value den 1 ((Nat.log2 num : Int) - Nat.log2 den)
    have hp : (0 : ℝ) < (scale2 den 1 ((Nat.log2 num : Int) - Nat.log2 den)).2 := by exact_mod_cast scale2_pos one_pos _
    rw [Nat.cast_one, div_one, div_eq_iff hp.ne'] at hv
    rw [← Nat.cast_le (α := ℝ), hv, Nat.cast_mul, mul_le_mul_iff_left₀ hp, le_div_iff₀ hden, mul_comm]
  unfold floorLog2
  dsimp only
  by_cases h : (scale2 den 1 ((Nat.log2 num : Int) - Nat.log2 den)).1 ≤ num * (scale2 den 1 ((Nat.log2 num : Int) - Nat.log2 den)).2
  · rw [if_pos h]
    refine ⟨hcond.1 h, ?_⟩
    rw [div_lt_iff₀ hden]
    calc (num : ℝ) < 2 ^ ((Nat.log2 num : Int) + 1) := hn2
      _ = 2 ^ ((Nat.log2 num : Int) - Nat.log2 den + 1) * 2 ^ (Nat.log2 den : Int) := by
        rw [← zpow_add₀ (by norm_num)]; congr 1; ring
      _ ≤ 2 ^ ((Nat.log2 num : Int) - Nat.log2 den + 1) * den := by gcongr
  · rw [if_neg h, sub_add_cancel]
    refine ⟨?_, not_le.1 fun hle => h (hcond.2 hle)⟩
    rw [le_div_iff₀ hden]
    calc (2 : ℝ) ^ ((Nat.log2 num : Int) - Nat.log2 den - 1) * den
        ≤ 2 ^ ((Nat.log2 num : Int) - Nat.log2 den - 1) * 2 ^ ((Nat.log2 den : Int) + 1) := by gcongr
      _ = 2 ^ (Nat.log2 num : Int) := by rw [← zpow_add₀ (by norm_num)]; congr 1; ring
      _ ≤ num := hn1

theorem floorLog2_eq {num den : Nat} (hn : 0 < num) (hd : 0 < den) {l : Int} (h1 : (2 : ℝ) ^ l ≤ (num : ℝ) / den)
    (h2 : (num : ℝ) / den < 2 ^ (l + 1)) : floorLog2 num den = l :=
  binade_unique (floorLog2_spec hn hd).1 (floorLog2_spec hn hd).2 h1 h2

/-! ### Truncation to a grid -/

/-- A number rounded to zero on the grid of step 2^e is its floor there, and exact where it lies on the grid (R89). -/
theorem roundGrid_rtz (neg : Bool) (num : Nat) {den : Nat} (hd : 0 < den) (e : Int) :
    ((roundGrid .rtz neg num den e).1 : Int) = ⌊(num : ℝ) / den / 2 ^ e⌋ ∧
      ((roundGrid .rtz neg num den e).2 = true ↔ (⌊(num : ℝ) / den / 2 ^ e⌋ : ℝ) * 2 ^ e = (num : ℝ) / den) := by
  have hpow : (2 : ℝ) ^ e ≠ 0 := by positivity
  have hval : ((scale2 num den (-e)).1 : ℝ) / (scale2 num den (-e)).2 = (num : ℝ) / den / 2 ^ e := by
    rw [scale2_value, zpow_neg, ← div_eq_mul_inv]
  have hpos := scale2_pos (num := num) hd (-e)
  have hpos' : ((scale2 num den (-e)).2 : ℝ) ≠ 0 := by positivity
  have hfloor : ⌊(num : ℝ) / den / 2 ^ e⌋ = ((scale2 num den (-e)).1 / (scale2 num den (-e)).2 : Nat) := by
    rw [← hval, Int.floor_div_natCast, Int.floor_natCast, Int.natCast_div]
  have hrest : (⌊(num : ℝ) / den / 2 ^ e⌋ : ℝ) * 2 ^ e = (num : ℝ) / den ↔ (scale2 num den (-e)).1 % (scale2 num den (-e)).2 = 0 := by
    rw [← eq_div_iff hpow, ← hval, eq_div_iff hpos', hval, hfloor, ← Nat.dvd_iff_mod_eq_zero, Nat.dvd_iff_div_mul_eq]
    norm_cast
  refine ⟨hfloor.symm, ?_⟩
  rw [hrest]
  unfold roundGrid
  simp

/-! ### Patterns of the formats of R79 -/

/-- What the formats of R79 have in common. -/
structure Ieee (f : Fmt) : Prop where
  real : f.kindInt = false
  signed : f.sgn = true
  special : f.spv = 1
  subnormal : f.sub = false
  width : f.w = f.eb + f.mb + 1
  top : (2 : Int) ^ f.eb = 2 * f.bias + 2
  mb : 1 ≤ f.mb ∧ f.mb ≤ 52
  bias : 15 ≤ f.bias ∧ f.bias ≤ 1023

theorem ieee_of_mem : ∀ f ∈ ieeeFmts, Ieee f := by
  simp only [ieeeFmts, List.forall_mem_cons]
  exact ⟨⟨rfl, rfl, rfl, rfl, rfl, by decide, by decide, by decide⟩, ⟨rfl, rfl, rfl, rfl, rfl, by decide, by decide, by decide⟩,
    ⟨rfl, rfl, rfl, rfl, rfl, by decide, by decide, by decide⟩, ⟨rfl, rfl, rfl, rfl, rfl, by decide, by decide, by decide⟩, by simp⟩

/-- A number with its sign. -/
def signedReal (neg : Bool) (z : ℝ) : ℝ := (if neg then -1 else 1) * z

theorem ofPow_value (neg : Bool) (m : Nat) (e : Int) :
    (Val.ofPow neg m e).finite ∧ ((Val.ofPow neg m e).exact : ℝ) = signedReal neg (m * 2 ^ e) := by
  have hv := scale2_value m 1 e
  rw [Nat.cast_one, div_one] at hv
  refine ⟨(scale2_pos one_pos e).ne', ?_⟩
  rw [signedReal, ← hv]
  show (((if neg then -1 else 1) * (((scale2 m 1 e).1 : ℚ) / (scale2 m 1 e).2) : ℚ) : ℝ) = _
  cases neg <;> push_cast <;> simp

/-- The pattern of a sign, an exponent field and a mantissa field. -/
def fieldsPat (f : Fmt) (neg : Bool) (x m : Nat) : Nat := (if neg then 2 ^ (f.w - 1) else 0) + x * 2 ^ f.mb + m

section
variable {f : Fmt} (hf : Ieee f) (neg : Bool) {x m : Nat} (hx : x < 2 ^ f.eb) (hm : m < 2 ^ f.mb)
include hf hx hm

/-- The fields of a pattern are those that it was made of. -/
theorem fieldsPat_fields : fieldsPat f neg x m < 2 ^ f.w ∧ (fieldsPat f neg x m).testBit (f.w - 1) = neg ∧
    fieldsPat f neg x m / 2 ^ f.mb % 2 ^ f.eb = x ∧ fieldsPat f neg x m % 2 ^ f.mb = m := by
  have hlow : x * 2 ^ f.mb + m < 2 ^ (f.eb + f.mb) := by
    rw [Nat.pow_add]
    calc x * 2 ^ f.mb + m < (x + 1) * 2 ^ f.mb := by rw [Nat.succ_mul]; omega
      _ ≤ 2 ^ f.eb * 2 ^ f.mb := Nat.mul_le_mul_right _ hx
  have hw : f.w - 1 = f.eb + f.mb := by rw [hf.width]; omega
  have htop : 2 ^ f.w = 2 * 2 ^ (f.eb + f.mb) := by rw [hf.width, Nat.pow_succ']
  have hpat : fieldsPat f neg x m = (if neg then 1 else 0) * 2 ^ (f.eb + f.mb) + (x * 2 ^ f.mb + m) := by
    rw [fieldsPat, hw]
    cases neg <;> simp [Nat.add_assoc]
  have hpat' : fieldsPat f neg x m = ((if neg then 1 else 0) * 2 ^ f.eb + x) * 2 ^ f.mb + m := by
    rw [hpat, Nat.pow_add]
    ring
  have hdiv : fieldsPat f neg x m / 2 ^ f.mb = (if neg then 1 else 0) * 2 ^ f.eb + x := by
    rw [hpat', Nat.mul_comm, Nat.mul_add_div (Nat.two_pow_pos _), Nat.div_eq_of_lt hm, Nat.add_zero]
  refine ⟨?_, ?_, ?_, ?_⟩
  · rw [hpat, htop]
    cases neg <;> simp <;> omega
  · rw [hw, hpat, Nat.mul_comm, Nat.testBit_two_pow_mul_add _ hlow, if_neg (lt_irrefl _), Nat.sub_self]
    cases neg <;> rfl
  · rw [hdiv, Nat.mul_add_mod_self_right, Nat.mod_eq_of_lt hx]
  · rw [hpat', Nat.mul_add_mod_self_right, Nat.mod_eq_of_lt hm]

theorem decodeVal_fieldsPat (hfin : x ≠ 2 ^ f.eb - 1) : decodeVal f (fieldsPat f neg x m) =
    if x = 0 then Val.ofPow neg m (1 - f.bias - f.mb) else Val.ofPow neg (2 ^ f.mb + m) (x - f.bias - f.mb) := by
  obtain ⟨hlt, hsign, hexp, hman⟩ := fieldsPat_fields hf neg hx hm
  unfold decodeVal
  rw [Nat.mod_eq_of_lt hlt]
  simp only [hf.real, hf.signed, hf.special, hf.subnormal, hsign, hexp, hman, hfin, Bool.true_and, Bool.false_eq_true, if_false,
    decide_true, decide_false, Bool.and_false, Bool.false_and]

end

section
variable {f : Fmt} (hf : Ieee f) (neg : Bool)
include hf

theorem encodeFin_zero (e : Int) : encodeFin f neg 0 e = fieldsPat f neg 0 0 := by
  unfold encodeFin fieldsPat
  simp [hf.real, hf.signed]

/-- The exponent field of the largest finite numbers is the last before the infinities. -/
theorem expField_lt {l : Int} (hl : f.emin ≤ l) (hl' : l ≤ f.bias) :
    (l - f.emin).toNat + 1 < 2 ^ f.eb - 1 ∧ (((l - f.emin).toNat + 1 : Nat) : Int) = l + f.bias := by
  have htop : ((2 ^ f.eb : Nat) : Int) = 2 * f.bias + 2 := by rw [← hf.top]; push_cast; rfl
  have hemin : f.emin = 1 - f.bias := rfl
  omega

/-- A subnormal number's pattern. -/
theorem encodeFin_subnormal {q : Nat} (hq : 0 < q) {e : Int} (he : f.emin - f.mb ≤ e) (hlt : (q : ℝ) * 2 ^ e < 2 ^ f.emin) :
    ∃ m, m < 2 ^ f.mb ∧ encodeFin f neg q e = fieldsPat f neg 0 m ∧ (m : ℝ) * 2 ^ (1 - f.bias - f.mb) = q * 2 ^ e := by
  obtain ⟨hlow, -⟩ := floorLog2_spec hq one_pos
  rw [Nat.cast_one, div_one] at hlow
  have hex : floorLog2 q 1 + e < f.emin := by
    refine (zpow_lt_zpow_iff_right₀ (by norm_num : (1 : ℝ) < 2)).1 (lt_of_le_of_lt ?_ hlt)
    rw [zpow_add₀ (by norm_num)]
    gcongr
  have hsh : 0 ≤ e - (f.emin - f.mb) := by omega
  have hm : ((q * 2 ^ (e - (f.emin - f.mb)).toNat : Nat) : ℝ) * 2 ^ (1 - f.bias - f.mb) = q * 2 ^ e := by
    push_cast
    rw [← two_zpow_toNat hsh, mul_assoc, ← zpow_add₀ (by norm_num)]
    congr 2
    show e - (1 - f.bias - f.mb) + (1 - f.bias - f.mb) = e
    ring
  refine ⟨q * 2 ^ (e - (f.emin - f.mb)).toNat, ?_, ?_, hm⟩
  · have hlt' : ((q * 2 ^ (e - (f.emin - f.mb)).toNat : Nat) : ℝ) * 2 ^ (1 - f.bias - f.mb) < 2 ^ f.mb * 2 ^ (1 - f.bias - f.mb) := by
      rw [hm, ← zpow_natCast, ← zpow_add₀ (by norm_num)]
      refine hlt.trans_eq (congrArg _ ?_)
      show 1 - f.bias = _
      ring
    have := lt_of_mul_lt_mul_right hlt' (by positivity)
    exact_mod_cast this
  · unfold encodeFin fieldsPat scale2
    simp only [hf.real, hf.signed, hq.ne', hex, hsh, Bool.and_true, Bool.false_eq_true, if_false, if_true, Nat.div_one, Nat.zero_mul,
      Nat.add_zero]

/-- A normal number's pattern. -/
theorem encodeFin_normal {q : Nat} (hq : 0 < q) {e l : Int} (hl : f.emin ≤ l) (he : l - f.mb ≤ e)
    (hlow : (2 : ℝ) ^ l ≤ q * 2 ^ e) (hhigh : (q : ℝ) * 2 ^ e < 2 ^ (l + 1)) :
    ∃ m, m < 2 ^ f.mb ∧ encodeFin f neg q e = fieldsPat f neg ((l - f.emin).toNat + 1) m ∧
      ((2 ^ f.mb + m : Nat) : ℝ) * 2 ^ (l - f.mb) = q * 2 ^ e := by
  have hex : floorLog2 q 1 + e = l := by
    have hpow : (0 : ℝ) < 2 ^ e := by positivity
    have : floorLog2 q 1 = l - e := by
      refine floorLog2_eq hq one_pos ?_ ?_
      · rw [Nat.cast_one, div_one, zpow_sub₀ (by norm_num), div_le_iff₀ hpow]
        exact hlow
      · rw [Nat.cast_one, div_one, show l - e + 1 = l + 1 - e by ring, zpow_sub₀ (by norm_num), lt_div_iff₀ hpow]
        exact hhigh
    omega
  have hsh : 0 ≤ e - (l - f.mb) := by omega
  have hm : ((q * 2 ^ (e - (l - f.mb)).toNat : Nat) : ℝ) * 2 ^ (l - f.mb) = q * 2 ^ e := by
    push_cast
    rw [← two_zpow_toNat hsh, mul_assoc, ← zpow_add₀ (by norm_num)]
    congr 2
    ring
  have hpow : (0 : ℝ) < 2 ^ (l - (f.mb : Int)) := by positivity
  have hge : 2 ^ f.mb ≤ q * 2 ^ (e - (l - f.mb)).toNat := by
    have : (2 : ℝ) ^ f.mb ≤ ((q * 2 ^ (e - (l - f.mb)).toNat : Nat) : ℝ) := by
      refine le_of_mul_le_mul_right ?_ hpow
      rw [hm, ← zpow_natCast, ← zpow_add₀ (by norm_num), add_sub_cancel]
      exact hlow
    exact_mod_cast this
  have hlt : q * 2 ^ (e - (l - f.mb)).toNat < 2 ^ f.mb * 2 := by
    have : ((q * 2 ^ (e - (l - f.mb)).toNat : Nat) : ℝ) < 2 ^ f.mb * 2 := by
      refine lt_of_mul_lt_mul_right ?_ hpow.le
      rw [hm, ← zpow_natCast, mul_right_comm, ← zpow_add₀ (by norm_num), add_sub_cancel, ← zpow_add_one₀ (by norm_num)]
      exact hhigh
    exact_mod_cast this
  refine ⟨q * 2 ^ (e - (l - f.mb)).toNat - 2 ^ f.mb, by omega, ?_, ?_⟩
  · unfold encodeFin fieldsPat scale2
    simp only [hf.real, hf.signed, hq.ne', hex, hsh, not_lt.2 hl, Bool.and_true, Bool.false_eq_true, if_false, if_true, Nat.div_one]
    rw [Nat.succ_mul]
    omega
  · rw [Nat.add_sub_cancel' hge]
    exact hm

/-- What a pattern of an encoded number stands for. -/
structure Encodes (f : Fmt) (neg : Bool) (z : ℝ) (c : Nat) : Prop where
  finite : (decodeVal f c).finite
  exact : ((decodeVal f c).exact : ℝ) = signedReal neg z

theorem encodes_subnormal {m : Nat} (hm : m < 2 ^ f.mb) :
    Encodes f neg (m * 2 ^ (1 - f.bias - f.mb)) (fieldsPat f neg 0 m) := by
  have htop : (0 : Nat) ≠ 2 ^ f.eb - 1 := by
    have hb := hf.bias.1
    have : ((2 ^ f.eb : Nat) : Int) = 2 * f.bias + 2 := by rw [← hf.top]; push_cast; rfl
    omega
  have hdec := decodeVal_fieldsPat hf neg (Nat.two_pow_pos _) hm htop
  rw [if_pos rfl] at hdec
  obtain ⟨hfin, hval⟩ := ofPow_value neg m (1 - f.bias - f.mb)
  exact ⟨hdec ▸ hfin, hdec ▸ hval⟩

theorem encodes_normal {l : Int} (hl : f.emin ≤ l) (hl' : l ≤ f.bias) {m : Nat} (hm : m < 2 ^ f.mb) :
    Encodes f neg ((2 ^ f.mb + m : Nat) * 2 ^ (l - f.mb)) (fieldsPat f neg ((l - f.emin).toNat + 1) m) := by
  obtain ⟨hlt, hexp⟩ := expField_lt hf hl hl'
  have hdec := decodeVal_fieldsPat hf neg (by omega) hm hlt.ne
  rw [if_neg (Nat.succ_ne_zero _), hexp, add_sub_cancel_right] at hdec
  obtain ⟨hfin, hval⟩ := ofPow_value neg (2 ^ f.mb + m) (l - f.mb)
  exact ⟨hdec ▸ hfin, hdec ▸ hval⟩

/-- A multiple of 2^e below 2^emin, on the grid of the subnormal numbers, has a pattern. -/
theorem encodes_below {q : Nat} {e : Int} (he : f.emin - f.mb ≤ e) (hlt : (q : ℝ) * 2 ^ e < 2 ^ f.emin) :
    Encodes f neg (q * 2 ^ e) (encodeFin f neg q e) := by
  rcases Nat.eq_zero_or_pos q with rfl | hq
  · rw [encodeFin_zero hf]
    simpa using encodes_subnormal hf neg (Nat.two_pow_pos f.mb)
  · obtain ⟨m, hm, henc, hval⟩ := encodeFin_subnormal hf neg hq he hlt
    rw [henc, ← hval]
    exact encodes_subnormal hf neg hm

theorem encodes_above {q : Nat} {e l : Int} (hl : f.emin ≤ l) (hl' : l ≤ f.bias) (he : l - f.mb ≤ e)
    (hlow : (2 : ℝ) ^ l ≤ q * 2 ^ e) (hhigh : (q : ℝ) * 2 ^ e < 2 ^ (l + 1)) :
    Encodes f neg (q * 2 ^ e) (encodeFin f neg q e) := by
  have hq : 0 < q := by
    refine Nat.pos_of_ne_zero fun h => ?_
    rw [h, Nat.cast_zero, zero_mul] at hlow
    exact absurd hlow (not_le.2 (by positivity))
  obtain ⟨m, hm, henc, hval⟩ := encodeFin_normal hf neg hq hl he hlow hhigh
  rw [henc, ← hval]
  exact encodes_normal hf neg hl hl' hm

end

/-! ### Truncation in a format (R145) -/

/-- The step of the grid that a number of binade l is truncated to. -/
def stepOf (f : Fmt) (l : Int) : Int := if l < f.emin then f.emin - f.prec + 1 else l - (min f.prec 12 : Nat) + 1

section
variable {f : Fmt} (hf : Ieee f) (neg : Bool)
include hf

/-- A number truncated to the grid of its binade has a pattern. -/
theorem encodes_truncated {z : ℝ} {l : Int} (hlow : (2 : ℝ) ^ l ≤ z) (hhigh : z < 2 ^ (l + 1)) (hl : l ≤ f.bias) {q : Nat}
    (hq : (q : Int) = ⌊z / 2 ^ stepOf f l⌋) : Encodes f neg (q * 2 ^ stepOf f l) (encodeFin f neg q (stepOf f l)) := by
  have hpow : (0 : ℝ) < 2 ^ stepOf f l := by positivity
  have hqz : (q : ℝ) * 2 ^ stepOf f l ≤ z := by
    have : ((q : Int) : ℝ) ≤ z / 2 ^ stepOf f l := hq ▸ Int.floor_le _
    rwa [le_div_iff₀ hpow, Int.cast_natCast] at this
  by_cases h : l < f.emin
  · have hstep : stepOf f l = f.emin - f.mb := by
      rw [stepOf, if_pos h, Fmt.prec]
      push_cast
      ring
    refine encodes_below hf neg hstep.ge (hqz.trans_lt (hhigh.trans_le ?_))
    exact zpow_le_zpow_right₀ (by norm_num) (by omega)
  · have hstep : stepOf f l = l - (min f.prec 12 : Nat) + 1 := if_neg h
    have hmin : min f.prec 12 ≤ f.mb + 1 := min_le_left _ _
    have hmin' : 1 ≤ min f.prec 12 := by rw [Fmt.prec]; omega
    refine encodes_above hf neg (not_lt.1 h) hl (by omega) ?_ (hqz.trans_lt hhigh)
    have hge : ((2 ^ (min f.prec 12 - 1) : Nat) : Int) ≤ q := by
      rw [hq, Int.le_floor, le_div_iff₀ hpow]
      refine le_trans (le_of_eq ?_) hlow
      rw [hstep]
      push_cast
      rw [← zpow_natCast, ← zpow_add₀ (by norm_num)]
      congr 1
      push_cast [hmin']
      ring
    calc (2 : ℝ) ^ l = (2 ^ (min f.prec 12 - 1) : Nat) * 2 ^ stepOf f l := by
          rw [hstep]
          push_cast
          rw [← zpow_natCast, ← zpow_add₀ (by norm_num)]
          congr 1
          push_cast [hmin']
          ring
      _ ≤ q * 2 ^ stepOf f l := by gcongr; exact_mod_cast hge

omit hf in
theorem truncTo_of_le {num den : Nat} {l : Int} (hl : floorLog2 num den = l) (hbias : l ≤ f.bias) : truncTo f neg num den =
    (encodeFin f neg (roundGrid .rtz neg num den (stepOf f l)).1 (stepOf f l),
      if (roundGrid .rtz neg num den (stepOf f l)).2 then 0 else if l < f.emin then fNX ||| fUF else fNX) := by
  unfold truncTo
  rw [hl]
  refine (if_neg (not_lt.2 hbias)).trans ?_
  by_cases hg : (roundGrid .rtz neg num den (stepOf f l)).2 = true
  · exact (if_pos hg).trans (congrArg (Prod.mk _) (if_pos hg).symm)
  · exact (if_neg hg).trans (congrArg (Prod.mk _) (if_neg hg).symm)

end

/-- What R145 delivers of a number of binade l within the format's range. -/
def TruncatedAt (f : Fmt) (neg : Bool) (z : ℝ) (l : Int) (r : Nat × BitVec 5) : Prop :=
  Encodes f neg (⌊z / 2 ^ stepOf f l⌋ * 2 ^ stepOf f l) r.1 ∧
    (⌊z / 2 ^ stepOf f l⌋ = 0 → r.1 = if neg then 2 ^ (f.w - 1) else 0) ∧
    ((⌊z / 2 ^ stepOf f l⌋ : ℝ) * 2 ^ stepOf f l = z → r.2 = 0) ∧
    ((⌊z / 2 ^ stepOf f l⌋ : ℝ) * 2 ^ stepOf f l ≠ z → r.2 = if l < f.emin then fNX ||| fUF else fNX)

theorem truncated_iff (f : Fmt) (neg : Bool) (z : ℝ) (r : Nat × BitVec 5) : Truncated f neg z r ↔
    ((2 : ℝ) ^ (f.bias + 1) ≤ z → r = (infPat f neg, fOF ||| fNX)) ∧
      ∀ l : Int, (2 : ℝ) ^ l ≤ z → z < 2 ^ (l + 1) → l ≤ f.bias → TruncatedAt f neg z l r := by
  refine and_congr_right fun _ => forall_congr' fun l => forall₃_congr fun _ _ _ => ?_
  have hpow : (2 : ℝ) ^ stepOf f l ≠ 0 := by positivity
  have hzero : (⌊z / 2 ^ stepOf f l⌋ : ℝ) * 2 ^ stepOf f l = 0 ↔ ⌊z / 2 ^ stepOf f l⌋ = 0 := by
    rw [mul_eq_zero, or_iff_left hpow, Int.cast_eq_zero]
  refine ⟨fun ⟨hfin, hval, h0, hrest⟩ => ⟨⟨hfin, hval⟩, fun h => h0 (hzero.2 h), hrest⟩,
    fun ⟨⟨hfin, hval⟩, h0, hrest⟩ => ⟨hfin, hval, fun h => h0 (hzero.1 h), hrest⟩⟩

theorem truncTo_truncated {f : Fmt} (hf : Ieee f) (neg : Bool) {num den : Nat} (hn : 0 < num) (hd : 0 < den) :
    Truncated f neg ((num : ℝ) / den) (truncTo f neg num den) := by
  obtain ⟨hlow, hhigh⟩ := floorLog2_spec hn hd
  refine (truncated_iff ..).2 ⟨fun hover => if_pos ?_, fun l hl hl' hbias => ?_⟩
  · have := (zpow_lt_zpow_iff_right₀ (by norm_num : (1 : ℝ) < 2)).1 (hover.trans_lt hhigh)
    omega
  · rw [truncTo_of_le neg (floorLog2_eq hn hd hl hl') hbias]
    obtain ⟨hq, hexact⟩ := roundGrid_rtz neg num hd (stepOf f l)
    have henc := encodes_truncated hf neg hl hl' hbias hq
    rw [← Int.cast_natCast, hq] at henc
    refine ⟨henc, fun h0 => ?_, fun h => if_pos (hexact.2 h), fun h => if_neg fun hx => h (hexact.1 hx)⟩
    have : (roundGrid .rtz neg num den (stepOf f l)).1 = 0 := by omega
    show encodeFin f neg _ _ = _
    rw [this, encodeFin_zero hf, fieldsPat]
    simp

section
variable {z : ℝ} {k e : Int} {s : Nat} (hz : (s : ℝ) * 2 ^ k < z ∧ z < (s + 1) * 2 ^ k) (hke : k ≤ e) (j : Int)
include hz hke

/-- A multiple of a coarser step lies below a number between two multiples of 2^k where it lies below them. -/
theorem multiple_le_iff : (j : ℝ) * 2 ^ e ≤ z ↔ j * 2 ^ (e - k).toNat ≤ s := by
  have hpow : (0 : ℝ) < 2 ^ k := by positivity
  have hval : (j : ℝ) * 2 ^ e = (j * 2 ^ (e - k).toNat : Int) * 2 ^ k := by
    push_cast
    rw [← two_zpow_toNat (by omega), mul_assoc, ← zpow_add₀ (by norm_num), sub_add_cancel]
  rw [hval]
  generalize j * 2 ^ (e - k).toNat = i
  refine ⟨fun h => ?_, fun h => ?_⟩
  · have : (i : ℝ) < s + 1 := lt_of_mul_lt_mul_right (h.trans_lt hz.2) hpow.le
    have : i < s + 1 := by exact_mod_cast this
    omega
  · refine le_trans ?_ hz.1.le
    gcongr
    exact_mod_cast h

theorem multiple_ne : (j : ℝ) * 2 ^ e ≠ z := by
  intro h
  have hpow : (0 : ℝ) < 2 ^ k := by positivity
  have hle := (multiple_le_iff hz hke j).1 h.le
  have hval : (j : ℝ) * 2 ^ e = (j * 2 ^ (e - k).toNat : Int) * 2 ^ k := by
    push_cast
    rw [← two_zpow_toNat (by omega), mul_assoc, ← zpow_add₀ (by norm_num), sub_add_cancel]
  have : ((j * 2 ^ (e - k).toNat : Int) : ℝ) * 2 ^ k ≤ s * 2 ^ k := by
    gcongr
    exact_mod_cast hle
  rw [← hval, h] at this
  exact absurd hz.1 (not_lt.2 this)

end

/-- A number between the same two neighbours of a grid as a fraction is truncated as the fraction is, where the grid is no coarser
than the steps of truncation. -/
theorem truncated_of_between {f : Fmt} {neg : Bool} {z z' : ℝ} {r : Nat × BitVec 5} {k : Int} {s : Nat}
    (hz : (s : ℝ) * 2 ^ k < z ∧ z < (s + 1) * 2 ^ k) (hz' : (s : ℝ) * 2 ^ k < z' ∧ z' < (s + 1) * 2 ^ k)
    (hk : k ≤ f.bias) (hstep : ∀ l : Int, (2 : ℝ) ^ l ≤ z → z < 2 ^ (l + 1) → k ≤ stepOf f l ∧ k ≤ l) (h : Truncated f neg z' r) :
    Truncated f neg z r := by
  have hiff (j : Int) {e : Int} (hke : k ≤ e) : (j : ℝ) * 2 ^ e ≤ z ↔ (j : ℝ) * 2 ^ e ≤ z' :=
    (multiple_le_iff hz hke j).trans (multiple_le_iff hz' hke j).symm
  have hone {e : Int} (hke : k ≤ e) : (2 : ℝ) ^ e ≤ z ↔ (2 : ℝ) ^ e ≤ z' := by simpa using hiff 1 hke
  obtain ⟨hover, hat⟩ := (truncated_iff ..).1 h
  refine (truncated_iff ..).2 ⟨fun ho => hover ((hone (by omega)).1 ho), fun l hl hl' hb => ?_⟩
  obtain ⟨hks, hkl⟩ := hstep l hl hl'
  have hpow : (0 : ℝ) < 2 ^ stepOf f l := by positivity
  have hfloor : ⌊z / 2 ^ stepOf f l⌋ = ⌊z' / 2 ^ stepOf f l⌋ := by
    refine eq_of_forall_le_iff fun j => ?_
    rw [Int.le_floor, Int.le_floor, le_div_iff₀ hpow, le_div_iff₀ hpow, hiff j hks]
  have hl2 : z' < 2 ^ (l + 1) := by
    rw [← not_le, ← hone (by omega), not_le]
    exact hl'
  obtain ⟨henc, h0, -, hne⟩ := hat l ((hone hkl).1 hl) hl2 hb
  rw [← hfloor] at henc h0 hne
  exact ⟨henc, h0, fun heq => absurd heq (multiple_ne hz hks _), fun _ => hne (multiple_ne hz' hks _)⟩

end Sys2Proof.Proofs.FloatGrid
end

section
open Sys2Proof Sys2Proof.Machine
namespace Sys2Proof.Proofs.Roots
open FloatGrid

/-! ### The integer square root -/

/-- One step of Newton's method from above stays above the root. -/
theorem sqrt_le_newton {n x : Nat} (hx : 0 < x) : Nat.sqrt n ≤ (x + n / x) / 2 := by
  have hdiv : 2 * Nat.sqrt n ≤ x + n / x := by
    by_cases h : 2 * Nat.sqrt n ≤ x
    · exact h.trans (Nat.le_add_right _ _)
    · have hle : 2 * Nat.sqrt n - x ≤ n / x := by
        rw [Nat.le_div_iff_mul_le hx]
        refine le_trans ?_ (Nat.sqrt_le n)
        zify [show x ≤ 2 * Nat.sqrt n by omega]
        nlinarith [sq_nonneg ((Nat.sqrt n : Int) - x)]
      omega
  omega

/-- From above the root a step goes at least half of the way. -/
theorem newton_le {n x : Nat} (hx : Nat.sqrt n < x) : (x + n / x) / 2 - Nat.sqrt n ≤ (x - Nat.sqrt n) / 2 := by
  have hdiv : n / x ≤ Nat.sqrt n := by
    refine Nat.le_of_lt_succ ((Nat.div_lt_iff_lt_mul (by omega)).2 ?_)
    exact (Nat.lt_succ_sqrt n).trans_le (Nat.mul_le_mul_left _ hx)
  omega

theorem isqrtFrom_eq_sqrt {n : Nat} (fuel : Nat) {x : Nat} (hn : 0 < n) (hx : Nat.sqrt n ≤ x) (hfuel : x - Nat.sqrt n < 2 ^ fuel) :
    isqrtFrom fuel n x = Nat.sqrt n := by
  have hs : 0 < Nat.sqrt n := Nat.sqrt_pos.2 hn
  induction fuel generalizing x with
  | zero =>
    have : x = Nat.sqrt n := by omega
    exact this
  | succ fuel ih =>
    have hge := sqrt_le_newton (n := n) (x := x) (by omega)
    unfold isqrtFrom
    dsimp only
    rcases hx.eq_or_lt with heq | hlt
    · rw [if_neg (by omega)]
      exact heq.symm
    · have hle := newton_le hlt
      rw [if_pos (by omega)]
      exact ih hge (by rw [Nat.pow_succ] at hfuel; omega)

theorem isqrtFrom_of_log {n x b fuel : Nat} (hn : 0 < n) (hx : Nat.sqrt n ≤ x) (hb : x ≤ 2 ^ b) (hfuel : b ≤ fuel) :
    isqrtFrom fuel n x = Nat.sqrt n := by
  have hs : 0 < Nat.sqrt n := Nat.sqrt_pos.2 hn
  have hpow : 2 ^ b ≤ 2 ^ fuel := Nat.pow_le_pow_right (by omega) hfuel
  exact isqrtFrom_eq_sqrt fuel hn hx (by omega)

/-- The integer square root of a number in its reach. -/
theorem isqrt_eq_sqrt {n : Nat} (h : Nat.log2 n < 8190) : isqrt n = Nat.sqrt n := by
  unfold isqrt
  by_cases h0 : n = 0
  · rw [if_pos h0, h0, Nat.sqrt_zero]
  · rw [if_neg h0]
    have hlt : n < 2 ^ (Nat.log2 n / 2 + 1) * 2 ^ (Nat.log2 n / 2 + 1) := by
      rw [← Nat.pow_add]
      exact Nat.lt_log2_self.trans_le (Nat.pow_le_pow_right (by omega) (by omega))
    exact isqrtFrom_of_log (Nat.pos_of_ne_zero h0) (Nat.sqrt_lt.2 hlt).le le_rfl (by omega)

/-! ### The finite values of a format -/

theorem eq_scale2_of_ofPow {neg neg' : Bool} {m p q : Nat} {e : Int} (h : Val.ofPow neg' m e = .fin neg p q) :
    (p, q) = scale2 m 1 e := by
  injection h with _ hp hq
  rw [← hp, ← hq]

/-- A finite value is a number of at most as many bits as the format has, on a step of its range. -/
structure Finite (f : Fmt) (p q : Nat) (m : Nat) (e : Int) : Prop where
  eq : (p, q) = scale2 m 1 e
  lt : m < 2 ^ (f.mb + 1)
  low : 1 - f.bias - f.mb ≤ e
  high : e ≤ f.bias - f.mb

theorem finite_decodeVal {f : Fmt} (hf : Ieee f) {a : Nat} {neg : Bool} {p q : Nat} (h : decodeVal f a = .fin neg p q) :
    ∃ m e, Finite f p q m e := by
  have htop : ((2 ^ f.eb : Nat) : Int) = 2 * f.bias + 2 := by rw [← hf.top]; push_cast; rfl
  have hmb : 2 ^ (f.mb + 1) = 2 * 2 ^ f.mb := Nat.pow_succ'
  have hman : a % 2 ^ f.w % 2 ^ f.mb < 2 ^ f.mb := Nat.mod_lt _ (Nat.two_pow_pos _)
  have hexp : a % 2 ^ f.w / 2 ^ f.mb % 2 ^ f.eb < 2 ^ f.eb := Nat.mod_lt _ (Nat.two_pow_pos _)
  have hb := hf.bias.1
  unfold decodeVal at h
  simp only [hf.real, hf.special, hf.subnormal, Bool.false_eq_true, if_false, decide_true, Bool.true_and, decide_eq_true_eq] at h
  generalize a % 2 ^ f.w % 2 ^ f.mb = m at h hman
  generalize a % 2 ^ f.w / 2 ^ f.mb % 2 ^ f.eb = x at h hexp
  by_cases hx : x = 2 ^ f.eb - 1
  · rw [if_pos hx] at h
    split_ifs at h
  · rw [if_neg hx] at h
    by_cases h0 : x = 0
    · rw [if_pos h0] at h
      exact ⟨m, _, eq_scale2_of_ofPow h, by omega, le_rfl, by omega⟩
    · rw [if_neg h0] at h
      exact ⟨_, _, eq_scale2_of_ofPow h, by omega, by omega, by omega⟩

section
variable {f : Fmt} (hf : Ieee f) {p q m : Nat} {e : Int} (h : Finite f p q m e)
include h

theorem Finite.den_pos : 0 < q := by
  have := scale2_pos (num := m) one_pos e
  rwa [← h.eq] at this

theorem Finite.value : (p : ℝ) / q = m * 2 ^ e := by
  have := scale2_value m 1 e
  rwa [← h.eq, Nat.cast_one, div_one] at this

theorem Finite.lt_top : (p : ℝ) / q < 2 ^ (f.bias + 1) := by
  have hm : (m : ℝ) < 2 ^ ((f.mb : Int) + 1) := by
    rw [← Nat.cast_succ, zpow_natCast]
    exact_mod_cast h.lt
  rw [h.value]
  calc (m : ℝ) * 2 ^ e < 2 ^ ((f.mb : Int) + 1) * 2 ^ e := by gcongr
    _ = 2 ^ ((f.mb : Int) + 1 + e) := (zpow_add₀ (by norm_num) _ _).symm
    _ ≤ 2 ^ (f.bias + 1) := zpow_le_zpow_right₀ (by norm_num) (by linarith [h.high])

include hf

theorem Finite.log2_num_le (hp : 0 < p) : Nat.log2 p ≤ 1023 := by
  obtain ⟨hlow, -⟩ := log2_bounds hp
  have hle : (2 : ℝ) ^ (Nat.log2 p : Int) < 2 ^ ((1024 : Nat) : Int) := by
    have heq := h.eq
    unfold scale2 at heq
    split_ifs at heq with he
    · obtain ⟨-, rfl⟩ := Prod.mk.inj heq
      have := h.lt_top
      rw [Nat.cast_one, div_one] at this
      exact (hlow.trans_lt this).trans_le (zpow_le_zpow_right₀ (by norm_num) (by have := hf.bias.2; push_cast; omega))
    · obtain ⟨rfl, -⟩ := Prod.mk.inj heq
      have hm : (p : ℝ) < 2 ^ ((f.mb : Int) + 1) := by
        rw [← Nat.cast_succ, zpow_natCast]
        exact_mod_cast h.lt
      exact (hlow.trans_lt hm).trans_le (zpow_le_zpow_right₀ (by norm_num) (by have := hf.mb.2; push_cast; omega))
  have := (zpow_lt_zpow_iff_right₀ (by norm_num : (1 : ℝ) < 2)).1 hle
  omega

theorem Finite.den_eq : ∃ j ≤ 1074, q = 2 ^ j := by
  have hb := hf.bias.2
  have hm := hf.mb.2
  have hlow := h.low
  have heq := h.eq
  unfold scale2 at heq
  split_ifs at heq with he
  · exact ⟨0, by omega, (Prod.mk.inj heq).2⟩
  · exact ⟨(-e).toNat, by omega, by rw [(Prod.mk.inj heq).2, Nat.one_mul]⟩

end

/-! ### One over a root (R145) -/

/-- The number that the root of a reciprocal is found of. -/
def rootOf (p q : Nat) : Nat := q * 4 ^ (Nat.log2 p + 80) / p

theorem rsqrtFin_eq {p q : Nat} (h : Nat.log2 (rootOf p q) < 8190) : rsqrtFin p q =
    if Nat.sqrt (rootOf p q) * Nat.sqrt (rootOf p q) * p = q * 4 ^ (Nat.log2 p + 80) then
      (Nat.sqrt (rootOf p q), 2 ^ (Nat.log2 p + 80))
    else (2 * Nat.sqrt (rootOf p q) + 1, 2 ^ (Nat.log2 p + 80 + 1)) := by
  rw [← isqrt_eq_sqrt h]
  rfl

section
variable {p q : Nat} (hp : 0 < p) (hq : 0 < q)
include hp

/-- The root lies at most one step of the grid below the number. -/
theorem rootOf_bounds : Nat.sqrt (rootOf p q) * Nat.sqrt (rootOf p q) * p ≤ q * 4 ^ (Nat.log2 p + 80) ∧
    q * 4 ^ (Nat.log2 p + 80) < (Nat.sqrt (rootOf p q) + 1) * (Nat.sqrt (rootOf p q) + 1) * p :=
  ⟨(Nat.le_div_iff_mul_le hp).1 (Nat.sqrt_le _), (Nat.div_lt_iff_lt_mul hp).1 (Nat.lt_succ_sqrt _)⟩

include hq

/-- The root has many more bits than are kept of it. -/
theorem le_sqrt_rootOf : 2 ^ 79 ≤ Nat.sqrt (rootOf p q) := by
  rw [Nat.le_sqrt, rootOf, Nat.le_div_iff_mul_le hp]
  calc 2 ^ 79 * 2 ^ 79 * p ≤ 2 ^ 158 * 2 ^ (Nat.log2 p + 1) := by
        rw [← Nat.pow_add]
        exact Nat.mul_le_mul_left _ Nat.lt_log2_self.le
    _ = 2 ^ (Nat.log2 p + 159) := by rw [← Nat.pow_add]; congr 1; omega
    _ ≤ 2 ^ (2 * (Nat.log2 p + 80)) := Nat.pow_le_pow_right (by omega) (by omega)
    _ = 4 ^ (Nat.log2 p + 80) := by rw [Nat.pow_mul]
    _ ≤ q * 4 ^ (Nat.log2 p + 80) := Nat.le_mul_of_pos_left _ hq

/-- One over the root of p/q. -/
theorem rsqrt_bounds : (Nat.sqrt (rootOf p q) : ℝ) * 2 ^ (-(Nat.log2 p + 80 : Nat) : Int) ≤ 1 / Real.sqrt ((p : ℝ) / q) ∧
    1 / Real.sqrt ((p : ℝ) / q) < (Nat.sqrt (rootOf p q) + 1) * 2 ^ (-(Nat.log2 p + 80 : Nat) : Int) ∧
    (Nat.sqrt (rootOf p q) * Nat.sqrt (rootOf p q) * p = q * 4 ^ (Nat.log2 p + 80) ↔
      (Nat.sqrt (rootOf p q) : ℝ) * 2 ^ (-(Nat.log2 p + 80 : Nat) : Int) = 1 / Real.sqrt ((p : ℝ) / q)) := by
  obtain ⟨hle, hlt⟩ := rootOf_bounds hp (q := q)
  generalize Nat.log2 p + 80 = k at *
  generalize Nat.sqrt (rootOf p q) = s at *
  have hp' : (0 : ℝ) < p := by exact_mod_cast hp
  have hq' : (0 : ℝ) < q := by exact_mod_cast hq
  have hz : 1 / Real.sqrt ((p : ℝ) / q) = Real.sqrt ((q : ℝ) / p) := by rw [one_div, ← Real.sqrt_inv, inv_div]
  have hsq (i : Nat) : ((i : ℝ) * 2 ^ (-(k : Int))) ^ 2 = (i * i * p : Nat) / (p * 4 ^ k) := by
    rw [zpow_neg, zpow_natCast, show (4 : ℝ) = 2 ^ 2 by norm_num, ← pow_mul, mul_comm 2 k, pow_mul]
    push_cast
    field_simp
  have hval : (q : ℝ) / p = (q * 4 ^ k : Nat) / (p * 4 ^ k) := by
    push_cast
    field_simp
  have hden : (0 : ℝ) < p * 4 ^ k := by positivity
  rw [hz]
  refine ⟨?_, ?_, ?_⟩
  · refine Real.le_sqrt_of_sq_le ?_
    rw [hsq, hval, div_le_div_iff_of_pos_right hden]
    exact_mod_cast hle
  · have := hsq (s + 1)
    rw [Nat.cast_succ] at this
    rw [Real.sqrt_lt' (by positivity), this, hval, div_lt_div_iff_of_pos_right hden]
    exact_mod_cast hlt
  · rw [eq_comm (b := Real.sqrt _), Real.sqrt_eq_iff_eq_sq (by positivity) (by positivity), hsq, hval, div_left_inj' hden.ne', Nat.cast_inj,
      eq_comm]

end

/-- One over the root of a value of a format is no subnormal number. -/
theorem emin_le_of_rsqrt {f : Fmt} (hf : Ieee f) {v : ℝ} (hv : 0 < v) (hlt : v < 2 ^ (f.bias + 1)) {l : Int}
    (hl : 1 / Real.sqrt v < 2 ^ (l + 1)) : f.emin ≤ l := by
  have hroot : 0 < Real.sqrt v := Real.sqrt_pos.2 hv
  have hinv : (1 / Real.sqrt v) ^ 2 = v⁻¹ := by rw [div_pow, Real.sq_sqrt hv.le, one_pow, one_div]
  have h1 : v⁻¹ < 2 ^ (2 * (l + 1)) := by
    rw [← hinv, mul_comm, zpow_mul]
    exact_mod_cast pow_lt_pow_left₀ hl (by positivity) two_ne_zero
  have h2 : (2 : ℝ) ^ (-(f.bias + 1)) < v⁻¹ := by
    rw [zpow_neg]
    exact (inv_lt_inv₀ (by positivity) hv).2 hlt
  have h3 := (zpow_lt_zpow_iff_right₀ (by norm_num : (1 : ℝ) < 2)).1 (h2.trans h1)
  have hb := hf.bias.1
  show 1 - f.bias ≤ l
  omega

theorem log2_rootOf {f : Fmt} (hf : Ieee f) {p q m : Nat} {e : Int} (h : Finite f p q m e) (hp : 0 < p) :
    Nat.log2 (rootOf p q) < 8190 := by
  obtain ⟨j, hj, hq⟩ := h.den_eq hf
  have hlog := h.log2_num_le hf hp
  have hle : rootOf p q < 2 ^ (j + 2 * (Nat.log2 p + 80) + 1) := by
    calc rootOf p q ≤ q * 4 ^ (Nat.log2 p + 80) := Nat.div_le_self _ _
      _ = 2 ^ (j + 2 * (Nat.log2 p + 80)) := by rw [hq, Nat.pow_add 2 j, Nat.pow_mul]
      _ < _ := Nat.pow_lt_pow_succ (by omega)
  by_cases h0 : rootOf p q = 0
  · rw [h0]
    decide
  · have := (Nat.log2_lt h0).2 hle
    omega

theorem fpRsq_truncated {f : Fmt} (hf : Ieee f) {p q m : Nat} {e : Int} (h : Finite f p q m e) (hp : 0 < p) :
    Truncated f false (1 / Real.sqrt ((p : ℝ) / q)) (truncTo f false (rsqrtFin p q).1 (rsqrtFin p q).2) := by
  have hq := h.den_pos
  have hv : (0 : ℝ) < (p : ℝ) / q := by
    have : (0 : ℝ) < q := by exact_mod_cast hq
    positivity
  have hs := le_sqrt_rootOf hp hq
  obtain ⟨hle, hlt, heq⟩ := rsqrt_bounds hp hq
  rw [rsqrtFin_eq (log2_rootOf hf h hp)]
  generalize hk : Nat.log2 p + 80 = k at *
  generalize Nat.sqrt (rootOf p q) = s at *
  have hpow : (2 : ℝ) ^ (-(k : Int)) = 1 / 2 ^ k := by rw [zpow_neg, zpow_natCast, one_div]
  by_cases hexact : s * s * p = q * 4 ^ k
  · rw [if_pos hexact, ← heq.1 hexact, hpow, mul_one_div]
    exact_mod_cast truncTo_truncated hf false (by omega : 0 < s) (Nat.two_pow_pos k)
  · rw [if_neg hexact]
    have hlow : (s : ℝ) * 2 ^ (-(k : Int)) < 1 / Real.sqrt ((p : ℝ) / q) := lt_of_le_of_ne hle fun h => hexact (heq.2 h)
    have hmid := truncTo_truncated hf false (num := 2 * s + 1) (den := 2 ^ (k + 1)) (by omega) (Nat.two_pow_pos _)
    have hval : ((2 * s + 1 : Nat) : ℝ) / (2 ^ (k + 1) : Nat) = (s + 1 / 2) * 2 ^ (-(k : Int)) := by
      rw [hpow]
      push_cast
      rw [pow_succ]
      field_simp
    rw [hval] at hmid
    have hpos : (0 : ℝ) < 2 ^ (-(k : Int)) := by positivity
    refine truncated_of_between ⟨hlow, hlt⟩ ⟨?_, ?_⟩ (by have := hf.bias.1; omega) (fun l hl hl' => ?_) hmid
    · exact mul_lt_mul_of_pos_right (by norm_num) hpos
    · exact mul_lt_mul_of_pos_right (by norm_num) hpos
    · have hemin := emin_le_of_rsqrt hf hv h.lt_top hl'
      have hbig : (2 : ℝ) ^ ((79 : Int) + -(k : Int)) < 2 ^ (l + 1) := by
        rw [zpow_add₀ (by norm_num)]
        refine lt_of_le_of_lt ?_ (hlow.trans hl')
        gcongr
        exact_mod_cast hs
      have hl79 := (zpow_lt_zpow_iff_right₀ (by norm_num : (1 : ℝ) < 2)).1 hbig
      have hmin : min f.prec 12 ≤ 12 := min_le_right _ _
      rw [stepOf, if_neg (not_lt.2 hemin)]
      omega

end Sys2Proof.Proofs.Roots
end

section
open Sys2Proof Sys2Proof.Machine
namespace Sys2Proof.Proofs.Powers
open FloatGrid Roots

/-! ### Powers of two in fixed point (R145) -/

/-- One in the fixed point of the powers. -/
def unit : ℝ := 2 ^ 192

theorem unit_pos : 0 < unit := by unfold unit; positivity

theorem unit_cast : ((2 ^ 192 : Nat) : ℝ) = unit := by
  unfold unit
  norm_num

theorem one_le_rpow {h : ℝ} (hh : 0 ≤ h) : (1 : ℝ) ≤ 2 ^ h := Real.one_le_rpow one_le_two hh

/-- A fixed-point number lies at most 3 of its last place below 2^h. -/
structure RootNear (root : Nat) (h : ℝ) : Prop where
  low : unit * 2 ^ h - 3 ≤ root
  high : root ≤ unit * 2 ^ h

/-- A fixed-point number lies below 2^g by at most j times 4 last places of a unit, in proportion. -/
structure Near (x : Nat) (g : ℝ) (j : Nat) : Prop where
  low : unit * 2 ^ g * (1 - j * (4 / unit)) ≤ x
  high : x ≤ unit * 2 ^ g

theorem log2_lt_of_rootNear {root : Nat} {h : ℝ} (hroot : RootNear root h) (h1 : h ≤ 1) : Nat.log2 (root * 2 ^ 192) < 8190 := by
  have hle : (2 : ℝ) ^ h ≤ 2 := by
    simpa using Real.rpow_le_rpow_of_exponent_le one_le_two h1
  have hroot' : root ≤ 2 ^ 193 := by
    have : (root : ℝ) ≤ 2 ^ 192 * 2 := hroot.high.trans (mul_le_mul_of_nonneg_left hle unit_pos.le)
    rw [← pow_succ] at this
    exact_mod_cast this
  by_cases h0 : root * 2 ^ 192 = 0
  · rw [h0]
    decide
  · have : Nat.log2 (root * 2 ^ 192) < 386 := (Nat.log2_lt h0).2 (by omega)
    omega

/-- A root rounded down, of a number at most 3 units below a square. -/
theorem root_bounds {u x s n : ℝ} (hu : 4 ≤ u) (hx : u ≤ x) (hs : 0 ≤ s) (hlow : s * s ≤ n) (hhigh : n < (s + 1) * (s + 1))
    (hn : n ≤ x * x) (hn' : x * x - 3 * u ≤ n) : x - 3 ≤ s ∧ s ≤ x := by
  refine ⟨?_, ?_⟩
  · by_contra hc
    nlinarith
  · by_contra hc
    nlinarith

/-- The root of a power in fixed point is the power of half the exponent. -/
theorem rootNear_isqrt {root : Nat} {h : ℝ} (hroot : RootNear root h) (h0 : 0 ≤ h) (h1 : h ≤ 1) :
    RootNear (isqrt (root * 2 ^ 192)) (h / 2) := by
  have hx : unit ≤ unit * 2 ^ (h / 2) := le_mul_of_one_le_right unit_pos.le (one_le_rpow (by linarith))
  have hsq : (unit * 2 ^ (h / 2)) * (unit * 2 ^ (h / 2)) = unit * 2 ^ h * unit := by
    rw [mul_mul_mul_comm, ← Real.rpow_add two_pos, add_halves]
    ring
  have hbig : (4 : ℝ) ≤ unit := by unfold unit; norm_num
  have hcast : ((root * 2 ^ 192 : Nat) : ℝ) = root * unit := by rw [Nat.cast_mul, unit_cast]
  have hle : (Nat.sqrt (root * 2 ^ 192) : ℝ) * Nat.sqrt (root * 2 ^ 192) ≤ root * unit := by
    rw [← hcast]
    exact_mod_cast Nat.sqrt_le (root * 2 ^ 192)
  have hlt : root * unit < ((Nat.sqrt (root * 2 ^ 192) : ℝ) + 1) * (Nat.sqrt (root * 2 ^ 192) + 1) := by
    rw [← hcast]
    exact_mod_cast Nat.lt_succ_sqrt (root * 2 ^ 192)
  have hup := mul_le_mul_of_nonneg_right hroot.high unit_pos.le
  have hdown := mul_le_mul_of_nonneg_right hroot.low unit_pos.le
  rw [isqrt_eq_sqrt (log2_lt_of_rootNear hroot h1)]
  obtain ⟨hl, hr⟩ := root_bounds hbig hx (Nat.cast_nonneg _) hle hlt (by rw [hsq]; exact hup) (by rw [hsq]; linarith)
  exact ⟨hl, hr⟩

/-- A fixed-point product. -/
theorem product_bounds (n : Nat) : (n : ℝ) / unit - 1 < (n / 2 ^ 192 : Nat) ∧ ((n / 2 ^ 192 : Nat) : ℝ) ≤ n / unit := by
  have h := Nat.lt_floor_add_one ((n : ℝ) / ((2 ^ 192 : Nat) : ℝ))
  rw [Nat.floor_div_eq_div, unit_cast] at h
  refine ⟨by linarith, ?_⟩
  rw [← unit_cast]
  exact Nat.cast_div_le

/-- The error of a product in proportion: that of its factors, and a last place. -/
theorem product_low {u a b r x t : ℝ} (hu : 0 < u) (ht : 0 ≤ t) (ht1 : t ≤ 1) (ha : u ≤ a) (hb : 1 ≤ b) (hx : a * (1 - t) ≤ x)
    (hr : u * b - 3 ≤ r) (hr0 : 0 ≤ r) : a * b * (1 - (t + 4 / u)) ≤ x * r / u - 1 := by
  have hru : b - 3 * (1 / u) ≤ r / u := by
    rw [le_div_iff₀ hu, sub_mul, mul_assoc, one_div_mul_cancel hu.ne']
    linarith
  have h1u : 1 ≤ a * b * (1 / u) := by
    rw [mul_one_div, le_div_iff₀ hu]
    nlinarith
  have hi : 0 < 1 / u := by positivity
  have hxr : a * (1 - t) * (r / u) ≤ x * r / u := by
    rw [mul_div_assoc]
    exact mul_le_mul_of_nonneg_right hx (by positivity)
  have hlow : a * (1 - t) * (b - 3 * (1 / u)) ≤ a * (1 - t) * (r / u) :=
    mul_le_mul_of_nonneg_left hru (mul_nonneg (hu.le.trans ha) (by linarith))
  have hab : 0 ≤ a * (b - 1) := mul_nonneg (hu.le.trans ha) (by linarith)
  have htu : 0 ≤ a * t * (3 * (1 / u)) := mul_nonneg (mul_nonneg (hu.le.trans ha) ht) (by positivity)
  rw [show (4 : ℝ) / u = 4 * (1 / u) by ring]
  nlinarith

/-- A factor in fixed point. -/
theorem near_mul {root acc j : Nat} {g h : ℝ} (hroot : RootNear root h) (h0 : 0 ≤ h) (hacc : Near acc g j) (g0 : 0 ≤ g)
    (hj : j ≤ 128) : Near (acc * root / 2 ^ 192) (g + h) (j + 1) := by
  obtain ⟨hlow, hhigh⟩ := product_bounds (acc * root)
  rw [Nat.cast_mul] at hlow hhigh
  have hpow : unit * 2 ^ (g + h) = unit * 2 ^ g * 2 ^ h := by rw [Real.rpow_add two_pos, mul_assoc]
  have hsmall : (j : ℝ) * (4 / unit) ≤ 1 := by
    have hj' : (j : ℝ) ≤ 128 := by exact_mod_cast hj
    calc (j : ℝ) * (4 / unit) ≤ 128 * (4 / unit) := mul_le_mul_of_nonneg_right hj' (div_nonneg (by norm_num) unit_pos.le)
      _ ≤ 1 := by unfold unit; norm_num
  refine ⟨?_, ?_⟩
  · have := product_low unit_pos (mul_nonneg (Nat.cast_nonneg j) (div_nonneg (by norm_num) unit_pos.le)) hsmall
      (le_mul_of_one_le_right unit_pos.le (one_le_rpow g0)) (one_le_rpow h0) hacc.low hroot.low (Nat.cast_nonneg _)
    rw [hpow, Nat.cast_succ, add_mul, one_mul]
    exact this.trans hlow.le
  · refine hhigh.trans ?_
    rw [div_le_iff₀ unit_pos, hpow]
    calc (acc : ℝ) * root ≤ unit * 2 ^ g * (unit * 2 ^ h) := mul_le_mul hacc.high hroot.high (Nat.cast_nonneg _)
          (mul_nonneg unit_pos.le (Real.rpow_nonneg two_pos.le _))
      _ = unit * 2 ^ g * 2 ^ h * unit := by ring

theorem Near.mono {x j k : Nat} {g : ℝ} (h : Near x g j) (hjk : j ≤ k) : Near x g k := by
  refine ⟨le_trans ?_ h.low, h.high⟩
  have hj : (j : ℝ) ≤ k := by exact_mod_cast hjk
  have hu := unit_pos
  gcongr

/-- The product of the roots over the bits of a fraction is the power of the fraction. -/
theorem near_exp2Frac (n : Nat) (hn : n ≤ 128) {t root acc j : Nat} {g h : ℝ} (ht : t < 2 ^ n) (hroot : RootNear root h) (h0 : 0 ≤ h)
    (h1 : h ≤ 1) (hacc : Near acc g j) (g0 : 0 ≤ g) (hj : j + n ≤ 128) :
    Near (exp2Frac n (t * 2 ^ (128 - n)) root acc) (g + 2 * h * (t / 2 ^ n)) (j + n) := by
  induction n generalizing t root acc j g h with
  | zero =>
    obtain rfl : t = 0 := by omega
    simpa [exp2Frac] using hacc
  | succ n ih =>
    have h127 : 2 ^ 127 = 2 ^ n * 2 ^ (128 - (n + 1)) := by rw [← Nat.pow_add]; congr 1; omega
    have hstep : t * 2 ^ (128 - (n + 1)) * 2 = t * 2 ^ (128 - n) := by
      rw [Nat.mul_assoc, ← Nat.pow_succ]
      congr 2
      omega
    have hrest : t * 2 ^ (128 - (n + 1)) * 2 % 2 ^ 128 = t % 2 ^ n * 2 ^ (128 - n) := by
      rw [hstep, show 2 ^ 128 = 2 ^ n * 2 ^ (128 - n) by rw [← Nat.pow_add]; congr 1; omega, Nat.mul_mod_mul_right]
    have hbit : 2 ^ 127 ≤ t * 2 ^ (128 - (n + 1)) ↔ 2 ^ n ≤ t := by
      rw [h127, Nat.mul_le_mul_right_iff (Nat.two_pow_pos _)]
    have hroot' := rootNear_isqrt hroot h0 h1
    have hpow : (2 : ℝ) ^ (n + 1) = 2 * 2 ^ n := pow_succ' _ _
    have hmod : t % 2 ^ n < 2 ^ n := Nat.mod_lt _ (Nat.two_pow_pos _)
    rw [exp2Frac, hrest, show j + (n + 1) = j + 1 + n by omega]
    by_cases hb : 2 ^ n ≤ t
    · have hsplit : (t : ℝ) = 2 ^ n + (t % 2 ^ n : Nat) := by
        rw [Nat.mod_eq_sub_mod hb, Nat.mod_eq_of_lt (by rw [Nat.pow_succ] at ht; omega), Nat.cast_sub hb]
        push_cast
        ring
      rw [if_pos (hbit.2 hb)]
      have := ih (by omega) hmod hroot' (by linarith) (by linarith) (near_mul hroot h0 hacc g0 (by omega)) (by linarith) (by omega)
      convert this using 1
      rw [hsplit, hpow]
      field_simp
      ring
    · rw [if_neg fun h => hb (hbit.1 h)]
      have := ih (by omega) hmod hroot' (by linarith) (by linarith) (hacc.mono (Nat.le_succ j)) g0 (by omega)
      convert this using 1
      rw [Nat.mod_eq_of_lt (not_le.1 hb), hpow]
      field_simp

/-- The first root, of two. -/
theorem rootNear_two : RootNear (isqrt (2 ^ 385)) (1 / 2) := by
  have h : RootNear (2 ^ 193) 1 := by
    have hv : unit * 2 ^ (1 : ℝ) = ((2 ^ 193 : Nat) : ℝ) := by
      rw [Real.rpow_one]
      unfold unit
      norm_num
    exact ⟨by rw [hv]; linarith, by rw [hv]⟩
  exact rootNear_isqrt h zero_le_one le_rfl

/-- The power of a fraction of 128 bits. -/
theorem near_power {t : Nat} (ht : t < 2 ^ 128) : Near (exp2Frac 128 t (isqrt (2 ^ 385)) (2 ^ 192)) (t / 2 ^ 128) 128 := by
  have hone : Near (2 ^ 192) 0 0 := by
    have : ((2 ^ 192 : Nat) : ℝ) = unit := unit_cast
    exact ⟨by rw [this]; simp, by rw [this]; simp⟩
  have := near_exp2Frac 128 le_rfl ht rootNear_two (by norm_num) (by norm_num) hone le_rfl le_rfl
  simpa using this

/-! ### The approximation of 2^a (R145) -/

/-- Within 2^-100 of a number, in proportion. -/
def Close (z v : ℝ) : Prop := |z - v| ≤ 2 ^ (-100 : ℤ) * |v|

theorem close_refl (v : ℝ) : Close v v := by
  rw [Close, sub_self, abs_zero]
  positivity

theorem close_of_bounds {z v : ℝ} (hv : 0 < v) (hlow : v * (1 - 2 ^ (-100 : ℤ)) ≤ z) (hhigh : z ≤ v * (1 + 2 ^ (-100 : ℤ))) :
    Close z v := by
  rw [Close, abs_of_pos hv, abs_le]
  constructor <;> linarith

/-- The whole and the fractional part of x/q, as the power takes them. -/
theorem parts_eq (x : Int) {q : Nat} (hq : 0 < q) : (x : ℝ) / q = (x / q : Int) + ((x % q).toNat : ℝ) / q ∧ (x % q).toNat < q := by
  have hq' : (q : Int) ≠ 0 := by exact_mod_cast hq.ne'
  have hnn : 0 ≤ x % q := Int.emod_nonneg _ hq'
  have hlt : x % q < q := Int.emod_lt_of_pos _ (by exact_mod_cast hq)
  have hsplit : (x : ℝ) = q * (x / q : Int) + (x % q).toNat := by
    have h := Int.mul_ediv_add_emod x q
    have hcast : (((x % q).toNat : Int) : ℝ) = ((x % q : Int) : ℝ) := by rw [Int.toNat_of_nonneg hnn]
    rw [Int.cast_natCast] at hcast
    rw [hcast]
    exact_mod_cast h.symm
  refine ⟨?_, by omega⟩
  have : (q : ℝ) ≠ 0 := by exact_mod_cast hq.ne'
  rw [div_eq_iff this, hsplit]
  field_simp

/-- What fpExp2 delivers of x/q. -/
def exp2Of (f : Fmt) (x : Int) (q : Nat) : Nat × BitVec 5 :=
  if f.bias + 1 ≤ x / q then (infPat f false, fOF ||| fNX)
  else if x / q < f.emin - f.prec - 1 then (encodeFin f false 0 0, fNX ||| fUF)
  else if (x % q).toNat = 0 then truncTo f false (scale2 1 1 (x / q)).1 (scale2 1 1 (x / q)).2
  else
    let m := exp2Frac 128 ((x % q).toNat * 2 ^ 128 / q) (isqrt (2 ^ 385)) (2 ^ 192)
    truncTo f false (scale2 (2 * m + 1) (2 ^ 193) (x / q)).1 (scale2 (2 * m + 1) (2 ^ 193) (x / q)).2

theorem truncTo_scale2 {f : Fmt} (hf : Ieee f) (neg : Bool) {num den : Nat} (hn : 0 < num) (hd : 0 < den) (e : Int) :
    Truncated f neg ((num : ℝ) / den * 2 ^ e) (truncTo f neg (scale2 num den e).1 (scale2 num den e).2) := by
  rw [← scale2_value]
  exact truncTo_truncated hf neg (scale2_num_pos hn e) (scale2_pos hd e)

/-- A number far below the least subnormal one is truncated to zero. -/
theorem truncated_zero {f : Fmt} (hf : Ieee f) {z : ℝ} (hz : 0 < z) (hlt : z < 2 ^ (f.emin - f.prec + 1)) :
    Truncated f false z (encodeFin f false 0 0, fNX ||| fUF) := by
  have hb := hf.bias.1
  have hemin : f.emin = 1 - f.bias := rfl
  have hbin {l : Int} (hl : (2 : ℝ) ^ l ≤ z) : l < f.emin - f.prec + 1 :=
    (zpow_lt_zpow_iff_right₀ (by norm_num : (1 : ℝ) < 2)).1 (hl.trans_lt hlt)
  refine (truncated_iff ..).2 ⟨fun h => ?_, fun l hl _ _ => ?_⟩
  · have := hbin h
    omega
  · have hl' : l < f.emin := by have := hbin hl; have := hf.mb.1; rw [Fmt.prec] at *; omega
    have hstep : stepOf f l = f.emin - f.prec + 1 := if_pos hl'
    have hfloor : ⌊z / 2 ^ stepOf f l⌋ = 0 := by
      rw [Int.floor_eq_zero_iff, hstep]
      exact ⟨by positivity, (div_lt_one (by positivity)).2 hlt⟩
    have h0 := encodes_below hf false (q := 0) (e := 0) (by have := hf.mb.1; omega) (by rw [Nat.cast_zero, zero_mul]; positivity)
    rw [Nat.cast_zero, zero_mul] at h0
    rw [TruncatedAt, hfloor, if_pos hl', Int.cast_zero, zero_mul]
    refine ⟨h0, fun _ => ?_, fun h => absurd h hz.ne, fun _ => rfl⟩
    show encodeFin f false 0 0 = _
    rw [encodeFin_zero hf, fieldsPat]
    simp

/-- The power of the fraction that is taken for a number, and of the number. -/
theorem power_close {r q : Nat} (hr : r < q) :
    Close (((2 * exp2Frac 128 (r * 2 ^ 128 / q) (isqrt (2 ^ 385)) (2 ^ 192) + 1 : Nat) : ℝ) / (2 ^ 193 : Nat)) (2 ^ ((r : ℝ) / q)) := by
  have hq : (0 : ℝ) < q := by exact_mod_cast (Nat.zero_le r).trans_lt hr
  have hlt : r * 2 ^ 128 / q < 2 ^ 128 := by
    rw [Nat.div_lt_iff_lt_mul (by omega), Nat.mul_comm]
    exact Nat.mul_lt_mul_of_pos_left hr (Nat.two_pow_pos _)
  have hnear := near_power hlt
  have hle : ((r * 2 ^ 128 / q : Nat) : ℝ) / 2 ^ 128 ≤ (r : ℝ) / q := by
    rw [div_le_div_iff₀ (by positivity) hq]
    exact_mod_cast Nat.div_mul_le_self _ _
  have hge : (r : ℝ) / q ≤ ((r * 2 ^ 128 / q : Nat) : ℝ) / 2 ^ 128 + 1 / 2 ^ 128 := by
    rw [← add_div, div_le_div_iff₀ hq (by positivity)]
    have : r * 2 ^ 128 ≤ (r * 2 ^ 128 / q + 1) * q := by
      rw [Nat.mul_comm (_ + 1)]
      exact (Nat.lt_mul_div_succ (r * 2 ^ 128) (show 0 < q by omega)).le
    exact_mod_cast this
  have hg : 0 ≤ ((r * 2 ^ 128 / q : Nat) : ℝ) / 2 ^ 128 := by positivity
  generalize exp2Frac 128 (r * 2 ^ 128 / q) (isqrt (2 ^ 385)) (2 ^ 192) = m at *
  generalize ((r * 2 ^ 128 / q : Nat) : ℝ) / 2 ^ 128 = g at *
  generalize (r : ℝ) / q = v at *
  have hx : (1 : ℝ) ≤ 2 ^ g := one_le_rpow hg
  have hxy : (2 : ℝ) ^ g ≤ 2 ^ v := Real.rpow_le_rpow_of_exponent_le one_le_two hle
  have hyx : (2 : ℝ) ^ v ≤ 2 ^ g * (1 + 1 / 2 ^ 128) := by
    rw [show v = g + (v - g) by ring, Real.rpow_add two_pos]
    have hbern := rpow_one_add_le_one_add_mul_self (s := 1) (p := v - g) (by norm_num) (by linarith) (by norm_num at hge; linarith)
    rw [one_add_one_eq_two, mul_one] at hbern
    gcongr
    linarith
  obtain ⟨hlow, hhigh⟩ := hnear
  have hz : ((2 * m + 1 : Nat) : ℝ) / (2 ^ 193 : Nat) = (m + 1 / 2) / unit := by
    have : ((2 ^ 193 : Nat) : ℝ) = 2 * unit := by
      unfold unit
      norm_num
    rw [this]
    push_cast
    have := unit_pos.ne'
    field_simp
  rw [hz]
  have hu : unit = 2 ^ 192 := rfl
  generalize (2 : ℝ) ^ g = a at *
  generalize (2 : ℝ) ^ v = b at *
  refine close_of_bounds (by linarith) ?_ ?_
  · rw [le_div_iff₀ unit_pos]
    rw [hu] at hlow ⊢
    norm_num at hlow hyx ⊢
    linarith
  · rw [div_le_iff₀ unit_pos]
    rw [hu] at hhigh ⊢
    norm_num at hhigh ⊢
    linarith

section
variable {f : Fmt} (hf : Ieee f) (x : Int) {q : Nat} (hq : 0 < q)
include hf hq

theorem exp2Of_truncated : ∃ z : ℝ, Close z (2 ^ ((x : ℝ) / q)) ∧ ((∃ n : ℤ, (x : ℝ) / q = n) → z = 2 ^ ((x : ℝ) / q)) ∧
    Truncated f false z (exp2Of f x q) := by
  obtain ⟨hv, hr⟩ := parts_eq x hq
  unfold exp2Of
  generalize x / (q : Int) = w at *
  generalize (x % q).toNat = r at *
  have hq' : (0 : ℝ) < q := by exact_mod_cast hq
  have hfrac : 0 ≤ (r : ℝ) / q := by positivity
  have hfrac1 : (r : ℝ) / q < 1 := (div_lt_one hq').2 (by exact_mod_cast hr)
  have hsplit : (2 : ℝ) ^ ((x : ℝ) / q) = 2 ^ ((r : ℝ) / q) * 2 ^ w := by
    rw [hv, Real.rpow_add two_pos, Real.rpow_intCast, mul_comm]
  have hpow : (0 : ℝ) < 2 ^ w := by positivity
  by_cases h1 : f.bias + 1 ≤ w
  · rw [if_pos h1]
    refine ⟨_, close_refl _, fun _ => rfl, (truncated_iff ..).2 ⟨fun _ => rfl, fun l _ hl' hb => ?_⟩⟩
    have hle : (2 : ℝ) ^ w ≤ 2 ^ ((x : ℝ) / q) := by
      rw [hsplit]
      exact le_mul_of_one_le_left hpow.le (one_le_rpow hfrac)
    have := (zpow_lt_zpow_iff_right₀ (by norm_num : (1 : ℝ) < 2)).1 (hle.trans_lt hl')
    omega
  rw [if_neg h1]
  by_cases h2 : w < f.emin - f.prec - 1
  · rw [if_pos h2]
    refine ⟨_, close_refl _, fun _ => rfl, truncated_zero hf (by positivity) ?_⟩
    calc (2 : ℝ) ^ ((x : ℝ) / q) ≤ 2 * 2 ^ w := by
          rw [hsplit]
          gcongr
          simpa using Real.rpow_le_rpow_of_exponent_le one_le_two hfrac1.le
      _ = 2 ^ (w + 1) := by rw [zpow_add_one₀ (by norm_num), mul_comm]
      _ < 2 ^ (f.emin - f.prec + 1) := zpow_lt_zpow_right₀ (by norm_num) (by omega)
  rw [if_neg h2]
  by_cases h3 : r = 0
  · rw [if_pos h3]
    have hexact : (2 : ℝ) ^ ((x : ℝ) / q) = ((1 : Nat) : ℝ) / (1 : Nat) * 2 ^ w := by
      rw [hsplit, h3]
      simp
    exact ⟨_, close_refl _, fun _ => rfl, hexact ▸ truncTo_scale2 hf false one_pos one_pos w⟩
  · rw [if_neg h3]
    refine ⟨_, ?_, fun ⟨n, hn⟩ => ?_, truncTo_scale2 hf false (Nat.succ_pos _) (Nat.two_pow_pos _) w⟩
    · rw [hsplit, Close, ← sub_mul, abs_mul, abs_mul, ← mul_assoc]
      exact mul_le_mul_of_nonneg_right (power_close hr) (abs_nonneg _)
    · have hpos : 0 < (r : ℝ) / q := div_pos (by exact_mod_cast Nat.pos_of_ne_zero h3) hq'
      have hlow : (w : ℝ) < n := by linarith
      have hhigh : (n : ℝ) < w + 1 := by linarith
      have hlow' : w < n := by exact_mod_cast hlow
      have hhigh' : n < w + 1 := by exact_mod_cast hhigh
      omega

end

end Sys2Proof.Proofs.Powers
end

section
open Sys2Proof Sys2Proof.Machine
namespace Sys2Proof.Proofs.Logarithms
open FloatGrid Roots Powers

/-! ### Logarithms in fixed point (R145) -/

/-- One in the fixed point of the logarithms. -/
@[irreducible] def oneNat : Nat := 2 ^ 512

theorem oneNat_eq : oneNat = 2 ^ 512 := by unfold oneNat; rfl

theorem oneNat_pos : 0 < oneNat := oneNat_eq ▸ Nat.two_pow_pos _

/-- The same, as a real number. -/
def one : ℝ := oneNat

theorem one_pos : 0 < one := Nat.cast_pos.2 oneNat_pos

/-- The logarithm of a number in the fixed point. -/
noncomputable def logOf (y : ℝ) : ℝ := Real.logb 2 (y / one)

theorem logb_one_add_le {t : ℝ} (ht : 0 ≤ t) : Real.logb 2 (1 + t) ≤ 2 * t := by
  have hlog : Real.log (1 + t) ≤ t := by
    have := Real.log_le_sub_one_of_pos (show 0 < 1 + t by linarith)
    linarith
  have h2 := Real.log_two_gt_d9
  rw [Real.logb, div_le_iff₀ (by linarith)]
  nlinarith

/-- What a number rounded down to the fixed point loses of its logarithm. -/
theorem logOf_floor {m : Nat} {y : ℝ} (hm : one ≤ m) (hlow : m ≤ y) (hhigh : y < m + 1) :
    logOf m ≤ logOf y ∧ logOf y ≤ logOf m + 2 / one := by
  have hone := one_pos
  have hm0 : (0 : ℝ) < m := hone.trans_le hm
  have hy0 : 0 < y := hm0.trans_le hlow
  refine ⟨Real.logb_le_logb_of_le one_lt_two (by positivity) (by gcongr), ?_⟩
  have hsplit : (m + 1) / one = m / one * (1 + 1 / m) := by field_simp
  calc logOf y ≤ Real.logb 2 ((m + 1) / one) := Real.logb_le_logb_of_le one_lt_two (by positivity) (by gcongr)
    _ = logOf m + Real.logb 2 (1 + 1 / m) := by rw [hsplit, Real.logb_mul (by positivity) (by positivity)]; rfl
    _ ≤ logOf m + 2 * (1 / m) := by gcongr; exact logb_one_add_le (by positivity)
    _ ≤ logOf m + 2 * (1 / one) := by gcongr
    _ = logOf m + 2 / one := by ring

/-- A number of the fixed point between one and two. -/
def Mantissa (m : Nat) : Prop := oneNat ≤ m ∧ m < 2 * oneNat

theorem Mantissa.bounds {m : Nat} (h : Mantissa m) : one ≤ m ∧ (m : ℝ) < 2 * one := by
  unfold one
  exact ⟨by exact_mod_cast h.1, by exact_mod_cast h.2⟩

theorem logOf_mantissa {m : Nat} (h : Mantissa m) : 0 ≤ logOf m ∧ logOf m < 1 := by
  obtain ⟨hlow, hhigh⟩ := h.bounds
  have hone := one_pos
  refine ⟨Real.logb_nonneg one_lt_two ((one_le_div hone).2 hlow), ?_⟩
  rw [logOf, Real.logb_lt_iff_lt_rpow one_lt_two (div_pos (hone.trans_le hlow) hone), Real.rpow_one, div_lt_iff₀ hone]
  exact hhigh

theorem logOf_sq {m : ℝ} (hm : 0 < m) : logOf (m * m / one) = 2 * logOf m := by
  have hone := one_pos
  have : m * m / one / one = m / one * (m / one) := by field_simp
  rw [logOf, this, Real.logb_mul (by positivity) (by positivity), logOf]
  ring

theorem logOf_half {y : ℝ} (hy : 0 < y) : logOf (y / 2) = logOf y - 1 := by
  have hone := one_pos
  have : y / 2 / one = y / one / 2 := by ring
  rw [logOf, this, Real.logb_div (by positivity) two_ne_zero, Real.logb_self_eq_one one_lt_two, logOf]

theorem square_bounds (m : Nat) : ((m * m / oneNat : Nat) : ℝ) ≤ m * m / one ∧ (m : ℝ) * m / one < (m * m / oneNat : Nat) + 1 := by
  have h := Nat.lt_floor_add_one (((m * m : Nat) : ℝ) / (oneNat : ℝ))
  have h' := Nat.cast_div_le (α := ℝ) (m := m * m) (n := oneNat)
  rw [Nat.floor_div_eq_div, Nat.cast_mul] at h
  rw [Nat.cast_mul] at h'
  exact ⟨h', h⟩

/-- The square of a mantissa, in halves where it is two or more, is one; its logarithm is twice that of the mantissa, less the bit. -/
theorem square_step {m : Nat} (h : Mantissa m) :
    if 2 * oneNat ≤ m * m / oneNat then Mantissa (m * m / oneNat / 2) ∧ logOf (m * m / oneNat / 2 : Nat) ≤ 2 * logOf m - 1 ∧
      2 * logOf m - 1 ≤ logOf (m * m / oneNat / 2 : Nat) + 2 / one
    else Mantissa (m * m / oneNat) ∧ logOf (m * m / oneNat : Nat) ≤ 2 * logOf m ∧
      2 * logOf m ≤ logOf (m * m / oneNat : Nat) + 2 / one := by
  have hm : (0 : ℝ) < m := one_pos.trans_le h.bounds.1
  have hone := one_pos
  obtain ⟨hlow, hhigh⟩ := square_bounds m
  have hge : oneNat ≤ m * m / oneNat := by
    rw [Nat.le_div_iff_mul_le oneNat_pos]
    exact Nat.mul_le_mul h.1 h.1
  have hlt : m * m / oneNat < 4 * oneNat := by
    rw [Nat.div_lt_iff_lt_mul oneNat_pos]
    calc m * m < 2 * oneNat * (2 * oneNat) := Nat.mul_lt_mul'' h.2 h.2
      _ = 4 * oneNat * oneNat := by ring
  rw [← logOf_sq hm]
  have hy : 0 < (m : ℝ) * m / one := by positivity
  generalize m * m / oneNat = s at *
  generalize (m : ℝ) * m / one = y at *
  by_cases hs : 2 * oneNat ≤ s
  · rw [if_pos hs, ← logOf_half hy]
    have hhalf : Mantissa (s / 2) := ⟨by omega, by omega⟩
    have hs2 : s = 2 * (s / 2) ∨ s = 2 * (s / 2) + 1 := by omega
    have hcast : (2 * (s / 2 : Nat) : ℝ) ≤ s ∧ (s : ℝ) ≤ 2 * (s / 2 : Nat) + 1 := by
      constructor
      · exact_mod_cast Nat.mul_div_le s 2
      · have : s ≤ 2 * (s / 2) + 1 := by omega
        exact_mod_cast this
    exact ⟨hhalf, logOf_floor hhalf.bounds.1 (by linarith) (by linarith)⟩
  · rw [if_neg hs]
    have hfull : Mantissa s := ⟨hge, not_le.1 hs⟩
    exact ⟨hfull, logOf_floor hfull.bounds.1 hlow hhigh⟩

/-- The bits of a logarithm, by as many squares. -/
theorem log2Bits_bounds (n : Nat) {m : Nat} (h : Mantissa m) (acc : Nat) :
    (log2Bits n m acc : ℝ) - acc * 2 ^ n ≤ 2 ^ n * logOf m ∧
      2 ^ n * logOf m ≤ log2Bits n m acc - acc * 2 ^ n + 1 + (2 ^ n - 1) * (2 / one) := by
  induction n generalizing m acc with
  | zero =>
    obtain ⟨h0, h1⟩ := logOf_mantissa h
    simp only [log2Bits, pow_zero]
    constructor <;> linarith
  | succ n ih =>
    have hstep := square_step h
    have hpow : (0 : ℝ) < 2 ^ n := by positivity
    have h513 : 2 ^ 513 = 2 * oneNat := by rw [oneNat_eq]; exact pow_succ' 2 512
    rw [pow_succ, log2Bits]
    rw [h513, ← oneNat_eq]
    by_cases hs : 2 * oneNat ≤ m * m / oneNat
    · rw [if_pos hs] at hstep ⊢
      obtain ⟨hm, hlow, hhigh⟩ := hstep
      obtain ⟨ihl, ihh⟩ := ih hm (2 * acc + 1)
      have h1 := mul_le_mul_of_nonneg_left hlow hpow.le
      have h2 := mul_le_mul_of_nonneg_left hhigh hpow.le
      push_cast at ihl ihh
      constructor <;> nlinarith
    · rw [if_neg hs] at hstep ⊢
      obtain ⟨hm, hlow, hhigh⟩ := hstep
      obtain ⟨ihl, ihh⟩ := ih hm (2 * acc)
      have h1 := mul_le_mul_of_nonneg_left hlow hpow.le
      have h2 := mul_le_mul_of_nonneg_left hhigh hpow.le
      push_cast at ihl ihh
      constructor <;> nlinarith

/-! ### The approximation of log2 a (R145) -/

/-- The mantissa of num/den in the fixed point, and its logarithm. -/
theorem mantissa_of {num den : Nat} (hd : 0 < den) (hlow : den ≤ num) (hhigh : num < 2 * den) :
    Mantissa (num * oneNat / den) ∧ logOf (num * oneNat / den : Nat) ≤ Real.logb 2 ((num : ℝ) / den) ∧
      Real.logb 2 ((num : ℝ) / den) ≤ logOf (num * oneNat / den : Nat) + 2 / one := by
  have hd' : (0 : ℝ) < den := by exact_mod_cast hd
  have hman : Mantissa (num * oneNat / den) := by
    refine ⟨(Nat.le_div_iff_mul_le hd).2 ?_, (Nat.div_lt_iff_lt_mul hd).2 ?_⟩
    · rw [Nat.mul_comm]
      exact Nat.mul_le_mul_right _ hlow
    · calc num * oneNat < 2 * den * oneNat := Nat.mul_lt_mul_of_pos_right hhigh oneNat_pos
        _ = 2 * oneNat * den := by ring
  have hval : (num : ℝ) / den = (num * oneNat : Nat) / den / one := by
    have := one_pos.ne'
    rw [Nat.cast_mul]
    show _ = num * one / den / one
    field_simp
  have h1 := Nat.cast_div_le (α := ℝ) (m := num * oneNat) (n := den)
  have h2 := Nat.lt_floor_add_one (((num * oneNat : Nat) : ℝ) / (den : ℝ))
  rw [Nat.floor_div_eq_div] at h2
  rw [hval]
  exact ⟨hman, logOf_floor hman.bounds.1 h1 h2⟩

/-- The numbers that the bits stand for. -/
def fixedLog (k : Int) (b : Nat) : Int := k * (2 ^ 201 : Nat) + (2 * b + 1 : Nat)

/-- 200 bits of a logarithm, and half of the next place. -/
theorem fixedLog_bounds {k : Int} {num den : Nat} (hd : 0 < den) (hlow : den ≤ num) (hhigh : num < 2 * den) :
    log2Bits 200 (num * oneNat / den) 0 < 2 ^ 200 ∧
      |(fixedLog k (log2Bits 200 (num * oneNat / den) 0) : ℝ) / 2 ^ 201 - (k + Real.logb 2 ((num : ℝ) / den))| ≤ 2 ^ (-199 : ℤ) := by
  obtain ⟨hman, hl, hh⟩ := mantissa_of hd hlow hhigh
  obtain ⟨-, hlt⟩ := logOf_mantissa hman
  obtain ⟨hb, hb'⟩ := log2Bits_bounds 200 hman 0
  have heps : 2 / one ≤ 1 / 2 ^ 202 := by
    have hge : ((2 ^ 203 : Nat) : ℝ) ≤ one := by
      unfold one
      rw [oneNat_eq, Nat.cast_le]
      exact Nat.pow_le_pow_right (by omega) (by omega)
    have h203 : ((2 ^ 203 : Nat) : ℝ) = 2 * 2 ^ 202 := by norm_num
    rw [div_le_div_iff₀ one_pos (by positivity)]
    linarith
  have hnat : log2Bits 200 (num * oneNat / den) 0 < 2 ^ 200 := by
    have : (log2Bits 200 (num * oneNat / den) 0 : ℝ) < 2 ^ 200 := by
      rw [Nat.cast_zero, zero_mul, sub_zero] at hb
      refine hb.trans_lt ?_
      have : (0 : ℝ) < 2 ^ 200 := by positivity
      nlinarith
    exact_mod_cast this
  refine ⟨hnat, ?_⟩
  have hcast (b : Nat) : (fixedLog k b : ℝ) / 2 ^ 201 = k + (2 * b + 1) / 2 ^ 201 := by
    rw [fixedLog]
    push_cast
    field_simp
    norm_num
  rw [hcast]
  generalize log2Bits 200 (num * oneNat / den) 0 = b at *
  generalize logOf (num * oneNat / den : Nat) = x at *
  generalize Real.logb 2 ((num : ℝ) / den) = y at *
  generalize 2 / one = ε at *
  rw [Nat.cast_zero, zero_mul, sub_zero] at hb hb'
  norm_num at hb hb' heps
  rw [abs_le]
  norm_num
  constructor <;> linarith

/-- A number of 53 bits is a whole number, or one over a power of two. -/
theorem value_cases (m : Nat) (e : Int) : (∃ n : Nat, (m : ℝ) * 2 ^ e = n) ∨ ∃ j : Nat, (m : ℝ) * 2 ^ e = m / 2 ^ j := by
  rcases le_or_gt 0 e with he | he
  · exact .inl ⟨m * 2 ^ e.toNat, by rw [two_zpow_toNat he]; push_cast; rfl⟩
  · refine .inr ⟨(-e).toNat, ?_⟩
    rw [← two_zpow_toNat (show 0 ≤ -e by omega), zpow_neg, div_inv_eq_mul]

/-- Numbers of 53 bits that are not one keep a distance from it. -/
theorem le_of_one_lt {m : Nat} {e : Int} (hm : m < 2 ^ 53) (h : (1 : ℝ) < m * 2 ^ e) : 1 + 1 / 2 ^ 53 ≤ (m : ℝ) * 2 ^ e := by
  rcases value_cases m e with ⟨n, hn⟩ | ⟨j, hj⟩
  · rw [hn] at h ⊢
    have : 2 ≤ n := by exact_mod_cast h
    have : (2 : ℝ) ≤ n := by exact_mod_cast this
    norm_num
    linarith
  · rw [hj] at h ⊢
    have hj0 : (0 : ℝ) < 2 ^ j := by positivity
    have hlt : 2 ^ j < m := by
      rw [one_lt_div hj0] at h
      exact_mod_cast h
    have hj53 : (2 : ℝ) ^ j ≤ 2 ^ 53 := by exact_mod_cast (hlt.trans hm).le
    have hge : (2 : ℝ) ^ j + 1 ≤ m := by exact_mod_cast hlt
    calc 1 + 1 / 2 ^ 53 ≤ 1 + 1 / (2 : ℝ) ^ j := by gcongr
      _ = (2 ^ j + 1) / 2 ^ j := by field_simp
      _ ≤ m / 2 ^ j := by gcongr

theorem le_of_lt_one {m : Nat} {e : Int} (hm : m < 2 ^ 53) (h0 : (0 : ℝ) < m * 2 ^ e) (h : (m : ℝ) * 2 ^ e < 1) :
    (m : ℝ) * 2 ^ e ≤ 1 - 1 / 2 ^ 53 := by
  rcases value_cases m e with ⟨n, hn⟩ | ⟨j, hj⟩
  · rw [hn] at h0 h
    have h1 : 0 < n := by exact_mod_cast h0
    have h2 : n < 1 := by exact_mod_cast h
    omega
  · rw [hj] at h ⊢
    have hj0 : (0 : ℝ) < 2 ^ j := by positivity
    have hlt : m < 2 ^ j := by
      rw [div_lt_one hj0] at h
      exact_mod_cast h
    have hle : (m : ℝ) + 1 ≤ 2 ^ 53 := by exact_mod_cast hm
    have hle' : (m : ℝ) + 1 ≤ 2 ^ j := by exact_mod_cast hlt
    rw [div_le_iff₀ hj0]
    rcases le_total ((2 : ℝ) ^ j) (2 ^ 53) with hj53 | hj53
    · have : (2 : ℝ) ^ j * (1 / 2 ^ 53) ≤ 1 := by
        rw [mul_one_div, div_le_one (by positivity)]
        exact hj53
      linarith
    · norm_num at hle hj53 ⊢
      linarith

/-- A logarithm is no smaller than the distance of its number from one. -/
theorem le_logb_one_add {t : ℝ} (h0 : 0 ≤ t) (h1 : t ≤ 1) : t ≤ Real.logb 2 (1 + t) := by
  rw [Real.le_logb_iff_rpow_le one_lt_two (by linarith)]
  have := rpow_one_add_le_one_add_mul_self (s := 1) (p := t) (by norm_num) h0 h1
  rwa [one_add_one_eq_two, mul_one] at this

theorem logb_one_sub_le {t : ℝ} (h0 : 0 ≤ t) (h1 : t < 1) : Real.logb 2 (1 - t) ≤ -t := by
  have hlog := Real.log_le_sub_one_of_pos (show 0 < 1 - t by linarith)
  have h2 := Real.log_two_lt_d9
  rw [Real.logb, div_le_iff₀ (Real.log_pos one_lt_two)]
  nlinarith

/-- The logarithm of a number of 53 bits that is not one is at least 2^-53. -/
theorem le_abs_logb {m : Nat} {e : Int} (hm : m < 2 ^ 53) (h0 : (0 : ℝ) < m * 2 ^ e) (h1 : (m : ℝ) * 2 ^ e ≠ 1) :
    1 / 2 ^ 53 ≤ |Real.logb 2 (m * 2 ^ e)| := by
  rcases h1.lt_or_gt with h | h
  · have hle := Real.logb_le_logb_of_le one_lt_two h0 (le_of_lt_one hm h0 h)
    refine le_trans ?_ (neg_le_abs _)
    have := logb_one_sub_le (t := 1 / 2 ^ 53) (by positivity) (by norm_num)
    linarith
  · have hle := Real.logb_le_logb_of_le one_lt_two (by positivity) (le_of_one_lt hm h)
    refine le_trans ?_ (le_abs_self _)
    exact (le_logb_one_add (by positivity) (by norm_num)).trans hle

/-- What fpLog2 delivers of p/q. -/
def log2Of (f : Fmt) (p q : Nat) : Nat × BitVec 5 :=
  let m := scale2 p q (-floorLog2 p q)
  if m.1 = m.2 then
    (if floorLog2 p q = 0 then (encodeFin f false 0 0, 0)
     else truncTo f (floorLog2 p q < 0) (floorLog2 p q).natAbs 1)
  else
    let x := fixedLog (floorLog2 p q) (log2Bits 200 (m.1 * oneNat / m.2) 0)
    truncTo f (x < 0) x.natAbs (2 ^ 201)

/-- The binade of p/q and what p/q is in it. -/
structure Scaled (p q : Nat) (k : Int) (num den : Nat) : Prop where
  den_pos : 0 < den
  low : den ≤ num
  high : num < 2 * den
  value : (p : ℝ) / q = num / den * 2 ^ k

theorem scaled_of {p q : Nat} (hp : 0 < p) (hq : 0 < q) :
    Scaled p q (floorLog2 p q) (scale2 p q (-floorLog2 p q)).1 (scale2 p q (-floorLog2 p q)).2 := by
  obtain ⟨hlow, hhigh⟩ := floorLog2_spec hp hq
  have hval := scale2_value p q (-floorLog2 p q)
  have hden := scale2_pos (num := p) hq (-floorLog2 p q)
  generalize floorLog2 p q = k at *
  generalize (scale2 p q (-k)).1 = num at *
  generalize (scale2 p q (-k)).2 = den at *
  have hpow : (0 : ℝ) < 2 ^ k := by positivity
  have hden' : (0 : ℝ) < den := by exact_mod_cast hden
  have hv : (p : ℝ) / q = num / den * 2 ^ k := by rw [hval, mul_assoc, ← zpow_add₀ (by norm_num), neg_add_cancel, zpow_zero, mul_one]
  rw [hv] at hlow hhigh
  refine ⟨hden, ?_, ?_, hv⟩
  · have : 1 ≤ (num : ℝ) / den := by
      refine le_of_mul_le_mul_right ?_ hpow
      rwa [one_mul]
    rw [one_le_div hden'] at this
    exact_mod_cast this
  · have : (num : ℝ) / den < 2 := by
      refine lt_of_mul_lt_mul_right ?_ hpow.le
      rwa [zpow_add_one₀ (by norm_num), mul_comm _ (2 : ℝ)] at hhigh
    rw [div_lt_iff₀ hden'] at this
    exact_mod_cast this

section
variable {p q num den : Nat} {k : Int} (h : Scaled p q k num den)
include h

theorem Scaled.ratio : 1 ≤ (num : ℝ) / den ∧ (num : ℝ) / den < 2 := by
  have hden : (0 : ℝ) < den := by exact_mod_cast h.den_pos
  rw [one_le_div hden, div_lt_iff₀ hden]
  exact ⟨by exact_mod_cast h.low, by exact_mod_cast h.high⟩

theorem Scaled.logb : Real.logb 2 ((p : ℝ) / q) = k + Real.logb 2 ((num : ℝ) / den) := by
  have hr : (0 : ℝ) < num / den := zero_lt_one.trans_le h.ratio.1
  rw [h.value, Real.logb_mul hr.ne' (by positivity), ← Real.rpow_intCast, Real.logb_rpow two_pos one_lt_two.ne',
    add_comm]

theorem Scaled.lt_one : (p : ℝ) / q < 1 ↔ k < 0 := by
  obtain ⟨hlow, hhigh⟩ := h.ratio
  have hpow : (0 : ℝ) < 2 ^ k := by positivity
  rw [h.value]
  refine ⟨fun hlt => ?_, fun hk => ?_⟩
  · have : (2 : ℝ) ^ k < 2 ^ (0 : ℤ) := by
      rw [zpow_zero]
      exact (le_mul_of_one_le_left hpow.le hlow).trans_lt hlt
    exact (zpow_lt_zpow_iff_right₀ (by norm_num : (1 : ℝ) < 2)).1 this
  · calc (num : ℝ) / den * 2 ^ k < 2 * 2 ^ k := by gcongr
      _ = 2 ^ (k + 1) := by rw [zpow_add_one₀ (by norm_num), mul_comm]
      _ ≤ 2 ^ (0 : ℤ) := zpow_le_zpow_right₀ (by norm_num) (by omega)
      _ = 1 := zpow_zero _

/-- A power of two is one in its binade. -/
theorem Scaled.eq_of_zpow {n : Int} (hn : (p : ℝ) / q = 2 ^ n) : num = den := by
  obtain ⟨hlow, hhigh⟩ := h.ratio
  have hpow : (0 : ℝ) < 2 ^ k := by positivity
  have hden : (0 : ℝ) < den := by exact_mod_cast h.den_pos
  rw [h.value] at hn
  have h1 : (2 : ℝ) ^ k ≤ 2 ^ n := by
    rw [← hn]
    exact le_mul_of_one_le_left hpow.le hlow
  have h2 : (2 : ℝ) ^ n < 2 ^ (k + 1) := by
    rw [← hn, zpow_add_one₀ (by norm_num), mul_comm]
    gcongr
  have hnk : n = k := binade_unique (le_refl _) (zpow_lt_zpow_right₀ (by norm_num) (by omega)) h1 h2
  rw [hnk, mul_eq_right₀ hpow.ne', div_eq_one_iff_eq hden.ne'] at hn
  exact_mod_cast hn

end

/-- The sign of the number that the bits stand for is that of the binade. -/
theorem fixedLog_sign {k : Int} {b : Nat} (hb : b < 2 ^ 200) : fixedLog k b ≠ 0 ∧ (fixedLog k b < 0 ↔ k < 0) := by
  unfold fixedLog
  omega

theorem abs_fixedLog (x : Int) : |(x : ℝ) / 2 ^ 201| = (x.natAbs : ℝ) / (2 ^ 201 : Nat) := by
  rw [abs_div, abs_of_pos (show (0 : ℝ) < 2 ^ 201 by positivity), Nat.cast_natAbs, Int.cast_abs]
  norm_num

section
variable {f : Fmt} (hf : Ieee f) {p q m : Nat} {e : Int} (h : Finite f p q m e) (hp : 0 < p)
include hf h hp

theorem log2Of_truncated (hne : (p : ℝ) / q ≠ 1) : ∃ z : ℝ, Close z (Real.logb 2 ((p : ℝ) / q)) ∧
    ((∃ n : ℤ, (p : ℝ) / q = 2 ^ n) → z = Real.logb 2 ((p : ℝ) / q)) ∧
    Truncated f (decide ((p : ℝ) / q < 1)) |z| (log2Of f p q) := by
  have hs := scaled_of hp h.den_pos
  have hsmall : 1 / 2 ^ 53 ≤ |Real.logb 2 ((p : ℝ) / q)| := by
    have hq : (0 : ℝ) < q := by exact_mod_cast h.den_pos
    have hp' : (0 : ℝ) < p := by exact_mod_cast hp
    have hpos : (0 : ℝ) < (p : ℝ) / q := by positivity
    have hm : m < 2 ^ 53 := h.lt.trans_le (Nat.pow_le_pow_right (by omega) (by have := hf.mb.2; omega))
    rw [h.value] at hne hpos ⊢
    exact le_abs_logb hm hpos hne
  rw [hs.logb] at hsmall ⊢
  unfold log2Of
  dsimp only
  generalize floorLog2 p q = k at *
  generalize (scale2 p q (-k)).1 = num at *
  generalize (scale2 p q (-k)).2 = den at *
  have hsign : decide ((p : ℝ) / q < 1) = decide (k < 0) := by simp only [hs.lt_one]
  rw [hsign]
  by_cases heq : num = den
  · rw [if_pos heq]
    have hden : (den : ℝ) ≠ 0 := by exact_mod_cast hs.den_pos.ne'
    have hone : (num : ℝ) / den = 1 := by rw [heq, div_self hden]
    have hk : k ≠ 0 := fun h0 => hne (by rw [hs.value, hone, h0, zpow_zero, mul_one])
    rw [if_neg hk, hone, Real.logb_one, add_zero]
    refine ⟨k, close_refl _, fun _ => rfl, ?_⟩
    have := truncTo_truncated hf (decide (k < 0)) (Int.natAbs_pos.2 hk) Nat.one_pos
    rwa [Nat.cast_one, div_one, Nat.cast_natAbs, Int.cast_abs] at this
  · rw [if_neg heq]
    obtain ⟨hb, hclose⟩ := fixedLog_bounds (k := k) hs.den_pos hs.low hs.high
    generalize log2Bits 200 (num * oneNat / den) 0 = b at *
    obtain ⟨hnz, hneg⟩ := fixedLog_sign (k := k) hb
    refine ⟨_, hclose.trans ?_, fun ⟨n, hn⟩ => absurd (hs.eq_of_zpow hn) heq, ?_⟩
    · norm_num at hsmall ⊢
      linarith
    · rw [abs_fixedLog]
      have := truncTo_truncated hf (decide (fixedLog k b < 0)) (Int.natAbs_pos.2 hnz) (Nat.two_pow_pos 201)
      simpa only [hneg] using this

omit hf in
theorem log2Of_one (hone : (p : ℝ) / q = 1) : log2Of f p q = (encodeFin f false 0 0, 0) := by
  have hs := scaled_of hp h.den_pos
  have hk : floorLog2 p q = 0 := floorLog2_eq hp h.den_pos (by rw [hone, zpow_zero]) (by rw [hone]; norm_num)
  have heq := hs.eq_of_zpow (n := 0) (by rw [hone, zpow_zero])
  unfold log2Of
  dsimp only
  rw [if_pos heq, if_pos hk]

end

end Sys2Proof.Proofs.Logarithms
end

section
open Sys2Proof Sys2Proof.Machine
namespace Sys2Proof.Proofs.VectorFloats
open VectorRounding

/-! ### Rounded arithmetic (R143, R154) -/

section
variable {s : State} {o : VR}

theorem vfdivLat_pos (t : BitVec 4) : 0 < vfdivLat t := by
  unfold vfdivLat
  split_ifs <;> decide

theorem vfsqrtLat_pos (t : BitVec 4) : 0 < vfsqrtLat t := by
  unfold vfsqrtLat
  split_ifs <;> decide

theorem vfLat_pos (t : BitVec 4) : 0 < vfLat t := by
  unfold vfLat
  split_ifs <;> decide

theorem vsLat_pos (vs : Bool) {lat : Nat} (h : 0 < lat) : 0 < vsLat vs lat := by
  cases vs <;> simp [vsLat, h]

/-- The rows of binary rounded instructions are one shared form, divided where the row says so. -/
theorem exec_vFloatTable : ∀ e ∈ vFloatTable, ∃ lat, 0 < lat ∧ ∀ vs : Bool, exec (if vs then e.2.1 o else e.1 o) s =
    if e.2.2.1 then s.dividing o (s.vfBin o vs lat e.2.2.2) else s.vfBin o vs lat e.2.2.2 := by
  simp only [vFloatTable, List.forall_mem_cons]
  exact ⟨⟨vfLat o.t, vfLat_pos _, fun vs => by cases vs <;> rfl⟩, ⟨vfLat o.t, vfLat_pos _, fun vs => by cases vs <;> rfl⟩,
    ⟨vfLat o.t, vfLat_pos _, fun vs => by cases vs <;> rfl⟩, ⟨vfdivLat o.t, vfdivLat_pos _, fun vs => by cases vs <;> rfl⟩, by simp⟩

theorem exec_fma (neg vs : Bool) : exec (if neg then (if vs then .vfnmaS o else .vfnma o) else if vs then .vfmaS o else .vfma o) s =
    s.vfTern o vs neg := by
  cases neg <;> cases vs <;> rfl

end

theorem vectorRoundedRule : VectorRoundedRule := by
  intro s o vs w n
  refine ⟨fun e he => ?_, fun neg => ?_, ?_⟩
  · obtain ⟨lat, hlat, hexec⟩ := exec_vFloatTable (s := s) (o := o) e he
    exact roundsDone_of_vRound e.2.2.1 (tyWidth_mem o.t) (vsLat_pos vs hlat) (hexec vs)
  · exact roundsDone_of_vRound false (tyWidth_mem o.t) (vsLat_pos vs (vfLat_pos o.t)) (exec_fma neg vs)
  · exact roundsDone_of_vRound true (tyWidth_mem o.t) (vfsqrtLat_pos o.t) rfl

/-! ### Instructions with flags and no rounding (R144, R145) -/

theorem wrE_congr (s : State) (vd : R6) (w lat : Nat) {f g : Nat → Option (Nat × Bool)} (h : ∀ k < 2048 / w, f k = g k) :
    s.wrE vd w lat f = s.wrE vd w lat g := by
  have hmap : (List.range (2048 / w)).map f = (List.range (2048 / w)).map g :=
    List.map_congr_left fun k hk => h k (List.mem_range.1 hk)
  unfold State.wrE mergeV
  simp only [hmap]

section
variable {s : State} {o : VR}

/-- An instruction that does not round is one that rounds under no mode. -/
theorem vFlag_eq (hrm : o.rm = 0) (lat : Nat) (f : Nat → Nat × BitVec 5) (ps : Nat → Bool) : s.vFlag o lat f ps =
    s.vRound o (tyCount o.t) (tyWidth o.t) lat (s.guard o.pg o.t) 0 (fun _ => f) ps := by
  have hsel : s.rmSel o = some (.fixed .rne) := by rw [State.rmSel, hrm]; rfl
  have hcount : tyCount o.t = 2048 / tyWidth o.t := rfl
  unfold State.vFlag State.vecOut State.vRound
  simp only [hsel, State.modes, List.map_map, Function.comp_def]
  refine congrArg (fun u : State => Host.Outcome.next (u.raise _ lat)) (wrE_congr s o.vd _ lat fun k hk => ?_)
  have hin : ¬(decide (k < 0) || decide (0 + tyCount o.t ≤ k)) = true := by simp; omega
  exact (if_neg hin).symm

theorem vFlag_done {i : Instr} (hrm : o.rm = 0) {lat : Nat} (hlat : 0 < lat) {f : Nat → Nat × BitVec 5} {ps : Nat → Bool}
    (hi : exec i s = s.vFlag o lat f ps) :
    RoundsDone i s o (tyCount o.t) (tyWidth o.t) 0 false (onE s o (tyWidth o.t)) (fun _ => f) ps :=
  roundsDone_of_vRound false (tyWidth_mem o.t) hlat (hi.trans (vFlag_eq hrm lat f ps))

theorem exec_minMax (less vs : Bool) :
    exec (if less then (if vs then .vfminS o else .vfmin o) else if vs then .vfmaxS o else .vfmax o) s =
      s.vFlag o (vsLat vs 2) (fun i => fpMinMax (tyFmt o.t) less (s.rdE o.va o.t i) (s.opB o vs i))
        fun i => s.psE o.va o.t i || s.psB o vs i := by
  cases less <;> cases vs <;> rfl

theorem exec_vApproxTable : ∀ e ∈ vApproxTable, ∃ lat, 0 < lat ∧ exec (e.1 o) s = s.vApprox o lat e.2 := by
  simp only [vApproxTable, List.forall_mem_cons]
  exact ⟨⟨6, by decide, rfl⟩, ⟨6, by decide, rfl⟩, ⟨8, by decide, rfl⟩, ⟨8, by decide, rfl⟩, by simp⟩

end

theorem vectorFlaggedRule : VectorFlaggedRule := by
  intro s o vs hrm w n
  refine ⟨fun less => vFlag_done hrm (vsLat_pos vs (by decide)) (exec_minMax less vs), fun e he => ?_⟩
  obtain ⟨lat, hlat, hexec⟩ := exec_vApproxTable (s := s) (o := o) e he
  exact vFlag_done hrm hlat hexec

end Sys2Proof.Proofs.VectorFloats
end

section
open Sys2Proof Sys2Proof.Machine
namespace Sys2Proof.Proofs.Approximations
open FloatGrid Roots Powers Logarithms

/-! ### NaNs (R93) -/

theorem add_two_pow_eq_or {a k : Nat} (h : a.testBit k = false) : a + 2 ^ k = a ||| 2 ^ k := by
  have hbit : a / 2 ^ k % 2 = 0 := by
    rw [Nat.testBit_eq_decide_div_mod_eq, decide_eq_false_iff_not] at h
    omega
  have hlow : a % 2 ^ k < 2 ^ k := Nat.mod_lt _ (Nat.two_pow_pos _)
  have hlow' : a % 2 ^ k < 2 ^ (k + 1) := hlow.trans (Nat.pow_lt_pow_succ (by omega))
  have hsplit : a = 2 ^ (k + 1) * (a / 2 ^ (k + 1)) + a % 2 ^ k := by
    have := Nat.div_add_mod a (2 ^ (k + 1))
    rwa [Nat.mod_pow_succ, hbit, Nat.mul_zero, Nat.add_zero, eq_comm] at this
  generalize a % 2 ^ k = l at *
  generalize a / 2 ^ (k + 1) = c at *
  have hl : 2 ^ k + l = 2 ^ k ||| l := by simpa using Nat.two_pow_add_eq_or_of_lt hlow 1
  have hsum : 2 ^ k + l < 2 ^ (k + 1) := by rw [Nat.pow_succ]; omega
  calc a + 2 ^ k = 2 ^ (k + 1) * c + (2 ^ k + l) := by omega
    _ = 2 ^ (k + 1) * c ||| (2 ^ k ||| l) := by rw [Nat.two_pow_add_eq_or_of_lt hsum, hl]
    _ = a ||| 2 ^ k := by rw [hsplit, Nat.two_pow_add_eq_or_of_lt hlow', Nat.or_assoc, Nat.or_comm l]

theorem quiet_eq_or {f : Fmt} {a : Nat} (ha : a < 2 ^ f.w) : quiet f a = a ||| 2 ^ (f.mb - 1) := by
  unfold quiet
  rw [Nat.mod_eq_of_lt ha]
  by_cases h : a.testBit (f.mb - 1) = true
  · rw [if_pos h]
    refine Nat.eq_of_testBit_eq fun i => ?_
    rw [Nat.testBit_or, Nat.testBit_two_pow]
    by_cases hi : f.mb - 1 = i
    · rw [← hi, h]
      rfl
    · simp [hi]
  · rw [if_neg h]
    exact add_two_pow_eq_or (by simpa using h)

section
variable {f : Fmt} {a : Nat}

theorem nanResult_of_nan (ha : a < 2 ^ f.w) (h : decodeVal f a = .nan) :
    nanResult f [a] = some (a ||| 2 ^ (f.mb - 1), if isSnan f a then fNV else 0) := by
  have hn : isNan f a = true := by rw [isNan, h]; rfl
  simp [nanResult, hn, quiet_eq_or ha]

theorem nanResult_of_ne (h : decodeVal f a ≠ .nan) : nanResult f [a] = none := by
  have hn : isNan f a = false := by rw [isNan]; exact beq_false_of_ne h
  simp [nanResult, hn]

/-! ### The approximations by the kind of their operand -/

theorem approximations_of_nan (ha : a < 2 ^ f.w) (h : decodeVal f a = .nan) :
    ∀ op ∈ [fpRcp, fpRsq, fpExp2, fpLog2], op f a = (a ||| 2 ^ (f.mb - 1), if isSnan f a then fNV else 0) := by
  have hn := nanResult_of_nan ha h
  simp only [List.forall_mem_cons]
  exact ⟨by rw [fpRcp, hn]; rfl, by rw [fpRsq, hn]; rfl, by rw [fpExp2, hn]; rfl, by rw [fpLog2, hn]; rfl, by simp⟩

section
variable {neg : Bool} (h : decodeVal f a = .inf neg)
include h

theorem approximations_of_inf : fpRcp f a = (encodeFin f neg 0 0, 0) ∧
    fpRsq f a = (if neg then (qnan f, fNV) else (encodeFin f false 0 0, 0)) ∧
    fpExp2 f a = (if neg then encodeFin f false 0 0 else infPat f false, 0) ∧
    fpLog2 f a = if neg then (qnan f, fNV) else (infPat f false, 0) := by
  have hn := nanResult_of_ne (f := f) (a := a) (by rw [h]; exact Val.noConfusion)
  refine ⟨?_, ?_, ?_, ?_⟩
  · rw [fpRcp, hn, h]; rfl
  · rw [fpRsq, hn, h]; rfl
  · rw [fpExp2, hn, h]; rfl
  · rw [fpLog2, hn, h]; rfl

end

section
variable {neg : Bool} {p q : Nat} (h : decodeVal f a = .fin neg p q)
include h

theorem fpRcp_of_fin : fpRcp f a = if p = 0 then (infPat f neg, fDZ) else truncTo f neg q p := by
  rw [fpRcp, nanResult_of_ne (by rw [h]; exact Val.noConfusion), h]
  rfl

theorem fpRsq_of_fin : fpRsq f a = if p = 0 then (infPat f neg, fDZ) else if neg then (qnan f, fNV)
    else truncTo f false (rsqrtFin p q).1 (rsqrtFin p q).2 := by
  rw [fpRsq, nanResult_of_ne (by rw [h]; exact Val.noConfusion), h]
  rfl

theorem fpExp2_of_fin : fpExp2 f a = exp2Of f (signInt neg p) q := by
  rw [fpExp2, nanResult_of_ne (by rw [h]; exact Val.noConfusion), h]
  rfl

theorem fpLog2_of_fin : fpLog2 f a = if p = 0 then (infPat f true, fDZ) else if neg then (qnan f, fNV) else log2Of f p q := by
  rw [fpLog2, nanResult_of_ne (by rw [h]; exact Val.noConfusion), h, log2Of, oneNat_eq]
  rfl

end
end

/-! ### The numbers of the operands -/

theorem exists_fin {x : Val} (h : x.finite) : ∃ neg p q, x = .fin neg p q := by
  cases x with
  | fin neg p q => exact ⟨neg, p, q, rfl⟩
  | inf neg => exact h.elim
  | nan => exact h.elim

theorem exact_fin (neg : Bool) (p q : Nat) : ((Val.fin neg p q).exact : ℝ) = signedReal neg ((p : ℝ) / q) := by
  show (((if neg then -1 else 1) * ((p : ℚ) / q) : ℚ) : ℝ) = _
  cases neg <;> push_cast <;> simp [signedReal]

section
variable {neg : Bool} {p q : Nat} (hq : 0 < q)
include hq

theorem exact_fin_pos : 0 < (Val.fin neg p q).exact ↔ neg = false ∧ 0 < p := by
  have hq' : (0 : ℝ) < q := by exact_mod_cast hq
  rw [← Rat.cast_pos (K := ℝ), exact_fin, signedReal]
  have hp : (0 : ℝ) ≤ p := Nat.cast_nonneg p
  cases neg
  · simp [hq']
  · have : (0 : ℝ) ≤ p / q := by positivity
    simp [this]

theorem exact_fin_neg : (Val.fin neg p q).exact < 0 ↔ neg = true ∧ 0 < p := by
  have hq' : (0 : ℝ) < q := by exact_mod_cast hq
  rw [← Rat.cast_lt_zero (K := ℝ), exact_fin, signedReal]
  have hp : (0 : ℝ) ≤ p := Nat.cast_nonneg p
  cases neg
  · have : (0 : ℝ) ≤ p / q := by positivity
    simp [this]
  · simp [hq']

theorem exact_fin_zero : (Val.fin neg p q).exact = 0 ↔ p = 0 := by
  have hq' : (q : ℝ) ≠ 0 := by exact_mod_cast hq.ne'
  rw [← Rat.cast_eq_zero (α := ℝ), exact_fin, signedReal]
  cases neg <;> simp [hq']

omit hq in
theorem abs_exact_fin : |((Val.fin neg p q).exact : ℝ)| = (p : ℝ) / q := by
  have : (0 : ℝ) ≤ (p : ℝ) / q := by positivity
  rw [exact_fin, signedReal, abs_mul, abs_of_nonneg this]
  cases neg <;> simp

omit hq in
theorem signInt_div : ((signInt neg p : Int) : ℝ) / q = ((Val.fin neg p q).exact : ℝ) := by
  rw [exact_fin, signedReal]
  cases neg
  · simp [signInt]
  · simp [signInt, neg_div]

end

/-! ### The rule -/

section
variable {f : Fmt} (hf : Ieee f) {a : Nat}
include hf

theorem encodeFin_zero_zero (neg : Bool) : encodeFin f neg 0 0 = if neg then 2 ^ (f.w - 1) else 0 := by
  rw [encodeFin_zero hf, fieldsPat]
  simp

variable {neg : Bool} {p q : Nat} (h : decodeVal f a = .fin neg p q)
include h

theorem den_pos : 0 < q := by
  obtain ⟨m, e, hfin⟩ := finite_decodeVal hf h
  exact hfin.den_pos

theorem zero_spec (h0 : (Val.fin neg p q).exact = 0) :
    fpRcp f a = (infPat f neg, fDZ) ∧ fpRsq f a = (infPat f neg, fDZ) ∧ fpLog2 f a = (infPat f true, fDZ) := by
  have hp := (exact_fin_zero (den_pos hf h)).1 h0
  rw [fpRcp_of_fin h, fpRsq_of_fin h, fpLog2_of_fin h, if_pos hp, if_pos hp, if_pos hp]
  exact ⟨rfl, rfl, rfl⟩

theorem below_spec (h0 : (Val.fin neg p q).exact < 0) : fpRsq f a = (qnan f, fNV) ∧ fpLog2 f a = (qnan f, fNV) := by
  obtain ⟨hneg, hp⟩ := (exact_fin_neg (den_pos hf h)).1 h0
  rw [fpRsq_of_fin h, fpLog2_of_fin h, if_neg hp.ne', if_neg hp.ne', if_pos hneg, if_pos hneg]
  exact ⟨rfl, rfl⟩

theorem rcp_spec (h0 : (Val.fin neg p q).exact < 0 ∨ 0 < (Val.fin neg p q).exact) :
    Truncated f neg (1 / |((Val.fin neg p q).exact : ℝ)|) (fpRcp f a) := by
  have hq := den_pos hf h
  have hp : 0 < p := h0.elim (fun hl => ((exact_fin_neg hq).1 hl).2) fun hg => ((exact_fin_pos hq).1 hg).2
  rw [fpRcp_of_fin h, if_neg hp.ne', abs_exact_fin, one_div_div]
  exact truncTo_truncated hf neg hq hp

theorem above_value (h0 : 0 < (Val.fin neg p q).exact) : 0 < p ∧ neg = false ∧ ((Val.fin neg p q).exact : ℝ) = (p : ℝ) / q := by
  obtain ⟨hneg, hp⟩ := (exact_fin_pos (den_pos hf h)).1 h0
  refine ⟨hp, hneg, ?_⟩
  rw [exact_fin, hneg, signedReal]
  simp

theorem rsq_spec (h0 : 0 < (Val.fin neg p q).exact) :
    Truncated f false (1 / Real.sqrt (Val.fin neg p q).exact) (fpRsq f a) := by
  obtain ⟨hp, hneg, hval⟩ := above_value hf h h0
  obtain ⟨m, e, hfin⟩ := finite_decodeVal hf h
  rw [hval, fpRsq_of_fin h, if_neg hp.ne', hneg, if_neg Bool.false_ne_true]
  exact fpRsq_truncated hf hfin hp

theorem exp2_spec : ∃ z : ℝ, Close z ((2 : ℝ) ^ ((Val.fin neg p q).exact : ℝ)) ∧
    ((∃ n : ℤ, (Val.fin neg p q).exact = n) → z = (2 : ℝ) ^ ((Val.fin neg p q).exact : ℝ)) ∧ Truncated f false z (fpExp2 f a) := by
  obtain ⟨z, hclose, hexact, htr⟩ := exp2Of_truncated hf (signInt neg p) (den_pos hf h)
  rw [signInt_div] at hclose hexact
  refine ⟨z, hclose, fun ⟨n, hn⟩ => hexact ⟨n, ?_⟩, ?_⟩
  · rw [hn, Rat.cast_intCast]
  · rw [fpExp2_of_fin h]
    exact htr

theorem log2_spec (h0 : 0 < (Val.fin neg p q).exact) (h1 : (Val.fin neg p q).exact ≠ 1) :
    ∃ z : ℝ, Close z (Real.logb 2 (Val.fin neg p q).exact) ∧
      ((∃ n : ℤ, (Val.fin neg p q).exact = (2 : ℚ) ^ n) → z = Real.logb 2 (Val.fin neg p q).exact) ∧
      Truncated f (decide ((Val.fin neg p q).exact < 1)) |z| (fpLog2 f a) := by
  obtain ⟨hp, hneg, hval⟩ := above_value hf h h0
  obtain ⟨m, e, hfin⟩ := finite_decodeVal hf h
  have hne : (p : ℝ) / q ≠ 1 := by
    rw [← hval]
    exact_mod_cast h1
  obtain ⟨z, hclose, hexact, htr⟩ := log2Of_truncated hf hfin hp hne
  have hlt : decide ((Val.fin neg p q).exact < 1) = decide ((p : ℝ) / q < 1) := by
    refine decide_eq_decide.2 ?_
    rw [← hval]
    exact_mod_cast Iff.rfl
  rw [hval, hlt, fpLog2_of_fin h, if_neg hp.ne', hneg, if_neg Bool.false_ne_true]
  refine ⟨z, hclose, fun ⟨n, hn⟩ => hexact ⟨n, ?_⟩, htr⟩
  rw [← hval, hneg, hn]
  push_cast
  rfl

theorem log2_one (h1 : (Val.fin neg p q).exact = 1) : fpLog2 f a = (0, 0) := by
  obtain ⟨hp, hneg, hval⟩ := above_value hf h (by rw [h1]; exact one_pos)
  obtain ⟨m, e, hfin⟩ := finite_decodeVal hf h
  rw [h1, Rat.cast_one] at hval
  rw [fpLog2_of_fin h, if_neg hp.ne', hneg, if_neg Bool.false_ne_true, log2Of_one hfin hp hval.symm, encodeFin_zero_zero hf]
  rfl

end

theorem approximationsRule : ApproximationsRule := by
  intro f hmem a ha x minus nan near zero below above
  have hf := ieee_of_mem f hmem
  refine ⟨approximations_of_nan ha, fun hx => ?_, fun hx => ?_, fun ⟨hfin, h0⟩ => ?_, fun ⟨hfin, h0⟩ => ?_, fun h0 => ?_,
    fun ⟨hfin, h0⟩ => ?_, fun hfin => ?_, fun ⟨hfin, h0⟩ h1 => ?_, fun hfin h1 => ?_⟩
  · obtain ⟨hrcp, hrsq, hexp, hlog⟩ := approximations_of_inf hx
    exact ⟨by rw [hrcp, encodeFin_zero_zero hf]; rfl, by rw [hrsq, encodeFin_zero_zero hf]; rfl, hexp, hlog⟩
  · obtain ⟨hrcp, hrsq, hexp, hlog⟩ := approximations_of_inf hx
    exact ⟨by rw [hrcp, encodeFin_zero_zero hf]; rfl, hrsq, by rw [hexp, encodeFin_zero_zero hf]; rfl, hlog⟩
  · obtain ⟨neg, p, q, hx⟩ := exists_fin hfin
    rw [show x = .fin neg p q from hx] at h0 ⊢
    exact zero_spec hf hx h0
  · obtain ⟨neg, p, q, hx⟩ := exists_fin hfin
    rw [show x = .fin neg p q from hx] at h0
    exact below_spec hf hx h0
  · obtain ⟨neg, p, q, hx⟩ := exists_fin (h0.elim (fun h => h.1) fun h => h.1)
    have h0' := h0.imp (fun h => h.2) fun h => h.2
    rw [show x = .fin neg p q from hx] at h0' ⊢
    exact rcp_spec hf hx h0'
  · obtain ⟨neg, p, q, hx⟩ := exists_fin hfin
    rw [show x = .fin neg p q from hx] at h0 ⊢
    exact rsq_spec hf hx h0
  · obtain ⟨neg, p, q, hx⟩ := exists_fin hfin
    rw [show x = .fin neg p q from hx]
    exact exp2_spec hf hx
  · obtain ⟨neg, p, q, hx⟩ := exists_fin hfin
    rw [show x = .fin neg p q from hx] at h0 h1 ⊢
    exact log2_spec hf hx h0 h1
  · obtain ⟨neg, p, q, hx⟩ := exists_fin hfin
    rw [show x = .fin neg p q from hx] at h1
    exact log2_one hf hx h1

/-- Settles O11: the rounded forms share one operation, whose draws and flags are counted over the active elements, and the
approximations are bounded by real arithmetic. -/
theorem vectorFloating : Obligations.VectorFloating :=
  ⟨VectorFloats.vectorRoundedRule, VectorFloats.vectorFlaggedRule, approximationsRule⟩

end Sys2Proof.Proofs.Approximations
end

section
open Sys2Proof Sys2Proof.Machine
namespace Sys2Proof.Proofs.Formats

/-! ### Layouts: the fields of a word, and the word of its fields (R7, R57 to R63) -/

theorem toNat_fld (w lo n : Nat) : (fld w lo n).toNat = w / 2 ^ lo % 2 ^ n := BitVec.toNat_ofNat ..

/-- The boxes of a format below its opcode, highest first: a field or a reserved gap, with its width. -/
inductive Layout where
  | done
  | field (n : Nat) (below : Layout)
  | gap (n : Nat) (below : Layout)

/-- The values of the fields of a format. -/
inductive Operands : Layout → Type where
  | done : Operands .done
  | field {n : Nat} {L : Layout} (x : BitVec n) (below : Operands L) : Operands (.field n L)
  | gap {n : Nat} {L : Layout} (below : Operands L) : Operands (.gap n L)

namespace Layout

/-- The bits that the boxes take. -/
def size : Layout → Nat
  | done => 0
  | field n L => n + L.size
  | gap n L => n + L.size

/-- The fields of a word. -/
def read : (L : Layout) → Nat → Operands L
  | done, _ => .done
  | field n L, w => .field (fld w L.size n) (L.read w)
  | gap _ L, w => .gap (L.read w)

/-- The lowest bit and the width of each reserved gap. -/
def reserved : Layout → List (Nat × Nat)
  | done => []
  | field _ L => L.reserved
  | gap n L => (L.size, n) :: L.reserved

end Layout

namespace Operands

variable {L : Layout} {n k : Nat}

/-- The lowest bit of each field, with its value. -/
def fields {L : Layout} : Operands L → List (Nat × Nat)
  | done => []
  | field (L := L) x o => (L.size, x.toNat) :: o.fields
  | gap o => o.fields

/-- The number that a part above and the fields below it make. -/
def word (k : Nat) (o : Operands L) : Nat := k * 2 ^ L.size + (o.fields.map fun f => f.2 * 2 ^ f.1).sum

theorem word_done : done.word k = k := by simp [word, Layout.size, fields]

/-- The highest field of a word, taken into the part above. -/
theorem word_field (x : BitVec n) (o : Operands L) : (field x o).word k = o.word (k * 2 ^ n + x.toNat) := by
  simp only [word, Layout.size, fields, List.map_cons, List.sum_cons, pow_add]
  ring

/-- The highest box of a word, a gap, taken into the part above. -/
theorem word_gap (o : Operands L) : (gap (n := n) o).word k = o.word (k * 2 ^ n) := by
  simp only [word, Layout.size, fields, pow_add, mul_assoc]

/-- What stands above the highest box of a format, and the box with it. -/
theorem div_size (w : Nat) : w / 2 ^ (n + L.size) = w / 2 ^ L.size / 2 ^ n := by
  rw [add_comm, pow_add, Nat.div_div_eq_div_mul]

theorem word_div (o : Operands L) (k : Nat) : o.word k / 2 ^ L.size = k := by
  induction o generalizing k with
  | done => rw [word_done, Layout.size, pow_zero, Nat.div_one]
  | @field n L x o ih =>
    rw [word_field, Layout.size, div_size, ih, Nat.mul_comm, Nat.mul_add_div (Nat.two_pow_pos n), Nat.div_eq_of_lt x.isLt,
      add_zero]
  | @gap n L o ih => rw [word_gap, Layout.size, div_size, ih, Nat.mul_div_cancel _ (Nat.two_pow_pos n)]

/-- The fields of a word are those that it was made of. -/
theorem read_word (o : Operands L) (k : Nat) : L.read (o.word k) = o := by
  induction o generalizing k with
  | done => rfl
  | @field n L x o ih =>
    have hx : fld (o.word (k * 2 ^ n + x.toNat)) L.size n = x := by
      rw [← BitVec.toNat_inj, toNat_fld, word_div, Nat.mul_add_mod', Nat.mod_eq_of_lt x.isLt]
    rw [Layout.read, word_field, hx, ih]
  | @gap n L o ih => rw [Layout.read, word_gap, ih]

end Operands

/-- The boxes that a list names are zero in a word (R7). -/
def GapsZero (rsv : List (Nat × Nat)) (w : Nat) : Prop := ∀ r ∈ rsv, w / 2 ^ r.1 % 2 ^ r.2 = 0

open Operands

variable {L : Layout}

theorem gapsZero_word (o : Operands L) (k : Nat) : GapsZero L.reserved (o.word k) := by
  induction o generalizing k with
  | done => exact List.forall_mem_nil _
  | field x o ih => exact word_field x o ▸ ih _
  | gap o ih =>
    rw [word_gap]
    exact List.forall_mem_cons.2 ⟨by rw [word_div, Nat.mul_mod_left], ih _⟩

/-- A word whose gaps are zero is made of what stands above its boxes and its fields. -/
theorem word_read {w : Nat} (h : GapsZero L.reserved w) : (L.read w).word (w / 2 ^ L.size) = w := by
  induction L with
  | done => rw [Layout.read, word_done, Layout.size, pow_zero, Nat.div_one]
  | field n L ih =>
    rw [Layout.read, word_field, Layout.size, div_size, toNat_fld, Nat.div_add_mod']
    exact ih h
  | gap n L ih =>
    obtain ⟨hn, h⟩ := List.forall_mem_cons.1 h
    have hdiv := Nat.div_add_mod' (w / 2 ^ L.size) (2 ^ n)
    rw [hn, add_zero] at hdiv
    rw [Layout.read, word_gap, Layout.size, div_size, hdiv]
    exact ih h

end Sys2Proof.Proofs.Formats
end

section
open Sys2Proof Sys2Proof.Machine
namespace Sys2Proof.Proofs.Formats
open Operands

/-- A type of operands with its reader and its writer: it has the fields of a layout, and is read from and written into them. -/
structure Format {α : Type} (L : Layout) (operands : α → Operands L) (read : Nat → α) (word : Nat → α → Nat) :
    Prop where
  inj : Function.Injective operands
  operands_read : ∀ w, operands (read w) = L.read w
  word_eq : ∀ k o, word k o = (operands o).word k

namespace Format

variable {α : Type} {L : Layout} {operands : α → Operands L} {read : Nat → α} {word : Nat → α → Nat}
  (F : Format L operands read word)
include F

theorem read_word (k : Nat) (o : α) : read (word k o) = o :=
  F.inj (by rw [F.operands_read, F.word_eq, Operands.read_word])

theorem word_div (k : Nat) (o : α) : word k o / 2 ^ L.size = k := by rw [F.word_eq, Operands.word_div]

theorem gapsZero_word (k : Nat) (o : α) : GapsZero L.reserved (word k o) := by
  rw [F.word_eq]
  exact Formats.gapsZero_word _ k

theorem word_read {w : Nat} (h : GapsZero L.reserved w) : word (w / 2 ^ L.size) (read w) = w := by
  rw [F.word_eq, F.operands_read, Formats.word_read h]

end Format

/-! ### The formats of 32 bits (R57, R58): a layout each -/

theorem wordOf_format {L : Layout} (h : L.size = 24) : Format L id L.read fun k o => wordOf k o.fields where
  inj := Function.injective_id
  operands_read _ := rfl
  word_eq k o := by rw [id, word, h, wordOf]

/-! ### The formats of 64 and 96 bits (R59 to R63): a record each -/

/-- Format VR (R59). -/
def vrLayout : Layout :=
  .field 6 <| .field 6 <| .field 3 <| .field 6 <| .field 3 <| .field 6 <| .field 3 <| .field 5 <| .field 4 <| .field 3 <|
    .field 1 <| .field 4 <| .field 6 .done
def vrOperands (o : VR) : Operands vrLayout :=
  .field o.vd <| .field o.va <| .field o.qa <| .field o.vb <| .field o.qb <| .field o.vc <| .field o.qc <| .field o.pg <|
    .field o.t <| .field o.rm <| .field o.zm <| .field o.fr <| .field o.fx .done
theorem vrFormat : Format vrLayout vrOperands readVR VR.toWord where
  inj := by rintro ⟨⟩ ⟨⟩ ⟨⟩; rfl
  operands_read _ := rfl
  word_eq k o := by
    simp only [VR.toWord, vrLayout, vrOperands, word_field, word_done]
    omega

/-- Format VG (R59). -/
def vgLayout : Layout :=
  .field 6 <| .field 5 <| .field 5 <| .field 3 <| .field 3 <| .field 3 <| .field 3 <| .field 3 <| .field 2 <| .field 1 <|
    .gap 22 .done
def vgOperands (o : VG) : Operands vgLayout :=
  .field o.vd <| .field o.pd <| .field o.pg <| .field o.ga <| .field o.gb <| .field o.gc <| .field o.ge <| .field o.gh <|
    .field o.md <| .field o.nf <| .gap .done
theorem vgFormat : Format vgLayout vgOperands readVG VG.toWord where
  inj := by rintro ⟨⟩ ⟨⟩ ⟨⟩; rfl
  operands_read _ := rfl
  word_eq k o := by
    simp only [VG.toWord, vgLayout, vgOperands, word_field, word_gap, word_done]
    omega

/-- Format LS (R63). -/
def lsLayout : Layout := .field 6 <| .field 6 <| .field 6 <| .field 2 <| .field 2 <| .gap 2 <| .field 32 .done
def lsOperands (o : LS) : Operands lsLayout :=
  .field o.sd <| .field o.sa <| .field o.sx <| .field o.sh <| .field o.sco <| .gap <| .field o.off .done
theorem lsFormat : Format lsLayout lsOperands readLS LS.toWord where
  inj := by rintro ⟨⟩ ⟨⟩ ⟨⟩; rfl
  operands_read _ := rfl
  word_eq k o := by
    simp only [LS.toWord, lsLayout, lsOperands, word_field, word_gap, word_done]
    omega

/-- Format LV (R63). -/
def lvLayout : Layout :=
  .field 6 <| .field 3 <| .field 6 <| .field 6 <| .field 5 <| .field 4 <| .field 2 <| .field 24 .done
def lvOperands (o : LV) : Operands lvLayout :=
  .field o.vd <| .field o.qd <| .field o.sa <| .field o.sx <| .field o.pg <| .field o.t <| .field o.sco <| .field o.off .done
theorem lvFormat : Format lvLayout lvOperands readLV LV.toWord where
  inj := by rintro ⟨⟩ ⟨⟩ ⟨⟩; rfl
  operands_read _ := rfl
  word_eq k o := by
    simp only [LV.toWord, lvLayout, lvOperands, word_field, word_done]
    omega

/-- Format LG (R63). -/
def lgLayout : Layout :=
  .field 6 <| .field 3 <| .field 6 <| .field 6 <| .field 3 <| .field 5 <| .field 4 <| .field 2 <| .gap 21 .done
def lgOperands (o : LG) : Operands lgLayout :=
  .field o.vd <| .field o.qd <| .field o.sa <| .field o.vb <| .field o.qb <| .field o.pg <| .field o.t <| .field o.sco <|
    .gap .done
theorem lgFormat : Format lgLayout lgOperands readLG LG.toWord where
  inj := by rintro ⟨⟩ ⟨⟩ ⟨⟩; rfl
  operands_read _ := rfl
  word_eq k o := by
    simp only [LG.toWord, lgLayout, lgOperands, word_field, word_gap, word_done]
    omega

/-- Format LA (R63). -/
def laLayout : Layout := .field 6 <| .field 6 <| .field 6 <| .field 6 <| .field 2 <| .field 1 <| .gap 29 .done
def laOperands (o : LA) : Operands laLayout :=
  .field o.sd <| .field o.sa <| .field o.sb <| .field o.sc <| .field o.sco <| .field o.w <| .gap .done
theorem laFormat : Format laLayout laOperands readLA LA.toWord where
  inj := by rintro ⟨⟩ ⟨⟩ ⟨⟩; rfl
  operands_read _ := rfl
  word_eq k o := by
    simp only [LA.toWord, laLayout, laOperands, word_field, word_gap, word_done]
    omega

/-- Format LX (R63). -/
def lxLayout : Layout := .field 6 <| .field 6 <| .field 6 <| .field 3 <| .field 35 .done
def lxOperands (o : LX) : Operands lxLayout :=
  .field o.sd <| .field o.sa <| .field o.sb <| .field o.ch <| .field o.imm .done
theorem lxFormat : Format lxLayout lxOperands readLX LX.toWord where
  inj := by rintro ⟨⟩ ⟨⟩ ⟨⟩; rfl
  operands_read _ := rfl
  word_eq k o := by
    simp only [LX.toWord, lxLayout, lxOperands, word_field, word_done]
    omega

/-- The wait/signal block and the six reserved bits below it (R60). -/
def waitSigLayout : Layout :=
  .field 1 <| .field 8 <| .field 16 <| .field 1 <| .field 8 <| .field 8 <| .field 2 <| .gap 6 .done
def waitSigOperands (w : WaitSig) : Operands waitSigLayout :=
  .field w.we <| .field w.ws <| .field w.wt <| .field w.se <| .field w.ss <| .field w.si <| .field w.spt <| .gap .done
theorem word_waitSig (w : WaitSig) (k : Nat) : (waitSigOperands w).word k = k * 2 ^ 50 + w.toWord := by
  simp only [WaitSig.toWord, waitSigLayout, waitSigOperands, word_field, word_gap, word_done]
  omega

/-- Format M (R61). -/
def fmLayout : Layout :=
  .field 6 <| .field 6 <| .field 3 <| .field 6 <| .field 6 <| .field 3 <| .field 8 waitSigLayout
def fmOperands (o : FM) : Operands fmLayout :=
  .field o.vd <| .field o.va <| .field o.qa <| .field o.sd <| .field o.sa <| .field o.zt <| .field o.imm <| waitSigOperands o.w
theorem fmFormat : Format fmLayout fmOperands readFM FM.toWord where
  inj := by rintro ⟨_, _, _, _, _, _, _, ⟨⟩⟩ ⟨_, _, _, _, _, _, _, ⟨⟩⟩ ⟨⟩; rfl
  operands_read _ := rfl
  word_eq k o := by
    simp only [FM.toWord, fmLayout, fmOperands, word_field, word_waitSig]
    omega

/-- Format E (R62). -/
def feLayout : Layout := .field 6 <| .field 6 <| .field 6 <| .field 6 <| .field 14 waitSigLayout
def feOperands (o : FE) : Operands feLayout :=
  .field o.sd <| .field o.sa <| .field o.sb <| .field o.sc <| .field o.fn <| waitSigOperands o.w
theorem feFormat : Format feLayout feOperands readFE FE.toWord where
  inj := by rintro ⟨_, _, _, _, _, ⟨⟩⟩ ⟨_, _, _, _, _, ⟨⟩⟩ ⟨⟩; rfl
  operands_read _ := rfl
  word_eq k o := by
    simp only [FE.toWord, feLayout, feOperands, word_field, word_waitSig]
    omega

end Sys2Proof.Proofs.Formats
end

section
open Sys2Proof Sys2Proof.Machine
namespace Sys2Proof.Proofs.Formats

/-! ### Instructions read back from their words -/

/-- An instruction with a word of a class: the word fits, and is read as the instruction, the gaps of its format zero. -/
def ReadBack (c : SlotClass) (i : Instr) : Prop :=
  ∀ w, encode i = some (c, w) →
    w < 2 ^ wordBits c ∧ ∃ y rsv, readSlot c (c == .vector) w = some (y, rsv) ∧ GapsZero rsv w ∧ y.toInstr = i

/-- A value fits its class where what stands above the boxes of its format is an opcode. -/
theorem div_lt_iff {c : SlotClass} {b w : Nat} (hc : wordBits c = b + 8) : w / 2 ^ b < 256 ↔ w < 2 ^ wordBits c := by
  rw [hc, pow_add, mul_comm, Nat.div_lt_iff_lt_mul (Nat.two_pow_pos b)]
  rfl

section
variable {α : Type} {L : Layout} {operands : α → Operands L} {read : Nat → α} {word : Nat → α → Nat}
  {c : SlotClass} {i : Instr} {y : Slot} {b n w : Nat} {o : α}

/-- An instruction is read back where a word with its opcode and its operands is read as it. -/
theorem Format.readBack (F : Format L operands read word) (hb : L.size = b) (he : encode i = some (c, word n o))
    (hr : ∀ w, w / 2 ^ b % 256 = n → read w = o → readSlot c (c == .vector) w = some (y, L.reserved)) (hy : y.toInstr = i)
    (hn : n < 256) (hc : wordBits c = b + 8) : ReadBack c i := by
  subst hb
  intro w hw
  obtain rfl : word n o = w := by
    rw [he] at hw
    exact congrArg Prod.snd (Option.some.inj hw)
  have hdiv := F.word_div n o
  exact ⟨(div_lt_iff hc).1 (hdiv.trans_lt hn), y, L.reserved, hr _ (by rw [hdiv, Nat.mod_eq_of_lt hn]) (F.read_word n o),
    F.gapsZero_word n o, hy⟩

end

/-! ### The scalar class (R57, R64) -/

def threeRegs : Layout := .field 6 <| .field 6 <| .field 6 <| .gap 6 .done
def twoRegs : Layout := .field 6 <| .field 6 <| .gap 12 .done
def twoRegsImm : Layout := .field 6 <| .field 6 <| .field 12 .done
def twoRegsCount : Layout := .field 6 <| .field 6 <| .gap 6 <| .field 6 .done
def floatBinary : Layout := .field 6 <| .field 6 <| .field 6 <| .field 2 <| .field 2 <| .gap 2 .done
def floatUnary : Layout := .field 6 <| .field 6 <| .gap 6 <| .field 2 <| .field 2 <| .gap 2 .done
def floatCompare : Layout := .field 6 <| .field 6 <| .field 6 <| .field 2 <| .gap 4 .done
def convertInt : Layout := .field 6 <| .field 6 <| .gap 6 <| .field 2 <| .field 2 <| .field 1 <| .gap 1 .done
def convertFloat : Layout := .field 6 <| .field 6 <| .gap 6 <| .field 2 <| .field 2 <| .field 2 .done
def fourRegs : Layout := .field 6 <| .field 6 <| .field 6 <| .field 6 .done
def threePreds : Layout := .field 5 <| .field 5 <| .field 5 <| .gap 9 .done
def predTwoRegs : Layout := .field 5 <| .gap 1 <| .field 6 <| .field 6 <| .gap 6 .done
def regImm : Layout := .field 6 <| .field 18 .done
def regPart : Layout := .field 6 <| .field 2 <| .field 16 .done

/-- The boxes below a scalar opcode (R64). -/
def scalarLayout (n : Nat) : Layout :=
  if n < 0x15 then threeRegs
  else if n < 0x18 then twoRegs
  else if n < 0x20 then threeRegs
  else if n < 0x26 then twoRegsImm
  else if n < 0x2A then twoRegsCount
  else if n < 0x40 then twoRegsImm
  else if n < 0x44 then floatBinary
  else if n < 0x45 then floatUnary
  else if n < 0x4C then floatCompare
  else if n < 0x4E then convertInt
  else if n < 0x50 then convertFloat
  else if n < 0x58 then fourRegs
  else if n < 0x60 then threePreds
  else if n < 0x70 then predTwoRegs
  else if n = 0x71 then regPart
  else regImm

/-- A row of the scalar class is read back where a word with its opcode and its operands is read as it. -/
theorem scalarRow_readBack {L : Layout} {i : Instr} {n : Nat} (o : Operands L)
    (he : encode i = some (.scalar, wordOf n o.fields))
    (hr : ∀ w, w / 2 ^ 24 % 256 = n → L.read w = o → readScalar w = some (i, L.reserved) := by
      intro w hop ho; cases ho; rw [readScalar, hop]; rfl)
    (hL : L.size = 24 := by rfl) (hn : n < 256 := by decide) : ReadBack .scalar i :=
  (wordOf_format hL).readBack (y := .op i) hL he (fun w hop ho => by rw [readSlot, hr w hop ho]; rfl) rfl hn rfl

theorem scalar_readBack (i : Instr) : ReadBack .scalar i := by
  cases i
  case add d a b | sub d a b | and d a b | or d a b | xor d a b | andn d a b | shl d a b | shr d a b | sar d a b |
    rol d a b | mul d a b | mulh d a b | mulhn d a b | div d a b | divn d a b | rem d a b | remn d a b | min d a b |
    max d a b | minn d a b | maxn d a b | cmpEq d a b | cmpNe d a b | cmpLt d a b | cmpGe d a b | cmpLtn d a b |
    cmpGen d a b =>
    exact scalarRow_readBack (L := threeRegs) (.field d <| .field a <| .field b <| .gap .done) rfl
  case clz d a | popc d a =>
    exact scalarRow_readBack (L := twoRegs) (.field d <| .field a <| .gap .done) rfl
  case addImm d a imm | subImm d a imm | andImm d a imm | orImm d a imm | xorImm d a imm | andnImm d a imm |
    mulImm d a imm | mulhImm d a imm | mulhnImm d a imm | divImm d a imm | divnImm d a imm | remImm d a imm |
    remnImm d a imm | minImm d a imm | maxImm d a imm | minnImm d a imm | maxnImm d a imm | cmpEqImm d a imm |
    cmpNeImm d a imm | cmpLtImm d a imm | cmpGeImm d a imm | cmpLtnImm d a imm | cmpGenImm d a imm =>
    exact scalarRow_readBack (L := twoRegsImm) (.field d <| .field a <| .field imm .done) rfl
  case shlImm d a k | shrImm d a k | sarImm d a k | rolImm d a k =>
    exact scalarRow_readBack (L := twoRegsCount) (.field d <| .field a <| .gap <| .field k .done) rfl
  case fadd d a b t m | fsub d a b t m | fmul d a b t m | fdiv d a b t m =>
    exact scalarRow_readBack (L := floatBinary) (.field d <| .field a <| .field b <| .field t <| .field m <| .gap .done) rfl
  case fsqrt d a t m =>
    exact scalarRow_readBack (L := floatUnary) (.field d <| .field a <| .gap <| .field t <| .field m <| .gap .done) rfl
  case fmin d a b t | fmax d a b t | fcmpEq d a b t | fcmpLt d a b t | fcmpLe d a b t | fcmpUn d a b t =>
    exact scalarRow_readBack (L := floatCompare) (.field d <| .field a <| .field b <| .field t <| .gap .done) rfl
  case cvtif d a t m u | cvtfi d a t m u =>
    exact scalarRow_readBack (L := convertInt)
      (.field d <| .field a <| .gap <| .field t <| .field m <| .field u <| .gap .done) rfl
  case cvtff d a t m u =>
    exact scalarRow_readBack (L := convertFloat) (.field d <| .field a <| .gap <| .field t <| .field m <| .field u .done) rfl
  case fmaF64 d a b c | fmaF32 d a b c =>
    exact scalarRow_readBack (L := fourRegs) (.field d <| .field a <| .field b <| .field c .done) rfl
  case pand d a b | por d a b | pxor d a b | pandn d a b =>
    exact scalarRow_readBack (L := threePreds) (.field d <| .field a <| .field b <| .gap .done) rfl
  case pcmpEq d a b | pcmpNe d a b | pcmpLt d a b | pcmpGe d a b | pcmpLtn d a b | pcmpGen d a b =>
    exact scalarRow_readBack (L := predTwoRegs) (.field d <| .gap <| .field a <| .field b <| .gap .done) rfl
  case movi d imm | addpc d imm =>
    exact scalarRow_readBack (L := regImm) (.field d <| .field imm .done) rfl
  case movk d h k =>
    exact scalarRow_readBack (L := regPart) (.field d <| .field h <| .field k .done) rfl
  all_goals exact fun _ h => nomatch h

/-! ### The control class (R58, R65) -/

/-- The boxes below a control opcode (R65), but for that of BLC and LPOP, which stand for one word each. -/
def controlLayout : Nat → Layout
  | 0x00 => .field 3 <| .field 21 .done
  | 0x01 => .field 3 <| .gap 5 <| .field 6 <| .gap 10 .done
  | 0x02 | 0x03 | 0x04 => .field 3 <| .field 5 <| .gap 16 .done
  | 0x05 => .field 3 <| .field 5 <| .field 6 <| .gap 10 .done
  | 0x08 => .field 6 <| .field 18 .done
  | 0x09 => .field 12 <| .field 12 .done
  | 0x10 | 0x11 => .field 6 <| .field 8 <| .field 2 <| .gap 8 .done
  | 0x12 => .field 6 <| .gap 8 <| .field 2 <| .field 2 <| .field 1 <| .gap 5 .done
  | 0x13 => .field 6 <| .field 8 <| .field 2 <| .gap 7 <| .field 1 .done
  | 0x18 => .gap 12 <| .field 12 .done
  | 0x19 => .gap 22 <| .field 2 .done
  | 0x1A | 0x1B => .gap 24 .done
  | 0x1C => .gap 8 <| .field 16 .done
  | 0x1D => .gap 16 <| .field 1 <| .field 1 <| .field 3 <| .field 3 .done
  | _ => .done

/-- A row of the control class is read back where a word with its opcode and its operands is read as it. -/
theorem controlRow_readBack {L : Layout} {i : Instr} {n : Nat} (o : Operands L)
    (he : encode i = some (.control, wordOf n o.fields))
    (hr : ∀ w, w / 2 ^ 24 % 256 = n → L.read w = o → readControl w = some (i, L.reserved) := by
      intro w hop ho; cases ho; rw [readControl, hop]; rfl)
    (hL : L.size = 24 := by rfl) (hn : n < 256 := by decide) : ReadBack .control i :=
  (wordOf_format hL).readBack (y := .op i) hL he (fun w hop ho => by rw [readSlot, hr w hop ho]; rfl) rfl hn rfl

/-- The row of MTC that a selector and a register space name: six control registers have one of their own. -/
def mtcRow (a : R6) (sel : BitVec 8) (spc : BitVec 2) : Instr :=
  if spc.toNat = 0 then
    match sel.toNat with
    | 0x00 => .mtcStatus a
    | 0x01 => .mtcFpf a
    | 0x02 => .mtcFerec a
    | 0x08 => .mtcRng a
    | 0x0C => .mtcTrpb a
    | 0x0E => .mtcTrpc a
    | _ => .mtc a sel spc
  else .mtc a sel spc

theorem readControl_mtc {w : Nat} (hop : w / 2 ^ 24 % 256 = 0x11) :
    readControl w = some (mtcRow (fld w 18 6) (fld w 10 8) (fld w 8 2), [(0, 8)]) := by
  rw [readControl, hop, mtcRow, toNat_fld, toNat_fld]
  rfl

theorem encode_mtcRow (a : R6) (sel : BitVec 8) (spc : BitVec 2) :
    encode (mtcRow a sel spc) = some (.control, wordOf 0x11 [(18, a.toNat), (10, sel.toNat), (8, spc.toNat)]) := by
  unfold mtcRow
  split
  next hspc =>
    split
    case h_7 => rfl
    all_goals
      next hsel => rw [hspc, hsel]; rfl
  next => rfl

theorem mtcRow_of_legal {a : R6} {sel : BitVec 8} {spc : BitVec 2} (h : mtcLegal sel spc = true) :
    mtcRow a sel spc = .mtc a sel spc := by
  unfold mtcRow
  split
  next hspc =>
    have hsel : sel.toNat ∈ [0x03, 0x09, 0x0B, 0x0D, 0x16] := by simpa [mtcLegal, hspc, selWritable] using h
    split
    case h_7 => rfl
    all_goals
      next hsel' => exact absurd (hsel' ▸ hsel) (by decide)
  next => rfl

theorem mtcRow_readBack (a : R6) (sel : BitVec 8) (spc : BitVec 2) : ReadBack .control (mtcRow a sel spc) :=
  controlRow_readBack (L := controlLayout 0x11) (.field a <| .field sel <| .field spc <| .gap .done) (encode_mtcRow a sel spc)
    fun w hop ho => by cases ho; exact readControl_mtc hop

/-- The row of BAR that its lowest bit names. -/
def barRow (d : R6) (id : BitVec 8) (sco : BitVec 2) (wait : BitVec 1) : Instr :=
  if wait.toNat = 0 then .barArrive d id sco else .barWait d id sco

theorem readControl_bar {w : Nat} (hop : w / 2 ^ 24 % 256 = 0x13) :
    readControl w = some (barRow (fld w 18 6) (fld w 10 8) (fld w 8 2) (fld w 0 1), [(1, 7)]) := by
  rw [readControl, hop, barRow, toNat_fld, pow_zero, Nat.div_one]
  rfl

theorem encode_barRow (d : R6) (id : BitVec 8) (sco : BitVec 2) (wait : BitVec 1) :
    encode (barRow d id sco wait) =
      some (.control, wordOf 0x13 [(18, d.toNat), (10, id.toNat), (8, sco.toNat), (0, wait.toNat)]) := by
  unfold barRow
  split
  next h => rw [h]; rfl
  next h =>
    have hw : wait.toNat = 1 := by omega
    rw [hw]; rfl

theorem barRow_readBack (d : R6) (id : BitVec 8) (sco : BitVec 2) (wait : BitVec 1) :
    ReadBack .control (barRow d id sco wait) :=
  controlRow_readBack (L := controlLayout 0x13) (.field d <| .field id <| .field sco <| .gap <| .field wait .done)
    (encode_barRow d id sco wait) fun w hop ho => by cases ho; exact readControl_bar hop

theorem blc_readBack : ReadBack .control .blc := by
  intro w hw
  cases hw
  exact ⟨by decide, .op .blc, [], rfl, List.forall_mem_nil _, rfl⟩

theorem lpop_readBack : ReadBack .control .lpop := by
  intro w hw
  cases hw
  exact ⟨by decide, .op .lpop, [], rfl, List.forall_mem_nil _, rfl⟩

theorem control_readBack {i : Instr} (hwf : i.wf = true) : ReadBack .control i := by
  cases i
  case pbr b off =>
    exact controlRow_readBack (L := controlLayout 0x00) (.field b <| .field off .done) rfl
  case pbrr b a =>
    exact controlRow_readBack (L := controlLayout 0x01) (.field b <| .gap <| .field a <| .gap .done) rfl
  case br b pg | brn b pg | call b pg =>
    exact controlRow_readBack (L := controlLayout 0x02) (.field b <| .field pg <| .gap .done) rfl
  case chk b pg a =>
    exact controlRow_readBack (L := controlLayout 0x05) (.field b <| .field pg <| .field a <| .gap .done) rfl
  case loop a off =>
    exact controlRow_readBack (L := controlLayout 0x08) (.field a <| .field off .done) rfl
  case loopi n off =>
    exact controlRow_readBack (L := controlLayout 0x09) (.field n <| .field off .done) rfl
  case mfc d sel spc =>
    exact controlRow_readBack (L := controlLayout 0x10) (.field d <| .field sel <| .field spc <| .gap .done) rfl
  case twait a sco tl all =>
    exact controlRow_readBack (L := controlLayout 0x12)
      (.field a <| .gap <| .field sco <| .field tl <| .field all <| .gap .done) rfl
  case cut id =>
    exact controlRow_readBack (L := controlLayout 0x18) (.gap <| .field id .done) rfl
  case prio c =>
    exact controlRow_readBack (L := controlLayout 0x19) (.gap <| .field c .done) rfl
  case dorm | exit =>
    exact controlRow_readBack (L := controlLayout 0x1A) (.gap .done) rfl
  case trap code =>
    exact controlRow_readBack (L := controlLayout 0x1C) (.gap <| .field code .done) rfl
  case tret rt p tb ra =>
    exact controlRow_readBack (L := controlLayout 0x1D) (.gap <| .field rt <| .field p <| .field tb <| .field ra .done) rfl
  case mtc a sel spc => exact mtcRow_of_legal hwf ▸ mtcRow_readBack a sel spc
  case mtcStatus a => exact mtcRow_readBack a 0x00 0
  case mtcFpf a => exact mtcRow_readBack a 0x01 0
  case mtcFerec a => exact mtcRow_readBack a 0x02 0
  case mtcRng a => exact mtcRow_readBack a 0x08 0
  case mtcTrpb a => exact mtcRow_readBack a 0x0C 0
  case mtcTrpc a => exact mtcRow_readBack a 0x0E 0
  case barArrive d id sco => exact barRow_readBack d id sco 0
  case barWait a id sco => exact barRow_readBack a id sco 1
  case blc => exact blc_readBack
  case lpop => exact lpop_readBack
  all_goals exact fun _ h => nomatch h

/-! ### The vector class (R59, R66) -/

/-- A row of the vector class is read back where a word with its opcode and its operands is read as it. -/
theorem vectorRow_readBack {α : Type} {L : Layout} {operands : α → Operands L} {read : Nat → α}
    {word : Nat → α → Nat} {i : Instr} {n : Nat} {o : α} (F : Format L operands read word)
    (he : encode i = some (.vector, word n o))
    (hr : ∀ w, w / 2 ^ 56 % 256 = n → read w = o → readVector true w = some (i, L.reserved) := by
      intro w hop ho; cases ho; rw [readVector, hop]; rfl)
    (hL : L.size = 56 := by rfl) (hn : n < 256 := by decide) : ReadBack .vector i :=
  F.readBack (y := .op i) hL he (fun w hop ho => by rw [readSlot, show readVector (_ == _) w = _ from hr w hop ho]; rfl)
    rfl hn rfl

/-- The row of VQNT that bit 5 of its descriptor field names (R151). -/
def vqntRow (o : VR) : Instr := if o.fx.toNat / 2 ^ 5 = 0 then .vqnt o else .vqntScale o

theorem readVector_vqnt {s3 : Bool} {w : Nat} (hop : w / 2 ^ 56 % 256 = 0x39) :
    readVector s3 w = some (vqntRow (readVR w), []) := by
  have hbit : (readVR w).fx.toNat / 2 ^ 5 = w / 2 ^ 5 % 2 := by
    rw [readVR, toNat_fld]
    omega
  rw [readVector, hop, vqntRow, hbit]
  rfl

theorem encode_vqntRow (o : VR) : encode (vqntRow o) = some (.vector, o.toWord 0x39) := by
  unfold vqntRow
  split <;> rfl

theorem vqntRow_readBack (o : VR) : ReadBack .vector (vqntRow o) :=
  vectorRow_readBack vrFormat (encode_vqntRow o) fun w hop ho => by cases ho; exact readVector_vqnt hop

theorem vector_readBack {i : Instr} (hwf : i.wf = true) : ReadBack .vector i := by
  cases i
  case vadd o | vsub o | vadds o | vsubs o | vmul o | vmulh o | vmad o | vmin o | vmax o | vabs o | vneg o | vand o |
    vor o | vxor o | vandn o | vshl o | vshr o | vpopc o | vclz o | vmov o | vfadd o | vfsub o | vfmul o | vfma o |
    vfnma o | vfdiv o | vfsqrt o | vfmin o | vfmax o | vfrcp o | vfrsq o | vfexp2 o | vflog2 o | vcmp o | vfcmp o | vsel o |
    vbcst o | vcvt o | vdqnt o | vxch o | vperm o | vcomp o | vexp o | vsld o | vrsum o | vrmax o | vrmin o | vrfsum o |
    vrfmax o | vaddS o | vsubS o | vaddsS o | vsubsS o | vmulS o | vmulhS o | vmadS o | vminS o | vmaxS o | vandS o |
    vorS o | vxorS o | vandnS o | vshlS o | vshrS o | vfaddS o | vfsubS o | vfmulS o | vfmaS o | vfnmaS o | vfdivS o |
    vfminS o | vfmaxS o | vcmpS o | vfcmpS o | gset o | gidx o =>
    exact vectorRow_readBack vrFormat rfl
  case gor2 o | gor3 o | ginc o | gins o | gseg o =>
    exact vectorRow_readBack vgFormat rfl
  case vqnt o =>
    have hfx : o.fx.toNat < 32 := of_decide_eq_true (Bool.and_eq_true_iff.1 hwf).2
    exact (if_pos (by omega) : vqntRow o = _) ▸ vqntRow_readBack o
  case vqntScale o =>
    have hfx : 32 ≤ o.fx.toNat := of_decide_eq_true (Bool.and_eq_true_iff.1 hwf).2
    exact (if_neg (by omega) : vqntRow o = _) ▸ vqntRow_readBack o
  all_goals exact fun _ h => nomatch h

/-! ### The memory class (R63, R69) -/

/-- A row of the memory class is read back where a word with its opcode and its operands is read as it. -/
theorem memoryRow_readBack {α : Type} {L : Layout} {operands : α → Operands L} {read : Nat → α}
    {word : Nat → α → Nat} {i : Instr} {n : Nat} {o : α} (F : Format L operands read word)
    (he : encode i = some (.memory, word n o))
    (hr : ∀ w, w / 2 ^ 56 % 256 = n → read w = o → readMemory w = some (i, L.reserved) := by
      intro w hop ho; cases ho; rw [readMemory, hop]; rfl)
    (hL : L.size = 56 := by rfl) (hn : n < 256 := by decide) : ReadBack .memory i :=
  F.readBack (y := .op i) hL he (fun w hop ho => by rw [readSlot, hr w hop ho]; rfl) rfl hn rfl

/-- The row of SPRE that its ALL flag names (R189). -/
def spreRow (o : LX) : Instr := if o.imm.toNat / 2 ^ 34 = 0 then .spre o else .spreAll o

theorem readMemory_spre {w : Nat} (hop : w / 2 ^ 56 % 256 = 0x3B) : readMemory w = some (spreRow (readLX w), []) := by
  have hbit : (readLX w).imm.toNat / 2 ^ 34 = w / 2 ^ 34 % 2 := by
    rw [readLX, toNat_fld]
    omega
  rw [readMemory, hop, spreRow, hbit]
  rfl

theorem encode_spreRow (o : LX) : encode (spreRow o) = some (.memory, o.toWord 0x3B) := by
  unfold spreRow
  split <;> rfl

theorem spreRow_readBack (o : LX) : ReadBack .memory (spreRow o) :=
  memoryRow_readBack lxFormat (encode_spreRow o) fun w hop ho => by cases ho; exact readMemory_spre hop

theorem memory_readBack {i : Instr} (hwf : i.wf = true) : ReadBack .memory i := by
  cases i
  case ldI8 o | ldN8 o | ldI16 o | ldN16 o | ldI32 o | ldN32 o | ldI64 o | stN8 o | stN16 o | stN32 o | stN64 o | ldsI32 o |
    ldsN32 o | ldsI64 o | ldaN32 o | ldaI64 o | stlN32 o | stlN64 o | drain o | clwb o | clinv o | clfl o | waita o =>
    exact memoryRow_readBack lsFormat rfl
  case aadd o | aand o | aor o | axor o | amin o | amax o | aswp o | acas o =>
    exact memoryRow_readBack laFormat rfl
  case vld o | vst o | vlds o | vsts o | pld o | pst o =>
    exact memoryRow_readBack lvFormat rfl
  case vgth o | vsct o =>
    exact memoryRow_readBack lgFormat rfl
  case sown o | srel o | sact o | sref o | sldx o | sstx o =>
    exact memoryRow_readBack lxFormat rfl
  case spre o =>
    have himm : o.imm.toNat < 2 ^ 23 := of_decide_eq_true (Bool.and_eq_true_iff.1 hwf).2
    exact (if_pos (by omega) : spreRow o = _) ▸ spreRow_readBack o
  case spreAll o =>
    have himm : o.imm.toNat = 2 ^ 34 := of_decide_eq_true (Bool.and_eq_true_iff.1 hwf).2
    exact (if_neg (by omega) : spreRow o = _) ▸ spreRow_readBack o
  all_goals exact fun _ h => nomatch h

/-! ### The matrix class (R61, R67) -/

/-- The row of MGO that its FIX bit names (R226). -/
def mgoRow (o : FM) : MOp := if o.imm.toNat / 2 ^ 3 % 2 = 1 then .mgoFix else .mgoLoop

theorem readMatrix_mgo {w : Nat} (hop : w / 2 ^ 88 % 256 = 0x02) : readMatrix w = some (mgoRow (readFM w), readFM w) := by
  have hbit : (readFM w).imm.toNat / 2 ^ 3 % 2 = w / 2 ^ 53 % 2 := by
    rw [readFM, toNat_fld]
    omega
  rw [readMatrix, hop, mgoRow, hbit]
  rfl

theorem encode_mgoRow (o : FM) : encode (Slot.mat (mgoRow o) o).toInstr = some (.matrix, o.toWord 0x02) := by
  unfold mgoRow
  split <;> rfl

theorem mgoRow_readBack (o : FM) : ReadBack .matrix (Slot.mat (mgoRow o) o).toInstr :=
  fmFormat.readBack (b := 88) rfl (encode_mgoRow o)
    (fun w hop ho => by cases ho; rw [readSlot, readMatrix_mgo hop]; rfl) rfl (by decide) rfl

theorem mat_readBack {m : MOp} {o : FM} (hwf : m.wf o = true) : ReadBack .matrix (Slot.mat m o).toInstr := by
  cases m
  case mgoFix =>
    have himm : o.imm.toNat % 16 = 8 := of_decide_eq_true (Bool.and_eq_true_iff.1 hwf).2
    exact (if_pos (by omega) : mgoRow o = _) ▸ mgoRow_readBack o
  case mgoLoop =>
    have himm : o.imm.toNat < 6 := of_decide_eq_true (Bool.and_eq_true_iff.1 hwf).2
    exact (if_neg (by omega) : mgoRow o = _) ▸ mgoRow_readBack o
  all_goals
    exact fmFormat.readBack (b := 88) (y := .mat _ o) rfl rfl
      (fun w hop ho => by cases ho; rw [readSlot, readMatrix, hop]; rfl) rfl (by decide) rfl

/-! ### The engine class (R62, R68) -/

/-- The row of CPYX that its op names (R200), and that of MXRED that its mode names (R203). -/
def cpyxRow (o : FE) : Option EOp :=
  match o.xOp with
  | 0 => some .cpyxScale
  | 1 => some .cpyxAdd
  | 2 => some .cpyxCast
  | 3 => some .cpyxRadd
  | 4 => some .cpyxRmax
  | _ => none
def mxredRow (o : FE) : Option EOp :=
  match o.fn.toNat / 2 ^ 12 with
  | 0 => some .mxredStart
  | 1 => some .mxredRelay
  | 2 => some .mxredFinish
  | _ => none

theorem readEngine_cpyx {w : Nat} (hop : w / 2 ^ 88 % 256 = 0x03) :
    readEngine w = (cpyxRow (readFE w)).map fun e => (e, readFE w) := by
  have hbits : (readFE w).xOp = w / 2 ^ 61 % 8 := by
    rw [FE.xOp, readFE, toNat_fld]
    omega
  rw [readEngine, hop, cpyxRow, hbits]
  generalize w / 2 ^ 61 % 8 = op
  match op with
  | 0 | 1 | 2 | 3 | 4 | _ + 5 => rfl

theorem readEngine_mxred {w : Nat} (hop : w / 2 ^ 88 % 256 = 0x09) :
    readEngine w = (mxredRow (readFE w)).map fun e => (e, readFE w) := by
  have hbits : (readFE w).fn.toNat / 2 ^ 12 = w / 2 ^ 62 % 4 := by
    rw [readFE, toNat_fld]
    omega
  rw [readEngine, hop, mxredRow, hbits]
  generalize w / 2 ^ 62 % 4 = mode
  match mode with
  | 0 | 1 | 2 | _ + 3 => rfl

theorem encode_cpyxRow {e : EOp} {o : FE} (h : cpyxRow o = some e) :
    encode (Slot.eng e o).toInstr = some (.engine, o.toWord 0x03) := by
  unfold cpyxRow at h
  split at h
  case h_6 => cases h
  all_goals cases h; rfl

theorem encode_mxredRow {e : EOp} {o : FE} (h : mxredRow o = some e) :
    encode (Slot.eng e o).toInstr = some (.engine, o.toWord 0x09) := by
  unfold mxredRow at h
  split at h
  case h_4 => cases h
  all_goals cases h; rfl

theorem cpyxRow_readBack {e : EOp} {o : FE} (h : cpyxRow o = some e) : ReadBack .engine (Slot.eng e o).toInstr :=
  feFormat.readBack (b := 88) rfl (encode_cpyxRow h)
    (fun w hop ho => by rw [readSlot, readEngine_cpyx hop, ho, h]; rfl) rfl (by decide) rfl

theorem mxredRow_readBack {e : EOp} {o : FE} (h : mxredRow o = some e) : ReadBack .engine (Slot.eng e o).toInstr :=
  feFormat.readBack (b := 88) rfl (encode_mxredRow h)
    (fun w hop ho => by rw [readSlot, readEngine_mxred hop, ho, h]; rfl) rfl (by decide) rfl

theorem xOp_of_wfX {o : FE} {op : Nat} {useSd cast : Bool} (h : o.wfX op useSd cast = true) : o.xOp = op := by
  simp only [FE.wfX, Bool.and_eq_true, decide_eq_true_eq] at h
  obtain ⟨⟨⟨⟨⟨-, hop⟩, -⟩, -⟩, -⟩, -⟩ := h
  exact hop

theorem mode_of_wfMx {o : FE} {mode : Nat} (h : o.wfMx mode = true) : o.fn.toNat / 2 ^ 12 = mode := by
  simp only [FE.wfMx, Bool.and_eq_true, decide_eq_true_eq] at h
  obtain ⟨⟨⟨-, hmode⟩, -⟩, -⟩ := h
  exact hmode

theorem eng_readBack {e : EOp} {o : FE} (hwf : e.wf o = true) : ReadBack .engine (Slot.eng e o).toInstr := by
  cases e
  case cpyxScale | cpyxAdd | cpyxCast | cpyxRadd | cpyxRmax =>
    exact cpyxRow_readBack (by rw [cpyxRow, xOp_of_wfX hwf]; rfl)
  case mxredStart | mxredRelay | mxredFinish =>
    exact mxredRow_readBack (by rw [mxredRow, mode_of_wfMx hwf]; rfl)
  all_goals
    exact feFormat.readBack (b := 88) (y := .eng _ o) rfl rfl
      (fun w hop ho => by cases ho; rw [readSlot, readEngine, hop]; rfl) rfl (by decide) rfl

theorem matrix_readBack {i : Instr} (hwf : i.wf = true) : ReadBack .matrix i := by
  cases i
  case mcfg o => exact mat_readBack (m := .mcfg) hwf
  case mfmt o => exact mat_readBack (m := .mfmt) hwf
  case mgoFix o => exact mat_readBack (m := .mgoFix) hwf
  case mgoLoop o => exact mat_readBack (m := .mgoLoop) hwf
  case mldw o => exact mat_readBack (m := .mldw) hwf
  case mrdz o => exact mat_readBack (m := .mrdz) hwf
  case mrdb o => exact mat_readBack (m := .mrdb) hwf
  case mcal o => exact mat_readBack (m := .mcal) hwf
  case mzclr o => exact mat_readBack (m := .mzclr) hwf
  case mav o => exact mat_readBack (m := .mav) hwf
  case msig o => exact mat_readBack (m := .msig) hwf
  all_goals exact fun _ h => nomatch h

theorem engine_readBack {i : Instr} (hwf : i.wf = true) : ReadBack .engine i := by
  cases i
  case cpy o => exact eng_readBack (e := .cpy) hwf
  case cpy2 o => exact eng_readBack (e := .cpy2) hwf
  case cpy3 o => exact eng_readBack (e := .cpy3) hwf
  case cpyxScale o => exact eng_readBack (e := .cpyxScale) hwf
  case cpyxAdd o => exact eng_readBack (e := .cpyxAdd) hwf
  case cpyxCast o => exact eng_readBack (e := .cpyxCast) hwf
  case cpyxRadd o => exact eng_readBack (e := .cpyxRadd) hwf
  case cpyxRmax o => exact eng_readBack (e := .cpyxRmax) hwf
  case cpyh o => exact eng_readBack (e := .cpyh) hwf
  case fcpy o => exact eng_readBack (e := .fcpy) hwf
  case mxredStart o => exact eng_readBack (e := .mxredStart) hwf
  case mxredRelay o => exact eng_readBack (e := .mxredRelay) hwf
  case mxredFinish o => exact eng_readBack (e := .mxredFinish) hwf
  case rsig o => exact eng_readBack (e := .rsig) hwf
  case esig o => exact eng_readBack (e := .esig) hwf
  case pmap o => exact eng_readBack (e := .pmap) hwf
  case pmq o => exact eng_readBack (e := .pmq) hwf
  case launch o => exact eng_readBack (e := .launch) hwf
  all_goals exact fun _ h => nomatch h

theorem readBack {i : Instr} (hwf : i.wf = true) (c : SlotClass) : ReadBack c i :=
  match c with
  | .scalar => scalar_readBack i
  | .control => control_readBack hwf
  | .vector => vector_readBack hwf
  | .matrix => matrix_readBack hwf
  | .engine => engine_readBack hwf
  | .memory => memory_readBack hwf

end Sys2Proof.Proofs.Formats
end

section
open Sys2Proof Sys2Proof.Machine
namespace Sys2Proof.Proofs.Formats

section
variable {α : Type} {L : Layout} {operands : α → Operands L} {read : Nat → α} {word : Nat → α → Nat}
  {c : SlotClass} {i : Instr} {b n w : Nat}

/-- An instruction with the opcode and the fields of a word whose gaps are zero has that word. -/
theorem Format.encode_read (F : Format L operands read word) (hb : L.size = b) (hc : wordBits c = b + 8)
    (hw : w < 2 ^ wordBits c) (hop : w / 2 ^ b % 256 = n) (hz : GapsZero L.reserved w)
    (he : encode i = some (c, word n (read w))) : encode i = some (c, w) := by
  subst hb
  rw [he, ← hop, Nat.mod_eq_of_lt ((div_lt_iff hc).2 hw), F.word_read hz]

/-- The same for a word of 32 bits, whose opcode names its layout. -/
theorem wordOf_encode (layout : Nat → Layout) (hw : w < 2 ^ 32) (hop : w / 2 ^ 24 % 256 = n)
    (hz : GapsZero (layout n).reserved w) (he : encode i = some (c, wordOf n ((layout n).read w).fields))
    (hL : (layout n).size = 24 := by rfl) (hc : wordBits c = 32 := by rfl) : encode i = some (c, w) :=
  (wordOf_format hL).encode_read hL hc (hc ▸ hw) hop hz he

end

/-! ### What is read from a word has that word -/

section
variable {s3 : Bool} {w : Nat}

theorem readScalar_encode {x : Instr × List (Nat × Nat)} (h : readScalar w = some x) (hw : w < 2 ^ 32) (hz : GapsZero x.2 w) :
    encode x.1 = some (.scalar, w) := by
  unfold readScalar at h
  split at h
  case h_86 => cases h
  all_goals
    next hop =>
    cases h
    exact wordOf_encode scalarLayout hw hop hz rfl

theorem readControl_encode {x : Instr × List (Nat × Nat)} (h : readControl w = some x) (hw : w < 2 ^ 32)
    (hz : GapsZero x.2 w) : encode x.1 = some (.control, w) := by
  by_cases hmtc : w / 2 ^ 24 % 256 = 0x11
  · rw [readControl_mtc hmtc] at h
    cases h
    exact wordOf_encode controlLayout hw hmtc hz (encode_mtcRow ..)
  by_cases hbar : w / 2 ^ 24 % 256 = 0x13
  · rw [readControl_bar hbar] at h
    cases h
    exact wordOf_encode controlLayout hw hbar hz (encode_barRow ..)
  unfold readControl at h
  dsimp only at h
  split at h
  case h_17 hop =>
    split at h
    next hlow =>
      cases h
      obtain rfl : w = 0x0A000000 := by omega
      rfl
    split at h
    next hlow =>
      cases h
      obtain rfl : w = 0x0A000001 := by omega
      rfl
    next => cases h
  case h_18 hop => exact absurd hop hmtc
  case h_19 hop => exact absurd hop hbar
  case h_20 => cases h
  all_goals
    next hop =>
    cases h
    exact wordOf_encode controlLayout hw hop hz rfl

theorem readVector_encode {x : Instr × List (Nat × Nat)} (h : readVector s3 w = some x) (hw : w < 2 ^ 64)
    (hz : GapsZero x.2 w) : encode x.1 = some (.vector, w) := by
  unfold readVector at h
  dsimp only at h
  split at h
  case h_75 hop =>
    cases h
    split <;> exact vrFormat.encode_read (b := 56) rfl rfl hw hop hz rfl
  case h_83 => cases h
  case h_76 hop | h_77 hop =>
    split at h
    · cases h
      exact vrFormat.encode_read (b := 56) rfl rfl hw hop hz rfl
    · cases h
  case h_78 hop | h_79 hop | h_80 hop | h_81 hop | h_82 hop =>
    split at h
    · cases h
      exact vgFormat.encode_read (b := 56) rfl rfl hw hop hz rfl
    · cases h
  all_goals
    next hop =>
    cases h
    exact vrFormat.encode_read (b := 56) rfl rfl hw hop hz rfl

theorem readMemory_encode {x : Instr × List (Nat × Nat)} (h : readMemory w = some x) (hw : w < 2 ^ 64) (hz : GapsZero x.2 w) :
    encode x.1 = some (.memory, w) := by
  by_cases hspre : w / 2 ^ 56 % 256 = 0x3B
  · rw [readMemory_spre hspre] at h
    cases h
    exact lxFormat.encode_read (b := 56) rfl rfl hw hspre hz (encode_spreRow _)
  unfold readMemory at h
  split at h
  case h_43 hop => exact absurd hop hspre
  case h_47 => cases h
  -- the atomics, the contiguous and strided accesses, the gathers, and the exposed commands; the rest is of format LS
  case h_19 hop | h_20 hop | h_21 hop | h_22 hop | h_23 hop | h_24 hop | h_25 hop | h_26 hop =>
    cases h
    exact laFormat.encode_read (b := 56) rfl rfl hw hop hz rfl
  case h_27 hop | h_28 hop | h_29 hop | h_30 hop | h_33 hop | h_34 hop =>
    cases h
    exact lvFormat.encode_read (b := 56) rfl rfl hw hop hz rfl
  case h_31 hop | h_32 hop =>
    cases h
    exact lgFormat.encode_read (b := 56) rfl rfl hw hop hz rfl
  case h_40 hop | h_41 hop | h_42 hop | h_44 hop | h_45 hop | h_46 hop =>
    cases h
    exact lxFormat.encode_read (b := 56) rfl rfl hw hop hz rfl
  all_goals
    next hop =>
    cases h
    exact lsFormat.encode_read (b := 56) rfl rfl hw hop hz rfl

theorem readMatrix_encode {x : MOp × FM} (h : readMatrix w = some x) (hw : w < 2 ^ 96) (hz : GapsZero [(0, 6)] w) :
    encode (Slot.mat x.1 x.2).toInstr = some (.matrix, w) := by
  by_cases hmgo : w / 2 ^ 88 % 256 = 0x02
  · rw [readMatrix_mgo hmgo] at h
    cases h
    exact fmFormat.encode_read (b := 88) rfl rfl hw hmgo hz (encode_mgoRow _)
  unfold readMatrix at h
  dsimp only at h
  split at h
  case h_10 hop => exact absurd hop hmgo
  case h_11 => cases h
  all_goals
    next hop =>
    cases h
    exact fmFormat.encode_read (b := 88) rfl rfl hw hop hz rfl

theorem readEngine_encode {x : EOp × FE} (h : readEngine w = some x) (hw : w < 2 ^ 96) (hz : GapsZero [(0, 6)] w) :
    encode (Slot.eng x.1 x.2).toInstr = some (.engine, w) := by
  by_cases hcpyx : w / 2 ^ 88 % 256 = 0x03
  · rw [readEngine_cpyx hcpyx] at h
    obtain ⟨e, he, rfl⟩ := Option.map_eq_some_iff.1 h
    exact feFormat.encode_read (b := 88) rfl rfl hw hcpyx hz (encode_cpyxRow he)
  by_cases hmxred : w / 2 ^ 88 % 256 = 0x09
  · rw [readEngine_mxred hmxred] at h
    obtain ⟨e, he, rfl⟩ := Option.map_eq_some_iff.1 h
    exact feFormat.encode_read (b := 88) rfl rfl hw hmxred hz (encode_mxredRow he)
  unfold readEngine at h
  dsimp only at h
  split at h
  case h_11 hop => exact absurd hop hcpyx
  case h_12 hop => exact absurd hop hmxred
  case h_13 => cases h
  all_goals
    next hop =>
    cases h
    exact feFormat.encode_read (b := 88) rfl rfl hw hop hz rfl

/-- A slot value whose gaps are zero is the word of what it is read as. -/
theorem readSlot_encode {c : SlotClass} {y : Slot} {rsv : List (Nat × Nat)} (h : readSlot c s3 w = some (y, rsv))
    (hw : w < 2 ^ wordBits c) (hz : GapsZero rsv w) : encode y.toInstr = some (c, w) := by
  cases c <;> obtain ⟨x, hx, hy⟩ := Option.map_eq_some_iff.1 h <;> cases hy
  case scalar => exact readScalar_encode hx hw hz
  case control => exact readControl_encode hx hw hz
  case vector => exact readVector_encode hx hw hz
  case matrix => exact readMatrix_encode hx hw hz
  case engine => exact readEngine_encode hx hw hz
  case memory => exact readMemory_encode hx hw hz

end

/-! ### The round trip -/

theorem all_zero_iff_gapsZero {rsv : List (Nat × Nat)} {w : Nat} :
    (rsv.all fun r => w / 2 ^ r.1 % 2 ^ r.2 = 0) = true ↔ GapsZero rsv w := by
  simp [GapsZero]

/-- A reading whose gaps are zero decodes where it is in legal form (R52). -/
theorem decodeSlot_of_gapsZero {c : SlotClass} {s3 : Bool} {w : Nat} {y : Slot} {rsv : List (Nat × Nat)}
    (h : readSlot c s3 w = some (y, rsv)) (hz : GapsZero rsv w) : decodeSlot c s3 w = if y.wf then .ok y else .error .form := by
  simp only [decodeSlot, h, if_pos (all_zero_iff_gapsZero.2 hz)]

/-- What decodes is a reading whose gaps are zero, in legal form. -/
theorem of_decodeSlot {c : SlotClass} {s3 : Bool} {w : Nat} {y : Slot} (h : decodeSlot c s3 w = .ok y) :
    ∃ rsv, readSlot c s3 w = some (y, rsv) ∧ GapsZero rsv w ∧ y.wf = true := by
  obtain ⟨rsv, hr⟩ := Cycles.readSlot_of_decodeSlot h
  have hz : GapsZero rsv w := by
    by_contra hz
    rw [decodeSlot, hr] at h
    simp only [if_neg (all_zero_iff_gapsZero.not.2 hz)] at h
    cases h
  rw [decodeSlot_of_gapsZero hr hz] at h
  split at h
  · next hwf => exact ⟨rsv, hr, hz, hwf⟩
  · cases h

theorem toInstr_wf (y : Slot) : y.toInstr.wf = y.wf := by
  cases y with
  | op i => rfl
  | mat m o => cases m <;> rfl
  | eng e o => cases e <;> rfl

theorem encode_isSome (i : Instr) : (encode i).isSome = !isEvent i := by cases i <;> rfl

/-- Settles O52: a format is a layout of boxes, and its word has the fields and the gaps that it was made of; each row is read
from and written in the format of its opcode. -/
theorem encodingRoundTrip : Obligations.EncodingRoundTrip := by
  refine ⟨fun i => ?_, fun i c w hwf hw => ?_, fun c s3 w y hw h => ?_⟩
  · rw [← Bool.not_eq_true', ← encode_isSome, Option.isSome_iff_exists, Prod.exists]
  · obtain ⟨hlt, y, rsv, hr, hz, rfl⟩ := readBack hwf c w hw
    exact ⟨hlt, y, by rw [decodeSlot_of_gapsZero hr hz, ← toInstr_wf, if_pos hwf], rfl⟩
  · obtain ⟨rsv, hr, hz, hwf⟩ := of_decodeSlot h
    exact ⟨(toInstr_wf y).trans hwf, readSlot_encode hr hw hz⟩

/-- Settles O51, by evaluation of the decoder. -/
theorem decodedWords : Obligations.DecodedWords := ⟨rfl, rfl, rfl, rfl, rfl, rfl, rfl, rfl⟩

end Sys2Proof.Proofs.Formats
end

section
open Sys2Proof Sys2Proof.Machine
namespace Sys2Proof.Proofs.ReservedForms
open Cycles Formats

/-! ### Headers (R47, R51) -/

/-- The trap of a bundle that is illegal as a whole (R47). -/
def headerTrap : Trap := { cause := cIllegalBundle, slot := 0, sres := none }

theorem rsv_ne_zero {h : Nat} (hlt : h < 2 ^ 16) (hne : h / 2 ^ 10 ≠ 0) : (readHeader h).rsv ≠ 0 := by
  intro h0
  have h0 : h / 2 ^ 10 % 2 ^ 6 = 0 := (toNat_fld h 10 6).symm.trans (congrArg BitVec.toNat h0)
  omega

theorem decodeCheck_of_rsv {u : State} {b : Bun} (h : b.hdr.rsv ≠ 0) : u.decodeCheck b = some headerTrap := by
  rw [State.decodeCheck, if_pos (Bool.or_eq_true_iff.2 (.inl (decide_eq_true h)))]
  rfl

theorem bundleAt_of_rsv {u : State} {a : W64} {h : Nat} {p : Nat × Bool} (hp : u.fetchPlace a = .ok p)
    (hr : (readHeader h).rsv ≠ 0) : u.bundleAt a h = .trap a headerTrap := by
  have hcheck (b : Bun) (hb : b.hdr = readHeader h) : u.decodeCheck b = some headerTrap := decodeCheck_of_rsv (hb ▸ hr)
  simp [State.bundleAt, hp, hcheck]

section
variable {s u : State} {id : CtxId} {a : W64} {t : Trap}

theorem not_halted_of_mayFetch (h : u.mayFetch = true) : u.ctx.halted = false := by
  simp only [State.mayFetch, Bool.and_eq_true, Bool.not_eq_true'] at h
  obtain ⟨⟨⟨⟨hgo, -⟩, -⟩, -⟩, -⟩ := h
  exact hgo

theorem ready_of_trap (hn : u.nextBundle = .trap a t) (hf : u.mayFetch = true) : u.ready = (.trap a t, u) := by
  simp [State.ready, not_halted_of_mayFetch hf, hn, hf]

/-- A core with one resident context whose next bundle is a trap: the survey names it alone. -/
theorem survey_trap (hf : s.focus id = some u) (hr : u.ready = (.trap a t, u)) (hl : u.ctx.sch.life = .resident) :
    State.survey [id] s =
      ([{ id := id, cls := u.classOf u.ctx, lic := u.ctx.sch.lic, bank := u.ctx.bank.toNat, next := .trap a t,
          first := u.ctx.firstSlot }], u) := by
  have hfoc := focused_of_focus hf
  simp [State.survey, State.probe, hf, hr, State.cand, ctx?_of_focused hfoc hl, hfoc.id, insertCand]

theorem issueCand_trap {c : Cand} (hf : s.focus c.id = some u) (hn : c.next = .trap a t) :
    s.issueCand c = .next (u.decodeTrap a t) := by
  simp [State.issueCand, hf, hn]

/-- A core's cycle takes the trap that the next bundle of its one context is (R51). -/
theorem gives_issueCycle_of_trap {core : BitVec 11} (hcore : core.toNat < 1152) (hboot : s.boot.fwerr = false)
    (hpower : s.power.retained = false) (hlod : (s.focusCore core.toNat).landDue.lodgers = [id])
    (hf : (s.focusCore core.toNat).landDue.focus id = some u) (hmay : u.mayFetch = true) (hn : u.nextBundle = .trap a t) :
    Gives (.issueCycle core) s (((u.noteQueues.decodeTrap a t).focusCore core.toNat).endCycle) := by
  have hfoc := focused_of_focus hf
  have hl := life_of_not_halted (not_halted_of_mayFetch hmay)
  have hnext : u.noteQueues.focus id = some u.noteQueues :=
    focus_of_focused (focused_noteQueues hfoc hl) (by rw [noteQueues_ctx hl, hl]; decide)
  refine gives_issueCycle hcore hboot hpower (by rw [hlod, survey_trap hf (ready_of_trap hn hmay) hl]) ?_
  exact issueCands_singleton (issueCand_trap hnext rfl)

end

theorem reservedHeadersRule : ReservedHeadersRule := by
  intro s u core id h a p hcore hboot hpower s1 trap hlod hf hmay hfind hplace hlt hne
  have hn : u.nextBundle = .trap a trap :=
    (nextBundle_of_header hfind).trans (bundleAt_of_rsv hplace (rsv_ne_zero hlt hne))
  exact ⟨hn, gives_issueCycle_of_trap hcore hboot hpower hlod hf hmay hn⟩

/-! ### Slot values (R25, R51, R52, R64 to R69) -/

/-- A list of ranges holds an opcode. -/
abbrev Assigned (ranges : List (Nat × Nat)) (n : Nat) : Prop := ∃ r ∈ ranges, r.1 ≤ n ∧ n ≤ r.2

section
variable {s3 : Bool} {w : Nat}

theorem assigned_readScalar (h : (readScalar w).isSome) : Assigned (opcodeRanges .scalar s3) (w / 2 ^ 24 % 256) := by
  unfold readScalar at h
  split at h
  case h_86 => cases h
  all_goals
    next hop =>
    rw [hop, opcodeRanges]
    decide

theorem assigned_readControl (h : (readControl w).isSome) : Assigned (opcodeRanges .control s3) (w / 2 ^ 24 % 256) := by
  unfold readControl at h
  split at h
  case h_20 => cases h
  all_goals
    next hop =>
    rw [hop, opcodeRanges]
    decide

theorem assigned_readVector (h : (readVector s3 w).isSome) : Assigned (opcodeRanges .vector s3) (w / 2 ^ 56 % 256) := by
  unfold readVector at h
  split at h
  case h_83 => cases h
  case h_76 hop | h_77 hop | h_78 hop | h_79 hop | h_80 hop | h_81 hop | h_82 hop =>
    rw [hop]
    cases s3 with
    | true => decide
    | false => cases h
  all_goals
    next hop =>
    rw [hop]
    cases s3 <;> decide

theorem assigned_readMemory (h : (readMemory w).isSome) : Assigned (opcodeRanges .memory s3) (w / 2 ^ 56 % 256) := by
  unfold readMemory at h
  split at h
  case h_47 => cases h
  all_goals
    next hop =>
    rw [hop, opcodeRanges]
    decide

theorem assigned_readMatrix (h : (readMatrix w).isSome) : Assigned (opcodeRanges .matrix s3) (w / 2 ^ 88 % 256) := by
  unfold readMatrix at h
  split at h
  case h_11 => cases h
  all_goals
    next hop =>
    rw [hop, opcodeRanges]
    decide

theorem assigned_readEngine (h : (readEngine w).isSome) : Assigned (opcodeRanges .engine s3) (w / 2 ^ 88 % 256) := by
  unfold readEngine at h
  split at h
  case h_13 => cases h
  all_goals
    next hop =>
    rw [hop, opcodeRanges]
    decide

/-- What is read has an opcode that its class assigns. -/
theorem assigned_readSlot {c : SlotClass} (h : (readSlot c s3 w).isSome) :
    Assigned (opcodeRanges c s3) (w / 2 ^ (wordBits c - 8) % 256) := by
  cases c <;> rw [readSlot, Option.isSome_map] at h
  case scalar => exact assigned_readScalar h
  case control => exact assigned_readControl h
  case vector => exact assigned_readVector h
  case matrix => exact assigned_readMatrix h
  case engine => exact assigned_readEngine h
  case memory => exact assigned_readMemory h

theorem decodeSlot_of_unassigned {c : SlotClass} (hw : w < 2 ^ wordBits c)
    (h : ¬Assigned (opcodeRanges c s3) (w / 2 ^ (wordBits c - 8))) : decodeSlot c s3 w = .error .unassigned := by
  have hlt : w / 2 ^ (wordBits c - 8) < 256 := (div_lt_iff (by cases c <;> rfl)).2 hw
  have hnone : readSlot c s3 w = none := by
    by_contra hr
    have hsome := assigned_readSlot (Option.isSome_iff_ne_none.2 hr)
    rw [Nat.mod_eq_of_lt hlt] at hsome
    exact h hsome
  rw [decodeSlot, hnone]

end

/-- A slot value that no instruction in legal form has for its word is refused. -/
theorem decodeSlot_of_no_word {c : SlotClass} {s3 : Bool} {w : Nat} (hw : w < 2 ^ wordBits c)
    (h : ∀ i : Instr, i.wf = true → encode i ≠ some (c, w)) : ∃ e, decodeSlot c s3 w = .error e := by
  cases hd : decodeSlot c s3 w with
  | error e => exact ⟨e, rfl⟩
  | ok y =>
    obtain ⟨hwf, henc⟩ := encodingRoundTrip.2.2 c s3 w y hw hd
    exact absurd henc (h _ hwf)

section
variable {s : State} {b : Bun} {n w : Nat} {e : DecodeError}

theorem of_zeroPoison (h : s.zeroPoison (n, w) = true) :
    n = 6 ∧ ∃ y rsv, readSlot .engine false w = some (y, rsv) ∧ GapsZero rsv w := by
  obtain ⟨hn, h⟩ := Bool.and_eq_true_iff.1 h
  refine ⟨of_decide_eq_true hn, ?_⟩
  split at h
  · next e o rsv hr => exact ⟨_, rsv, hr, all_zero_iff_gapsZero.1 (Bool.and_eq_true_iff.1 h).2⟩
  · cases h

/-- A value that is refused, in slot 6 not for its form, is none that a poisoned register comes before (R196, log entry 105). -/
theorem zeroPoison_of_error (h : decodeSlot (slotClass n) (n == 3) w = .error e) (h6 : n = 6 → e ≠ .form) :
    s.zeroPoison (n, w) = false := by
  by_contra hp
  obtain ⟨rfl, y, rsv, hr, hz⟩ := of_zeroPoison (eq_true_of_ne_false hp)
  have hform : decodeSlot .engine false w = if y.wf then .ok y else .error .form := decodeSlot_of_gapsZero hr hz
  have herr := hform.symm.trans h
  split at herr
  · cases herr
  · cases herr
    exact h6 rfl rfl

/-- A slot value that is refused, of a context that goes on: the illegal-instruction trap of its slot (R51, R52). -/
theorem runSlot_of_error (hgo : s.ctx.halted = false) (h : decodeSlot (slotClass n) (n == 3) w = .error e)
    (hmat : n = 5 → s.pre.c.mhold = true) (h6 : n = 6 → e ≠ .form) :
    s.runSlot b (n, w) = .next ((inSlot s n).takeTrap { cause := cIllegalInstr, slot := n, sres := some n }) := by
  have hmat' : ¬((n = 5 && !s.pre.c.mhold && decide (s.pre.firstSlot ≤ 5)) = true) := by
    by_cases h5 : n = 5
    · simp [hmat h5]
    · simp [h5]
  have hdec : b.decode (n, w) = none := by simp [Bun.decode, decodeAt, h]
  have hzero : ((inSlot s n).zeroPoison (n, w) && decide ((inSlot s n).pre.firstSlot ≤ 6)) = false := by
    rw [zeroPoison_of_error h h6, Bool.false_and]
  rw [State.runSlot, if_neg (by simp [hgo])]
  dsimp only [State.modIss]
  rw [if_neg hmat', hdec]
  exact if_neg (Bool.eq_false_iff.1 hzero)

end

theorem reservedWordsRule : ReservedWordsRule := by
  refine ⟨fun c s3 w hw h => decodeSlot_of_unassigned hw ?_, fun c s3 w hw h => decodeSlot_of_no_word hw h,
    fun s b n w e hgo h hmat h6 => runSlot_of_error hgo h hmat h6⟩
  rintro ⟨r, hr, hlow, hhigh⟩
  rcases h r hr with hlt | hlt
  · exact absurd hlow (Nat.not_le.2 hlt)
  · exact absurd hhigh (Nat.not_le.2 hlt)

/-- Settles O59, by the check of a header ahead of its slots, and by the round trip of encodings. -/
theorem reservedHeaderTraps : Obligations.ReservedHeaderTraps := ⟨reservedHeadersRule, reservedWordsRule⟩

end Sys2Proof.Proofs.ReservedForms
end

section
open Sys2Proof Sys2Proof.Machine
namespace Sys2Proof.Proofs.VectorCompareForms
open VectorIntegers VectorRounding VectorFloats

/-! ### Byte groups of a predicate (R140) -/

/-- Bit b of element i of a number. -/
theorem testBit_elem {w v i b : Nat} (hb : b < w) : (elem w v i).testBit b = v.testBit (w * i + b) := by
  rw [elem, Nat.testBit_mod_two_pow, decide_eq_true hb, Bool.true_and, Nat.testBit_div_two_pow, Nat.add_comm]

/-- Each element written fills its byte group, and the others stay. -/
theorem getLsbD_mergeP {w : Nat} (hw : w / 8 * (2048 / w) = 256) (old : PWord) (f : Nat → Option Bool) {j b : Nat}
    (hj : j < 2048 / w) (hb : b < w / 8) :
    (mergeP w old f).getLsbD (j * (w / 8) + b) = (f j).getD (old.getLsbD (j * (w / 8) + b)) := by
  have hlt : j * (w / 8) + b < 256 := by
    calc j * (w / 8) + b < (j + 1) * (w / 8) := by rw [Nat.succ_mul]; omega
      _ ≤ 256 := by rw [← hw, Nat.mul_comm]; exact Nat.mul_le_mul_left _ hj
  have hbit (x : Nat) (h : elem (w / 8) x j = ((f j).elim (elem (w / 8) old.toNat j)
      fun c => if c then 2 ^ (w / 8) - 1 else 0) % 2 ^ (w / 8)) :
      x.testBit (j * (w / 8) + b) = (f j).getD (old.getLsbD (j * (w / 8) + b)) := by
    rw [Nat.mul_comm j, ← testBit_elem hb, h, Nat.testBit_mod_two_pow, decide_eq_true hb, Bool.true_and]
    match f j with
    | none => exact testBit_elem hb
    | some true => simpa using hb
    | some false => simp
  unfold mergeP
  rw [BitVec.getLsbD_ofNat, decide_eq_true hlt, Bool.true_and]
  refine hbit _ ?_
  rw [elem_packEl, List.getElem?_map, List.getElem?_range hj, Option.map_some, Option.getD_some]
  generalize f j = c
  cases c <;> rfl

theorem mergeP_congr (w : Nat) (old : PWord) {f g : Nat → Option Bool} (h : ∀ k < 2048 / w, f k = g k) :
    mergeP w old f = mergeP w old g := by
  unfold mergeP
  refine congrArg (fun l => BitVec.ofNat 256 (packEl (w / 8) l)) (List.map_congr_left fun k hk => ?_)
  simp only [h k (List.mem_range.1 hk)]

theorem tyWidth_bytes (t : BitVec 4) : tyWidth t / 8 * tyCount t = 256 := by
  revert t; decide

/-! ### A compare (R140, R146) -/

/-- What a compare does to the byte group of element j. -/
def compareWrites (s : State) (o : VR) (g : Nat → Bool × BitVec 5) (j : Nat) : Option Bool :=
  if onE s o (tyWidth o.t) j then some (g j).1 else if o.zm = 1 then some false else none

/-- Whether element j brings poison to the predicate. -/
def comparePoison (s : State) (o : VR) (vs : Bool) (j : Nat) : Bool :=
  if onE s o (tyWidth o.t) j then aP s o j || bP s o vs j || s.psP o.pg
  else if o.zm = 1 then s.psP o.pg else s.curPP (VR_pd o)

/-- The flags that a compare sends. -/
def compareFlags (s : State) (o : VR) (g : Nat → Bool × BitVec 5) : BitVec 5 :=
  orFlags ((List.range (tyCount o.t)).map fun j => if onE s o (tyWidth o.t) j then (g j).2 else 0)

/-- The state that a compare writes pd in, before its flags set out. -/
def comparedState (s : State) (o : VR) (vs : Bool) (g : Nat → Bool × BitVec 5) : State :=
  s.wrP (VR_pd o) (mergeP (tyWidth o.t) (s.curP (VR_pd o)) (compareWrites s o g))
    ((List.range (tyCount o.t)).any (comparePoison s o vs)) (vsLat vs 2)

theorem vCompare_eq (s : State) (o : VR) (vs : Bool) (f : Nat → Nat → Bool × BitVec 5) :
    let g (j : Nat) := f (aE s o j) (bE s o vs j)
    s.vCompare o vs f = .next ((comparedState s o vs g).raise (compareFlags s o g) (vsLat vs 2)) := by
  intro g
  have hwrites : ∀ j < 2048 / tyWidth o.t,
      (match ((((List.range (tyCount o.t)).map fun i => if s.guard o.pg o.t i then some (g i) else none)[j]?).join) with
        | some r => some r.1
        | none => if o.zm = 1 then some false else none) = compareWrites s o g j := by
    intro j hj
    rw [List.getElem?_map, List.getElem?_range (show j < tyCount o.t from hj), Option.map_some, Option.join_some, compareWrites]
    by_cases h : onE s o (tyWidth o.t) j = true
    · rw [if_pos h, if_pos (show s.guard o.pg o.t j = true from h)]
    · rw [if_neg h, if_neg (show ¬s.guard o.pg o.t j = true from h)]
  have hflags : (((List.range (tyCount o.t)).map fun i => if s.guard o.pg o.t i then some (g i) else none).map fun r =>
        match r with
        | some x => x.2
        | none => 0) =
      (List.range (tyCount o.t)).map fun j => if onE s o (tyWidth o.t) j then (g j).2 else 0 := by
    rw [List.map_map]
    refine List.map_congr_left fun j _ => ?_
    rw [Function.comp_apply]
    by_cases h : onE s o (tyWidth o.t) j = true
    · rw [if_pos h, if_pos (show s.guard o.pg o.t j = true from h)]
    · rw [if_neg h, if_neg (show ¬s.guard o.pg o.t j = true from h)]
  rw [comparedState, compareFlags, ← mergeP_congr _ _ hwrites, ← hflags]
  rfl

section
variable {s : State} {o : VR} {vs : Bool} {i : Instr} {g : Nat → Bool × BitVec 5}

theorem comparedState_pNow (hpd : VR_pd o ≠ 0) {j b : Nat} (hj : j < tyCount o.t) (hb : b < tyWidth o.t / 8) :
    ((comparedState s o vs g).pNow (physP s.pre.c (VR_pd o))).getLsbD (j * (tyWidth o.t / 8) + b) =
      if onE s o (tyWidth o.t) j then (g j).1
      else if o.zm = 1 then false else (s.pNow (physP s.pre.c (VR_pd o))).getLsbD (j * (tyWidth o.t / 8) + b) := by
  have hold : s.curP (VR_pd o) = s.pNow (physP s.pre.c (VR_pd o)) := by
    rw [State.curP, State.pNow, if_neg hpd, if_neg fun h => hpd ((physP_zero _ _).1 h)]
  rw [comparedState, wrP_pNow _ _ _ _ _ hpd, getLsbD_mergeP (tyWidth_bytes o.t) _ _ hj hb, compareWrites, hold]
  split_ifs <;> rfl

theorem comparedState_pPoison (hpd : VR_pd o ≠ 0) :
    (comparedState s o vs g).pPoison (physP s.pre.c (VR_pd o)) = true ↔ ∃ j < tyCount o.t,
      if onE s o (tyWidth o.t) j then aP s o j ∨ bP s o vs j ∨ s.psP o.pg
      else if o.zm = 1 then s.psP o.pg else s.pPoison (physP s.pre.c (VR_pd o)) := by
  have hold : s.curPP (VR_pd o) = s.pPoison (physP s.pre.c (VR_pd o)) := by
    have h : (VR_pd o ≠ 0) ↔ physP s.pre.c (VR_pd o) ≠ 0 := not_congr (physP_zero _ _).symm
    rw [State.curPP, State.pPoison, decide_eq_decide.2 h]
  rw [comparedState, wrP_pPoison _ _ _ _ _ hpd, List.any_eq_true]
  simp only [List.mem_range]
  refine exists_congr fun j => and_congr_right fun _ => ?_
  unfold comparePoison
  rw [hold]
  split_ifs <;> simp [or_assoc]

theorem comparedState_events : (comparedState s o vs g).ctx.events = s.ctx.events := by
  unfold comparedState State.wrP
  split_ifs <;> rfl

/-- A compare fills the byte groups of pd and sends its flags. -/
theorem vectorCompares_of_vCompare {f : Nat → Nat → Bool × BitVec 5} (hi : exec i s = s.vCompare o vs f)
    (hg : ∀ j, f (aE s o j) (bE s o vs j) = g j) : VectorCompares i s o vs g := by
  obtain rfl : (fun j => f (aE s o j) (bE s o vs j)) = g := funext hg
  have hexec := hi.trans (vCompare_eq s o vs f)
  generalize (fun j => f (aE s o j) (bE s o vs j)) = g at *
  obtain ⟨l, hraise⟩ := raise_rest (comparedState s o vs g) (compareFlags s o g) (vsLat vs 2)
  refine ⟨_, compareFlags s o g, hexec, (wrP_only ..).raise _ _, fun hpd => ?_, ?_, fun b => ?_⟩
  · rw [hraise]
    exact ⟨fun j hj b hb => comparedState_pNow hpd hj hb, comparedState_pPoison hpd⟩
  · have honly : OnlyPred _ s (comparedState s o vs g) := wrP_only ..
    exact flagsSent_raise s _ _ (vsLat_pos vs two_pos) comparedState_events (by rw [honly.bundle]) (by rw [honly.bundle])
      (by rw [honly.world.core])
  · rw [compareFlags, getLsbD_orFlags]
    simp only [List.mem_map, List.mem_range, exists_exists_and_eq_and]
    refine exists_congr fun j => and_congr_right fun _ => ?_
    split_ifs with h <;> simp [h]

end

theorem vcmpHolds_vcmpTable : ∀ e ∈ vcmpTable, ∀ a b, vcmpHolds e.1 a b = e.2 a b := by
  simp only [vcmpTable, List.forall_mem_cons, List.not_mem_nil, false_implies, implies_true, and_true]
  exact ⟨fun a b => rfl, fun a b => decide_not, fun a b => rfl, fun a b => rfl, fun a b => rfl, fun a b => rfl⟩

theorem vfcmpHolds_vfcmpTable (f : Fmt) : ∀ e ∈ vfcmpTable, ∀ a b, vfcmpHolds f e.1 a b = fpCmp f e.2.1 e.2.2 a b := by
  simp only [vfcmpTable, List.forall_mem_cons, List.not_mem_nil, false_implies, implies_true, and_true]
  exact ⟨fun a b => rfl, fun a b => rfl, fun a b => rfl, fun a b => rfl, fun a b => rfl, fun a b => rfl, fun a b => rfl,
    fun a b => rfl⟩

/-- Settles O12: both forms of both compares are one write of a predicate, whose conditions and flags are the table's. -/
theorem vectorCompareResults : Obligations.VectorCompareResults := by
  intro s o vs
  refine ⟨fun e he hfx => vectorCompares_of_vCompare (exec_forms (run := fun vs => s.vcmpAs o vs) rfl rfl vs) fun j => ?_,
    fun e he hfx => vectorCompares_of_vCompare
      (exec_forms (run := fun vs => s.vCompare o vs (vfcmpHolds (tyFmt o.t) o.fx.toNat)) rfl rfl vs) fun j => ?_⟩
  · rw [hfx, vcmpHolds_vcmpTable e he]
  · rw [hfx, vfcmpHolds_vfcmpTable _ e he]

end Sys2Proof.Proofs.VectorCompareForms
end

section
open Sys2Proof Sys2Proof.Machine
namespace Sys2Proof.Proofs.Conversions
open VectorIntegers VectorRounding

/-! ### Conversions by parts (R149) -/

/-- The type that a conversion reads, the width and the number of its operation elements, and its part. -/
def cvtFrom (o : VR) : BitVec 4 := o.fx.setWidth 4
def cvtWide (o : VR) : Nat := max (tyWidth o.t) (tyWidth (cvtFrom o))
def cvtCount (o : VR) : Nat := 2048 / cvtWide o
def cvtPart (o : VR) : Nat := o.fx.toNat / 16

/-- The element of va that operation element j reads, and the element of vd that the first one writes. -/
def cvtSrc (o : VR) (j : Nat) : Nat :=
  if tyWidth (cvtFrom o) ≤ tyWidth o.t then cvtPart o * cvtCount o + j else j
def cvtBase (o : VR) : Nat := if tyWidth (cvtFrom o) ≤ tyWidth o.t then 0 else cvtPart o * cvtCount o

/-- The pattern that operation element j reads, and its poison. -/
def cvtRead (s : State) (o : VR) (j : Nat) : Nat := s.rdE o.va (cvtFrom o) (cvtSrc o j)
def cvtPoison (s : State) (o : VR) (j : Nat) : Bool := s.psE o.va (cvtFrom o) (cvtSrc o j)

/-- What a conversion between integers makes of a pattern. -/
def cvtInt (o : VR) (a : Nat) : Nat :=
  pat (tyWidth o.t) (if tyWidth (cvtFrom o) < tyWidth o.t then tyVal (cvtFrom o) a
    else max (tyMin o.t) (min (tyMax o.t) (tyVal (cvtFrom o) a)))

section
variable {t u : BitVec 4} {m : RMode} {a : Nat}

theorem convE_float_float (ht : tyF t = true) (hu : tyF u = true) : convE t u m a = fpCvt (tyFmt t) (tyFmt u) m a := by
  simp [convE, ht, hu]

theorem convE_float_int (ht : tyF t = true) (hu : tyF u = false) :
    convE t u m a = roundTo (tyFmt t) m false (ofInt (tyVal u a)) := by
  simp [convE, ht, hu]

theorem convE_int_float (ht : tyF t = false) (hu : tyF u = true) : convE t u m a =
    (pat (tyWidth t) (toIntRange m (tyMin t) (tyMax t) (decodeVal (tyFmt u) a)).1,
      (toIntRange m (tyMin t) (tyMax t) (decodeVal (tyFmt u) a)).2) := by
  simp [convE, ht, hu, wrapN_eq_pat]

theorem convE_int_int (ht : tyF t = false) (hu : tyF u = false) : (convE t u m a).1 =
    pat (tyWidth t) (if tyWidth u < tyWidth t then tyVal u a else max (tyMin t) (min (tyMax t) (tyVal u a))) := by
  simp only [convE, ht, hu, satTo, wrapN_eq_pat, Bool.false_eq_true, if_false]
  split_ifs <;> rfl

end

theorem rmSel_ne_none {s : State} {o : VR} (h : o.rm ≠ 5) : s.rmSel o ≠ none := by
  unfold State.rmSel
  split
  · exact Option.some_ne_none _
  · next h5 => exact absurd (BitVec.eq_of_toNat_eq h5) h
  · exact Option.some_ne_none _

section
variable {s : State} {o : VR} (hpart : cvtPart o < cvtWide o / min (tyWidth o.t) (tyWidth (cvtFrom o)))

theorem cvtSrc_eq (j : Nat) :
    (if tyWidth (cvtFrom o) ≤ tyWidth o.t then cvtPart o * cvtCount o else 0) + j = cvtSrc o j := by
  unfold cvtSrc
  split_ifs
  · rfl
  · exact Nat.zero_add j

include hpart

theorem exec_vcvt_rounded (h : (!tyF o.t && !tyF (cvtFrom o)) = false) : exec (.vcvt o) s =
    s.vRound o (cvtCount o) (tyWidth o.t) 4 (onE s o (cvtWide o)) (cvtBase o)
      (fun m j => convE o.t (cvtFrom o) m (cvtRead s o j)) (cvtPoison s o) := by
  have hconv : s.vConv o = s.vRound o (cvtCount o) (tyWidth o.t) 4 (onE s o (cvtWide o)) (cvtBase o)
      (fun m j => convE o.t (cvtFrom o) m
        (s.rdE o.va (cvtFrom o) ((if tyWidth (cvtFrom o) ≤ tyWidth o.t then cvtPart o * cvtCount o else 0) + j)))
      (fun j => s.psE o.va (cvtFrom o) ((if tyWidth (cvtFrom o) ≤ tyWidth o.t then cvtPart o * cvtCount o else 0) + j)) :=
    (if_neg (not_le.2 hpart)).trans (if_neg (ne_true_of_eq_false h))
  simp only [cvtSrc_eq] at hconv
  exact hconv

theorem exec_vcvt_int (ht : tyF o.t = false) (hu : tyF (cvtFrom o) = false) (hrm : o.rm ≠ 5) : exec (.vcvt o) s =
    .next (s.wrE o.vd (tyWidth o.t) 4
      (roundedWrite s o (cvtCount o) (cvtBase o) (onE s o (cvtWide o)) (fun j => cvtInt o (cvtRead s o j)) (cvtPoison s o))) := by
  have hint : (!tyF o.t && !tyF (cvtFrom o)) = true := by rw [ht, hu]; rfl
  have hsel : ¬(s.rmSel o).isNone = true := by rw [Option.isNone_iff_eq_none]; exact rmSel_ne_none hrm
  have hwrite (k : Nat) : (if (decide (k < cvtBase o) || decide (cvtBase o + cvtCount o ≤ k)) = true then none
      else if onE s o (cvtWide o) (k - cvtBase o) = true then
        some ((convE o.t (cvtFrom o) .rne (s.rdE o.va (cvtFrom o)
            ((if tyWidth (cvtFrom o) ≤ tyWidth o.t then cvtPart o * cvtCount o else 0) + (k - cvtBase o)))).1,
          s.psE o.va (cvtFrom o) ((if tyWidth (cvtFrom o) ≤ tyWidth o.t then cvtPart o * cvtCount o else 0) + (k - cvtBase o)) ||
            s.psP o.pg)
      else if o.zm = 1 then some (0, s.psP o.pg) else none) =
      roundedWrite s o (cvtCount o) (cvtBase o) (onE s o (cvtWide o)) (fun j => cvtInt o (cvtRead s o j)) (cvtPoison s o) k := by
    simp only [cvtSrc_eq, convE_int_int ht hu, Bool.or_eq_true, decide_eq_true_eq]
    rfl
  have hconv : s.vConv o = .next (s.wrE o.vd (tyWidth o.t) 4 _) :=
    (if_neg (not_le.2 hpart)).trans ((if_pos hint).trans (if_neg hsel))
  rw [← funext hwrite]
  exact hconv

end

theorem vectorConversionsRule : VectorConversionsRule := by
  intro s o t u h wide n src base a p hpart
  have hround (hf : (!tyF o.t && !tyF (cvtFrom o)) = false) :
      RoundsDone (.vcvt o) s o n (tyWidth t) base false (onE s o wide) (fun m j => convE t u m (a j)) p :=
    roundsDone_of_vRound false (tyWidth_mem o.t) (by decide) (exec_vcvt_rounded hpart hf)
  refine ⟨fun ht hu => ?_, fun ht hu => ?_, fun ht hu => ?_, fun ht hu hrm => ?_⟩
  · simpa only [convE_float_float ht hu] using hround (by rw [ht]; rfl)
  · simpa only [convE_float_int ht hu] using hround (by rw [ht]; rfl)
  · simpa only [convE_int_float ht hu] using hround (by rw [ht, show tyF (cvtFrom o) = true from hu]; rfl)
  · exact wrE_done _ s o.vd _ 4 _ (tyWidth_mem o.t) (exec_vcvt_int hpart ht hu hrm)

end Sys2Proof.Proofs.Conversions
end

section
open Sys2Proof Sys2Proof.Machine
namespace Sys2Proof.Proofs.Quantisation
open VectorIntegers VectorRounding

/-! ### Vector results with flags and no rounding -/

theorem vectorFlags_of_raise {i : Instr} {s : State} {vd : R6} {w lat : Nat} {fl : BitVec 5} {f : Nat → Option (Nat × Bool)}
    (hw : w ∈ [2, 4, 8, 16, 32, 64]) (hlat : 0 < lat) (hi : exec i s = .next ((s.wrE vd w lat f).raise fl lat)) :
    VectorFlags i s vd w fl f := by
  obtain ⟨l, hraise⟩ := raise_rest (s.wrE vd w lat f) fl lat
  have hwrites : VectorWrites s ((s.wrE vd w lat f).raise fl lat) (physV s.pre.c vd) w f := by
    rw [hraise]
    exact wrE_writes s vd w lat f hw rfl
  have hctl : ((s.wrE vd w lat f).raise fl lat).ctx.c = s.ctx.c := by rw [hraise]; rfl
  exact ⟨_, hi, (wrV_only ..).raise _ _, hwrites, flagsSent_raise s _ fl hlat rfl rfl rfl rfl, hctl⟩

/-! ### VQNT and VDQNT (R84, R88, R150, R151) -/

theorem container_mem (f : Fmt) : container f ∈ [2, 4, 8, 16, 32, 64] := by
  unfold container
  split_ifs <;> decide

/-- The descriptor that a quantisation names, its part, and the first element that the part stands for. -/
def qntDesc (s : State) (o : VR) : W32 := vget s.pre.r.f o.fr.toNat
def qntPart (o : VR) : Nat := o.fx.toNat % 32
def qntBase (o : VR) : Nat := qntPart o * tyCount o.t

/-- The scale byte of element k, and whether it is poisoned. -/
def scaleByte (s : State) (o : VR) (k : Nat) : Nat := elem 8 (s.rdV o.vb).toNat (k / 32)
def scalePoison (s : State) (o : VR) (k : Nat) : Bool :=
  descBsk (qntDesc s o) != 0 && (s.psV o.vb).getLsbD (k / 32 * 8 / 64)

section
variable {s : State} {o : VR} (hvalid : descValid (qntDesc s o) = true)
  (hpart : qntPart o < tyWidth o.t / container (descFmt (qntDesc s o)))
include hvalid

include hpart in
theorem qDesc_eq : s.qDesc o = some (qntDesc s o) := by
  have h : (descValid (qntDesc s o) && decide (qntPart o < tyWidth o.t / container (descFmt (qntDesc s o)))) = true := by
    rw [hvalid, decide_eq_true hpart]
    rfl
  exact if_pos h

theorem rmSel_of_valid : ∃ sel, s.rmSel o = some sel := by
  unfold State.rmSel
  split
  · exact ⟨_, rfl⟩
  · exact ⟨_, if_pos hvalid⟩
  · exact ⟨_, rfl⟩

include hpart

theorem exec_vqnt : exec (.vqnt o) s = s.vRound o (tyCount o.t) (container (descFmt (qntDesc s o))) 8
    (onE s o (tyWidth o.t)) (qntBase o) (fun m i => s.quant o (qntDesc s o) m i)
    fun i => aP s o i || scalePoison s o (qntBase o + i) := by
  have hq : exec (.vqnt o) s = match s.qDesc o with
    | none => s.trap cIllegalOperand
    | some d => s.vRound o (tyCount o.t) (container (descFmt d)) 8 (onE s o (tyWidth o.t)) (qntBase o) (fun m i => s.quant o d m i)
      fun i => aP s o i || (decide (descBsk d ≠ 0) && (s.psV o.vb).getLsbD ((qntBase o + i) / 32 * 8 / 64)) := rfl
  rw [hq, qDesc_eq hvalid hpart]
  simp only [decide_not]
  rfl

theorem exec_vdqnt : exec (.vdqnt o) s = s.vRound o (tyCount o.t) (tyWidth o.t) 4 (onE s o (tyWidth o.t)) 0
    (fun m i => dequant o.t (descFmt (qntDesc s o)) m
      (if descBsk (qntDesc s o) = 0 then .fin false 1 1 else scaleVal (descBsk (qntDesc s o)) (scaleByte s o (qntBase o + i)))
      (elem (container (descFmt (qntDesc s o))) (s.rdV o.va).toNat (qntBase o + i)))
    fun i => (s.psV o.va).getLsbD ((qntBase o + i) * container (descFmt (qntDesc s o)) / 64) || scalePoison s o (qntBase o + i) := by
  have hq : exec (.vdqnt o) s = match s.qDesc o with
    | none => s.trap cIllegalOperand
    | some d => s.vRound o (tyCount o.t) (tyWidth o.t) 4 (onE s o (tyWidth o.t)) 0
      (fun m i => dequant o.t (descFmt d) m
        (if descBsk d = 0 then .fin false 1 1 else scaleVal (descBsk d) (scaleByte s o (qntBase o + i)))
        (elem (container (descFmt d)) (s.rdV o.va).toNat (qntBase o + i)))
      fun i => (s.psV o.va).getLsbD ((qntBase o + i) * container (descFmt d) / 64) ||
        (decide (descBsk d ≠ 0) && (s.psV o.vb).getLsbD ((qntBase o + i) / 32 * 8 / 64)) := rfl
  rw [hq, qDesc_eq hvalid hpart]
  simp only [decide_not]
  rfl

end

/-! ### The scales of the blocks -/

/-- A scale that is clamped raises OF, and no scale raises another flag. -/
theorem chooseScale_flags (f : Fmt) (bsk : Nat) (xs : List Val) : (chooseScale f bsk xs).2 = 0 ∨ (chooseScale f bsk xs).2 = fOF := by
  have hof (x : BitVec 5) : x &&& fOF = 0 ∨ x &&& fOF = fOF := by revert x; decide
  unfold chooseScale
  dsimp only
  split_ifs
  · exact Or.inl rfl
  · exact Or.inl rfl
  · exact Or.inl rfl
  · exact Or.inl rfl
  · exact Or.inl rfl
  · exact hof _

theorem orFlags_of_mem {l : List (BitVec 5)} (h : ∀ x ∈ l, x = 0 ∨ x = fOF) : orFlags l = 0 ∨ orFlags l = fOF := by
  have hfold (y : BitVec 5) (hy : y = 0 ∨ y = fOF) : l.foldl (· ||| ·) y = 0 ∨ l.foldl (· ||| ·) y = fOF := by
    induction l generalizing y with
    | nil => exact hy
    | cons x l ih =>
      have hx := h x List.mem_cons_self
      refine ih (fun z hz => h z (List.mem_cons_of_mem _ hz)) _ ?_
      rcases hy with rfl | rfl <;> rcases hx with rfl | rfl <;> decide
  exact hfold 0 (Or.inl rfl)

/-- The active elements of block b of vd, and the scale that they choose. -/
def blockOf (s : State) (o : VR) (b : Nat) : List Nat :=
  ((List.range 32).map fun j => (b - qntBase o / 32) * 32 + j).filter (onE s o (tyWidth o.t))
def blockScale (s : State) (o : VR) (b : Nat) : Nat × BitVec 5 :=
  chooseScale (descFmt (qntDesc s o)) (descBsk (qntDesc s o)) ((blockOf s o b).map fun i => decodeVal (tyFmt o.t) (aE s o i))

/-- The flags of the scales that are written. -/
def scaleFlags (s : State) (o : VR) : BitVec 5 :=
  orFlags ((List.range (tyCount o.t / 32)).map fun j =>
    if blockOf s o (qntBase o / 32 + j) = [] then 0 else (blockScale s o (qntBase o / 32 + j)).2)

/-- The scale bytes that are written (R150). -/
def scaleWrite (s : State) (o : VR) (b : Nat) : Option (Nat × Bool) :=
  if b < qntBase o / 32 ∨ qntBase o / 32 + tyCount o.t / 32 ≤ b then none
  else if blockOf s o b = [] then (if o.zm = 1 then some (0, s.psP o.pg) else none)
  else some ((blockScale s o b).1, s.psP o.pg || (blockOf s o b).any (aP s o))

theorem scaleFlags_cases (s : State) (o : VR) : scaleFlags s o = 0 ∨ scaleFlags s o = fOF := by
  refine orFlags_of_mem fun x hx => ?_
  obtain ⟨j, -, rfl⟩ := List.mem_map.1 hx
  split_ifs
  · exact Or.inl rfl
  · exact chooseScale_flags _ _ _

theorem exec_vqntScale {s : State} {o : VR} (hvalid : descValid (qntDesc s o) = true)
    (hpart : qntPart o < tyWidth o.t / container (descFmt (qntDesc s o))) (hbsk : descBsk (qntDesc s o) ≠ 0) :
    exec (.vqntScale o) s = .next ((s.wrE o.vd 8 8 (scaleWrite s o)).raise (scaleFlags s o) 8) := by
  obtain ⟨sel, hsel⟩ := rmSel_of_valid hvalid
  have hgo : ¬(decide (descBsk (qntDesc s o) = 0) || (s.rmSel o).isNone) = true := by
    rw [hsel, decide_eq_false hbsk]
    exact Bool.false_ne_true
  have hwrite (b : Nat) : (if (decide (b < qntBase o / 32) || decide (qntBase o / 32 + tyCount o.t / 32 ≤ b)) = true then none
      else if blockOf s o b = [] then (if o.zm = 1 then some (0, s.psP o.pg) else none)
      else some ((blockScale s o b).1, s.psP o.pg || (blockOf s o b).any (aP s o))) = scaleWrite s o b := by
    simp only [Bool.or_eq_true, decide_eq_true_eq]
    rfl
  rw [← funext hwrite]
  show execVqntScale o s = _
  unfold execVqntScale
  rw [qDesc_eq hvalid hpart]
  exact if_neg hgo

theorem quantisationRule : QuantisationRule := by
  intro s o d f c w n h byte badByte x hvalid hpart
  exact ⟨roundsDone_of_vRound false (container_mem f) (by decide) (exec_vqnt hvalid hpart),
    roundsDone_of_vRound false (tyWidth_mem o.t) (by decide) (exec_vdqnt hvalid hpart),
    fun hbsk => ⟨scaleFlags s o, scaleFlags_cases s o,
      vectorFlags_of_raise (by decide) (by decide) (exec_vqntScale hvalid hpart hbsk)⟩⟩

end Sys2Proof.Proofs.Quantisation
end

section
open Sys2Proof Sys2Proof.Machine
namespace Sys2Proof.Proofs.Reductions
open VectorIntegers VectorRounding

/-! ### The greatest and the least of a list -/

theorem foldl_mem_cons {α : Type} {op : α → α → α} (hop : ∀ a b, op a b = a ∨ op a b = b) (l : List α) (a : α) :
    l.foldl op a ∈ a :: l := by
  induction l generalizing a with
  | nil => exact List.mem_singleton_self a
  | cons x l ih =>
    rw [List.foldl_cons]
    rcases List.mem_cons.1 (ih (op a x)) with h | h
    · rw [h]
      rcases hop a x with hx | hx <;> simp [hx]
    · exact List.mem_cons_of_mem _ (List.mem_cons_of_mem _ h)

theorem foldl_max_ge {α : Type} [LinearOrder α] (l : List α) (a : α) : ∀ x ∈ a :: l, x ≤ l.foldl max a := by
  induction l generalizing a with
  | nil => simp
  | cons y l ih =>
    rw [List.forall_mem_cons, List.forall_mem_cons, List.foldl_cons]
    obtain ⟨hhead, htail⟩ := List.forall_mem_cons.1 (ih (max a y))
    exact ⟨(le_max_left _ _).trans hhead, (le_max_right _ _).trans hhead, htail⟩

theorem foldl_min_le {α : Type} [LinearOrder α] (l : List α) (a : α) : ∀ x ∈ a :: l, l.foldl min a ≤ x := by
  induction l generalizing a with
  | nil => simp
  | cons y l ih =>
    rw [List.forall_mem_cons, List.forall_mem_cons, List.foldl_cons]
    obtain ⟨hhead, htail⟩ := List.forall_mem_cons.1 (ih (min a y))
    exact ⟨hhead.trans (min_le_left _ _), hhead.trans (min_le_right _ _), htail⟩

/-- From a lower bound of a list's numbers on, the greatest is one of them. -/
theorem foldl_max_mem {l : List Int} {a : Int} (ha : ∀ x ∈ l, a ≤ x) (hl : l ≠ []) : l.foldl max a ∈ l := by
  obtain ⟨y, hy⟩ := List.exists_mem_of_ne_nil l hl
  rcases List.mem_cons.1 (foldl_mem_cons max_choice l a) with h | h
  · have hge := foldl_max_ge l a y (List.mem_cons_of_mem _ hy)
    rwa [le_antisymm (h.trans_le (ha y hy)) hge]
  · exact h

/-- From an upper bound of a list's numbers on, the least is one of them. -/
theorem foldl_min_mem {l : List Int} {a : Int} (ha : ∀ x ∈ l, x ≤ a) (hl : l ≠ []) : l.foldl min a ∈ l := by
  obtain ⟨y, hy⟩ := List.exists_mem_of_ne_nil l hl
  rcases List.mem_cons.1 (foldl_mem_cons min_choice l a) with h | h
  · have hle := foldl_min_le l a y (List.mem_cons_of_mem _ hy)
    rwa [le_antisymm hle ((ha y hy).trans_eq h.symm)]
  · exact h

theorem tyWidth_pos (t : BitVec 4) : 0 < tyWidth t := by
  revert t; decide

/-- An element's number lies in the range of its type (R78). -/
theorem tyVal_range (t : BitVec 4) {a : Nat} (h : a < 2 ^ tyWidth t) : tyMin t ≤ tyVal t a ∧ tyVal t a ≤ tyMax t := by
  have hhalf : 2 ^ tyWidth t = 2 * 2 ^ (tyWidth t - 1) := by
    rw [← Nat.pow_succ', Nat.succ_eq_add_one, Nat.sub_add_cancel (tyWidth_pos t)]
  have hmod : (a : Int) % 2 ^ tyWidth t = a := Int.emod_eq_of_lt (by omega) (by exact_mod_cast h)
  unfold tyVal tyMin tyMax signedOf
  rw [Nat.mod_eq_of_lt h, hmod]
  generalize 2 ^ tyWidth t = m at h hhalf ⊢
  generalize 2 ^ (tyWidth t - 1) = k at hhalf ⊢
  split_ifs <;> omega

/-! ### The fixed tree (R98) -/

section
variable (op : Nat → Nat → Nat × BitVec 5)

/-- One round of the tree over elements named by their index, and its flags from pair a on. -/
def pairAt (e : Nat → Nat) (i : Nat) : Nat × BitVec 5 := op (e (2 * i)) (e (2 * i + 1))
def pairFlags (e : Nat → Nat) (a n : Nat) : BitVec 5 := ((List.range' a n).map fun i => (pairAt op e i).2).foldr (· ||| ·) 0

theorem pairRound_range' (e : Nat → Nat) (a n : Nat) : pairRound op ((List.range' (2 * a) (2 * n)).map e) =
    ((List.range' a n).map fun i => (pairAt op e i).1, pairFlags op e a n) := by
  induction n generalizing a with
  | zero => rfl
  | succ n ih =>
    have hnext := ih (a + 1)
    rw [show 2 * (n + 1) = 2 * n + 1 + 1 by ring, List.range'_succ, List.range'_succ, List.map_cons, List.map_cons, pairRound,
      show 2 * a + 1 + 1 = 2 * (a + 1) by ring, hnext]
    rfl

theorem pairFlags_append (e : Nat → Nat) (a n k : Nat) :
    pairFlags op e a (n + k) = pairFlags op e a n ||| pairFlags op e (a + n) k := by
  induction n generalizing a with
  | zero => simp [pairFlags]
  | succ n ih =>
    have hcons (m : Nat) : pairFlags op e a (m + 1) = (pairAt op e a).2 ||| pairFlags op e (a + 1) m := rfl
    rw [show n + 1 + k = n + k + 1 by ring, hcons, hcons, ih, BitVec.or_assoc, show a + 1 + n = a + (n + 1) by ring]

/-- A tree is a round of pairs and the tree over what they give. -/
theorem treeAt_succ (e : Nat → Nat) (k i : Nat) : treeAt op e (k + 1) i =
    ((treeAt op (fun j => (pairAt op e j).1) k i).1,
      pairFlags op e (i * 2 ^ k) (2 ^ k) ||| (treeAt op (fun j => (pairAt op e j).1) k i).2) := by
  induction k generalizing i with
  | zero => simp [treeAt, pairFlags, pairAt]
  | succ k ih =>
    have hsplit : pairFlags op e (i * 2 ^ (k + 1)) (2 ^ (k + 1)) =
        pairFlags op e (2 * i * 2 ^ k) (2 ^ k) ||| pairFlags op e ((2 * i + 1) * 2 ^ k) (2 ^ k) := by
      rw [show 2 ^ (k + 1) = 2 ^ k + 2 ^ k by ring, pairFlags_append]
      ring_nf
    rw [treeAt, ih, ih, hsplit]
    refine Prod.ext rfl ?_
    dsimp only [treeAt]
    ac_rfl

/-- The rounds over a list of 2^k elements are the tree over them. -/
theorem treeFold_range (k : Nat) (e : Nat → Nat) : treeFold op k ((List.range (2 ^ k)).map e) = treeAt op e k 0 := by
  induction k generalizing e with
  | zero => rfl
  | succ k ih =>
    have hround := pairRound_range' op e 0 (2 ^ k)
    rw [Nat.mul_zero, ← List.range_eq_range', ← List.range_eq_range', ← Nat.pow_succ'] at hround
    rw [treeFold, hround, treeAt_succ, Nat.zero_mul]
    dsimp only
    rw [ih]

end

/-! ### The reductions (R98, R99, R153) -/

theorem tyCount_pow (t : BitVec 4) : 2 ^ Nat.log2 (tyCount t) = tyCount t := by
  revert t; decide

theorem tyDepth_pos (t : BitVec 4) : 0 < tyDepth t := by
  revert t; decide

section
variable {s : State} {o : VR}

theorem treeOf_eq (absent : Nat) (op : Nat → Nat → Nat × BitVec 5) : s.treeOf o absent op =
    treeAt op (fun i => if onE s o (tyWidth o.t) i then aE s o i else absent) (Nat.log2 (tyCount o.t)) 0 := by
  rw [← treeFold_range, tyCount_pow]
  rfl

/-- A reduction writes its one result to every element, and sends its flags. -/
theorem vectorFlags_of_vRed {i : Instr} {lat res : Nat} {fl : BitVec 5} (hlat : 0 < lat) (hi : exec i s = s.vRed o lat res fl) :
    VectorFlags i s o.vd (tyWidth o.t) fl fun _ => some (res,
      s.psP o.pg || ((List.range (tyCount o.t)).filter (onE s o (tyWidth o.t))).any (aP s o)) :=
  Quantisation.vectorFlags_of_raise (tyWidth_mem o.t) hlat hi

end

theorem reductionsRule : ReductionsRule := by
  intro s o w n vals ps
  have hvals : ∀ x ∈ vals, tyMin o.t ≤ x ∧ x ≤ tyMax o.t := by
    intro x hx
    obtain ⟨i, -, rfl⟩ := List.mem_map.1 hx
    exact tyVal_range o.t (elem_lt _ _ _)
  refine ⟨?_, ⟨vals.foldl max (tyMin o.t), ?_, ?_, foldl_max_mem fun x hx => (hvals x hx).1, fun x hx => ?_⟩,
    ⟨vals.foldl min (tyMax o.t), ?_, ?_, foldl_min_mem fun x hx => (hvals x hx).2, fun x hx => ?_⟩, fun sum => ?_⟩
  · rw [← wrapN_eq_pat]
    exact vectorFlags_of_vRed (by decide) rfl
  · rw [← wrapN_eq_pat]
    exact vectorFlags_of_vRed (by decide) rfl
  · rintro h
    rw [h]; rfl
  · exact foldl_max_ge _ _ x (List.mem_cons_of_mem _ hx)
  · rw [← wrapN_eq_pat]
    exact vectorFlags_of_vRed (by decide) rfl
  · rintro h
    rw [h]; rfl
  · exact foldl_min_le _ _ x (List.mem_cons_of_mem _ hx)
  · have hdepth := tyDepth_pos o.t
    cases sum with
    | true =>
      have h : VectorFlags (.vrfsum o) s o.vd _ _ _ := vectorFlags_of_vRed (lat := 4 * tyDepth o.t) (by omega) rfl
      rwa [treeOf_eq] at h
    | false =>
      have h : VectorFlags (.vrfmax o) s o.vd _ _ _ := vectorFlags_of_vRed (lat := 2 * tyDepth o.t + 2) (by omega) rfl
      rwa [treeOf_eq] at h

end Sys2Proof.Proofs.Reductions
end

section
open Sys2Proof Sys2Proof.Machine
namespace Sys2Proof.Proofs.Rounding
open FloatGrid

/-! ### Fractions as rational numbers -/

theorem scale2_rat (num den : Nat) (e : Int) :
    ((scale2 num den e).1 : ℚ) / (scale2 num den e).2 = (num : ℚ) / den * 2 ^ e := by
  refine Rat.cast_injective (α := ℝ) ?_
  push_cast
  exact scale2_value num den e

theorem floorLog2_rat {num den : Nat} (hn : 0 < num) (hd : 0 < den) :
    (2 : ℚ) ^ floorLog2 num den ≤ (num : ℚ) / den ∧ (num : ℚ) / den < 2 ^ (floorLog2 num den + 1) := by
  obtain ⟨hlow, hhigh⟩ := floorLog2_spec hn hd
  refine ⟨Rat.cast_le (K := ℝ).1 ?_, Rat.cast_lt (K := ℝ).1 ?_⟩ <;> push_cast <;> assumption

theorem floorLog2_eq_rat {num den : Nat} (hn : 0 < num) (hd : 0 < den) {l : Int} (hlow : (2 : ℚ) ^ l ≤ (num : ℚ) / den)
    (hhigh : (num : ℚ) / den < 2 ^ (l + 1)) : floorLog2 num den = l := by
  have hlow' := (Rat.cast_le (K := ℝ)).2 hlow
  have hhigh' := (Rat.cast_lt (K := ℝ)).2 hhigh
  push_cast at hlow' hhigh'
  exact floorLog2_eq hn hd hlow' hhigh'

theorem fracLt_iff {a b : Nat × Nat} (ha : 0 < a.2) (hb : 0 < b.2) : fracLt a b = true ↔ (a.1 : ℚ) / a.2 < (b.1 : ℚ) / b.2 := by
  have ha' : (0 : ℚ) < a.2 := by exact_mod_cast ha
  have hb' : (0 : ℚ) < b.2 := by exact_mod_cast hb
  rw [fracLt, decide_eq_true_eq, div_lt_div_iff₀ ha' hb']
  exact_mod_cast Iff.rfl

/-! ### The multiple of the step that a mode selects (R89, R90) -/

/-- Whether a mode selects the multiple above, of a number in steps of the grid. -/
def GoesUp (m : RMode) (neg : Bool) (z : ℚ) : Prop :=
  match m with
  | .rne => 1 < 2 * (z - ⌊z⌋₊) ∨ (2 * (z - ⌊z⌋₊) = 1 ∧ ⌊z⌋₊ % 2 = 1)
  | .rtz => False
  | .rup => neg = false ∧ z ≠ ⌊z⌋₊
  | .rdn => neg = true ∧ z ≠ ⌊z⌋₊
  | .sr rb => ⌊z⌋₊ < (⌊z * 2 ^ 24⌋₊ + rb) / 2 ^ 24

open Classical in
/-- The multiple that a mode selects, of a number in steps of the grid. -/
noncomputable def selected (m : RMode) (neg : Bool) (z : ℚ) : Nat := if GoesUp m neg z then ⌊z⌋₊ + 1 else ⌊z⌋₊

section
variable {A B : Nat} (hB : 0 < B)
include hB

theorem frac_sub_floor : (A : ℚ) / B - ⌊(A : ℚ) / B⌋₊ = (A % B : Nat) / B := by
  have hB' : (B : ℚ) ≠ 0 := by exact_mod_cast hB.ne'
  rw [Nat.floor_div_eq_div, sub_eq_iff_eq_add, div_add' _ _ _ hB', div_left_inj' hB']
  exact_mod_cast (Nat.mod_add_div' A B).symm

theorem frac_eq_floor_iff : (A : ℚ) / B = ⌊(A : ℚ) / B⌋₊ ↔ A % B = 0 := by
  have hB' : (B : ℚ) ≠ 0 := by exact_mod_cast hB.ne'
  rw [← sub_eq_zero, frac_sub_floor hB, div_eq_zero_iff, or_iff_left hB', Nat.cast_eq_zero]

theorem goesUp_rne_iff (neg : Bool) : GoesUp .rne neg ((A : ℚ) / B) ↔
    (if 2 * (A % B) < B then false else if B < 2 * (A % B) then true else decide (A / B % 2 = 1)) = true := by
  have hB' : (0 : ℚ) < B := by exact_mod_cast hB
  show (1 < 2 * _ ∨ (2 * _ = 1 ∧ _)) ↔ _
  rw [frac_sub_floor hB, Nat.floor_div_eq_div, mul_div_assoc', lt_div_iff₀ hB', div_eq_iff hB'.ne', one_mul]
  norm_cast
  split_ifs <;> simp <;> omega

theorem goesUp_iff (m : RMode) (neg : Bool) : GoesUp m neg ((A : ℚ) / B) ↔
    (match m with
      | .rne => if 2 * (A % B) < B then false else if B < 2 * (A % B) then true else decide (A / B % 2 = 1)
      | .rtz => false
      | .rup => !neg && decide (A % B ≠ 0)
      | .rdn => neg && decide (A % B ≠ 0)
      | .sr rb => decide (1 ≤ (A * 2 ^ 24 / B + rb) / 2 ^ 24 - A / B)) = true := by
  cases m with
  | rne => exact goesUp_rne_iff hB neg
  | rtz => exact (iff_false_intro Bool.false_ne_true).symm
  | rup => simp [GoesUp, frac_eq_floor_iff hB]
  | rdn => simp [GoesUp, frac_eq_floor_iff hB]
  | sr rb =>
    have hscale : (A : ℚ) / B * 2 ^ 24 = (A * 2 ^ 24 : Nat) / B := by push_cast; ring
    rw [GoesUp, hscale, Nat.floor_div_eq_div, Nat.floor_div_eq_div, decide_eq_true_eq]
    omega

end

theorem steps_eq (num den : Nat) (e : Int) :
    ((scale2 num den (-e)).1 : ℚ) / (scale2 num den (-e)).2 = (num : ℚ) / den / 2 ^ e := by
  rw [scale2_rat, zpow_neg, ← div_eq_mul_inv]

theorem roundGrid_fst (m : RMode) (neg : Bool) (num : Nat) {den : Nat} (hd : 0 < den) (e : Int) :
    (roundGrid m neg num den e).1 = selected m neg ((num : ℚ) / den / 2 ^ e) := by
  have hB := scale2_pos (num := num) hd (-e)
  rw [← steps_eq, selected, Nat.floor_div_eq_div]
  simp only [goesUp_iff hB]
  rfl

theorem roundGrid_snd (m : RMode) (neg : Bool) (num : Nat) {den : Nat} (hd : 0 < den) (e : Int) :
    (roundGrid m neg num den e).2 = true ↔ (num : ℚ) / den / 2 ^ e = ⌊(num : ℚ) / den / 2 ^ e⌋₊ := by
  rw [← steps_eq, frac_eq_floor_iff (scale2_pos hd (-e))]
  exact decide_eq_true_iff

/-! ### Rounding goes by the number, not by the fraction that gives it -/

section
variable {a b c d : Nat} (hb : 0 < b) (hd : 0 < d) (h : (a : ℚ) / b = (c : ℚ) / d)
include hb hd h

theorem num_eq_zero_congr : a = 0 ↔ c = 0 := by
  have hb' : (b : ℚ) ≠ 0 := by exact_mod_cast hb.ne'
  have hd' : (d : ℚ) ≠ 0 := by exact_mod_cast hd.ne'
  have hzero : (a : ℚ) / b = 0 ↔ (c : ℚ) / d = 0 := by rw [h]
  simpa [hb', hd', hb.ne', hd.ne'] using hzero

theorem floorLog2_congr (ha : 0 < a) : floorLog2 a b = floorLog2 c d := by
  have hc : 0 < c := Nat.pos_of_ne_zero fun h0 => ha.ne' ((num_eq_zero_congr hb hd h).2 h0)
  obtain ⟨hlow, hhigh⟩ := floorLog2_rat hc hd
  exact floorLog2_eq_rat ha hb (h ▸ hlow) (h ▸ hhigh)

theorem ulpExp_congr (f : Fmt) (ha : 0 < a) : ulpExp f a b = ulpExp f c d := by
  rw [ulpExp, ulpExp, floorLog2_congr hb hd h ha]

theorem roundGrid_congr (m : RMode) (neg : Bool) (e : Int) : roundGrid m neg a b e = roundGrid m neg c d e := by
  refine Prod.ext ?_ (Bool.eq_iff_iff.2 ?_)
  · rw [roundGrid_fst m neg a hb, roundGrid_fst m neg c hd, h]
  · rw [roundGrid_snd m neg a hb, roundGrid_snd m neg c hd, h]

theorem isTiny_congr (f : Fmt) (m : RMode) (neg : Bool) (ha : 0 < a) : isTiny f m neg a b = isTiny f m neg c d := by
  unfold isTiny
  simp only [floorLog2_congr hb hd h ha, ulpExp_congr hb hd h f ha, roundGrid_congr hb hd h]

theorem roundTo_congr (f : Fmt) (m : RMode) (sat neg : Bool) : roundTo f m sat (.fin neg a b) = roundTo f m sat (.fin neg c d) := by
  have hzero := num_eq_zero_congr hb hd h
  by_cases ha : a = 0
  · rw [ha, hzero.1 ha]
    rfl
  · have hpos := Nat.pos_of_ne_zero ha
    unfold roundTo
    simp only [ha, mt hzero.2 ha, ulpExp_congr hb hd h f hpos, roundGrid_congr hb hd h, isTiny_congr hb hd h f m neg hpos]

end

/-! ### What the modes select (R89, R90) -/

section
variable (m : RMode) (neg : Bool) {z : ℚ}

theorem selected_of_goesUp (h : GoesUp m neg z) : selected m neg z = ⌊z⌋₊ + 1 := if_pos h
theorem selected_of_not (h : ¬GoesUp m neg z) : selected m neg z = ⌊z⌋₊ := if_neg h

theorem selected_cases : selected m neg z = ⌊z⌋₊ ∨ selected m neg z = ⌊z⌋₊ + 1 := by
  by_cases h : GoesUp m neg z
  · exact Or.inr (selected_of_goesUp m neg h)
  · exact Or.inl (selected_of_not m neg h)

variable (hz : 0 ≤ z)
include hz

/-- Scaled to 24 more bits, the floor lies among those of its multiple. -/
theorem floor_scaled : ⌊z⌋₊ * 2 ^ 24 ≤ ⌊z * 2 ^ 24⌋₊ ∧ ⌊z * 2 ^ 24⌋₊ < (⌊z⌋₊ + 1) * 2 ^ 24 := by
  have hpow : (0 : ℚ) < 2 ^ 24 := by positivity
  have hfloor := Nat.floor_le hz
  have hlt := Nat.lt_floor_add_one z
  refine ⟨Nat.le_floor ?_, (Nat.floor_lt (by positivity)).2 ?_⟩
  · push_cast
    exact mul_le_mul_of_nonneg_right hfloor hpow.le
  · push_cast
    exact mul_lt_mul_of_pos_right hlt hpow

/-- Under SR the 24 rounding bits are added below the step. -/
theorem selected_sr {rb : Nat} (hrb : rb < 2 ^ 24) : selected (.sr rb) neg z = (⌊z * 2 ^ 24⌋₊ + rb) / 2 ^ 24 := by
  obtain ⟨hlow, hhigh⟩ := floor_scaled hz
  by_cases h : GoesUp (.sr rb) neg z
  · rw [selected_of_goesUp _ _ h]
    have h' : ⌊z⌋₊ < (⌊z * 2 ^ 24⌋₊ + rb) / 2 ^ 24 := h
    omega
  · rw [selected_of_not _ _ h]
    have h' : ¬⌊z⌋₊ < (⌊z * 2 ^ 24⌋₊ + rb) / 2 ^ 24 := h
    omega

omit hz in
/-- A number on the grid stays. -/
theorem selected_exact (hm : ∀ rb, m = .sr rb → rb < 2 ^ 24) (hgrid : z = ⌊z⌋₊) : selected m neg z = ⌊z⌋₊ := by
  refine selected_of_not m neg fun hup => ?_
  have hsub : z - ⌊z⌋₊ = 0 := sub_eq_zero.2 hgrid
  cases m with
  | rne => simp [GoesUp, hsub] at hup; norm_num at hup
  | rtz => exact hup
  | rup => exact hup.2 hgrid
  | rdn => exact hup.2 hgrid
  | sr rb =>
    have hup' : ⌊z⌋₊ < (⌊z * 2 ^ 24⌋₊ + rb) / 2 ^ 24 := hup
    have hrb := hm rb rfl
    have hscaled : ⌊z * 2 ^ 24⌋₊ = ⌊z⌋₊ * 2 ^ 24 := by
      rw [hgrid, Nat.floor_natCast]
      exact_mod_cast Nat.floor_natCast (R := ℚ) (⌊z⌋₊ * 2 ^ 24)
    omega

/-- To the nearest, ties to the even multiple. -/
theorem selected_rne : 2 * |z - selected .rne neg z| ≤ 1 ∧
    (2 * |z - selected .rne neg z| = 1 → Even (selected .rne neg z)) := by
  have hfloor := Nat.floor_le hz
  have hlt := Nat.lt_floor_add_one z
  by_cases h : GoesUp .rne neg z
  · rw [selected_of_goesUp _ _ h, abs_of_nonpos (by push_cast; linarith)]
    push_cast
    rcases h with h | ⟨h, hodd⟩
    · exact ⟨by linarith, fun heq => by linarith⟩
    · exact ⟨by linarith, fun _ => Nat.even_add_one.2 (Nat.not_even_iff.2 hodd)⟩
  · rw [selected_of_not _ _ h, abs_of_nonneg (by linarith)]
    obtain ⟨hle, heven⟩ := not_or.1 h
    exact ⟨by linarith, fun heq => Nat.even_iff.2 (by have := not_and.1 heven heq; omega)⟩

end

/-- The directed modes: toward zero, and away from it unless on the grid. -/
theorem selected_toward (neg : Bool) {z : ℚ} (hz : 0 ≤ z) {m : RMode} (h : ∀ w, ¬GoesUp m neg w) :
    (selected m neg z : ℚ) ≤ z ∧ z < selected m neg z + 1 := by
  rw [selected_of_not _ _ (h z)]
  exact ⟨Nat.floor_le hz, Nat.lt_floor_add_one z⟩

theorem selected_away (neg : Bool) {z : ℚ} (hz : 0 ≤ z) {m : RMode} (h : ∀ w, GoesUp m neg w ↔ w ≠ ⌊w⌋₊) :
    z ≤ selected m neg z ∧ (selected m neg z : ℚ) < z + 1 := by
  have hfloor := Nat.floor_le hz
  have hlt := Nat.lt_floor_add_one z
  by_cases hgrid : z = ⌊z⌋₊
  · rw [selected_of_not _ _ fun hup => (h z).1 hup hgrid]
    exact ⟨hgrid.le, by linarith⟩
  · rw [selected_of_goesUp _ _ ((h z).2 hgrid)]
    have : (⌊z⌋₊ : ℚ) < z := lt_of_le_of_ne hfloor (Ne.symm hgrid)
    push_cast
    exact ⟨hlt.le, by linarith⟩

/-! ### The rule -/

theorem gridPoint_eq (m : RMode) (neg : Bool) (num : Nat) {den : Nat} (hd : 0 < den) (e : Int) :
    gridPoint m neg num den e = selected m neg ((num : ℚ) / den / 2 ^ e) * 2 ^ e := by
  rw [gridPoint, roundGrid_fst m neg num hd e]

theorem gridRoundingRule : GridRoundingRule := by
  intro num den e neg hn hd x u y
  have hu : (0 : ℚ) < u := by positivity
  have hz : 0 ≤ x / u := by positivity
  have hx : x = x / u * u := (div_mul_cancel₀ x hu.ne').symm
  have hy (m : RMode) : y m = selected m neg (x / u) * u := gridPoint_eq m neg num hd e
  have hgrid : x / u = ⌊x / u⌋₊ ↔ ∃ q : Nat, x = q * u := by
    refine ⟨fun h => ⟨_, by rw [← h]; exact hx⟩, fun ⟨q, hq⟩ => ?_⟩
    rw [hq, mul_div_cancel_right₀ _ hu.ne', Nat.floor_natCast]
  have hdiff (m : RMode) : 2 * |x - y m| = 2 * |x / u - selected m neg (x / u)| * u := by
    rw [hy, mul_assoc, ← abs_of_pos hu, ← abs_mul, sub_mul, abs_of_pos hu, ← hx]
  have hbelow {m : RMode} (h : ∀ w, ¬GoesUp m neg w) : y m ≤ x ∧ x < y m + u := by
    obtain ⟨hle, hlt⟩ := selected_toward neg hz h
    rw [hy, ← add_one_mul]
    exact ⟨(le_div_iff₀ hu).1 hle, (div_lt_iff₀ hu).1 hlt⟩
  have habove {m : RMode} (h : ∀ w, GoesUp m neg w ↔ w ≠ ⌊w⌋₊) : x ≤ y m ∧ y m < x + u := by
    obtain ⟨hle, hlt⟩ := selected_away neg hz h
    rw [hy]
    refine ⟨(div_le_iff₀ hu).1 hle, ?_⟩
    calc (selected m neg (x / u) : ℚ) * u < (x / u + 1) * u := mul_lt_mul_of_pos_right hlt hu
      _ = x + u := by rw [add_one_mul, ← hx]
  have hsame {m : RMode} (h : ∀ w, ¬GoesUp m neg w) : y m = y .rtz := by
    rw [hy, hy, selected_of_not _ _ (h _), selected_of_not _ _ id]
  obtain ⟨hnear, heven⟩ := selected_rne neg hz
  refine ⟨fun m => (roundGrid_snd m neg num hd e).trans hgrid, fun m hm hex => ?_, ⟨?_, fun heq => ?_⟩, hbelow fun _ => id, ?_,
    fun rb hrb => ?_⟩
  · rw [hy, selected_exact m neg hm (hgrid.2 hex), ← hgrid.2 hex, ← hx]
  · rw [hdiff]
    exact mul_le_of_le_one_left hu.le hnear
  · rw [hdiff, mul_eq_right₀ hu.ne'] at heq
    rw [roundGrid_fst .rne neg num hd e]
    exact heven heq
  · cases neg with
    | true => exact ⟨hsame fun w h => Bool.false_ne_true h.1.symm, habove fun w => and_iff_right rfl⟩
    | false => exact ⟨hsame fun w h => Bool.false_ne_true h.1, habove fun w => and_iff_right rfl⟩
  · rw [hy, selected_sr neg hz hrb, div_mul_eq_mul_div]

end Sys2Proof.Proofs.Rounding
end

section
open Sys2Proof Sys2Proof.Machine
namespace Sys2Proof.Proofs.BlockScales
open Rounding Reductions

/-! ### The greatest magnitude of a block -/

/-- The greatest magnitude of a list of values, as the choice of a scale finds it from a magnitude on. -/
def greatest (a : Nat × Nat) (xs : List Val) : Nat × Nat := xs.foldl (fun a x => fracMax a (magOf x)) a

theorem magOf_value {x : Val} (hx : x.finite) : 0 < (magOf x).2 ∧ ((magOf x).1 : ℚ) / (magOf x).2 = |x.exact| := by
  obtain ⟨neg, p, q, rfl⟩ := Approximations.exists_fin hx
  refine ⟨Nat.pos_of_ne_zero hx, ?_⟩
  show (p : ℚ) / q = |(if neg then -1 else 1) * ((p : ℚ) / q)|
  have hpq : (0 : ℚ) ≤ p / q := by positivity
  rw [abs_mul, abs_of_nonneg hpq]
  cases neg <;> simp

theorem fracMax_value {a b : Nat × Nat} (ha : 0 < a.2) (hb : 0 < b.2) : 0 < (fracMax a b).2 ∧
    ((fracMax a b).1 : ℚ) / (fracMax a b).2 = max ((a.1 : ℚ) / a.2) ((b.1 : ℚ) / b.2) := by
  unfold fracMax
  by_cases h : fracLt a b = true
  · rw [if_pos h, max_eq_right ((fracLt_iff ha hb).1 h).le]
    exact ⟨hb, rfl⟩
  · rw [if_neg h, max_eq_left (not_lt.1 ((fracLt_iff ha hb).not.1 h))]
    exact ⟨ha, rfl⟩

theorem greatest_value {xs : List Val} (hxs : ∀ x ∈ xs, x.finite) {a : Nat × Nat} (ha : 0 < a.2) : 0 < (greatest a xs).2 ∧
    ((greatest a xs).1 : ℚ) / (greatest a xs).2 = (xs.map fun x => |x.exact|).foldl max ((a.1 : ℚ) / a.2) := by
  induction xs generalizing a with
  | nil => exact ⟨ha, rfl⟩
  | cons x xs ih =>
    obtain ⟨hx, hrest⟩ := List.forall_mem_cons.1 hxs
    obtain ⟨hpos, hmag⟩ := magOf_value hx
    obtain ⟨hmax, hval⟩ := fracMax_value ha hpos
    obtain ⟨hden, hfold⟩ := ih hrest hmax
    exact ⟨hden, hfold.trans (by rw [hval, hmag]; rfl)⟩

theorem notFinite_of_finite {x : Val} (hx : x.finite) : notFinite x = false := by
  obtain ⟨neg, p, q, rfl⟩ := Approximations.exists_fin hx
  rfl

theorem any_notFinite {xs : List Val} (hxs : ∀ x ∈ xs, x.finite) : ¬xs.any notFinite = true := by
  rw [List.any_eq_true]
  rintro ⟨x, hx, hnot⟩
  rw [notFinite_of_finite (hxs x hx)] at hnot
  exact Bool.false_ne_true hnot

section
variable {xs : List Val} {num den : Nat} (hle : ∀ x ∈ xs, x.finite ∧ |x.exact| ≤ (num : ℚ) / den)
  (hmet : num = 0 ∨ ∃ x ∈ xs, |x.exact| = (num : ℚ) / den)
include hle hmet

/-- A bound of the magnitudes that one of them meets is the greatest. -/
theorem greatest_eq : 0 < (greatest (0, 1) xs).2 ∧
    ((greatest (0, 1) xs).1 : ℚ) / (greatest (0, 1) xs).2 = (num : ℚ) / den := by
  obtain ⟨hpos, hfold⟩ := greatest_value (fun x hx => (hle x hx).1) (a := (0, 1)) one_pos
  refine ⟨hpos, hfold.trans (le_antisymm ?_ ?_)⟩
  · rcases List.mem_cons.1 (foldl_mem_cons max_choice (xs.map fun x => |x.exact|) (((0 : Nat) : ℚ) / (1 : Nat))) with h | h
    · rw [h, Nat.cast_zero, zero_div]
      positivity
    · obtain ⟨x, hx, heq⟩ := List.mem_map.1 h
      rw [← heq]
      exact (hle x hx).2
  · refine foldl_max_ge _ _ _ ?_
    rcases hmet with rfl | ⟨x, hx, heq⟩
    · exact List.mem_cons.2 (Or.inl (by simp))
    · exact List.mem_cons_of_mem _ (List.mem_map.2 ⟨x, hx, heq⟩)

end

/-! ### The scale (R88) -/

/-- The exponent of a scale E8M0 for a greatest magnitude, from a first choice on: one higher where the magnitude over the scale
rounds above the format's greatest value. -/
def raisedExp (f : Fmt) (p : Nat × Nat) (e : Int) : Int :=
  let s := scale2 p.1 p.2 (-e)
  let u := ulpExp f s.1 s.2
  if fracLt f.maxf (scale2 (roundGrid .rne false s.1 s.2 u).1 1 u) then e + 1 else e

/-- The scale UE5M3 for a greatest magnitude. -/
def clampedScale (f : Fmt) (p : Nat × Nat) : Nat × BitVec 5 :=
  let r := roundTo fmtUE5M3 .rup true (.fin false (p.1 * f.maxf.2) (p.2 * f.maxf.1))
  (r.1, r.2 &&& fOF)

section
variable {f : Fmt} {xs : List Val}

theorem chooseScale_of_notFinite {x : Val} (hx : x ∈ xs) (h : x = .nan ∨ ∃ n, x = .inf n) (bsk : Nat) :
    chooseScale f bsk xs = (0xFF, 0) := by
  refine if_pos (List.any_eq_true.2 ⟨x, hx, ?_⟩)
  rcases h with rfl | ⟨n, rfl⟩ <;> rfl

variable (hxs : ∀ x ∈ xs, x.finite)
include hxs

theorem chooseScale_of_zero (h : (greatest (0, 1) xs).1 = 0) : chooseScale f 1 xs = (127, 0) ∧ chooseScale f 2 xs = (0x78, 0) :=
  ⟨(if_neg (any_notFinite hxs)).trans ((if_pos rfl).trans (if_pos h)),
    (if_neg (any_notFinite hxs)).trans ((if_neg (by decide)).trans (if_pos h))⟩

theorem chooseScale_one (h : (greatest (0, 1) xs).1 ≠ 0) : chooseScale f 1 xs =
    ((max (-127) (min 127 (raisedExp f (greatest (0, 1) xs)
      (floorLog2 (greatest (0, 1) xs).1 (greatest (0, 1) xs).2 - emx f))) + 127).toNat, 0) :=
  (if_neg (any_notFinite hxs)).trans ((if_pos rfl).trans (if_neg h))

theorem chooseScale_two (h : (greatest (0, 1) xs).1 ≠ 0) : chooseScale f 2 xs = clampedScale f (greatest (0, 1) xs) :=
  (if_neg (any_notFinite hxs)).trans ((if_neg (by decide)).trans (if_neg h))

end

section
variable {f : Fmt} (hmax : f.maxQ ≠ 0) {p : Nat × Nat} {num den : Nat} (hp : 0 < p.2) (hd : 0 < den)
  (hval : (p.1 : ℚ) / p.2 = (num : ℚ) / den)
include hmax

theorem maxf_pos : 0 < f.maxf.1 ∧ 0 < f.maxf.2 := by
  obtain ⟨hnum, hden⟩ := div_ne_zero_iff.1 hmax
  exact ⟨Nat.pos_of_ne_zero (by exact_mod_cast hnum), Nat.pos_of_ne_zero (by exact_mod_cast hden)⟩

theorem emx_eq {k : Int} (hlow : (2 : ℚ) ^ k ≤ f.maxQ) (hhigh : f.maxQ < 2 ^ (k + 1)) : emx f = k :=
  floorLog2_eq_rat (maxf_pos hmax).1 (maxf_pos hmax).2 hlow hhigh

include hp hd hval

theorem clampedScale_congr : clampedScale f p = clampedScale f (num, den) := by
  obtain ⟨hpos, hpos'⟩ := maxf_pos hmax
  have hquot : ((p.1 * f.maxf.2 : Nat) : ℚ) / (p.2 * f.maxf.1 : Nat) = ((num * f.maxf.2 : Nat) : ℚ) / (den * f.maxf.1 : Nat) := by
    push_cast
    rw [mul_div_mul_comm, mul_div_mul_comm, hval]
  unfold clampedScale
  rw [roundTo_congr (Nat.mul_pos hp hpos) (Nat.mul_pos hd hpos) hquot]

theorem raisedExp_eq (hn : 0 < num) (e : Int) : raisedExp f p e =
    if f.maxQ < gridPoint .rne false (scale2 num den (-e)).1 (scale2 num den (-e)).2
      (ulpExp f (scale2 num den (-e)).1 (scale2 num den (-e)).2) then e + 1 else e := by
  have hpnum : 0 < p.1 := Nat.pos_of_ne_zero ((num_eq_zero_congr hp hd hval).not.2 hn.ne')
  have hpden := FloatGrid.scale2_pos (num := p.1) hp (-e)
  have hden := FloatGrid.scale2_pos (num := num) hd (-e)
  have hscaled : ((scale2 p.1 p.2 (-e)).1 : ℚ) / (scale2 p.1 p.2 (-e)).2 =
      ((scale2 num den (-e)).1 : ℚ) / (scale2 num den (-e)).2 := by rw [scale2_rat, scale2_rat, hval]
  unfold raisedExp
  dsimp only
  rw [ulpExp_congr hpden hden hscaled f (FloatGrid.scale2_num_pos hpnum _), roundGrid_congr hpden hden hscaled]
  refine if_congr ?_ rfl rfl
  rw [fracLt_iff (maxf_pos hmax).2 (FloatGrid.scale2_pos one_pos _), scale2_rat, Nat.cast_one, div_one]
  rfl

end

theorem blockScalesRule : BlockScalesRule := by
  intro d xs hvalid hmax f
  refine ⟨fun ⟨x, hx, hnot⟩ hkind bsk => chooseScale_of_notFinite hx ((hkind x hx).resolve_left hnot) bsk,
    fun num den hd hle => ⟨?_, fun hn hmet => ⟨fun l k hl hl' hk hk' => ?_, ?_⟩⟩⟩
  · rintro rfl
    obtain ⟨hpos, hval⟩ := greatest_eq hle (Or.inl rfl)
    exact chooseScale_of_zero (fun x hx => (hle x hx).1) ((num_eq_zero_congr hpos hd hval).2 rfl)
  · obtain ⟨hpos, hval⟩ := greatest_eq hle (Or.inr hmet)
    have hne := (num_eq_zero_congr hpos hd hval).not.2 hn.ne'
    have hlog : floorLog2 (greatest (0, 1) xs).1 (greatest (0, 1) xs).2 = l :=
      floorLog2_eq_rat (Nat.pos_of_ne_zero hne) hpos (hval ▸ hl) (hval ▸ hl')
    rw [chooseScale_one (fun x hx => (hle x hx).1) hne, hlog, emx_eq hmax hk hk', raisedExp_eq hmax hpos hd hval hn]
  · obtain ⟨hpos, hval⟩ := greatest_eq hle (Or.inr hmet)
    have hne := (num_eq_zero_congr hpos hd hval).not.2 hn.ne'
    rw [chooseScale_two (fun x hx => (hle x hx).1) hne, clampedScale_congr hmax hpos hd hval]
    rfl

/-- Settles O13: conversions and quantisations are rounded instructions over a part of the elements; a tree folded in rounds is the
tree of R98; and a scale goes by the greatest magnitude as a number. -/
theorem conversionsAndReductions : Obligations.ConversionsAndReductions :=
  ⟨Conversions.vectorConversionsRule, Quantisation.quantisationRule, reductionsRule, blockScalesRule⟩

end Sys2Proof.Proofs.BlockScales
end

section
open Sys2Proof Sys2Proof.Machine
namespace Sys2Proof.Proofs.FloatFormats
open Rounding

/-! ### Numbers that values stand for -/

/-- A value is the number y. -/
def IsNumber (v : Val) (y : ℚ) : Prop := v.finite ∧ v.exact = y

/-- A number with its sign. -/
def signed (neg : Bool) (y : ℚ) : ℚ := (if neg then -1 else 1) * y

theorem isNumber_ofPow (neg : Bool) (m : Nat) (e : Int) : IsNumber (Val.ofPow neg m e) (signed neg (m * 2 ^ e)) := by
  have hval := scale2_rat m 1 e
  rw [Nat.cast_one, div_one] at hval
  refine ⟨(FloatGrid.scale2_pos one_pos e).ne', ?_⟩
  rw [signed, ← hval]
  rfl

theorem isNumber_zero (neg : Bool) : IsNumber (.fin neg 0 1) 0 :=
  ⟨one_ne_zero, by show (if neg then (-1 : ℚ) else 1) * ((0 : Nat) / (1 : Nat)) = 0; simp⟩

/-! ### The patterns of a floating format (R79 to R82) -/

/-- What the floating formats have in common: those of R79, and those of the valid descriptors (R81). -/
structure FloatFmt (f : Fmt) : Prop where
  real : f.kindInt = false
  width : f.w = (if f.sgn then 1 else 0) + f.eb + f.mb
  eb : 1 ≤ f.eb
  inf : f.spv = 1 → 2 ≤ f.eb ∧ 1 ≤ f.mb

/-- The number that a pattern below the sign stands for, where subnormal numbers are kept and nothing is special. -/
def patValue (f : Fmt) (p : Nat) : ℚ :=
  if p / 2 ^ f.mb = 0 then (p % 2 ^ f.mb : Nat) * 2 ^ (1 - f.bias - f.mb)
  else (2 ^ f.mb + p % 2 ^ f.mb : Nat) * 2 ^ ((p / 2 ^ f.mb : Nat) - f.bias - f.mb)

theorem patValue_fields (f : Fmt) (x : Nat) {m : Nat} (hm : m < 2 ^ f.mb) : patValue f (x * 2 ^ f.mb + m) =
    if x = 0 then (m : ℚ) * 2 ^ (1 - f.bias - f.mb) else (2 ^ f.mb + m : Nat) * 2 ^ (x - f.bias - f.mb) := by
  have hdiv : (x * 2 ^ f.mb + m) / 2 ^ f.mb = x := by
    rw [Nat.mul_comm, Nat.mul_add_div (Nat.two_pow_pos _), Nat.div_eq_of_lt hm, Nat.add_zero]
  have hmod : (x * 2 ^ f.mb + m) % 2 ^ f.mb = m := by rw [Nat.mul_add_mod_self_right, Nat.mod_eq_of_lt hm]
  rw [patValue, hdiv, hmod]

theorem pat_fields (f : Fmt) (p : Nat) : ∃ x m, m < 2 ^ f.mb ∧ p = x * 2 ^ f.mb + m :=
  ⟨p / 2 ^ f.mb, p % 2 ^ f.mb, Nat.mod_lt _ (Nat.two_pow_pos _), (Nat.div_add_mod' p _).symm⟩

theorem patValue_zero (f : Fmt) : patValue f 0 = 0 := by simp [patValue]

/-- Patterns stand in the order of their numbers. -/
theorem patValue_strictMono (f : Fmt) : StrictMono (patValue f) := by
  refine strictMono_nat_of_lt_succ fun p => ?_
  obtain ⟨x, m, hm, rfl⟩ := pat_fields f p
  have hstep (e : Int) : (0 : ℚ) < 2 ^ e := by positivity
  rcases Nat.lt_or_ge (m + 1) (2 ^ f.mb) with hlt | hge
  · rw [Nat.add_assoc, patValue_fields f x hm, patValue_fields f x hlt]
    split_ifs
    · exact mul_lt_mul_of_pos_right (by exact_mod_cast Nat.lt_succ_self m) (hstep _)
    · exact mul_lt_mul_of_pos_right (by exact_mod_cast Nat.lt_succ_self (2 ^ f.mb + m)) (hstep _)
  · have hnext : x * 2 ^ f.mb + m + 1 = (x + 1) * 2 ^ f.mb + 0 := by rw [Nat.succ_mul]; omega
    rw [hnext, patValue_fields f x hm, patValue_fields f _ (Nat.two_pow_pos _), if_neg (Nat.succ_ne_zero x)]
    split_ifs with hx
    · rw [hx, Nat.add_zero, Nat.zero_add, Nat.cast_one]
      exact mul_lt_mul_of_pos_right (by exact_mod_cast hm) (hstep _)
    · rw [show (((x + 1 : Nat) : Int) - f.bias - f.mb) = (x - f.bias - f.mb) + 1 by push_cast; ring, zpow_add_one₀ two_ne_zero,
        mul_comm ((2 : ℚ) ^ _) 2, ← mul_assoc]
      refine mul_lt_mul_of_pos_right ?_ (hstep _)
      exact_mod_cast (show 2 ^ f.mb + m < (2 ^ f.mb + 0) * 2 by omega)

/-- The patterns whose numbers lie below 2^emin are the subnormal ones. -/
theorem patValue_lt_emin_iff (f : Fmt) (p : Nat) : patValue f p < 2 ^ f.emin ↔ p < 2 ^ f.mb := by
  have hmin : patValue f (2 ^ f.mb) = 2 ^ f.emin := by
    have h := patValue_fields f 1 (Nat.two_pow_pos f.mb)
    rw [Nat.one_mul, Nat.add_zero, if_neg one_ne_zero] at h
    rw [h, Nat.cast_pow, Nat.cast_ofNat, ← zpow_natCast, ← zpow_add₀ two_ne_zero]
    congr 1
    show _ = 1 - f.bias
    push_cast
    ring
  rw [← hmin, (patValue_strictMono f).lt_iff_lt]

/-- A multiple of a step of the grid of a binade, no more than twice its lower end, has a pattern (R89). -/
theorem exists_patValue (f : Fmt) {q k : Nat} (hq : q ≤ 2 * 2 ^ f.mb) (hk : k = 0 ∨ 2 ^ f.mb ≤ q) :
    ∃ p, patValue f p = q * 2 ^ (f.emin + k - f.mb) := by
  have hemin : f.emin = 1 - f.bias := rfl
  rcases Nat.lt_or_ge q (2 ^ f.mb) with hlt | hge
  · refine ⟨0 * 2 ^ f.mb + q, ?_⟩
    rw [patValue_fields f 0 hlt, if_pos rfl, hk.resolve_right (not_le.2 hlt), hemin]
    simp
  · rcases hq.lt_or_eq with hlt | rfl
    · refine ⟨(k + 1) * 2 ^ f.mb + (q - 2 ^ f.mb), ?_⟩
      rw [patValue_fields f _ (by omega), if_neg (Nat.succ_ne_zero k), Nat.add_sub_cancel' hge, hemin]
      congr 2
      push_cast
      ring
    · refine ⟨(k + 2) * 2 ^ f.mb + 0, ?_⟩
      rw [patValue_fields f _ (Nat.two_pow_pos _), if_neg (Nat.succ_ne_zero _), Nat.add_zero, hemin]
      rw [show (((k + 2 : Nat) : Int) - f.bias - f.mb) = (1 - f.bias + k - f.mb) + 1 by push_cast; ring, zpow_add_one₀ two_ne_zero]
      push_cast
      ring

end Sys2Proof.Proofs.FloatFormats
end

section
open Sys2Proof Sys2Proof.Machine
namespace Sys2Proof.Proofs.FloatPatterns
open Rounding FloatFormats

/-! ### Patterns below a sign -/

/-- The sign bit of a pattern. -/
def signPat (f : Fmt) (neg : Bool) : Nat := if neg && f.sgn then 2 ^ (f.w - 1) else 0

/-- The value of a pattern below a sign, by its exponent and mantissa (R79, R82). -/
def valueOf (f : Fmt) (s : Bool) (x m : Nat) : Val :=
  if f.spv = 1 ∧ x = 2 ^ f.eb - 1 then (if m = 0 then .inf s else .nan)
  else if f.spv = 2 ∧ x = 2 ^ f.eb - 1 ∧ m = 2 ^ f.mb - 1 then .nan
  else if x = 0 then (if f.sub then .fin s 0 1 else Val.ofPow s m (1 - f.bias - f.mb))
  else Val.ofPow s (2 ^ f.mb + m) (x - f.bias - f.mb)

section
variable {f : Fmt} (hf : FloatFmt f)
include hf

theorem signPat_fields (neg : Bool) {p : Nat} (hp : p < 2 ^ (f.eb + f.mb)) : signPat f neg + p < 2 ^ f.w ∧
    (f.sgn && (signPat f neg + p).testBit (f.w - 1)) = (neg && f.sgn) ∧
    (signPat f neg + p) / 2 ^ f.mb % 2 ^ f.eb = p / 2 ^ f.mb ∧ (signPat f neg + p) % 2 ^ f.mb = p % 2 ^ f.mb := by
  have hdiv : p / 2 ^ f.mb < 2 ^ f.eb := by rwa [Nat.div_lt_iff_lt_mul (Nat.two_pow_pos _), ← Nat.pow_add]
  have hw := hf.width
  cases hs : f.sgn with
  | false =>
    rw [hs] at hw
    simp only [signPat, hs, Bool.and_false, Bool.false_and, Bool.false_eq_true, if_false, Nat.zero_add, Nat.mod_eq_of_lt hdiv] at hw ⊢
    exact ⟨hw ▸ hp, trivial, trivial, trivial⟩
  | true =>
    have hw' : f.w = f.eb + f.mb + 1 := by rw [hs] at hw; simp only [if_true] at hw; omega
    have hpat : signPat f neg + p = 2 ^ (f.eb + f.mb) * (if neg then 1 else 0) + p := by
      rw [signPat, hs, hw', Nat.add_sub_cancel]
      cases neg <;> simp
    have hpat' : signPat f neg + p = 2 ^ f.mb * (2 ^ f.eb * (if neg then 1 else 0)) + p := by
      rw [hpat, Nat.add_comm f.eb, Nat.pow_add, Nat.mul_assoc]
    refine ⟨?_, ?_, ?_, ?_⟩
    · rw [hpat, hw', Nat.pow_succ]
      split_ifs <;> omega
    · rw [hpat, hw', Nat.add_sub_cancel, Nat.testBit_two_pow_mul_add _ hp, if_neg (lt_irrefl _), Nat.sub_self]
      cases neg <;> rfl
    · rw [hpat', Nat.mul_add_div (Nat.two_pow_pos _), Nat.mul_add_mod, Nat.mod_eq_of_lt hdiv]
    · rw [hpat', Nat.mul_add_mod]

theorem decodeVal_signPat (neg : Bool) {p : Nat} (hp : p < 2 ^ (f.eb + f.mb)) :
    decodeVal f (signPat f neg + p) = valueOf f (neg && f.sgn) (p / 2 ^ f.mb) (p % 2 ^ f.mb) := by
  obtain ⟨hlt, hsign, hexp, hman⟩ := signPat_fields hf neg hp
  unfold decodeVal valueOf
  rw [Nat.mod_eq_of_lt hlt]
  simp only [hf.real, hsign, hexp, hman, Bool.false_eq_true, if_false, Bool.and_eq_true, decide_eq_true_eq, and_assoc]

/-- An infinity's pattern. -/
theorem decodeVal_infPat {neg : Bool} (hspv : f.spv = 1) (hneg : (neg && f.sgn) = neg) : decodeVal f (infPat f neg) = .inf neg := by
  have hpos := Nat.two_pow_pos f.eb
  have hlt : (2 ^ f.eb - 1) * 2 ^ f.mb < 2 ^ (f.eb + f.mb) := by
    rw [Nat.pow_add]
    exact Nat.mul_lt_mul_of_pos_right (by omega) (Nat.two_pow_pos _)
  have h := decodeVal_signPat hf neg hlt
  rw [Nat.mul_div_cancel _ (Nat.two_pow_pos _), Nat.mul_mod_left, valueOf, if_pos ⟨hspv, rfl⟩, if_pos rfl, hneg] at h
  rw [← h, signPat, hneg]
  rfl

/-! ### The finite patterns -/

/-- The patterns of finite numbers have their own fields, and none stands for a special value. -/
theorem finite_fields {p : Nat} (hp : p ≤ f.maxPat) : p < 2 ^ (f.eb + f.mb) ∧
    ¬(f.spv = 1 ∧ p / 2 ^ f.mb = 2 ^ f.eb - 1) ∧
    ¬(f.spv = 2 ∧ p / 2 ^ f.mb = 2 ^ f.eb - 1 ∧ p % 2 ^ f.mb = 2 ^ f.mb - 1) := by
  have hA : 2 ≤ 2 ^ f.eb := by simpa using Nat.pow_le_pow_right two_pos hf.eb
  have hB := Nat.two_pow_pos f.mb
  have hsplit := Nat.div_add_mod p (2 ^ f.mb)
  rw [Fmt.maxPat, hf.real, Nat.pow_add] at hp
  rw [Nat.pow_add]
  have hone : (2 ^ f.eb - 1) * 2 ^ f.mb + 2 ^ f.mb = 2 ^ f.eb * 2 ^ f.mb := by
    rw [← Nat.succ_mul]
    congr 1
    omega
  have hpos : 0 < (2 ^ f.eb - 1) * 2 ^ f.mb := Nat.mul_pos (by omega) hB
  simp only [Bool.false_eq_true, if_false] at hp
  have htop (h : p / 2 ^ f.mb = 2 ^ f.eb - 1) : p = (2 ^ f.eb - 1) * 2 ^ f.mb + p % 2 ^ f.mb := by
    rw [h, Nat.mul_comm] at hsplit
    exact hsplit.symm
  split_ifs at hp with h1 h2
  · exact ⟨by omega, fun h => by have := htop h.2; omega, fun h => by omega⟩
  · exact ⟨by omega, fun h => h1 h.1, fun h => by have := htop h.2.1; omega⟩
  · exact ⟨by omega, fun h => h1 h.1, fun h => h2 h.1⟩

/-- The number of a finite pattern under a sign; a subnormal one stands for zero under SUB. -/
theorem isNumber_signPat {neg : Bool} (hneg : (neg && f.sgn) = neg) {p : Nat} (hp : p ≤ f.maxPat) :
    IsNumber (decodeVal f (signPat f neg + p)) (if f.sub = true ∧ p < 2 ^ f.mb then 0 else signed neg (patValue f p)) := by
  obtain ⟨hlt, h1, h2⟩ := finite_fields hf hp
  rw [decodeVal_signPat hf neg hlt, valueOf, if_neg h1, if_neg h2, hneg, patValue]
  simp only [← Nat.div_eq_zero_iff_lt (Nat.two_pow_pos f.mb)]
  by_cases hx : p / 2 ^ f.mb = 0
  · by_cases hsub : f.sub = true
    · rw [if_pos hx, if_pos hsub, if_pos ⟨hsub, hx⟩]
      exact isNumber_zero neg
    · rw [if_pos hx, if_neg hsub, if_neg fun h => hsub h.1, if_pos hx]
      exact isNumber_ofPow ..
  · rw [if_neg hx, if_neg fun h => hx h.2, if_neg hx]
    exact isNumber_ofPow ..

/-- The greatest finite pattern is no subnormal one, unless zero is the one finite number. -/
theorem maxPat_eq_zero_of_lt (h : f.maxPat < 2 ^ f.mb) : f.maxPat = 0 := by
  have hA : 2 ≤ 2 ^ f.eb := by simpa using Nat.pow_le_pow_right two_pos hf.eb
  have hB := Nat.two_pow_pos f.mb
  have hAB : 2 * 2 ^ f.mb ≤ 2 ^ f.eb * 2 ^ f.mb := Nat.mul_le_mul_right _ hA
  rw [Fmt.maxPat, hf.real, Nat.pow_add] at h ⊢
  simp only [Bool.false_eq_true, if_false] at h ⊢
  split_ifs at h ⊢ with h1 h2
  · have hA' : 4 ≤ 2 ^ f.eb := by simpa using Nat.pow_le_pow_right two_pos (hf.inf h1).1
    have : 3 * 2 ^ f.mb ≤ (2 ^ f.eb - 1) * 2 ^ f.mb := Nat.mul_le_mul_right _ (by omega)
    omega
  · omega
  · omega

theorem isNumber_maxPat {neg : Bool} (hneg : (neg && f.sgn) = neg) :
    IsNumber (decodeVal f (signPat f neg + f.maxPat)) (signed neg (patValue f f.maxPat)) := by
  have h := isNumber_signPat hf hneg le_rfl
  split_ifs at h with hsub
  · rwa [maxPat_eq_zero_of_lt hf hsub.2, patValue_zero, signed, mul_zero, ← maxPat_eq_zero_of_lt hf hsub.2]
  · exact h

end

end Sys2Proof.Proofs.FloatPatterns
end

section
open Sys2Proof Sys2Proof.Machine
namespace Sys2Proof.Proofs.FloatEncoding
open Rounding FloatFormats FloatPatterns

/-! ### Encoding in a floating format -/

theorem encodeFin_zero {f : Fmt} (hf : f.kindInt = false) (neg : Bool) (e : Int) : encodeFin f neg 0 e = signPat f neg := by
  rw [encodeFin, hf]
  rfl

/-- A shifted number that is whole comes out whole. -/
theorem shifted_eq {q n : Nat} {sh : Int} (h : (q : ℚ) * 2 ^ sh = n) : (scale2 q 1 sh).1 / (scale2 q 1 sh).2 = n := by
  have hval := scale2_rat q 1 sh
  rw [Nat.cast_one, div_one, h] at hval
  rw [← Nat.floor_div_eq_div (K := ℚ), hval, Nat.floor_natCast]

/-- The number of a positive whole multiple of a power, moved to another power. -/
theorem moved_power {q n : Nat} {e k : Int} (h : (q : ℚ) * 2 ^ e = n * 2 ^ k) : (q : ℚ) * 2 ^ (e - k) = n := by
  rw [zpow_sub₀ two_ne_zero, mul_div_assoc', h, mul_div_cancel_right₀ _ (by positivity)]

theorem binade_of_power {q : Nat} (hq : 0 < q) {e l : Int} (hlow : (2 : ℚ) ^ l ≤ q * 2 ^ e) (hhigh : (q : ℚ) * 2 ^ e < 2 ^ (l + 1)) :
    floorLog2 q 1 + e = l := by
  have hpow : (0 : ℚ) < 2 ^ e := by positivity
  have : floorLog2 q 1 = l - e := by
    refine floorLog2_eq_rat hq one_pos ?_ ?_
    · rwa [Nat.cast_one, div_one, zpow_sub₀ two_ne_zero, div_le_iff₀ hpow]
    · rwa [Nat.cast_one, div_one, show l - e + 1 = l + 1 - e by ring, zpow_sub₀ two_ne_zero, lt_div_iff₀ hpow]
  omega

/-- The numbers of normal patterns lie in the binade of their exponent field. -/
theorem patValue_binade (f : Fmt) {x m : Nat} (hx : x ≠ 0) (hm : m < 2 ^ f.mb) :
    (2 : ℚ) ^ (x - f.bias) ≤ patValue f (x * 2 ^ f.mb + m) ∧ patValue f (x * 2 ^ f.mb + m) < 2 ^ (x - f.bias + 1) := by
  have hpow : (0 : ℚ) < 2 ^ (x - f.bias - f.mb) := by positivity
  have hsplit : (2 : ℚ) ^ (x - f.bias) = (2 ^ f.mb : Nat) * 2 ^ (x - f.bias - f.mb) := by
    push_cast
    rw [← zpow_natCast, ← zpow_add₀ two_ne_zero, add_sub_cancel]
  rw [patValue_fields f x hm, if_neg hx, zpow_add_one₀ two_ne_zero, hsplit, mul_right_comm]
  refine ⟨mul_le_mul_of_nonneg_right (by exact_mod_cast Nat.le_add_right _ _) hpow.le, mul_lt_mul_of_pos_right ?_ hpow⟩
  exact_mod_cast (show 2 ^ f.mb + m < 2 ^ f.mb * 2 by omega)

/-- The pattern of a number is the pattern whose number it is. -/
theorem encodeFin_eq {f : Fmt} (hf : f.kindInt = false) (neg : Bool) {q p : Nat} (hq : 0 < q) {e : Int} (h : (q : ℚ) * 2 ^ e = patValue f p) :
    encodeFin f neg q e = signPat f neg + p := by
  obtain ⟨x, m, hm, rfl⟩ := pat_fields f p
  have hemin : f.emin = 1 - f.bias := rfl
  have hval := h.trans (patValue_fields f x hm)
  unfold encodeFin
  simp only [hf, Bool.false_eq_true, if_false, hq.ne']
  by_cases hx : x = 0
  · have hlow : floorLog2 q 1 + e < f.emin := by
      have hlog := (floorLog2_rat hq one_pos).1
      rw [Nat.cast_one, div_one] at hlog
      refine (zpow_lt_zpow_iff_right₀ one_lt_two).1 (lt_of_le_of_lt ?_ ((patValue_lt_emin_iff f _).2 (?_ : x * 2 ^ f.mb + m < _)))
      · rw [← h, zpow_add₀ two_ne_zero]
        exact mul_le_mul_of_nonneg_right hlog (by positivity)
      · rw [hx]
        omega
    rw [if_pos hx] at hval
    rw [if_pos hlow, if_pos hlow, hemin, shifted_eq (moved_power hval), hx, Nat.zero_mul, Nat.zero_add]
    rfl
  · obtain ⟨hlow, hhigh⟩ := patValue_binade f hx hm
    rw [← h] at hlow hhigh
    have hex := binade_of_power hq hlow hhigh
    rw [if_neg hx] at hval
    have hge : ¬(x : Int) - f.bias < f.emin := by omega
    have hfield : ((x : Int) - f.bias - f.emin).toNat * 2 ^ f.mb + 2 ^ f.mb = x * 2 ^ f.mb := by
      rw [← Nat.succ_mul]
      congr 1
      omega
    rw [hex, if_neg hge, if_neg hge, shifted_eq (moved_power hval), ← hfield]
    unfold signPat
    omega

/-! ### Integer formats (R81, R82) -/

/-- What the integer formats have in common. -/
structure IntFmt (f : Fmt) : Prop where
  int : f.kindInt = true
  width : 2 ≤ f.w
  spv : f.spv = 0

theorem signedOf_of_lt {w x : Nat} (hx : x < 2 ^ w) :
    signedOf w x = if x < 2 ^ (w - 1) then (x : Int) else (x : Int) - (2 ^ w : Nat) := by
  have hmod : (x : Int) % 2 ^ w = x := by exact_mod_cast congrArg Nat.cast (Nat.mod_eq_of_lt hx)
  rw [signedOf, Nat.mod_eq_of_lt hx, hmod]

/-- The pattern of an integer in a format's range. -/
theorem signedOf_wrapN {w : Nat} (hw : 0 < w) {x : Int} (hlow : -(2 ^ (w - 1) : Nat) ≤ x) (hhigh : x < (2 ^ (w - 1) : Nat)) :
    wrapN w x < 2 ^ w ∧ signedOf w (wrapN w x) = x := by
  have hsucc : 2 ^ w = 2 * 2 ^ (w - 1) := by rw [← Nat.pow_succ', Nat.succ_eq_add_one, Nat.sub_add_cancel hw]
  have hmod : x % (2 ^ w : Nat) = if x < 0 then x + (2 ^ w : Nat) else x := by
    split_ifs with hneg
    · rw [← Int.add_emod_right, Int.emod_eq_of_lt (by omega) (by omega)]
    · exact Int.emod_eq_of_lt (by omega) (by omega)
  have hlt : wrapN w x < 2 ^ w := by
    rw [wrapN, hmod]
    split_ifs <;> omega
  refine ⟨hlt, ?_⟩
  rw [signedOf_of_lt hlt, wrapN, hmod]
  split_ifs <;> omega

section
variable {f : Fmt} (hf : IntFmt f)
include hf

theorem decodeVal_int {c : Nat} (hc : c < 2 ^ f.w) : decodeVal f c =
    Val.ofPow (decide ((if f.sgn then signedOf f.w c else (c : Int)) < 0)) (if f.sgn then signedOf f.w c else (c : Int)).natAbs
      (-f.bias) := by
  unfold decodeVal
  rw [hf.int, if_pos rfl, Nat.mod_eq_of_lt hc]

/-- The integer of a pattern, to the format's scale. -/
theorem isNumber_int {neg : Bool} {c q : Nat} (hc : c < 2 ^ f.w)
    (h : (if f.sgn then signedOf f.w c else (c : Int)) = signInt neg q) : IsNumber (decodeVal f c) (signed neg (q * 2 ^ (-f.bias))) := by
  rw [decodeVal_int hf hc, h]
  have hnum := isNumber_ofPow (decide (signInt neg q < 0)) (signInt neg q).natAbs (-f.bias)
  have habs : (signInt neg q).natAbs = q := by cases neg <;> simp [signInt]
  rw [habs] at hnum ⊢
  rcases Nat.eq_zero_or_pos q with rfl | hq
  · simpa [signed] using hnum
  · have hsign : decide (signInt neg q < 0) = neg := by cases neg <;> simp [signInt, hq]
    rwa [hsign] at hnum ⊢

theorem encodeFin_int (neg : Bool) (q : Nat) (e : Int) : encodeFin f neg q e = wrapN f.w (signInt neg q) := by
  unfold encodeFin
  rw [if_pos hf.int]
  cases neg with
  | true => rfl
  | false =>
    show q % 2 ^ f.w = wrapN f.w q
    rw [wrapN, ← Int.natCast_mod, Int.toNat_natCast]

theorem isNumber_encodeFin_int {neg : Bool} (hneg : (neg && f.sgn) = neg) {q : Nat} (hq : q ≤ f.maxPat) (e : Int) :
    IsNumber (decodeVal f (encodeFin f neg q e)) (signed neg (q * 2 ^ (-f.bias))) := by
  have hpos : 0 < 2 ^ (f.w - 1) := Nat.two_pow_pos _
  have hpos' : 0 < 2 ^ f.w := Nat.two_pow_pos _
  rw [encodeFin_int hf]
  rw [Fmt.maxPat, hf.int, if_pos rfl] at hq
  cases hs : f.sgn with
  | true =>
    rw [hs, if_pos rfl] at hq
    obtain ⟨hlt, hval⟩ := signedOf_wrapN (w := f.w) (by have := hf.width; omega) (x := signInt neg q)
      (by rw [signInt]; split_ifs <;> omega) (by rw [signInt]; split_ifs <;> omega)
    exact isNumber_int hf hlt (by rw [hs]; exact hval)
  | false =>
    have hn : neg = false := by simpa [hs] using hneg.symm
    rw [hs] at hq
    have hq' : q ≤ 2 ^ f.w - 1 := hq
    have hwrap : wrapN f.w (signInt neg q) = q := by
      rw [hn, signInt, wrapN, if_neg Bool.false_ne_true, ← Int.natCast_mod, Int.toNat_natCast, Nat.mod_eq_of_lt (by omega)]
    rw [hwrap]
    exact isNumber_int hf (by omega) (by rw [hs, hn]; rfl)

theorem encodeFin_zero_int (neg : Bool) (e : Int) : encodeFin f neg 0 e = 0 := by
  rw [encodeFin_int hf, signInt, Nat.cast_zero, neg_zero, ite_self]
  simp [wrapN]

theorem maxPat_int (neg : Bool) : maxPat f neg = encodeFin f neg f.maxPat 0 := by
  have hlt : f.maxPat < 2 ^ f.w := by
    have hpos : 0 < 2 ^ f.w := Nat.two_pow_pos _
    have hle : 2 ^ (f.w - 1) ≤ 2 ^ f.w := Nat.pow_le_pow_right two_pos (Nat.sub_le _ _)
    rw [Fmt.maxPat, hf.int, if_pos rfl]
    split_ifs <;> omega
  rw [maxPat, encodeFin, hf.int, if_pos rfl, if_pos rfl, Nat.mod_eq_of_lt hlt]

end

end Sys2Proof.Proofs.FloatEncoding
end

section
open Sys2Proof Sys2Proof.Machine
namespace Sys2Proof.Proofs.RoundedValues
open Rounding FloatFormats FloatPatterns FloatEncoding

/-! ### The formats that instructions round into (R79, R81) -/

theorem floatFmt_of_ieee : ∀ f ∈ ieeeFmts, FloatFmt f := by
  simp only [ieeeFmts, List.forall_mem_cons]
  exact ⟨⟨rfl, rfl, by decide, by decide⟩, ⟨rfl, rfl, by decide, by decide⟩, ⟨rfl, rfl, by decide, by decide⟩,
    ⟨rfl, rfl, by decide, by decide⟩, by simp⟩

theorem formats_of_valid {d : W32} (h : descValid d = true) : FloatFmt (descFmt d) ∨ IntFmt (descFmt d) := by
  unfold descValid at h
  generalize descFmt d = f at h
  cases hk : f.kindInt with
  | true =>
    simp [hk] at h
    exact Or.inr ⟨hk, by tauto, by tauto⟩
  | false =>
    simp [hk] at h
    obtain ⟨-, ⟨⟨heb, hw⟩, hspv⟩, -⟩ := h
    exact Or.inl ⟨hk, hw.symm, heb, fun h1 => hspv.resolve_left fun h => h h1⟩

theorem formats {f : Fmt} (h : RoundFmt f) : FloatFmt f ∨ IntFmt f := by
  rcases h with h | ⟨d, hd, rfl⟩
  · exact Or.inl (floatFmt_of_ieee f h)
  · exact formats_of_valid hd

theorem maxQ_eq_abs {f : Fmt} (h : (decodeVal f f.maxPat).finite) : 0 < f.maxf.2 ∧ f.maxQ = |(decodeVal f f.maxPat).exact| := by
  unfold Fmt.maxQ Fmt.maxf
  generalize decodeVal f f.maxPat = v at h ⊢
  cases v with
  | nan => exact h.elim
  | inf n => exact h.elim
  | fin n p q =>
    refine ⟨Nat.pos_of_ne_zero h, ?_⟩
    show (p : ℚ) / q = |(if n then -1 else 1) * ((p : ℚ) / q)|
    have hpos : (0 : ℚ) ≤ (p : ℚ) / q := by positivity
    cases n <;> simp [abs_of_nonneg hpos]

theorem maxQ_of_isNumber {f : Fmt} {y : ℚ} (hy : 0 ≤ y) (h : IsNumber (decodeVal f f.maxPat) (signed false y)) :
    0 < f.maxf.2 ∧ f.maxQ = y := by
  obtain ⟨hpos, hmax⟩ := maxQ_eq_abs h.1
  refine ⟨hpos, ?_⟩
  rw [hmax, h.2, signed, if_neg Bool.false_ne_true, one_mul, abs_of_nonneg hy]

theorem maxQ_float {f : Fmt} (hf : FloatFmt f) : 0 < f.maxf.2 ∧ f.maxQ = patValue f f.maxPat := by
  refine maxQ_of_isNumber ?_ ?_
  · rw [← patValue_zero f]
    exact (patValue_strictMono f).monotone (Nat.zero_le _)
  · have h := isNumber_maxPat hf (neg := false) (Bool.false_and _)
    rwa [signPat, Bool.false_and, if_neg Bool.false_ne_true, Nat.zero_add] at h

theorem maxQ_int {f : Fmt} (hf : IntFmt f) : 0 < f.maxf.2 ∧ f.maxQ = f.maxPat * 2 ^ (-f.bias) := by
  refine maxQ_of_isNumber (by positivity) ?_
  have h := isNumber_encodeFin_int hf (neg := false) (Bool.false_and _) le_rfl 0
  have hmax : encodeFin f false f.maxPat 0 = f.maxPat := by rw [← maxPat_int hf, maxPat, if_pos hf.int]; rfl
  rwa [hmax] at h

/-! ### What the patterns of a result stand for -/

section
variable {f : Fmt} (hf : FloatFmt f ∨ IntFmt f)
include hf

theorem maxf_den_pos : 0 < f.maxf.2 := hf.elim (fun h => (maxQ_float h).1) fun h => (maxQ_int h).1

theorem zero_pattern (neg : Bool) : encodeFin f neg 0 0 = if neg && f.sgn && !f.kindInt then 2 ^ (f.w - 1) else 0 := by
  rcases hf with hf | hf
  · rw [encodeFin_zero hf.real, hf.real, Bool.not_false, Bool.and_true]
    rfl
  · rw [encodeFin_zero_int hf, hf.int, Bool.not_true, Bool.and_false]
    rfl

variable {neg : Bool} (hneg : (neg && f.sgn) = neg)
include hneg

theorem isNumber_zero_pattern : IsNumber (decodeVal f (encodeFin f neg 0 0)) 0 := by
  rcases hf with hf | hf
  · have h := isNumber_signPat hf hneg (Nat.zero_le f.maxPat)
    rwa [patValue_zero, signed, mul_zero, ite_self, Nat.add_zero, ← encodeFin_zero hf.real neg 0] at h
  · have h := isNumber_encodeFin_int hf hneg (Nat.zero_le f.maxPat) 0
    rwa [Nat.cast_zero, zero_mul, signed, mul_zero] at h

theorem isNumber_max_pattern : IsNumber (decodeVal f (maxPat f neg)) (signed neg f.maxQ) := by
  rcases hf with hf | hf
  · rw [(maxQ_float hf).2, maxPat, hf.real]
    exact isNumber_maxPat hf hneg
  · rw [(maxQ_int hf).2, maxPat_int hf]
    exact isNumber_encodeFin_int hf hneg le_rfl 0

end

/-! ### The grid point of a number (R89) -/

section
variable (f : Fmt) (m : RMode) (neg : Bool) {num den : Nat} (hn : 0 < num) (hd : 0 < den)
include hn hd

/-- On a grid of 2^j steps or fewer below a number's binade, the multiple selected is at most twice as many; on a finer one at least
as many. -/
theorem multiple_bounds (e : Int) (j : Nat) :
    (floorLog2 num den ≤ e + j → (roundGrid m neg num den e).1 ≤ 2 * 2 ^ j) ∧
      (e + j ≤ floorLog2 num den → 2 ^ j ≤ (roundGrid m neg num den e).1) := by
  obtain ⟨hlow, hhigh⟩ := floorLog2_rat hn hd
  have hpow : (0 : ℚ) < 2 ^ e := by positivity
  have hcases := selected_cases m neg (z := (num : ℚ) / den / 2 ^ e)
  rw [roundGrid_fst m neg num hd e]
  refine ⟨fun h => ?_, fun h => ?_⟩
  · have hlt : ⌊(num : ℚ) / den / 2 ^ e⌋₊ < 2 * 2 ^ j := by
      rw [Nat.floor_lt (by positivity), div_lt_iff₀ hpow]
      refine hhigh.trans_le ?_
      rw [← Nat.pow_succ', Nat.cast_pow, Nat.cast_ofNat, ← zpow_natCast, ← zpow_add₀ two_ne_zero]
      exact zpow_le_zpow_right₀ one_le_two (by push_cast; omega)
    omega
  · have hle : 2 ^ j ≤ ⌊(num : ℚ) / den / 2 ^ e⌋₊ := by
      rw [Nat.le_floor_iff (by positivity), le_div_iff₀ hpow]
      refine le_trans ?_ hlow
      rw [Nat.cast_pow, Nat.cast_ofNat, ← zpow_natCast, ← zpow_add₀ two_ne_zero]
      exact zpow_le_zpow_right₀ one_le_two (by omega)
    omega

/-- A grid point of a floating format is the number of a pattern. -/
theorem exists_pattern (hf : FloatFmt f) : ∃ p, patValue f p = gridPoint m neg num den (ulpExp f num den) := by
  have hulp : ulpExp f num den = max (floorLog2 num den) f.emin - f.mb := by
    rw [ulpExp, hf.real, if_neg Bool.false_ne_true, Fmt.prec]
    push_cast
    ring
  obtain ⟨hle, hge⟩ := multiple_bounds m neg hn hd (ulpExp f num den) f.mb
  have hk : ((max (floorLog2 num den) f.emin - f.emin).toNat : Int) = max (floorLog2 num den) f.emin - f.emin := by omega
  obtain ⟨p, hp⟩ := exists_patValue f (q := (roundGrid m neg num den (ulpExp f num den)).1)
    (k := (max (floorLog2 num den) f.emin - f.emin).toNat) (hle (by omega))
    (by by_cases h : f.emin ≤ floorLog2 num den
        · exact Or.inr (hge (by omega))
        · exact Or.inl (by omega))
  refine ⟨p, hp.trans ?_⟩
  rw [gridPoint, hk, add_sub_cancel, ← hulp]

/-- The pattern of a grid point in a format's range; SUB drops a subnormal number. -/
theorem isNumber_grid_pattern (hf : FloatFmt f ∨ IntFmt f) (hneg : (neg && f.sgn) = neg)
    (hpos : (roundGrid m neg num den (ulpExp f num den)).1 ≠ 0) (hmax : gridPoint m neg num den (ulpExp f num den) ≤ f.maxQ) :
    IsNumber (decodeVal f (encodeFin f neg (roundGrid m neg num den (ulpExp f num den)).1 (ulpExp f num den)))
      (if f.kindInt = false ∧ f.sub = true ∧ gridPoint m neg num den (ulpExp f num den) < 2 ^ f.emin then 0
        else signed neg (gridPoint m neg num den (ulpExp f num den))) := by
  rcases hf with hf | hf
  · obtain ⟨p, hp⟩ := exists_pattern f m neg hn hd hf
    rw [encodeFin_eq hf.real neg (Nat.pos_of_ne_zero hpos) hp.symm]
    rw [(maxQ_float hf).2, ← hp, (patValue_strictMono f).le_iff_le] at hmax
    have h := isNumber_signPat hf hneg hmax
    simpa only [← hp, patValue_lt_emin_iff, hf.real, true_and] using h
  · have hulp : ulpExp f num den = -f.bias := if_pos hf.int
    rw [if_neg fun h => Bool.false_ne_true (h.1.symm.trans hf.int), gridPoint, hulp]
    rw [gridPoint, hulp, (maxQ_int hf).2] at hmax
    have hle := le_of_mul_le_mul_right hmax (by positivity)
    exact isNumber_encodeFin_int hf hneg (by exact_mod_cast hle) _

end

/-! ### The cases of rounding, by the numbers (R89, R91, R92) -/

/-- A comparison with a whole multiple of a power. -/
theorem fracLt_scale2_iff {a : Nat × Nat} (ha : 0 < a.2) (q : Nat) (e : Int) :
    (fracLt a (scale2 q 1 e) = true ↔ (a.1 : ℚ) / a.2 < q * 2 ^ e) ∧ (fracLt (scale2 q 1 e) a = true ↔ (q : ℚ) * 2 ^ e < (a.1 : ℚ) / a.2) := by
  have hpos := FloatGrid.scale2_pos (num := q) one_pos e
  have hval := scale2_rat q 1 e
  rw [Nat.cast_one, div_one] at hval
  rw [fracLt_iff ha hpos, fracLt_iff hpos ha, hval]
  exact ⟨Iff.rfl, Iff.rfl⟩

theorem fracLt_emin_iff (f : Fmt) (q : Nat) (e : Int) :
    fracLt (scale2 q 1 e) (scale2 1 1 f.emin) = true ↔ (q : ℚ) * 2 ^ e < 2 ^ f.emin := by
  have hval := scale2_rat 1 1 f.emin
  rw [Nat.cast_one, div_one, one_mul] at hval
  rw [(fracLt_scale2_iff (FloatGrid.scale2_pos one_pos f.emin) q e).2, hval]

section
variable (f : Fmt) (m : RMode) (neg : Bool) {num den : Nat} (hd : 0 < den) (e : Int)

theorem gridPoint_eq_zero_iff : (roundGrid m neg num den e).1 = 0 ↔ gridPoint m neg num den e = 0 := by
  have hpow : (2 : ℚ) ^ e ≠ 0 := by positivity
  rw [gridPoint, mul_eq_zero, or_iff_left hpow, Nat.cast_eq_zero]

include hd

/-- The multiple is exact where the grid point is the number itself. -/
theorem exact_iff (hm : ∀ rb, m = .sr rb → rb < 2 ^ 24) :
    (roundGrid m neg num den e).2 = true ↔ gridPoint m neg num den e = (num : ℚ) / den := by
  have hpow : (2 : ℚ) ^ e ≠ 0 := by positivity
  rw [roundGrid_snd m neg num hd e, gridPoint_eq m neg num hd e, ← eq_div_iff hpow]
  refine ⟨fun h => ?_, fun h => ?_⟩
  · rw [selected_exact m neg hm h]
    exact h.symm
  · conv_rhs => rw [← h, Nat.floor_natCast]
    exact h.symm

/-- The number that R91 calls tiny. -/
theorem isTiny_iff (hn : 0 < num) (hy : gridPoint m neg num den (ulpExp f num den) ≠ 0) :
    isTiny f m neg num den = true ↔ unboundedPoint f m neg num den (floorLog2 num den) < 2 ^ f.emin := by
  have hfine : (roundGrid m neg num den (floorLog2 num den - f.prec + 1)).1 ≠ 0 := by
    have := (multiple_bounds m neg hn hd (floorLog2 num den - f.prec + 1) f.mb).2 (by rw [Fmt.prec]; push_cast; omega)
    have := Nat.two_pow_pos f.mb
    omega
  have hcoarse := mt (gridPoint_eq_zero_iff m neg (ulpExp f num den)).1 hy
  unfold isTiny unboundedPoint
  cases m <;> simp only [Bool.and_eq_true, decide_eq_true_eq, fracLt_emin_iff, gridPoint, ne_eq, hfine, hcoarse, not_false_iff,
    true_and]

end

/-- The numbers that a format's sign allows. -/
theorem allowed_iff (neg sgn : Bool) : (neg && !sgn) = false ↔ (neg && sgn) = neg := by cases neg <;> cases sgn <;> simp

section
variable {f : Fmt} (hf : FloatFmt f ∨ IntFmt f) (m : RMode) (hm : ∀ rb, m = .sr rb → rb < 2 ^ 24) (sat neg : Bool) {num den : Nat}
  (hn : 0 < num) (hd : 0 < den)

theorem roundTo_negative (hneg : (neg && f.sgn) ≠ neg) :
    roundTo f m sat (.fin neg num den) = if num = 0 then (encodeFin f neg 0 0, 0) else (0, fNV) := by
  have hsign : (neg && !f.sgn) = true := (Bool.not_eq_false _).mp (mt (allowed_iff neg f.sgn).1 hneg)
  unfold roundTo
  simp only [hsign, if_true]

/-- The results of rounding a number that the format's sign allows. -/
def RoundedTo (f : Fmt) (m : RMode) (sat neg : Bool) (x y tiny : ℚ) (q : Nat) (e : Int) (r : Nat × BitVec 5) : Prop :=
  if y = 0 then r = (encodeFin f neg 0 0, if f.kindInt then fNX else fNX ||| fUF)
  else if f.maxQ < y then r = (overflowPat f m neg sat, fOF ||| fNX ||| (if f.kindInt || f.maxf.1 ≠ 0 then 0 else fUF))
  else if f.kindInt = false ∧ f.sub = true ∧ y < 2 ^ f.emin then r = (encodeFin f neg 0 0, fNX ||| fUF)
  else r = (encodeFin f neg q e, (if y = x then 0 else fNX) ||| (if f.kindInt = false ∧ y ≠ x ∧ tiny < 2 ^ f.emin then fUF else 0))

include hf hm hn hd in
theorem roundTo_fin (hneg : (neg && f.sgn) = neg) :
    RoundedTo f m sat neg ((num : ℚ) / den) (gridPoint m neg num den (ulpExp f num den))
      (unboundedPoint f m neg num den (floorLog2 num den)) (roundGrid m neg num den (ulpExp f num den)).1 (ulpExp f num den)
      (roundTo f m sat (.fin neg num den)) := by
  have hsign : (neg && !f.sgn) = false := (allowed_iff neg f.sgn).2 hneg
  have hexact := exact_iff (num := num) m neg hd (ulpExp f num den) hm
  have hover : fracLt f.maxf (scale2 (roundGrid m neg num den (ulpExp f num den)).1 1 (ulpExp f num den)) = true ↔
      f.maxQ < gridPoint m neg num den (ulpExp f num den) := (fracLt_scale2_iff (maxf_den_pos hf) _ _).1
  have hlow : fracLt (scale2 (roundGrid m neg num den (ulpExp f num den)).1 1 (ulpExp f num den)) (scale2 1 1 f.emin) = true ↔
      gridPoint m neg num den (ulpExp f num den) < 2 ^ f.emin := fracLt_emin_iff f _ _
  unfold RoundedTo roundTo
  simp only [hn.ne', hsign, if_false, Bool.false_eq_true, gridPoint_eq_zero_iff, hover]
  by_cases hy : gridPoint m neg num den (ulpExp f num den) = 0
  · rw [if_pos hy, if_pos hy]
  rw [if_neg hy, if_neg hy]
  by_cases hbig : f.maxQ < gridPoint m neg num den (ulpExp f num den)
  · rw [if_pos hbig, if_pos hbig]
  rw [if_neg hbig, if_neg hbig]
  have hinexact : (!(roundGrid m neg num den (ulpExp f num den)).2) = decide (gridPoint m neg num den (ulpExp f num den) ≠ num / den) := by
    rw [Bool.eq_iff_iff, decide_eq_true_eq, Bool.not_eq_true', ← Bool.not_eq_true, hexact]
  rw [hinexact]
  cases hk : f.kindInt with
  | true => simp
  | false =>
    simp only [Bool.false_eq_true, if_false, true_and, Bool.and_eq_true, hlow, isTiny_iff f m neg hd hn hy, decide_eq_true_eq]
    by_cases hsub : f.sub = true ∧ gridPoint m neg num den (ulpExp f num den) < 2 ^ f.emin
    · rw [if_pos hsub, if_pos hsub]
    · rw [if_neg hsub, if_neg hsub, ite_not]

end

/-! ### The rule -/

/-- Where overflow delivers an infinity (R89), by the Boolean that says whether the mode does. -/
theorem overflowPat_of {f : Fmt} {m : RMode} {neg sat b : Bool} (hb : overflowsToInf m neg ↔ b = true)
    (h : overflowPat f m neg sat = if b && f.ovf && f.spv = 1 && !sat then infPat f neg else maxPat f neg) :
    (overflowsToInf m neg ∧ f.ovf = true ∧ f.spv = 1 ∧ sat = false → overflowPat f m neg sat = infPat f neg) ∧
      (¬(overflowsToInf m neg ∧ f.ovf = true ∧ f.spv = 1 ∧ sat = false) → overflowPat f m neg sat = maxPat f neg) := by
  have hcond : (b && f.ovf && decide (f.spv = 1) && !sat) = true ↔ overflowsToInf m neg ∧ f.ovf = true ∧ f.spv = 1 ∧ sat = false := by
    simp only [Bool.and_eq_true, decide_eq_true_eq, Bool.not_eq_true', hb, and_assoc]
  rw [h, ← hcond]
  exact ⟨fun hc => if_pos hc, fun hc => if_neg hc⟩

theorem overflowPat_cases (f : Fmt) (m : RMode) (neg sat : Bool) :
    (overflowsToInf m neg ∧ f.ovf = true ∧ f.spv = 1 ∧ sat = false → overflowPat f m neg sat = infPat f neg) ∧
      (¬(overflowsToInf m neg ∧ f.ovf = true ∧ f.spv = 1 ∧ sat = false) → overflowPat f m neg sat = maxPat f neg) := by
  cases m with
  | rne => exact overflowPat_of (b := true) (by simp [overflowsToInf]) rfl
  | rtz => exact overflowPat_of (b := false) (by simp [overflowsToInf]) rfl
  | rup => exact overflowPat_of (b := !neg) (by simp [overflowsToInf]) rfl
  | rdn => exact overflowPat_of (b := neg) (by simp [overflowsToInf]) rfl
  | sr rb => exact overflowPat_of (b := true) (by simp [overflowsToInf]) rfl

section
variable {f : Fmt} (hf : FloatFmt f ∨ IntFmt f)
include hf

theorem float_of_spv (h : f.spv = 1) : FloatFmt f := hf.resolve_right fun hi => by rw [hi.spv] at h; exact absurd h (by decide)

theorem roundTo_inf (m : RMode) (sat neg : Bool) :
    let i := roundTo f m sat (.inf neg)
    if neg && !f.sgn then i = (0, fNV)
    else if f.spv = 1 && !f.kindInt then decodeVal f i.1 = .inf neg ∧ i.2 = 0
    else (decodeVal f i.1).exact = signed neg f.maxQ ∧ i.2 = fNV ||| fNX := by
  simp only [roundTo, Bool.and_comm (!f.kindInt)]
  split_ifs with hsign hspv
  · rfl
  · simp only [Bool.and_eq_true, decide_eq_true_eq] at hspv
    exact ⟨decodeVal_infPat (float_of_spv hf hspv.1) hspv.1 ((allowed_iff neg f.sgn).1 (Bool.eq_false_iff.2 hsign)), rfl⟩
  · exact ⟨(isNumber_max_pattern hf ((allowed_iff neg f.sgn).1 (Bool.eq_false_iff.2 hsign))).2, rfl⟩

variable {m : RMode} {sat neg : Bool} (hneg : (neg && f.sgn) = neg) {x y tiny : ℚ} {q : Nat} {e : Int} {r : Nat × BitVec 5}
  (h : RoundedTo f m sat neg x y tiny q e r)
include hneg h

theorem rounded_zero (hy : y = 0) :
    IsNumber (decodeVal f r.1) 0 ∧ r.2 = (if f.kindInt then fNX else fNX ||| fUF) := by
  rw [RoundedTo, if_pos hy] at h
  rw [h]
  exact ⟨isNumber_zero_pattern hf hneg, rfl⟩

theorem rounded_overflow (hy : y ≠ 0) (hbig : f.maxQ < y) :
    fOF ||| fNX = r.2 &&& ~~~fUF ∧ (f.maxQ ≠ 0 → r.2 = fOF ||| fNX) ∧
      (overflowsToInf m neg ∧ f.ovf = true ∧ f.spv = 1 ∧ sat = false → decodeVal f r.1 = .inf neg) ∧
      (¬(overflowsToInf m neg ∧ f.ovf = true ∧ f.spv = 1 ∧ sat = false) → IsNumber (decodeVal f r.1) (signed neg f.maxQ)) := by
  rw [RoundedTo, if_neg hy, if_pos hbig] at h
  obtain ⟨hinf, hmax⟩ := overflowPat_cases f m neg sat
  rw [h]
  refine ⟨?_, fun hq => ?_, fun ho => ?_, fun ho => ?_⟩
  · show fOF ||| fNX = (fOF ||| fNX ||| _) &&& ~~~fUF
    split_ifs <;> decide
  · have hne : f.maxf.1 ≠ 0 := fun h0 => hq (by rw [Fmt.maxQ, h0, Nat.cast_zero, zero_div])
    rw [if_pos (by simp [hne])]
    rfl
  · rw [hinf ho]
    exact decodeVal_infPat (float_of_spv hf ho.2.2.1) ho.2.2.1 hneg
  · rw [hmax ho]
    exact isNumber_max_pattern hf hneg

theorem rounded_point (hy : y ≠ 0) (hle : y ≤ f.maxQ)
    (hpat : IsNumber (decodeVal f (encodeFin f neg q e))
      (if f.kindInt = false ∧ f.sub = true ∧ y < 2 ^ f.emin then 0 else signed neg y)) :
    (decodeVal f r.1).finite ∧ if f.kindInt = false ∧ f.sub = true ∧ y < 2 ^ f.emin then
        (decodeVal f r.1).exact = 0 ∧ r.2 = fNX ||| fUF
      else (decodeVal f r.1).exact = signed neg y ∧ r.2 = (if y = x then 0 else fNX) |||
        (if f.kindInt = false ∧ y ≠ x ∧ tiny < 2 ^ f.emin then fUF else 0) := by
  rw [RoundedTo, if_neg hy, if_neg (not_lt.2 hle)] at h
  split_ifs at h hpat ⊢ with hsub
  all_goals rw [h]
  · obtain ⟨hfin, hval⟩ := isNumber_zero_pattern hf hneg
    exact ⟨hfin, hval, rfl⟩
  all_goals exact ⟨hpat.1, hpat.2, rfl⟩

end

theorem roundedValuesRule : RoundedValuesRule := by
  intro f hround m hm sat neg num den hd r i e x y v sg
  have hf := formats hround
  refine ⟨fun h0 => ?_, roundTo_inf hf m sat neg, fun hn hneg hsgn => ?_, fun hn hsign => ?_⟩
  · rw [← zero_pattern hf neg]
    exact if_pos h0
  · refine (roundTo_negative m sat neg (by rw [hneg, hsgn]; decide)).trans (if_neg hn.ne')
  · have hneg : (neg && f.sgn) = neg := by rcases hsign with h | h <;> simp [h]
    obtain ⟨hlow, hhigh⟩ := floorLog2_rat hn hd
    have hr := roundTo_fin hf m hm sat neg hn hd hneg
    refine ⟨floorLog2 num den, hlow, hhigh, rfl, fun hy => ?_, rounded_overflow hf hneg hr, fun hy hle => ?_⟩
    · obtain ⟨⟨hfin, hval⟩, hflags⟩ := rounded_zero hf hneg hr hy
      exact ⟨hfin, hval, hflags⟩
    · exact rounded_point hf hneg hr hy hle
        (isNumber_grid_pattern f m neg hn hd hf hneg (mt (gridPoint_eq_zero_iff m neg _).1 hy) hle)

end Sys2Proof.Proofs.RoundedValues
end

section
open Sys2Proof Sys2Proof.Machine
namespace Sys2Proof.Proofs.ExactOperations
open Rounding FloatFormats Approximations

/-! ### Signed fractions -/

/-- The number of a sign and a fraction, whose numerator is an integer. -/
theorem exact_fin_rat (n : Bool) (p q : Nat) : (Val.fin n p q).exact = (signInt n p : ℚ) / q := by
  show (if n then (-1 : ℚ) else 1) * ((p : ℚ) / q) = _
  cases n <;> simp [signInt, neg_div]

theorem exact_of_signed (x : Int) (d : Nat) : (Val.fin (decide (x < 0)) x.natAbs d).exact = (x : ℚ) / d := by
  rw [exact_fin_rat]
  congr 2
  rw [signInt]
  split_ifs with h <;> simp only [decide_eq_true_eq] at h <;> omega

theorem signInt_mul (n : Bool) (p k : Nat) : signInt n (p * k) = signInt n p * k := by
  cases n <;> simp [signInt]

theorem signInt_xor (n k : Bool) (p r : Nat) : signInt (n != k) (p * r) = signInt n p * signInt k r := by
  cases n <;> cases k <;> simp [signInt]

theorem signInt_eq_zero (n : Bool) (p : Nat) : signInt n p = 0 ↔ p = 0 := by
  cases n <;> simp [signInt]

/-! ### The operations on finite numbers (R106, R110) -/

section
variable (m : RMode) (a c : Bool) (p r : Nat) {q s : Nat} (hq : q ≠ 0) (hs : s ≠ 0)
include hq hs

/-- The numerator of a sum over the product of the denominators. -/
theorem sum_numerator : ((signInt a (p * s) + signInt c (r * q) : Int) : ℚ) / (q * s : Nat) =
    (Val.fin a p q).exact + (Val.fin c r s).exact := by
  have hq' : (q : ℚ) ≠ 0 := by exact_mod_cast hq
  have hs' : (s : ℚ) ≠ 0 := by exact_mod_cast hs
  rw [exact_fin_rat, exact_fin_rat, signInt_mul, signInt_mul, div_add_div _ _ hq' hs']
  push_cast
  ring

theorem sum_eq_zero_iff : signInt a (p * s) + signInt c (r * q) = 0 ↔ (Val.fin a p q).exact + (Val.fin c r s).exact = 0 := by
  have hden : ((q * s : Nat) : ℚ) ≠ 0 := by exact_mod_cast Nat.mul_ne_zero hq hs
  rw [← sum_numerator a c p r hq hs, div_eq_zero_iff, or_iff_left hden, Int.cast_eq_zero]

theorem addFin_exact : IsNumber (addFin m a p q c r s) ((Val.fin a p q).exact + (Val.fin c r s).exact) := by
  unfold addFin
  by_cases h0 : signInt a (p * s) + signInt c (r * q) = 0
  · rw [if_pos h0, (sum_eq_zero_iff a c p r hq hs).1 h0]
    exact isNumber_zero _
  · rw [if_neg h0]
    exact ⟨Nat.mul_ne_zero hq hs, (exact_of_signed ..).trans (sum_numerator a c p r hq hs)⟩

/-- The sign of an exact zero. -/
theorem addFin_zero (h : (Val.fin a p q).exact + (Val.fin c r s).exact = 0) :
    addFin m a p q c r s = .fin (if (Val.fin a p q).exact = 0 ∧ a = c then a else decide (m = .rdn)) 0 1 := by
  have hp := exact_fin_zero (neg := a) (p := p) (Nat.pos_of_ne_zero hq)
  have hr := exact_fin_zero (neg := c) (p := r) (Nat.pos_of_ne_zero hs)
  have hzero : (p = 0 ∧ r = 0) ↔ (Val.fin a p q).exact = 0 := by
    rw [← hp, ← hr, and_iff_left_iff_imp]
    intro h0
    rwa [h0, zero_add] at h
  unfold addFin
  rw [if_pos ((sum_eq_zero_iff a c p r hq hs).2 h)]
  simp only [← hzero, Bool.and_eq_true, decide_eq_true_eq, beq_iff_eq]
  rfl

omit hq hs in
theorem product_exact : (Val.fin (a != c) (p * r) (q * s)).exact = (Val.fin a p q).exact * (Val.fin c r s).exact := by
  rw [exact_fin_rat, exact_fin_rat, exact_fin_rat, signInt_xor, div_mul_div_comm]
  push_cast
  rfl

omit hq in
theorem quotient_exact (hr : r ≠ 0) :
    (Val.fin (a != c) (p * s) (q * r)).exact = (Val.fin a p q).exact / (Val.fin c r s).exact := by
  have hs' : (s : ℚ) ≠ 0 := by exact_mod_cast hs
  have hr' : (r : ℚ) ≠ 0 := by exact_mod_cast hr
  rw [exact_fin_rat, exact_fin_rat, exact_fin_rat, div_div_div_eq]
  cases a <;> cases c <;> simp [signInt]
  ring

omit hq in
theorem divVal_fin (h : (Val.fin c r s).exact ≠ 0) :
    divVal (.fin a p q) (.fin c r s) = some (.fin (a != c) (p * s) (q * r), false) ∧ r ≠ 0 := by
  have hr : r ≠ 0 := mt (exact_fin_zero (Nat.pos_of_ne_zero hs)).2 h
  exact ⟨if_neg hr, hr⟩

end

/-- A finite value is a sign and a fraction. -/
theorem fin_of_finite {x : Val} (h : x.finite) : ∃ n p q, x = .fin n p q ∧ q ≠ 0 := by
  obtain ⟨n, p, q, rfl⟩ := exists_fin h
  exact ⟨n, p, q, rfl, h⟩

theorem exact_negVal {x : Val} (h : x.finite) : (negVal x).finite ∧ (negVal x).exact = -x.exact ∧ isNeg (negVal x) = !isNeg x := by
  obtain ⟨n, p, q, rfl, hq⟩ := fin_of_finite h
  refine ⟨hq, ?_, rfl⟩
  show (Val.fin (!n) p q).exact = _
  rw [exact_fin_rat, exact_fin_rat]
  cases n <;> simp [signInt, neg_div]

theorem addVal_exact (m : RMode) {x y : Val} (hx : x.finite) (hy : y.finite) :
    ∃ v, addVal m x y = some v ∧ v.finite ∧ v.exact = x.exact + y.exact := by
  obtain ⟨a, p, q, rfl, hq⟩ := fin_of_finite hx
  obtain ⟨c, r, s, rfl, hs⟩ := fin_of_finite hy
  exact ⟨_, rfl, addFin_exact m a c p r hq hs⟩

theorem decodeVal_fields_exact {f : Fmt} (hf : f ∈ ieeeFmts) (sg : Bool) {e k : Nat} (he : e < 2 ^ f.eb - 1) (hk : k < 2 ^ f.mb) :
    IsNumber (decodeVal f ((if sg then 2 ^ (f.w - 1) else 0) + e * 2 ^ f.mb + k))
      (signed sg (if e = 0 then (k : ℚ) * 2 ^ (1 - f.bias - f.mb) else ((2 : ℚ) ^ f.mb + k) * 2 ^ ((e : ℤ) - f.bias - f.mb))) := by
  have hdec := FloatGrid.decodeVal_fieldsPat (FloatGrid.ieee_of_mem f hf) sg (by omega) hk he.ne
  rw [FloatGrid.fieldsPat] at hdec
  rw [hdec]
  split_ifs
  · exact isNumber_ofPow ..
  · have h := isNumber_ofPow sg (2 ^ f.mb + k) (e - f.bias - f.mb)
    push_cast at h
    exact h

theorem floatingExactRule : FloatingExactRule := by
  refine ⟨fun m x y hx hy => ⟨addVal_exact m hx hy, ?_, ?_, fun hne => ?_⟩, fun f hf sg e k he hk => ?_⟩
  · obtain ⟨hfin, hval, -⟩ := exact_negVal hy
    rw [sub_eq_add_neg, ← hval]
    exact addVal_exact m hx hfin
  · obtain ⟨a, p, q, rfl, hq⟩ := fin_of_finite hx
    obtain ⟨c, r, s, rfl, hs⟩ := fin_of_finite hy
    exact ⟨_, rfl, Nat.mul_ne_zero hq hs, product_exact a c p r⟩
  · obtain ⟨a, p, q, rfl, hq⟩ := fin_of_finite hx
    obtain ⟨c, r, s, rfl, hs⟩ := fin_of_finite hy
    obtain ⟨hdiv, hr⟩ := divVal_fin a c p r hs hne
    exact ⟨_, hdiv, Nat.mul_ne_zero hq hr, quotient_exact a c p r hs hr⟩
  · exact decodeVal_fields_exact hf sg he hk

theorem floatingSignsRule : FloatingSignsRule := by
  intro x y hx hy
  obtain ⟨a, p, q, rfl, hq⟩ := fin_of_finite hx
  obtain ⟨c, r, s, rfl, hs⟩ := fin_of_finite hy
  have hxor : (a != c) = (a ^^ c) := congrFun₂ Bool.bne_eq_xor a c
  refine ⟨fun hzero m _ => ⟨1, one_ne_zero, congrArg some (addFin_zero m a c p r hq hs hzero)⟩, (exact_negVal hx).2.2,
    ⟨_, rfl, hxor⟩, fun hne => ⟨_, (divVal_fin a c p r hs hne).1, hxor⟩⟩

end Sys2Proof.Proofs.ExactOperations
end

section
open Sys2Proof Sys2Proof.Machine
namespace Sys2Proof.Proofs.FloatNans
open Rounding FloatFormats FloatPatterns FloatGrid Approximations ExactOperations

/-! ### Operands of the formats of R79 -/

section
variable {f : Fmt} {a : Nat}

theorem isNan_iff : isNan f a = true ↔ decodeVal f a = .nan := beq_iff_eq

theorem isNan_of_eq {v : Val} (h : decodeVal f a = v) (hv : v ≠ .nan) : isNan f a = false := by
  rw [isNan, h]
  exact beq_false_of_ne hv

theorem isSnan_of_not_nan (h : isNan f a = false) : isSnan f a = false := by rw [isSnan, h, Bool.false_and]

/-- Operands of a format of R79: a NaN, an infinity, or a number. -/
theorem decodeVal_kinds (hf : Ieee f) (a : Nat) :
    decodeVal f a = .nan ∨ (∃ n, decodeVal f a = .inf n) ∨ ∃ n p q, decodeVal f a = .fin n p q ∧ q ≠ 0 := by
  cases h : decodeVal f a with
  | nan => exact Or.inl rfl
  | inf n => exact Or.inr (Or.inl ⟨n, rfl⟩)
  | fin n p q => exact Or.inr (Or.inr ⟨n, p, q, rfl, (den_pos hf h).ne'⟩)

/-- The sign of an operand is its upper bit. -/
theorem isNeg_decodeVal (hf : Ieee f) (h : isNan f a = false) : isNeg (decodeVal f a) = a.testBit (f.w - 1) := by
  have hw : f.w - 1 < f.w := by rw [hf.width]; omega
  have hbit : (a % 2 ^ f.w).testBit (f.w - 1) = a.testBit (f.w - 1) := by
    rw [Nat.testBit_mod_two_pow, decide_eq_true hw, Bool.true_and]
  have hnan : decodeVal f a ≠ .nan := fun hn => by rw [isNan_iff.2 hn] at h; exact absurd h (by decide)
  revert hnan
  unfold decodeVal
  simp only [hf.real, hf.signed, hf.special, hf.subnormal, hbit, Bool.true_and, Bool.false_eq_true, if_false]
  split_ifs <;> intro hnan
  · rfl
  · exact absurd rfl hnan
  · exact absurd rfl hnan
  · rfl
  · rfl

theorem decodeVal_zero (hf : Ieee f) : ∃ z, decodeVal f 0 = .fin false 0 z := by
  have htop : 0 ≠ 2 ^ f.eb - 1 := by
    have hb := hf.bias.1
    have : ((2 ^ f.eb : Nat) : Int) = 2 * f.bias + 2 := by rw [← hf.top]; push_cast; rfl
    omega
  have h := decodeVal_fieldsPat hf false (Nat.two_pow_pos f.eb) (Nat.two_pow_pos f.mb) htop
  have hzero (e : Int) : (scale2 0 1 e).1 = 0 := by unfold scale2; split_ifs <;> simp
  rw [fieldsPat, if_neg Bool.false_ne_true, if_pos rfl, Nat.zero_mul] at h
  exact ⟨_, h.trans (by rw [Val.ofPow, hzero])⟩

end

/-! ### The first NaN of the operands (R93) -/

section
variable {f : Fmt}

theorem nanResult_of_numbers {ops : List Nat} (h : ∀ a ∈ ops, isNan f a = false) : nanResult f ops = none := by
  have hfind : ops.find? (isNan f) = none := List.find?_eq_none.2 fun a ha => by rw [h a ha]; decide
  rw [nanResult, hfind]

theorem nanResult_of_first (pre : List Nat) {a : Nat} (post : List Nat) (hpre : ∀ b ∈ pre, isNan f b = false) (ha : isNan f a = true)
    (hlt : a < 2 ^ f.w) : nanResult f (pre ++ a :: post) =
      some (a ||| 2 ^ (f.mb - 1), if (pre ++ a :: post).any (isSnan f) then fNV else 0) := by
  have hfind : (pre ++ a :: post).find? (isNan f) = some a := by
    rw [List.find?_append, List.find?_eq_none.2 fun b hb => by rw [hpre b hb]; decide, Option.none_or, List.find?_cons_of_pos ha]
  rw [nanResult, hfind]
  exact congrArg some (Prod.ext (quiet_eq_or hlt) rfl)

variable (m : RMode) (a b : Nat)

/-- The four operations give what their operands' NaNs give. -/
theorem binary_of_nan {r : Nat × BitVec 5} (h : nanResult f [a, b] = some r) :
    ∀ op ∈ [fpAdd, fpSub, fpMul, fpDiv], op f m a b = r := by
  simp only [List.forall_mem_cons]
  exact ⟨by rw [fpAdd, h]; rfl, by rw [fpSub, h]; rfl, by rw [fpMul, h]; rfl, by rw [fpDiv, h]; rfl, by simp⟩

/-- On operands that are no NaN they round their exact result, or make a NaN. -/
theorem binary_of_numbers (ha : isNan f a = false) (hb : isNan f b = false) :
    fpAdd f m a b = finish f m (addVal m (decodeVal f a) (decodeVal f b)) ∧
    fpSub f m a b = finish f m (addVal m (decodeVal f a) (negVal (decodeVal f b))) ∧
    fpMul f m a b = finish f m (mulVal (decodeVal f a) (decodeVal f b)) ∧
    (divVal (decodeVal f a) (decodeVal f b) = none → fpDiv f m a b = (qnan f, fNV)) ∧
    ∀ v dz, divVal (decodeVal f a) (decodeVal f b) = some (v, dz) →
      fpDiv f m a b = ((roundTo f m false v).1, (roundTo f m false v).2 ||| (if dz then fDZ else 0)) := by
  have h : nanResult f [a, b] = none := nanResult_of_numbers (by simp [ha, hb])
  refine ⟨by rw [fpAdd, h]; rfl, by rw [fpSub, h]; rfl, by rw [fpMul, h]; rfl, fun hd => ?_, fun v dz hd => ?_⟩
  · rw [fpDiv, h, hd]
    rfl
  · rw [fpDiv, h, hd]
    rfl

end

section
variable {f : Fmt} (hf : f ∈ ieeeFmts)
include hf

theorem decodeVal_infinity (neg : Bool) : decodeVal f (infPat f neg) = .inf neg :=
  decodeVal_infPat (RoundedValues.floatFmt_of_ieee f hf) (ieee_of_mem f hf).special (by rw [(ieee_of_mem f hf).signed, Bool.and_true])

theorem isNan_infinity (neg : Bool) : isNan f (infPat f neg) = false := isNan_of_eq (decodeVal_infinity hf neg) Val.noConfusion

/-- What has no value gives the canonical NaN, and NV. -/
theorem invalid_operations (m : RMode) :
    fpSub f m (infPat f false) (infPat f false) = (qnan f, fNV) ∧ fpAdd f m (infPat f false) (infPat f true) = (qnan f, fNV) ∧
      fpMul f m 0 (infPat f false) = (qnan f, fNV) ∧ fpDiv f m 0 0 = (qnan f, fNV) ∧
      fpDiv f m (infPat f false) (infPat f true) = (qnan f, fNV) := by
  obtain ⟨z, hz⟩ := decodeVal_zero (ieee_of_mem f hf)
  have hzero : isNan f 0 = false := isNan_of_eq hz Val.noConfusion
  have hplus := isNan_infinity hf false
  have hminus := isNan_infinity hf true
  obtain ⟨-, hsub, -⟩ := binary_of_numbers m _ _ hplus hplus
  obtain ⟨hadd, -, -, hdiv, -⟩ := binary_of_numbers m _ _ hplus hminus
  obtain ⟨-, -, hmul, -⟩ := binary_of_numbers m _ _ hzero hplus
  obtain ⟨-, -, -, hdiv0, -⟩ := binary_of_numbers m _ _ hzero hzero
  simp only [decodeVal_infinity hf, hz] at hsub hadd hmul hdiv hdiv0
  exact ⟨hsub, hadd, hmul, hdiv0 rfl, hdiv rfl⟩

end

theorem fpSqrt_invalid {f : Fmt} (m : RMode) {a : Nat} (h : (∃ n d, decodeVal f a = .fin true n d ∧ n ≠ 0) ∨ decodeVal f a = .inf true) :
    fpSqrt f m a = (qnan f, fNV) := by
  rcases h with ⟨n, d, h, hn⟩ | h
  · rw [fpSqrt, nanResult_of_ne (by rw [h]; exact Val.noConfusion), h]
    exact (if_neg hn).trans (if_pos rfl)
  · rw [fpSqrt, nanResult_of_ne (by rw [h]; exact Val.noConfusion), h]
    rfl

theorem nanOperandsRule : NanOperandsRule := by
  intro f hf m a b ha hb nv
  have hnv : ([a, b] : List Nat).any (isSnan f) = (isSnan f a || isSnan f b) := by simp
  obtain ⟨h1, h2, h3, h4, h5⟩ := invalid_operations hf m
  refine ⟨fun op hop => ⟨fun hna => ?_, fun hna hnb => ?_⟩, fun less => ⟨fun hna hnb => ?_, fun hna hnb => ?_, fun hna hnb => ?_⟩,
    h1, h2, h3, h4, h5, fun _ h => fpSqrt_invalid m h⟩
  · have h := nanResult_of_first [] [b] (by simp) hna ha
    simp only [List.nil_append, hnv] at h
    exact binary_of_nan m a b h op hop
  · have h := nanResult_of_first [a] [] (by simp [hna]) hnb hb
    simp only [List.singleton_append, hnv] at h
    exact binary_of_nan m a b h op hop
  · rw [fpMinMax, hna, hnb, Nat.mod_eq_of_lt ha]
    rfl
  · rw [fpMinMax, hna, hnb, Nat.mod_eq_of_lt hb]
    rfl
  · rw [fpMinMax, hna, hnb, quiet_eq_or ha]
    rfl

/-! ### FMA with a NaN (R93, R110) -/

/-- Zero times an infinity. -/
def ZeroTimesInf (x y : Val) : Prop :=
  ((x.finite ∧ x.exact = 0) ∧ ∃ n, y = .inf n) ∨ ((y.finite ∧ y.exact = 0) ∧ ∃ n, x = .inf n)

theorem mulVal_eq_none_iff {f : Fmt} (hf : Ieee f) (a b : Nat) :
    mulVal (decodeVal f a) (decodeVal f b) = none ↔ ZeroTimesInf (decodeVal f a) (decodeVal f b) := by
  unfold ZeroTimesInf
  rcases decodeVal_kinds hf a with hx | ⟨n, hx⟩ | ⟨n, p, q, hx, hq⟩ <;>
    rcases decodeVal_kinds hf b with hy | ⟨k, hy⟩ | ⟨k, r, s, hy, hs⟩ <;> rw [hx, hy]
  case inr.inl.inr.inr => simp [mulVal, exact_fin_zero (Nat.pos_of_ne_zero hs), hs, Val.finite]
  case inr.inr.inr.inl => simp [mulVal, exact_fin_zero (Nat.pos_of_ne_zero hq), hq, Val.finite]
  all_goals simp [mulVal, Val.finite]

theorem fusedNansRule : FusedNansRule := by
  intro f hf m neg a b c ha hb hc x y q zero void nv
  have hvoid : mulVal x y = none ↔ void := mulVal_eq_none_iff (ieee_of_mem f hf) a b
  have hnv : ([a, b, c] : List Nat).any (isSnan f) = (isSnan f a || isSnan f b || isSnan f c) := by simp [Bool.or_assoc]
  refine ⟨fun hv => ?_, fun hv => ?_⟩
  · have hmul : mulVal (decodeVal f a) (decodeVal f b) = none := hvoid.2 hv
    rw [fpFma, hmul, quiet_eq_or hc]
  · obtain ⟨p, hp⟩ := Option.ne_none_iff_exists'.1 (mt hvoid.1 hv)
    have hp' : mulVal (decodeVal f a) (decodeVal f b) = some p := hp
    have hfma {r : Nat × BitVec 5} (h : nanResult f [a, b, c] = some r) : fpFma f m neg a b c = r := by
      rw [fpFma, hp', h]
      rfl
    refine ⟨fun hna => hfma ?_, fun hna hnb => hfma ?_, fun hna hnb hnc => hfma ?_⟩
    · have h := nanResult_of_first [] [b, c] (by simp) hna ha
      simpa only [List.nil_append, hnv] using h
    · have h := nanResult_of_first [a] [c] (by simp [hna]) hnb hb
      simpa only [List.singleton_append, hnv] using h
    · have h := nanResult_of_first [a, b] [] (by simp [hna, hnb]) hnc hc
      simpa only [List.cons_append, List.nil_append, hnv] using h

end Sys2Proof.Proofs.FloatNans
end

section
open Sys2Proof Sys2Proof.Machine
namespace Sys2Proof.Proofs.FloatOrder
open FloatNans FloatGrid ExactOperations

/-! ### The order of values (R107, R108, R146) -/

theorem extended_inf (n : Bool) : (Val.inf n).extended = if n then ⊥ else ⊤ := rfl
theorem extended_fin (n : Bool) (p q : Nat) : (Val.fin n p q).extended = (((Val.fin n p q).exact : ℝ) : EReal) := rfl

/-- The order of two fractions, from their cross products. -/
theorem valLt_fin (n k : Bool) (p r : Nat) {q s : Nat} (hq : q ≠ 0) (hs : s ≠ 0) :
    valLt (.fin n p q) (.fin k r s) = true ↔ (Val.fin n p q).exact < (Val.fin k r s).exact := by
  have hq' : (0 : ℚ) < q := by exact_mod_cast Nat.pos_of_ne_zero hq
  have hs' : (0 : ℚ) < s := by exact_mod_cast Nat.pos_of_ne_zero hs
  rw [exact_fin_rat, exact_fin_rat, div_lt_div_iff₀ hq' hs']
  refine decide_eq_true_iff.trans ?_
  rw [signInt_mul, signInt_mul]
  exact_mod_cast Iff.rfl

section
variable {x y : Val} (hx : ∀ n p q, x = .fin n p q → q ≠ 0) (hy : ∀ n p q, y = .fin n p q → q ≠ 0)
include hx hy

theorem valLt_iff (hxn : x ≠ .nan) (hyn : y ≠ .nan) : valLt x y = true ↔ x.extended < y.extended := by
  match x, y with
  | .nan, _ => exact absurd rfl hxn
  | .inf _, .nan => exact absurd rfl hyn
  | .fin .., .nan => exact absurd rfl hyn
  | .inf n, .inf k => cases n <;> cases k <;> simp [extended_inf, valLt]
  | .inf n, .fin .. => cases n <;> simp [extended_inf, extended_fin, valLt, EReal.bot_lt_coe]
  | .fin .., .inf k => cases k <;> simp [extended_inf, extended_fin, valLt, EReal.coe_lt_top]
  | .fin n p q, .fin k r s =>
    rw [valLt_fin n k p r (hx n p q rfl) (hy k r s rfl), extended_fin, extended_fin, EReal.coe_lt_coe_iff, Rat.cast_lt]

theorem valEq_iff (hxn : x ≠ .nan) (hyn : y ≠ .nan) : valEq x y = true ↔ x.extended = y.extended := by
  have heq : valEq x y = (!valLt x y && !valLt y x) := by
    match x, y with
    | .nan, _ => exact absurd rfl hxn
    | .inf _, .nan => exact absurd rfl hyn
    | .fin .., .nan => exact absurd rfl hyn
    | .inf .., .inf .. => rfl
    | .inf .., .fin .. => rfl
    | .fin .., .inf .. => rfl
    | .fin .., .fin .. => rfl
  rw [heq, Bool.and_eq_true, Bool.not_eq_true', Bool.not_eq_true', ← Bool.not_eq_true, ← Bool.not_eq_true,
    valLt_iff hx hy hxn hyn, valLt_iff hy hx hyn hxn, not_lt, not_lt]
  exact ⟨fun h => le_antisymm h.2 h.1, fun h => ⟨h.ge, h.le⟩⟩

end

theorem valLt_nan (x : Val) : valLt .nan x = false ∧ valLt x .nan = false ∧ valEq .nan x = false ∧ valEq x .nan = false := by
  cases x <;> exact ⟨rfl, rfl, rfl, rfl⟩

theorem valLt_iff_extended {x y : Val} (hx : ∀ n p q, x = .fin n p q → q ≠ 0) (hy : ∀ n p q, y = .fin n p q → q ≠ 0) :
    (valLt x y = true ↔ x ≠ .nan ∧ y ≠ .nan ∧ x.extended < y.extended) ∧
      (valEq x y = true ↔ x ≠ .nan ∧ y ≠ .nan ∧ x.extended = y.extended) := by
  by_cases hxn : x = .nan
  · obtain ⟨hlt, -, heq, -⟩ := valLt_nan y
    simp [hxn, hlt, heq]
  by_cases hyn : y = .nan
  · obtain ⟨-, hlt, -, heq⟩ := valLt_nan x
    simp [hyn, hlt, heq]
  rw [valLt_iff hx hy hxn hyn, valEq_iff hx hy hxn hyn]
  simp [hxn, hyn]

/-! ### FMIN and FMAX (R107) -/

section
variable {f : Fmt} (hf : Ieee f) {a b : Nat}
include hf

theorem decodeVal_den (a : Nat) : ∀ n p q, decodeVal f a = .fin n p q → q ≠ 0 :=
  fun _ _ _ h => (Approximations.den_pos hf h).ne'

omit hf in
theorem ne_nan (h : isNan f a = false) : decodeVal f a ≠ .nan := fun hn => by
  rw [isNan_iff.2 hn] at h
  exact absurd h (by decide)

omit hf in
/-- FMIN and FMAX of two numbers, by whether the first is the lesser. -/
theorem fpMinMax_of_numbers (ha : a < 2 ^ f.w) (hb : b < 2 ^ f.w) (hna : isNan f a = false) (hnb : isNan f b = false) (less : Bool) :
    fpMinMax f less a b = (if (valLt (decodeVal f a) (decodeVal f b) ||
      (valEq (decodeVal f a) (decodeVal f b) && isNeg (decodeVal f a))) == less then a else b, 0) := by
  rw [fpMinMax, hna, hnb, isSnan_of_not_nan hna, isSnan_of_not_nan hnb, Nat.mod_eq_of_lt ha, Nat.mod_eq_of_lt hb]
  rfl

theorem fpMinMax_spec (ha : a < 2 ^ f.w) (hb : b < 2 ^ f.w) (hna : isNan f a = false) (hnb : isNan f b = false) :
    ((decodeVal f a).extended < (decodeVal f b).extended → fpMinMax f true a b = (a, 0) ∧ fpMinMax f false a b = (b, 0)) ∧
    ((decodeVal f b).extended < (decodeVal f a).extended → fpMinMax f true a b = (b, 0) ∧ fpMinMax f false a b = (a, 0)) ∧
    ((decodeVal f a).extended = (decodeVal f b).extended → fpMinMax f true a b = (if a.testBit (f.w - 1) then a else b, 0) ∧
      fpMinMax f false a b = (if a.testBit (f.w - 1) then b else a, 0)) := by
  have hlt := valLt_iff (decodeVal_den hf a) (decodeVal_den hf b) (ne_nan hna) (ne_nan hnb)
  have heq := valEq_iff (decodeVal_den hf a) (decodeVal_den hf b) (ne_nan hna) (ne_nan hnb)
  have hmm := fpMinMax_of_numbers ha hb hna hnb
  rw [isNeg_decodeVal hf hna] at hmm
  refine ⟨fun h => ?_, fun h => ?_, fun h => ?_⟩
  · rw [hmm, hmm, hlt.2 h]
    exact ⟨rfl, rfl⟩
  · rw [hmm, hmm, Bool.eq_false_iff.2 (mt hlt.1 h.not_gt), Bool.eq_false_iff.2 (mt heq.1 h.ne')]
    exact ⟨rfl, rfl⟩
  · rw [hmm, hmm, Bool.eq_false_iff.2 (mt hlt.1 h.not_lt), heq.2 h]
    cases a.testBit (f.w - 1) <;> exact ⟨rfl, rfl⟩

end

theorem floatingOrderRule : FloatingOrderRule := by
  refine ⟨fun x y hx hy => valLt_iff_extended hx hy, ?_⟩
  intro f hf a b ha hb x y minus
  refine ⟨fun hna hnb => ?_, fun any rel => ?_⟩
  · exact fpMinMax_spec (ieee_of_mem f hf) ha hb hna hnb
  · have hsub (c : Nat) : isSnan f c = true → isNan f c = true := fun h => (Bool.and_eq_true _ _ ▸ h : _ ∧ _).1
    have hbad : (if any then isNan f a || isNan f b else isSnan f a || isSnan f b) =
        (isSnan f a || isSnan f b || (any && (isNan f a || isNan f b))) := by
      have hsa := hsub a
      have hsb := hsub b
      cases any with
      | false => simp
      | true =>
        revert hsa hsb
        cases isSnan f a <;> cases isSnan f b <;> simp +contextual
    rw [fpCmp, hbad]

end Sys2Proof.Proofs.FloatOrder
end

section
open Sys2Proof Sys2Proof.Machine
namespace Sys2Proof.Proofs.FloatOperations
open Rounding FloatFormats FloatPatterns FloatEncoding RoundedValues FloatNans FloatGrid Roots Approximations ExactOperations

/-! ### The formats of R79 -/

theorem maxQ_ieee {f : Fmt} (hf : f ∈ ieeeFmts) : f.maxQ = (2 - 2 ^ (-(f.mb : ℤ))) * 2 ^ f.bias := by
  have hi := ieee_of_mem f hf
  have hff := floatFmt_of_ieee f hf
  have htop : ((2 ^ f.eb : Nat) : Int) = 2 * f.bias + 2 := by rw [← hi.top]; push_cast; rfl
  have hb := hi.bias.1
  have hpos := Nat.two_pow_pos f.mb
  have hpat : f.maxPat = (2 ^ f.eb - 2) * 2 ^ f.mb + (2 ^ f.mb - 1) := by
    have hsplit : (2 ^ f.eb - 1) * 2 ^ f.mb = (2 ^ f.eb - 2) * 2 ^ f.mb + 2 ^ f.mb := by
      rw [← Nat.succ_mul]
      congr 1
      omega
    have hmax : f.maxPat = (2 ^ f.eb - 1) * 2 ^ f.mb - 1 := by rw [Fmt.maxPat, hi.real, hi.special]; rfl
    omega
  have hexp : ((2 ^ f.eb - 2 : Nat) : Int) - f.bias - f.mb = f.bias + -f.mb := by omega
  have hman : ((2 ^ f.mb + (2 ^ f.mb - 1) : Nat) : ℚ) = 2 * 2 ^ (f.mb : ℤ) - 1 := by
    rw [Nat.cast_add, Nat.cast_sub hpos, zpow_natCast]
    push_cast
    ring
  rw [(maxQ_float hff).2, hpat, patValue_fields f _ (by omega), if_neg (by omega), hexp, hman, zpow_add₀ two_ne_zero, sub_mul, sub_mul,
    mul_comm ((2 : ℚ) ^ f.bias), ← mul_assoc, mul_assoc 2, ← zpow_add₀ two_ne_zero, add_neg_cancel, zpow_zero, mul_one, one_mul]

theorem ieee_fields : ∀ f ∈ ieeeFmts, f.ovf = true ∧ f.spv = 1 ∧ f.sgn = true ∧ f.sub = false ∧ f.kindInt = false := by
  simp only [ieeeFmts, List.forall_mem_cons]
  exact ⟨⟨rfl, rfl, rfl, rfl, rfl⟩, ⟨rfl, rfl, rfl, rfl, rfl⟩, ⟨rfl, rfl, rfl, rfl, rfl⟩, ⟨rfl, rfl, rfl, rfl, rfl⟩, by simp⟩

/-! ### Exact results, rounded once (R106, R110) -/

/-- A result is rounded once; none is an invalid operation. -/
def Done (f : Fmt) (m : RMode) (o : Option Val) (r : Nat × BitVec 5) : Prop :=
  (∀ v, o = some v → r = roundTo f m false v) ∧ (o = none → r = (qnan f, fNV))

theorem done_finish (f : Fmt) (m : RMode) (o : Option Val) : Done f m o (finish f m o) := by
  refine ⟨fun v hv => ?_, fun h => ?_⟩
  · rw [hv]
    rfl
  · rw [h]
    rfl

theorem done_fma {f : Fmt} (m : RMode) {a b c : Nat} (hna : isNan f a = false) (hnb : isNan f b = false) (hnc : isNan f c = false)
    (neg : Bool) : Done f m ((mulVal (decodeVal f a) (decodeVal f b)).bind fun p =>
      addVal m (if neg then negVal p else p) (decodeVal f c)) (fpFma f m neg a b c) := by
  have hnone : nanResult f [a, b, c] = none := nanResult_of_numbers (by simp [hna, hnb, hnc])
  cases hp : mulVal (decodeVal f a) (decodeVal f b) with
  | none =>
    rw [fpFma, hp, hnc]
    exact ⟨fun v hv => Option.noConfusion rfl (heq_of_eq hv), fun _ => rfl⟩
  | some p =>
    rw [fpFma, hp, hnone]
    exact done_finish f m _

section
variable {f : Fmt} (hf : f ∈ ieeeFmts) (m : RMode) {a b : Nat}
include hf

theorem roundTo_infinity (n : Bool) : roundTo f m false (.inf n) = (infPat f n, 0) := by
  obtain ⟨-, hspv, hsgn, -, hreal⟩ := ieee_fields f hf
  rw [roundTo, hsgn, hreal, hspv]
  simp

theorem fpDiv_by_zero (hna : isNan f a = false) (hnb : isNan f b = false) (hx : (decodeVal f a).finite) (hx0 : (decodeVal f a).exact ≠ 0)
    (hy : (decodeVal f b).finite) (hy0 : (decodeVal f b).exact = 0) :
    fpDiv f m a b = (infPat f (a.testBit (f.w - 1) ^^ b.testBit (f.w - 1)), fDZ) := by
  have hi := ieee_of_mem f hf
  obtain ⟨-, -, -, -, hdiv⟩ := binary_of_numbers m a b hna hnb
  have hsa := isNeg_decodeVal hi hna
  have hsb := isNeg_decodeVal hi hnb
  obtain ⟨n, p, q, hxv, hq⟩ := fin_of_finite hx
  obtain ⟨k, r, s, hyv, hs⟩ := fin_of_finite hy
  rw [hxv] at hx0 hsa hdiv
  rw [hyv] at hy0 hsb hdiv
  have hp : p ≠ 0 := mt (exact_fin_zero (Nat.pos_of_ne_zero hq)).2 hx0
  have hr : r = 0 := (exact_fin_zero (Nat.pos_of_ne_zero hs)).1 hy0
  have h := hdiv (.inf (n != k)) true ((if_pos hr).trans (if_neg hp))
  rw [roundTo_infinity hf] at h
  rw [h, ← hsa, ← hsb]
  exact Prod.ext (congrArg (infPat f) (congrFun₂ Bool.bne_eq_xor n k)) BitVec.zero_or

/-- An infinity with a finite operand. -/
theorem infinity_with_finite (hnb : isNan f b = false) {n : Bool} (hx : decodeVal f a = .inf n) (hy : (decodeVal f b).finite) :
    addVal m (decodeVal f a) (decodeVal f b) = some (decodeVal f a) ∧ addVal m (decodeVal f b) (decodeVal f a) = some (decodeVal f a) ∧
    ((decodeVal f b).exact = 0 → mulVal (decodeVal f a) (decodeVal f b) = none ∧ mulVal (decodeVal f b) (decodeVal f a) = none) ∧
    ((decodeVal f b).exact ≠ 0 → mulVal (decodeVal f a) (decodeVal f b) = some (.inf (n ^^ b.testBit (f.w - 1))) ∧
      mulVal (decodeVal f b) (decodeVal f a) = mulVal (decodeVal f a) (decodeVal f b)) ∧
    divVal (decodeVal f a) (decodeVal f b) = some (.inf (n ^^ b.testBit (f.w - 1)), false) ∧
    ∃ z, divVal (decodeVal f b) (decodeVal f a) = some (.fin (b.testBit (f.w - 1) ^^ n) 0 z, false) := by
  rw [← isNeg_decodeVal (ieee_of_mem f hf) hnb]
  obtain ⟨k, r, s, hyv, hs⟩ := fin_of_finite hy
  rw [hx, hyv]
  have hzero := exact_fin_zero (neg := k) (p := r) (Nat.pos_of_ne_zero hs)
  have hxor (i j : Bool) : (i != j) = (i ^^ j) := congrFun₂ Bool.bne_eq_xor i j
  refine ⟨rfl, rfl, fun h => ?_, fun h => ?_, ?_, 1, ?_⟩
  · have hr := hzero.1 h
    exact ⟨if_pos hr, if_pos hr⟩
  · have hr := mt hzero.2 h
    rw [← hxor]
    exact ⟨if_neg hr, (if_neg hr).trans (if_neg hr).symm⟩
  · rw [← hxor]
    rfl
  · rw [← hxor]
    rfl

omit hf in
theorem infinities {x y : Val} {n k : Bool} (hx : x = .inf n) (hy : y = .inf k) :
    addVal m x y = (if n = k then some x else none) ∧ mulVal x y = some (.inf (n ^^ k)) ∧ divVal x y = none := by
  rw [hx, hy]
  exact ⟨rfl, congrArg (fun i => some (Val.inf i)) (congrFun₂ Bool.bne_eq_xor n k), rfl⟩

end

/-! ### FSQRT (R110) -/

/-- The root of a number of the format, scaled to a whole number, is in the reach of the integer root. -/
theorem log2_radicand {f : Fmt} (hf : Ieee f) {p q k : Nat} {e : Int} (h : Finite f p q k e) (hp : 0 < p) :
    Nat.log2 (p * q * 4 ^ 80) < 8190 := by
  obtain ⟨j, hj, hq⟩ := h.den_eq hf
  have hlog := h.log2_num_le hf hp
  have hlt : p * q * 4 ^ 80 < 2 ^ (Nat.log2 p + 1 + j + 2 * 80) := by
    rw [Nat.pow_add, Nat.pow_mul, Nat.pow_add, hq]
    exact Nat.mul_lt_mul_of_pos_right (Nat.mul_lt_mul_of_pos_right Nat.lt_log2_self (Nat.two_pow_pos j)) (by decide)
  have hne : p * q * 4 ^ 80 ≠ 0 := Nat.mul_ne_zero (Nat.mul_ne_zero hp.ne' h.den_pos.ne') (by decide)
  have := (Nat.log2_lt hne).2 hlt
  omega

/-- The squares of the grid's points are those of whole numbers. -/
theorem grid_square {p q : Nat} (hq : 0 < q) (k : Nat) :
    (((k : ℚ) / (q * 2 ^ 80)) ^ 2 ≤ (p : ℚ) / q ↔ k * k ≤ p * q * 4 ^ 80) ∧
      (((k : ℚ) / (q * 2 ^ 80)) ^ 2 = (p : ℚ) / q ↔ k * k = p * q * 4 ^ 80) := by
  have hq' : (0 : ℚ) < q := by exact_mod_cast hq
  have hden : (0 : ℚ) < (q * 2 ^ 80) ^ 2 := by positivity
  have hval : (p : ℚ) / q = (p * q * 4 ^ 80 : Nat) / (q * 2 ^ 80) ^ 2 := by
    rw [div_eq_div_iff hq'.ne' hden.ne']
    push_cast
    ring
  rw [div_pow, hval, div_le_div_iff_of_pos_right hden, div_left_inj' hden.ne', sq]
  exact ⟨by exact_mod_cast Iff.rfl, by exact_mod_cast Iff.rfl⟩

/-- The root of a whole number over a scale where it is exact, and otherwise the middle of its neighbours. -/
def rootOver (n d : Nat) : Nat × Nat :=
  if Nat.sqrt n * Nat.sqrt n = n then (Nat.sqrt n, d) else (2 * Nat.sqrt n + 1, d * 2)

/-- It lies among the whole numbers over that scale as the root does. -/
theorem rootOver_between (n : Nat) {d : Nat} (hd : 0 < d) : 0 < (rootOver n d).2 ∧
    ∀ k : Nat, ((k : ℚ) / d ≤ ((rootOver n d).1 : ℚ) / (rootOver n d).2 ↔ k * k ≤ n) ∧
      ((k : ℚ) / d = ((rootOver n d).1 : ℚ) / (rootOver n d).2 ↔ k * k = n) := by
  have hd' : (0 : ℚ) < d := by exact_mod_cast hd
  simp only [← Nat.le_sqrt]
  unfold rootOver
  by_cases hroot : Nat.sqrt n * Nat.sqrt n = n
  · rw [if_pos hroot]
    refine ⟨hd, fun k => ?_⟩
    rw [div_le_div_iff_of_pos_right hd', div_left_inj' hd'.ne', Nat.cast_le, Nat.cast_inj]
    exact ⟨Iff.rfl, fun h => h ▸ hroot, fun h => Nat.mul_self_inj.1 (h.trans hroot.symm)⟩
  · rw [if_neg hroot]
    refine ⟨by positivity, fun k => ?_⟩
    have hhalf : (k : ℚ) / d = (2 * k : Nat) / (d * 2 : Nat) := by
      push_cast
      rw [mul_comm (2 : ℚ) k, mul_div_mul_right _ _ two_ne_zero]
    have hden : (0 : ℚ) < (d * 2 : Nat) := by positivity
    rw [hhalf, div_le_div_iff_of_pos_right hden, div_left_inj' hden.ne', Nat.cast_le, Nat.cast_inj]
    refine ⟨by omega, fun h => by omega, fun h => absurd ?_ hroot⟩
    rw [← h, Nat.sqrt_eq]

/-- The fraction that stands for the root lies among the points of the grid as the root does. -/
theorem sqrtFin_between {p q : Nat} (hq : 0 < q) (hlog : Nat.log2 (p * q * 4 ^ 80) < 8190) : 0 < (sqrtFin p q).2 ∧
    ∀ k : Nat, ((k : ℚ) / (q * 2 ^ 80) ≤ ((sqrtFin p q).1 : ℚ) / (sqrtFin p q).2 ↔ ((k : ℚ) / (q * 2 ^ 80)) ^ 2 ≤ (p : ℚ) / q) ∧
      ((k : ℚ) / (q * 2 ^ 80) = ((sqrtFin p q).1 : ℚ) / (sqrtFin p q).2 ↔ ((k : ℚ) / (q * 2 ^ 80)) ^ 2 = (p : ℚ) / q) := by
  have heq : sqrtFin p q = rootOver (p * q * 4 ^ 80) (q * 2 ^ 80) := by
    rw [rootOver, ← isqrt_eq_sqrt hlog, Nat.mul_assoc q]
    rfl
  obtain ⟨hpos, hk⟩ := rootOver_between (p * q * 4 ^ 80) (d := q * 2 ^ 80) (by positivity)
  rw [heq]
  simp only [grid_square hq]
  rw [Nat.cast_mul, Nat.cast_pow, Nat.cast_ofNat] at hk
  exact ⟨hpos, hk⟩

section
variable {f : Fmt} (hf : f ∈ ieeeFmts) (m : RMode) {a : Nat}
include hf

theorem fpSqrt_positive {p q : Nat} (hx : decodeVal f a = .fin false p q) (hp : p ≠ 0) :
    ∃ u w, fpSqrt f m a = roundTo f m false (.fin false u w) ∧ 0 < w ∧ ∀ k : Nat, let g : ℚ := (k : ℚ) / (q * 2 ^ 80)
      (g ≤ (u : ℚ) / w ↔ g ^ 2 ≤ (p : ℚ) / q) ∧ (g = (u : ℚ) / w ↔ g ^ 2 = (p : ℚ) / q) := by
  have hi := ieee_of_mem f hf
  obtain ⟨k, e, hfin⟩ := finite_decodeVal hi hx
  obtain ⟨hpos, hgrid⟩ := sqrtFin_between hfin.den_pos (log2_radicand hi hfin (Nat.pos_of_ne_zero hp))
  refine ⟨_, _, ?_, hpos, hgrid⟩
  rw [fpSqrt, nanResult_of_ne (by rw [hx]; exact Val.noConfusion), hx]
  exact (if_neg hp).trans (if_neg Bool.false_ne_true)

theorem fpSqrt_zero {n : Bool} {q : Nat} (hx : decodeVal f a = .fin n 0 q) :
    fpSqrt f m a = (if n then 2 ^ (f.w - 1) else 0, 0) := by
  obtain ⟨-, -, hsgn, -, hreal⟩ := ieee_fields f hf
  rw [fpSqrt, nanResult_of_ne (by rw [hx]; exact Val.noConfusion), hx]
  show roundTo f m false (.fin n 0 1) = _
  rw [roundTo, if_pos rfl, zero_pattern (Or.inl (floatFmt_of_ieee f hf)), hsgn, hreal, Bool.and_true, Bool.not_false, Bool.and_true]

omit hf in
theorem fpSqrt_infinity (hx : decodeVal f a = .inf false) : fpSqrt f m a = (infPat f false, 0) := by
  rw [fpSqrt, nanResult_of_ne (by rw [hx]; exact Val.noConfusion), hx]
  rfl

end

theorem floatingOperationsRule : FloatingOperationsRule := by
  refine ⟨fun f hf => ⟨maxQ_ieee hf, ieee_fields f hf⟩, ?_, ?_⟩
  · intro f hf m a b c hna hnb hnc x y done
    obtain ⟨hadd, hsub, hmul, hnodiv, hdiv⟩ := binary_of_numbers m a b hna hnb
    refine ⟨hadd ▸ done_finish f m _, hsub ▸ done_finish f m _, hmul ▸ done_finish f m _, done_fma m hna hnb hnc, fun v hv => ?_, hnodiv,
      fpDiv_by_zero hf m hna hnb, fun n hx hy => infinity_with_finite hf m hnb hx hy, fun n k => infinities m,
      fun p q hx hp => fpSqrt_positive hf m hx hp, fun n q hx => fpSqrt_zero hf m hx, fun hx => fpSqrt_infinity m hx⟩
    rw [hdiv v false hv]
    exact Prod.ext rfl BitVec.or_zero
  · intro m lo hi _ _
    refine ⟨rfl, fun n => rfl, fun neg num den _ => ?_⟩
    have hsign : signInt neg (roundGrid m neg num den 0).1 = (if neg then -1 else 1) * ((roundGrid m neg num den 0).1 : Int) := by
      cases neg <;> simp [signInt]
    rw [← hsign]
    rfl

/-- Settles O4: the multiple that a mode selects is described over the rationals, the patterns of a format stand in the order of
their numbers, and every grid point in range is the number of one. -/
theorem floatingArithmetic : Obligations.FloatingArithmetic :=
  ⟨floatingExactRule, gridRoundingRule, nanOperandsRule, roundedValuesRule, floatingOperationsRule, floatingSignsRule,
    FloatOrder.floatingOrderRule, fusedNansRule⟩

end Sys2Proof.Proofs.FloatOperations
end
